-- ==== Sys2Proof/Word.lean ====
section
/-! DEFINITION. The words of the Vilrov V4: bytes, 32-bit register elements, 64-bit scalars and
instruction words (R44), lane masks and addresses. -/

namespace Sys2Proof

/-- A byte of memory. -/
abbrev Byte := BitVec 8
/-- One element of a vector register: 32 bits in one lane. -/
abbrev Elem := BitVec 32
/-- A scalar register, an instruction word or a generic address. -/
abbrev Word64 := BitVec 64

/-- The name of a wave: the number of its grid, its linear team index and its wave index. -/
structure WKey where
  grid : Nat
  team : Nat
  wave : Nat
  deriving DecidableEq, Repr

end Sys2Proof
end

