-- ==== Sys2Proof/Config.lean ====
section
/-! DEFINITION. What one V4 fixes (chapter "The Vilrov V4 at a glance") and the values that the
specification leaves open. The open values are opaque constants: nothing can be proved of them. -/

namespace Sys2Proof.Config

/-- ZW dies of a package. -/
def dies : Nat := 4
/-- Cores of one die, the Ringmaster core included. -/
def coresPerDie : Nat := 128
/-- Cores of the device. -/
def cores : Nat := 512
/-- Resident waves of a core (R24). -/
def wavesPerCore : Nat := 64
/-- Issue slots of a core (R24). -/
def slotsPerCore : Nat := 16
/-- Units of 4 KiB of a core's vector register file (R26). -/
def unitsPerCore : Nat := 128
/-- Accumulator tiles of a core (R166). -/
def tilesPerCore : Nat := 64
/-- Bytes of one core's scratchpad. -/
def scratchBytes : Nat := 0xC0000
/-- The count at which another `vpc` value is issued in place of the lowest (R20). -/
def overrideBound : Nat := 1024
/-- Ticks by which a release waits past `$wct` (R225: ZW dies agree within 2 ticks each way). -/
def gtcMargin : Nat := 4

/-- FREE VALUES. `free n k` is the `k`-th 64-bit word of the `n`-th unpredictable value that the
machine has met (R2). `State.freeCtr` counts them. -/
opaque free : Nat → Nat → BitVec 64

/-- FREE VALUE. The promise that the copy engine estimates for a transfer of the given length
accepted at the given time (R217: the estimate is not architectural). -/
opaque copyEstimate : Nat → Nat → Nat

/-- FREE VALUE. The bytes that the checkpoint of a grid with the given number of teams takes (R297: the layout of a
checkpoint is not given). -/
opaque checkpointBytes : Nat → Nat

/-- What a configuration image holds (R389). -/
structure ConfigImage where
  devNum : Nat
  podSize : Nat
  ports : List (Nat × Nat)
  dieLocal : Bool
  ringmaster : List Nat
  replay : List (Nat × Nat)
  certs : List Byte
  deriving DecidableEq, Repr, Inhabited

/-- FREE VALUE. What the bytes of a configuration image say (R389: the layout of the image is not given). -/
opaque configImage : List Byte → ConfigImage

/-- FREE VALUE. The digest of the boot ROM (R395: its bytes are not given). -/
opaque romDigest : List Byte

/-- FREE VALUE. The public key of the device's identity (R395: each V4 has one of its own). -/
opaque identityKey : List Byte

end Sys2Proof.Config
end

