-- ==== Sys2Proof/Syntax.lean ====
section
/-! DEFINITION. The instructions and events of the Vilrov V4: one constructor of `Instr` for each row of
the opcode table. The operands of a word are the fields of its format (R56 to R63), at their encoded
widths. A row without a word is an event of the device or of its environment; its arguments say where
it happens and what the environment brings. -/

namespace Sys2Proof

/-- The type codes of formats A, B and S (R52). -/
inductive Ty where
  | u32 | s32 | u64 | s64 | f32 | f64 | f16 | bf16
  deriving DecidableEq, Repr

/-- Format A, three vector registers (R56). -/
structure FmtA where
  g : BitVec 5
  vd : BitVec 10
  va : BitVec 10
  vb : BitVec 10
  ma : Bool
  mb : Bool
  ty : Ty
  minor : BitVec 8
  rnd : BitVec 3
  sat : Bool
  p : Bool
  deriving DecidableEq, Repr

/-- Format B, four vector registers (R57). -/
structure FmtB where
  g : BitVec 5
  vd : BitVec 10
  va : BitVec 10
  vb : BitVec 10
  vc : BitVec 10
  ma : Bool
  mb : Bool
  mc : Bool
  ty : Ty
  rnd : BitVec 2
  p : Bool
  minor : BitVec 2
  deriving DecidableEq, Repr

/-- Format D, move immediate (R58). `rd` is vd, or sd in its low seven bits. -/
structure FmtD where
  g : BitVec 5
  rd : BitVec 10
  minor : BitVec 4
  p : Bool
  imm : BitVec 32
  deriving DecidableEq, Repr

/-- Format S, scalar (R59). -/
structure FmtS where
  g : BitVec 5
  sd : BitVec 7
  sa : BitVec 7
  sb : BitVec 7
  ma : Bool
  mb : Bool
  ty : Ty
  minor : BitVec 5
  i : Bool
  imm : BitVec 19
  deriving DecidableEq, Repr

/-- Format SV, moves between vector and scalar registers (R59). `sr` is the scalar register, `vr` the
vector register. -/
structure FmtSV where
  g : BitVec 5
  sr : BitVec 7
  vr : BitVec 10
  m : Bool
  p : Bool
  ty : Ty
  minor : BitVec 5
  lane : BitVec 6
  deriving DecidableEq, Repr

/-- Format M, memory (R60), and its fabric form (R311). `base` is va, or sa in its
high seven bits with the low three zero. -/
structure FmtM where
  g : BitVec 5
  rd : BitVec 10
  base : BitVec 10
  scalar : Bool
  m : Bool
  width : BitVec 3
  space : BitVec 2
  cache : BitVec 2
  scope : BitVec 2
  off : BitVec 20
  deriving DecidableEq, Repr

/-- Format J, control (R61). -/
structure FmtJ where
  g : BitVec 5
  reg : BitVec 10
  m : Bool
  k : BitVec 3
  off : BitVec 32
  deriving DecidableEq, Repr

/-- Format X, matrix (R62). `vb` is the B base, or the handle register in its high seven
bits with the low three zero (R169). -/
structure FmtX where
  g : BitVec 5
  va : BitVec 10
  vb : BitVec 10
  acc : BitVec 7
  cv : BitVec 3
  shape : BitVec 5
  fa : BitVec 4
  fb : BitVec 4
  fc : BitVec 4
  ma : Bool
  mb : Bool
  z : Bool
  deriving DecidableEq, Repr

/-- `grow` and `shrink` (R104). -/
structure FmtGrow where
  g : BitVec 5
  pd : BitVec 7
  try_ : Bool
  n : BitVec 4
  deriving DecidableEq, Repr

/-- `sortk` (R38). -/
structure FmtSort where
  g : BitVec 5
  va : BitVec 10
  ma : Bool
  desc : Bool
  mask : BitVec 16
  deriving DecidableEq, Repr

/-- `atom` and `red` (R234), and `fatom` (R313), whose order and scope are zero. -/
structure FmtAtom where
  g : BitVec 5
  vd : BitVec 10
  base : BitVec 10
  scalar : Bool
  vb : BitVec 10
  ma : Bool
  mb : Bool
  op : BitVec 5
  wide : Bool
  order : BitVec 2
  scope : BitVec 3
  deriving DecidableEq, Repr

/-- `fence` (R231). -/
structure FmtFence where
  g : BitVec 5
  order : BitVec 2
  scope : BitVec 3
  deriving DecidableEq, Repr

/-- `mon` (R239) and `tlbi` (R207): one scalar source. -/
structure FmtSrc where
  g : BitVec 5
  sa : BitVec 7
  ma : Bool
  deriving DecidableEq, Repr

/-- `mwait` (R240) and `cpyw` (R220): one scalar destination and one scalar source. -/
structure FmtDstSrc where
  g : BitVec 5
  sd : BitVec 7
  sa : BitVec 7
  ma : Bool
  deriving DecidableEq, Repr

/-- The Turnstile instructions (R243). -/
structure FmtBar where
  g : BitVec 5
  sa : BitVec 7
  ma : Bool
  n : BitVec 6
  deriving DecidableEq, Repr

/-- `cvdecl` (R158), `rngk` (R257) and `cbrj` (R262): a scalar source and a number of three bits. -/
structure FmtKey where
  g : BitVec 5
  sa : BitVec 7
  ma : Bool
  k : BitVec 3
  deriving DecidableEq, Repr

/-- `mmaw` (R172). -/
structure FmtCv where
  g : BitVec 5
  k : BitVec 3
  deriving DecidableEq, Repr

/-- An instruction with a guard and no operand. -/
structure FmtG where
  g : BitVec 5
  deriving DecidableEq, Repr

/-- `accld`, `accst` and `acczero` (R173). `reg` is vd, or sa in its low seven bits. -/
structure FmtTile where
  g : BitVec 5
  reg : BitVec 10
  m : Bool
  sc : BitVec 7
  sb : BitVec 7
  acc : BitVec 7
  fmt : BitVec 4
  scale : Bool
  sat : Bool
  off : BitVec 12
  deriving DecidableEq, Repr

/-- `trec` (R185). -/
structure FmtTrec where
  g : BitVec 5
  sa : BitVec 7
  ma : Bool
  rec_ : BitVec 5
  off : BitVec 20
  deriving DecidableEq, Repr

/-- `qblk`, `dqblk` and `hadm` (R189). -/
structure FmtQblk where
  g : BitVec 5
  sa : BitVec 7
  ma : Bool
  sb : BitVec 7
  mb : Bool
  dst : BitVec 5
  src : BitVec 5
  flag : Bool
  deriving DecidableEq, Repr

/-- `sclq` (R188). -/
structure FmtSclq where
  g : BitVec 5
  vd : BitVec 10
  va : BitVec 10
  vb : BitVec 10
  ma : Bool
  mb : Bool
  fmt : BitVec 4
  deriving DecidableEq, Repr

/-- `vldt` and `vstt` (R194). -/
structure FmtVldt where
  g : BitVec 5
  reg : BitVec 10
  sa : BitVec 7
  ma : Bool
  sb : BitVec 7
  mb : Bool
  rec_ : BitVec 5
  md : Bool
  deriving DecidableEq, Repr

/-- `cpy` and `cpys` (R215), and `tlbw` (R206), whose destination field is zero. -/
structure FmtCpy where
  g : BitVec 5
  sd : BitVec 7
  sa : BitVec 7
  sb : BitVec 7
  sc : BitVec 7
  ma : Bool
  mb : Bool
  mc : Bool
  deriving DecidableEq, Repr

/-- `pbsel` (R252). -/
structure FmtPbsel where
  g : BitVec 5
  n : BitVec 10
  deriving DecidableEq, Repr

/-- `accept` (R253). -/
structure FmtAccept where
  g : BitVec 5
  va : BitVec 10
  vb : BitVec 10
  ma : Bool
  mb : Bool
  expl : Bool
  deriving DecidableEq, Repr

/-- `pbcnt` (R254). -/
structure FmtVd where
  g : BitVec 5
  vd : BitVec 10
  deriving DecidableEq, Repr

/-- `rng` (R259). -/
structure FmtRng where
  g : BitVec 5
  vd : BitVec 10
  k : BitVec 3
  form : BitVec 2
  p : Bool
  deriving DecidableEq, Repr

/-- `cbr` (R263). -/
structure FmtCbr where
  g : BitVec 5
  pn : BitVec 4
  or_ : Bool
  t : Bool
  k : BitVec 3
  off : BitVec 32
  deriving DecidableEq, Repr

/-- `creduce` (R336). -/
structure FmtCred where
  g : BitVec 5
  sa : BitVec 7
  sb : BitVec 7
  sc : BitVec 7
  ma : Bool
  mb : Bool
  mc : Bool
  k : BitVec 3
  kind : BitVec 2
  op : BitVec 2
  fmt : BitVec 4
  deriving DecidableEq, Repr

/-- `trap` (R280). -/
structure FmtTrap where
  g : BitVec 5
  imm : BitVec 16
  deriving DecidableEq, Repr

/-- `brk` (R283). -/
structure FmtBrk where
  g : BitVec 5
  sa : BitVec 7
  ma : Bool
  k : BitVec 2
  deriving DecidableEq, Repr

/-- `rdsr` (R298). `rd` is vd, or sd in its low seven bits. -/
structure FmtRdsr where
  g : BitVec 5
  rd : BitVec 10
  vec : Bool
  num : BitVec 16
  deriving DecidableEq, Repr

/-- `wrsr` (R298). -/
structure FmtWrsr where
  g : BitVec 5
  sa : BitVec 7
  ma : Bool
  num : BitVec 16
  deriving DecidableEq, Repr

/-- `wsw` (R284). -/
structure FmtWsw where
  g : BitVec 5
  sd : BitVec 7
  sa : BitVec 7
  sb : BitVec 7
  ma : Bool
  mb : Bool
  deriving DecidableEq, Repr

/-- `migrate` (R295). -/
structure FmtMig where
  g : BitVec 5
  sd : BitVec 7
  sa : BitVec 7
  sb : BitVec 7
  ma : Bool
  mb : Bool
  named : Bool
  deriving DecidableEq, Repr

/-- `qpush` (R365). -/
structure FmtQpush where
  g : BitVec 5
  sa : BitVec 7
  sb : BitVec 7
  sc : BitVec 7
  ma : Bool
  mb : Bool
  mc : Bool
  try_ : Bool
  pd : BitVec 4
  deriving DecidableEq, Repr

/-- `qpop` (R366). -/
structure FmtQpop where
  g : BitVec 5
  vd : BitVec 10
  sa : BitVec 7
  sb : BitVec 7
  ma : Bool
  mb : Bool
  pd : BitVec 4
  deriving DecidableEq, Repr

/-- `dtk` (R384). -/
structure FmtDtk where
  g : BitVec 5
  va : BitVec 10
  vb : BitVec 10
  ma : Bool
  mb : Bool
  deriving DecidableEq, Repr

/-- What a fabric request asks of its target (R312, R314). `load` names the bytes to read, `store` the
bytes to write, `atomic` an operation code of R235, its width, its address, its operand and, for `.cas`,
the new value. -/
inductive FabKind where
  | load (addrs : List Nat)
  | store (bytes : List (Nat × Byte))
  | atomic (op : Nat) (wide : Bool) (addr : Nat) (v v2 : Word64)
  deriving DecidableEq, Repr

/-- A request packet on the fabric (R310, R312, R322). -/
structure FabReq where
  src : Nat
  dst : Nat
  core : Nat
  from_ : WKey
  tag : Nat
  inc : Nat
  key : Nat
  contract : Nat
  cmix : Bool
  deadline : Nat
  interval : Nat
  replay : Bool
  /-- sent by a collective run-ahead (R267) -/
  spec : Bool
  kind : FabKind
  deriving DecidableEq, Repr

/-- What a response packet brings back (R315, R324). `data` carries bytes by fabric address, and says whether a
granule of them is poisoned, which reads as zero; `mix` says that a stamp differed under a masked trap; `error`
carries the cause and the stamp of the page. -/
inductive FabResult where
  | data (bytes : List (Nat × Byte)) (poisoned mix : Bool)
  /-- a load that reads poisoned granules under policy 0 or 1: the bytes, and those of them that are poisoned (R325) -/
  | partly (bytes : List (Nat × Byte)) (bad : List Nat) (mix : Bool)
  | ack (mix : Bool)
  | old (v : Word64) (mix : Bool)
  | error (cause : Nat) (stamp : Nat)
  /-- a count reply: the device that answers, the wave, its interval, the counts sent and received (R318) -/
  | count (dev : Nat) (w : WKey) (interval sent received : Nat)
  /-- the target declines a speculative load (R267) -/
  | declined
  deriving DecidableEq, Repr

/-- The members whose part in a collective branch another device sends: the rank, with the vote and whether the
operation is `.or`, or nothing where the member has exited. -/
abbrev ForeignVotes := List (Nat × Option (Bool × Bool))

/-- A contribution of another device to a collective reduction: rank, kind, op, type, count, bytes; or the word
that the member has exited. -/
structure ForeignContrib where
  rank : Nat
  exited : Bool
  kind : Nat
  op : Nat
  fmt : Nat
  count : Nat
  bytes : List Byte
  deriving DecidableEq, Repr

/-- Where an uncorrectable error strikes (R201, R211): a byte of memory, an element of a vector register of a
wave, an element of an accumulator tile of a core. -/
inductive ErrSite where
  | mem (addr : Nat)
  | scr (core off : Nat)
  | reg (w : WKey) (lane r : Nat)
  | tile (core k elem : Nat)
  deriving DecidableEq, Repr

/-- A page fault outside a batch: of a copy slot of a wave, of a fabric request that waits at this target, of the
write of a trap record (R218, R275, R310). -/
inductive FaultSite where
  | copy (w : WKey) (q : Nat)
  | fabric (k : Nat)
  | record (w : WKey)
  deriving DecidableEq, Repr

/-- A request of the PLDM type 2 terminus (R394). -/
inductive PldmReq where
  | sensor (id : Nat)
  | state
  | events
  deriving DecidableEq, Repr

/-- A step of a firmware update, by PLDM type 5 or through the recovery window (R391, R393). -/
inductive UpdateStep where
  /-- begin with an image of the copy: the configuration image, or the firmware -/
  | start (config : Bool)
  | data (bytes : List Byte)
  | finish (signed : Bool) (version : Nat)
  deriving DecidableEq, Repr

/-- One constructor per row of the opcode table: the instructions, then (after each family) the events
that the table lists without a word. -/
inductive Instr where
  -- vector integer and lane operations (R64)
  | vadd (f : FmtA) | vsub (f : FmtA) | vaddc (f : FmtA) | vmul (f : FmtA) | vmulh (f : FmtA)
  | vmad (f : FmtB) | vmin (f : FmtA) | vmax (f : FmtA) | vabsd (f : FmtA)
  | vand (f : FmtA) | vor (f : FmtA) | vxor (f : FmtA) | vnot (f : FmtA)
  | vshl (f : FmtA) | vshr (f : FmtA) | vsar (f : FmtA) | vrot (f : FmtA)
  | vclz (f : FmtA) | vpopc (f : FmtA) | vbrev (f : FmtA)
  | vext (f : FmtB) | vins (f : FmtB) | vsel (f : FmtB) | vcmp (f : FmtA)
  | vmov (f : FmtA) | vmovi (f : FmtD) | vshfl (f : FmtB) | vbcast (f : FmtA)
  | vvote (f : FmtA) | vscan (f : FmtA) | vred (f : FmtA) | vcompact (f : FmtA)
  -- scalar (R65)
  | sadd (f : FmtS) | ssub (f : FmtS) | smul (f : FmtS) | smad (f : FmtS)
  | sand (f : FmtS) | sor (f : FmtS) | sxor (f : FmtS)
  | sshl (f : FmtS) | sshr (f : FmtS) | ssar (f : FmtS) | smov (f : FmtS)
  | smovi (f : FmtD) | scmp (f : FmtS) | vtos (f : FmtSV) | stov (f : FmtSV)
  -- floating point, conversion, functions (R66)
  | fadd (f : FmtA) | fsub (f : FmtA) | fmul (f : FmtA) | ffma (f : FmtB)
  | fmin (f : FmtA) | fmax (f : FmtA) | fcmp (f : FmtA) | fclass (f : FmtA)
  | fround (f : FmtA) | fscale (f : FmtA) | fexp (f : FmtA) | fman (f : FmtA)
  | fcvt (f : FmtA) | fcvti (f : FmtA) | icvtf (f : FmtA)
  | fex2 (f : FmtA) | flg2 (f : FmtA) | frcp (f : FmtA) | frsq (f : FmtA) | fsqrt (f : FmtA)
  | fsin2 (f : FmtA) | fcos2 (f : FmtA)
  | fdot2 (f : FmtB) | hadd2 (f : FmtA) | hmul2 (f : FmtA) | hfma2 (f : FmtB) | fstat (f : FmtA)
  -- control (R67)
  | br (f : FmtJ) | brd (f : FmtJ) | call (f : FmtJ) | ret (f : FmtJ)
  | join (f : FmtJ) | joinAct (f : FmtJ) | wait (f : FmtJ) | exit (f : FmtJ)
  -- memory (R67)
  | ld (f : FmtM) | st (f : FmtM) | sld (f : FmtM) | sst (f : FmtM) | lda (f : FmtM) | pf (f : FmtM)
  | loadDataReturn (w : WKey) (k : Nat)
  -- allotment and threads (R104, R38, R20, R25)
  | grow (f : FmtGrow)
  | growUnitsFreed (core : Nat)
  | shrink (f : FmtGrow)
  | sortk (f : FmtSort)
  | issueOverride
  | issueSlotGrant (core : Nat)
  -- atomics, fences, monitor, Turnstile
  | atom (f : FmtAtom) | red (f : FmtAtom) | fence (f : FmtFence)
  | writeAcknowledgement (w : WKey) (k lo len : Nat)
  | mon (f : FmtSrc) | mwait (f : FmtDstSrc)
  | monitorTrigger (w : WKey)
  | mwaitDeadline (w : WKey)
  | barr (f : FmtBar) | barw (f : FmtBar) | bara (f : FmtBar) | bmask (f : FmtBar)
  -- matrix engine
  | cvdecl (f : FmtKey) | mma (f : FmtX) | mmas (f : FmtX)
  | mmaOperationComplete (core k : Nat)
  | convergenceTimeout (grid team cv : Nat)
  | mmaw (f : FmtCv) | orf (f : FmtG) | spfence (f : FmtG)
  | accld (f : FmtTile) | accst (f : FmtTile) | accstReg (f : FmtTile) | acczero (f : FmtTile)
  | engineEntryComplete (core k : Nat)
  -- tensor records and quantisation
  | trec (f : FmtTrec) | rfence (f : FmtG)
  | qblk (f : FmtQblk) | dqblk (f : FmtQblk) | hadm (f : FmtQblk)
  | sclq (f : FmtSclq) | vldt (f : FmtVldt) | vstt (f : FmtVldt)
  -- copy engine, translation
  | cpy (f : FmtCpy) | cpys (f : FmtCpy)
  | copyTransferStart (w : WKey) (q : Nat)
  | copyComplete (w : WKey) (q : Nat)
  | cpyw (f : FmtDstSrc) | cpywWait (f : FmtDstSrc) | cpywRe (f : FmtDstSrc)
  | copyPromiseWake (w : WKey)
  | tlbw (f : FmtCpy) | tlbiVa (f : FmtSrc) | tlbiAsid (f : FmtSrc) | tlbiAll (f : FmtSrc)
  | tlbMissWalk (core : Nat)
  | hostTlbFill (core : Nat) (sa w0 w1 : Word64)
  | pageFaultBatchResolved (w : WKey) (ok : Bool)
  | uncorrectableError (site : ErrSite)
  | hostMemoryAccess (addr len : Nat) (data : Option (List Byte))
  -- proposals, streams, collectives
  | pbsel (f : FmtPbsel) | accept (f : FmtAccept) | pbclr (f : FmtG) | pbcnt (f : FmtVd)
  | rng (f : FmtRng) | rngk (f : FmtKey) | cbrj (f : FmtKey) | cbr (f : FmtCbr)
  | cbrOutcome (slot gen : Nat) (foreign : ForeignVotes)
  | collectiveStall (w : WKey) (k : Nat)
  | memberLost (slot rank : Nat)
  | creduce (f : FmtCred)
  | creduceGenerationComplete (slot gen : Nat) (foreign : List ForeignContrib)
  | creduceStall (w : WKey)
  -- scale-up fabric
  | fld (f : FmtM) | fst (f : FmtM) | fatom (f : FmtAtom) | ffence (f : FmtG)
  | fabricRequestArrival (r : FabReq)
  | fabricCountQuery (src : Nat) (from_ : WKey) (interval sent : Nat) (replayed : Bool)
  | fabricResponse (core tag inc : Nat) (res : FabResult)
  | fabricWaitNotice (core tag inc : Nat)
  | fabricRequestTimeout (core tag : Nat)
  | linkFailure (dev : Nat)
  | deviceLeavesPod (dev : Nat)
  -- system
  | nop (f : FmtG) | trap (f : FmtTrap) | brk (f : FmtBrk) | sret (f : FmtG) | sretEsc (f : FmtG)
  | faultServiceDecision (w : WKey) (resume : Bool)
  | rdsr (f : FmtRdsr) | wrsr (f : FmtWrsr) | wsw (f : FmtWsw) | migrate (f : FmtMig)
  -- queues
  | qpush (f : FmtQpush) | qpop (f : FmtQpop) | qpopO (f : FmtQpop)
  | qpopDeadline (w : WKey)
  | qdone (f : FmtG)
  | taskTurnsNonspeculative (w : WKey)
  | dtk (f : FmtDtk) | dtkEnd (f : FmtDtk)
  -- launch and scheduling
  | launch (q i : Nat)
  | teamPlacement (core : Nat)
  | teamResume (grid team core : Nat)
  | gridCompletion (grid : Nat)
  | feedAppend (q i : Nat)
  | communicatorSetUp (q i : Nat) (foreign : List (Nat × Word64))
  | communicatorRelease (q i : Nat)
  | determinismLevel (q i : Nat)
  | token (q i : Nat)
  | powerClass (q i : Nat)
  | gridCheckpoint (q i : Nat)
  | gridRestore (q i : Nat)
  | gridEnd (q i : Nat)
  | unknownPacketKind (q i : Nat)
  | doorbell (v : Word64)
  | writeIndexNotice (q : Nat)
  | quantumSwap (die : Nat) (set : List Nat)
  | headroomUpdate (core : Nat) (temps : List Int) (watts : Nat)
  | registerWrite (off : Nat) (v : Word64)
  -- Barker
  | bkvocLoad (slot : Nat) (addr : Word64)
  | bkcntRead (k : Nat)
  | barkerRequest (conn port : Nat) (rud : Bool) (msg : List Byte)
  | barkerFeedAppend (feed : Nat)
  | rudRmaWrite (conn addr : Nat) (bytes : List Byte)
  | replyFlushTimer
  | connectionEnd (conn : Nat)
  | portLinkChange (port : Nat) (up : Bool)
  -- power, boot and management
  | boot (err : Nat) (present : List Nat)
  | p1Wake
  | mainPowerDown (forced : Bool)
  | mainPowerUp
  | pldmMonitoring (req : PldmReq)
  | pldmFirmwareUpdate (step : UpdateStep)
  | spdmRequest (idx : Nat)
  | recoveryWindowWrite (copy : Nat) (step : UpdateStep)
  -- waits and resolutions
  | releasePoint (w : WKey)
  | pageFaultResolved (site : FaultSite) (ok : Bool)
  | fabricLinkRestored (dev : Nat) (v3 : Bool)
  | hostLinkChange (up : Bool)
  | vstbyRailChange (up : Bool)
  | replyBufferFreed (stream n : Nat)
  | vocabularyLoadComplete (slot : Nat)
  deriving DecidableEq, Repr

end Sys2Proof
end

