-- ==== Sys2Proof/WellFormed.lean ====
section
/-! DEFINITION. The words that are instructions (R54, R56 to R69 and each instruction's own encoding):
`Instr.wellFormed` holds of exactly the operand fields that the specification allows. What depends on the
width of the wave or on the grid's contract (R59, R86, R124) is checked at issue, in Machine/Ops.lean. An
event has no word and is not well formed as one. -/

namespace Sys2Proof

/-- The type is 64 bits wide: its vector operands are even pairs (R52, R54). -/
def Ty.wide : Ty → Bool
  | .u64 | .s64 | .f64 => true
  | .u32 | .s32 | .f32 | .f16 | .bf16 => false

/-- The types "I" of the opcode map. -/
def Ty.isInt : Ty → Bool
  | .u32 | .s32 | .u64 | .s64 => true
  | .f32 | .f64 | .f16 | .bf16 => false

/-- The types "U". -/
def Ty.isUns : Ty → Bool
  | .u32 | .u64 => true
  | .s32 | .s64 | .f32 | .f64 | .f16 | .bf16 => false

/-- The types "F". -/
def Ty.isFlt : Ty → Bool
  | .f32 | .f64 => true
  | .u32 | .s32 | .u64 | .s64 | .f16 | .bf16 => false

/-- The types "H". -/
def Ty.isHalf : Ty → Bool
  | .f16 | .bf16 => true
  | .u32 | .s32 | .u64 | .s64 | .f32 | .f64 => false

/-- An even register number where `need` holds (R54). -/
def evenIf (need : Bool) (r : BitVec n) : Bool := !need || r.toNat % 2 == 0
/-- A scalar register in a ten-bit field (R54). -/
def sreg10 (r : BitVec 10) : Bool := r.toNat < 128
/-- A predicate destination: `p15` cannot be written (R54). -/
def pdst (r : BitVec n) : Bool := r.toNat < 15

/-- Format A with three vector operands of the type; the amount or index in vb stays one register when
`amt` holds (R73). -/
def wfA3 (f : FmtA) (ty : Bool) (amt : Bool) (minor : Bool) (rnd sat p : Bool) : Bool :=
  ty && minor && evenIf f.ty.wide f.vd && evenIf f.ty.wide f.va && evenIf (f.ty.wide && !amt) f.vb &&
  (if rnd then f.rnd.toNat < 4 else f.rnd == 0) && (sat || !f.sat) && (p || !f.p)

/-- Format A with a destination and one vector source. -/
def wfA2 (f : FmtA) (ty : Bool) (wd wa : Bool) (rnd p : Bool) : Bool :=
  ty && f.vb == 0 && !f.mb && evenIf wd f.vd && evenIf wa f.va &&
  (if rnd then f.rnd.toNat < 4 else f.rnd == 0) && !f.sat && (p || !f.p)

/-- Format B with the given operand widths. -/
def wfB (f : FmtB) (ty : Bool) (wd wa wb wc : Bool) (rnd : Bool) (minor : Bool) : Bool :=
  ty && minor && evenIf wd f.vd && evenIf wa f.va && evenIf wb f.vb && evenIf wc f.vc && (rnd || f.rnd == 0)

/-- A compare of format A: pd in the vd field (R80, R137). -/
def wfCmp (f : FmtA) (ty : Bool) (minor : Bool) : Bool :=
  ty && minor && pdst f.vd && evenIf f.ty.wide f.va && evenIf f.ty.wide f.vb &&
  f.rnd == 0 && !f.sat && !f.p

/-- Format S. `imm` says whether the immediate form is accepted (R65). -/
def wfS (f : FmtS) (ty : Bool) (two : Bool) : Bool :=
  ty && f.minor == 0 &&
  (if two then (if f.i then f.sb == 0 && !f.mb else f.imm == 0)
   else !f.i && f.imm == 0 && f.sb == 0 && !f.mb)

/-- Source formats of `fcvt` for a destination format, by the codes of R53 (R142). -/
def fcvtSources (dst : Nat) : List Nat :=
  match dst with
  | 0x0 => [0x1, 0x2, 0x3, 0xF]
  | 0x1 => [0x2, 0x3, 0x4, 0x5, 0x6, 0x0, 0xF]
  | 0x2 => [0x4, 0x5, 0x0, 0x1, 0x3]
  | 0x3 => [0x4, 0x5, 0x0, 0x1, 0x2]
  | 0x4 | 0x5 => [0x1, 0x2, 0x3]
  | 0x6 => [0x1, 0x3]
  | 0xF => [0x1, 0x0]
  | _ => []

/-- The format occupies a pair of registers. -/
def fmtWide (c : Nat) : Bool := c == 0x0 || c == 0xD || c == 0xE || c == 0xF
/-- The destination code of a conversion: minor [7:4], which is [15:12] of the word. -/
def cvtDst (f : FmtA) : Nat := f.minor.toNat / 16
/-- The source code of a conversion: minor [3:0], which is [11:8] of the word. -/
def cvtSrc (f : FmtA) : Nat := f.minor.toNat % 16

/-- Common part of the conversions. -/
def wfCvt (f : FmtA) : Bool :=
  f.ty == .u32 && f.vb == 0 && !f.mb && evenIf (fmtWide (cvtDst f)) f.vd && evenIf (fmtWide (cvtSrc f)) f.va

/-- The data registers of an access of format M (R54, R97). -/
def wfData (f : FmtM) : Bool :=
  match f.width.toNat with
  | 0 | 1 | 2 => true
  | 3 => f.rd.toNat % 2 == 0
  | 4 => f.rd.toNat % 4 == 0
  | _ => false

/-- The base of an access (R60): an even pair, or a scalar register in the high seven bits of the field
with its low three bits zero. -/
def wfBase (scalar : Bool) (base : BitVec 10) : Bool :=
  if scalar then base.toNat % 8 == 0 else base.toNat % 2 == 0

/-- Operation codes of R235 that every atomic accepts. -/
def atomOpOk (op : Nat) : Bool := op < 10 || op == 0x10 || op == 0x11 || op == 0x12

/-- Registers of an atomic (R235). -/
def wfAtomRegs (f : FmtAtom) (result : Bool) : Bool :=
  wfBase f.scalar f.base && atomOpOk f.op.toNat &&
  (if result then evenIf f.wide f.vd else f.vd == 0) &&
  (if f.op.toNat == 9 then (!f.wide || f.vb.toNat % 4 == 0) else evenIf f.wide f.vb)

/-- The combinations of formats of R62, with the k of the shape. -/
def mmaFormats (fa fb fc : Nat) : Option Nat :=
  if fa == 2 && fb == 2 && fc == 15 then some 16
  else if fa == 3 && fb == 3 && fc == 15 then some 16
  else if (fa == 4 || fa == 5) && (fb == 4 || fb == 5) && fc == 15 then some 32
  else if (fa == 4 || fa == 5 || fa == 3) && fb == 6 && fc == 15 then some 32
  else if (fa == 7 || fa == 8) && (fb == 7 || fb == 8) && fc == 11 then some 32
  else if fa == 0 && fb == 0 && fc == 0 then some 4
  else none

/-- Rows, columns and k of a shape code (R62). -/
def mmaShape (c : Nat) : Option (Nat × Nat) :=
  match c with
  | 0x00 => some (64, 16)
  | 0x01 => some (64, 32)
  | 0x02 => some (64, 4)
  | 0x08 => some (32, 16)
  | 0x09 => some (32, 32)
  | 0x0A => some (32, 4)
  | _ => none

/-- Shape, formats and tile of a matrix word. -/
def wfX (f : FmtX) : Bool :=
  f.acc.toNat < 64 && (f.fc.toNat != 0 || f.acc.toNat % 2 == 0) &&
  (match mmaFormats f.fa.toNat f.fb.toNat f.fc.toNat, mmaShape f.shape.toNat with
   | some k, some (_, k') => k == k'
   | _, _ => false)

/-- Formats that are float, by the codes of R53. -/
def fmtFloat (c : Nat) : Bool := c < 7 || c == 15

/-- Fields common to the tile instructions (R173). -/
def wfTileTop (f : FmtTile) : Bool :=
  f.acc.toNat < 64 && (f.fmt.toNat != 0 || f.acc.toNat % 2 == 0)

/-- Every word that is an instruction, by its operand fields. -/
def Instr.wellFormed : Instr → Bool
  | .vadd f | .vsub f | .vmul f => wfA3 f f.ty.isInt false (f.minor == 0) false true true
  | .vaddc f => wfA3 f (f.ty == .u32) false (f.minor.toNat < 15) false false true
  | .vmulh f => wfA3 f (f.ty == .u32 || f.ty == .s32) false (f.minor == 0) false false true
  | .vmad f => wfB f f.ty.isInt f.ty.wide f.ty.wide f.ty.wide f.ty.wide false (f.minor == 0)
  | .vmin f | .vmax f | .vabsd f => wfA3 f f.ty.isInt false (f.minor == 0) false false true
  | .vand f | .vor f | .vxor f => wfA3 f f.ty.isUns false (f.minor == 0) false false true
  | .vnot f | .vclz f | .vpopc f | .vbrev f =>
    wfA2 f (f.ty.isUns && f.minor == 0) f.ty.wide f.ty.wide false true
  | .vshl f | .vshr f => wfA3 f f.ty.isUns true (f.minor == 0) false false true
  | .vsar f => wfA3 f (f.ty == .s32 || f.ty == .s64) true (f.minor == 0) false false true
  | .vrot f => wfA3 f f.ty.isUns true (f.minor.toNat < 2) false false true
  | .vext f => wfB f (f.ty == .u32 || f.ty == .s32) false false false false false (f.minor == 0)
  | .vins f => wfB f (f.ty == .u32) false false false false false (f.minor == 0)
  | .vsel f => wfB f f.ty.isUns f.ty.wide f.ty.wide f.ty.wide f.ty.wide false (f.minor == 0)
  | .vcmp f => wfCmp f f.ty.isInt (f.minor.toNat < 6)
  | .vmov f => wfA2 f (f.ty.isUns && f.minor == 0) f.ty.wide f.ty.wide false true
  | .vmovi f => f.minor == 0
  | .vshfl f => wfB f f.ty.isUns f.ty.wide f.ty.wide false false false true && sreg10 f.vc
  | .vbcast f => f.ty.isUns && f.minor == 0 && evenIf f.ty.wide f.vd && evenIf f.ty.wide f.va && sreg10 f.vb &&
      f.rnd == 0 && !f.sat
  | .vvote f => f.ty == .u32 && f.minor.toNat < 4 && f.va.toNat < 16 && sreg10 f.vb && !f.ma &&
      f.rnd == 0 && !f.sat && (f.minor == 2 || (pdst f.vd && !f.p))
  | .vscan f => wfA3 { f with vb := 0 } (f.ty.isInt || f.ty.isFlt) true
      (f.minor.toNat < 16 && (f.minor.toNat % 8 < 3 || (f.minor.toNat % 8 < 6 && f.ty.isUns)))
      false false true && sreg10 f.vb
  | .vred f => wfA3 { f with vb := 0 } (f.ty.isInt || f.ty.isFlt) true
      (f.minor.toNat < 3 || (f.minor.toNat < 6 && f.ty.isUns)) false false true && sreg10 f.vb
  | .vcompact f => f.ty == .u32 && f.minor == 0 && f.va.toNat < 16 && sreg10 f.vb && !f.ma && f.rnd == 0 && !f.sat
  | .sadd f | .ssub f | .smul f | .smad f => wfS f f.ty.isInt true
  | .sand f | .sor f | .sxor f | .sshl f | .sshr f => wfS f f.ty.isUns true
  | .ssar f => wfS f (f.ty == .s32 || f.ty == .s64) true
  | .smov f => wfS f f.ty.isUns false
  | .smovi f => f.minor.toNat < 3 && !f.p && sreg10 f.rd
  | .scmp f => wfS { f with minor := 0 } f.ty.isInt true && f.minor.toNat < 6 && pdst f.sd
  | .vtos f => f.ty.isUns && f.minor == 0 && evenIf f.ty.wide f.vr && !f.p
  | .stov f => f.ty.isUns && f.minor == 0 && evenIf f.ty.wide f.vr && f.lane == 0
  | .fadd f | .fsub f | .fmul f => wfA3 f f.ty.isFlt false (f.minor == 0) true false true
  | .ffma f => wfB f f.ty.isFlt f.ty.wide f.ty.wide f.ty.wide f.ty.wide true (f.minor == 0)
  | .fmin f | .fmax f => wfA3 f f.ty.isFlt false (f.minor == 0) false false true
  | .fcmp f => wfCmp f f.ty.isFlt (f.minor.toNat < 8)
  | .fclass f => wfA2 f (f.ty.isFlt && f.minor == 0) false f.ty.wide false true
  | .fround f => wfA2 f (f.ty.isFlt && f.minor == 0) f.ty.wide f.ty.wide true true
  | .fscale f => wfA3 f f.ty.isFlt true (f.minor == 0) true false true
  | .fexp f | .fman f => wfA2 f (f.ty.isFlt && f.minor == 0) f.ty.wide f.ty.wide false true
  | .fcvt f => wfCvt f && (fcvtSources (cvtDst f)).contains (cvtSrc f) &&
      (f.rnd.toNat < 4 || (f.rnd.toNat == 4 && 1 ≤ cvtDst f && cvtDst f ≤ 5)) && (cvtDst f != 6 || f.rnd == 0)
  | .fcvti f => wfCvt f && 7 ≤ cvtDst f && cvtDst f ≤ 14 && cvtSrc f < 4 && f.rnd.toNat < 4
  | .icvtf f => wfCvt f && cvtDst f < 4 && 7 ≤ cvtSrc f && cvtSrc f ≤ 14 && f.rnd.toNat < 4 && !f.sat
  | .fex2 f | .flg2 f | .fsin2 f | .fcos2 f =>
    wfA2 f ((f.ty == .f32 || f.ty == .f16) && f.minor == 0) false false false true
  | .frcp f | .frsq f => wfA2 f ((f.ty.isFlt || f.ty == .f16) && f.minor == 0) f.ty.wide f.ty.wide false true
  | .fsqrt f => wfA2 f ((f.ty.isFlt || f.ty == .f16) && f.minor == 0) f.ty.wide f.ty.wide true true
  | .fdot2 f | .hfma2 f => wfB f f.ty.isHalf false false false false true (f.minor == 0)
  | .hadd2 f | .hmul2 f => wfA3 f f.ty.isHalf false (f.minor == 0) true false true
  | .fstat f => wfA2 f (f.ty == .u32 && f.minor == 0) false false false false && f.va == 0 && !f.ma
  | .br f => f.reg == 0 && !f.m && f.k == 0
  | .brd f | .ret f => f.k == 0 && f.off == 0
  | .call f => !f.m && f.k == 0
  | .join f => sreg10 f.reg && f.off == 0
  | .joinAct f | .wait f => f.reg == 0 && !f.m && f.off == 0
  | .exit f => f.reg == 0 && !f.m && f.k == 0 && f.off == 0
  | .ld f | .st f => wfData f && wfBase f.scalar f.base
  | .sld f | .sst f => sreg10 f.rd && f.scalar && wfBase f.scalar f.base && f.width.toNat < 4
  | .lda f => f.rd.toNat % 2 == 0 && wfBase f.scalar f.base && f.width == 0 && f.cache == 0 && f.scope == 0
  | .pf f => f.rd == 0 && wfBase f.scalar f.base && f.width == 0 && f.scope == 0
  | .grow f => f.n != 0 && (if f.try_ then pdst f.pd else f.pd == 0)
  | .shrink f => f.n != 0 && !f.try_ && f.pd == 0
  | .sortk f => f.g == 15
  | .atom f => wfAtomRegs f true && f.scope.toNat < 6
  | .red f => wfAtomRegs f false && f.scope.toNat < 6 && (f.order == 0 || f.order == 2) &&
      f.op.toNat != 8 && f.op.toNat != 9
  | .fence f => f.order != 0 && f.scope.toNat < 6
  | .mon _ | .mwait _ => true
  | .barr f | .barw f | .bara f => f.sa == 0 && !f.ma
  | .bmask _ => true
  | .cvdecl _ => true
  | .mma f => wfX f && (f.fc.toNat != 0 || (f.va.toNat % 2 == 0 && f.vb.toNat % 2 == 0))
  | .mmas f => wfX f && f.vb.toNat % 8 == 0 && (f.fc.toNat != 0 || f.va.toNat % 2 == 0)
  | .mmaw _ | .orf _ | .spfence _ | .rfence _ => true
  | .accld f => wfTileTop f && sreg10 f.reg && [15, 1, 11, 0].contains f.fmt.toNat && f.sc == 0 && f.sb == 0 &&
      !f.scale && !f.sat
  | .accst f => wfTileTop f && sreg10 f.reg && [15, 0, 1, 3, 2, 4, 5, 11].contains f.fmt.toNat && f.sb == 0 &&
      (f.scale || f.sc == 0) && (!f.scale || fmtFloat f.fmt.toNat) &&
      (!f.sat || [4, 5, 3, 2].contains f.fmt.toNat)
  | .accstReg f => wfTileTop f && [1, 11].contains f.fmt.toNat && f.off == 0 && !f.sat &&
      (f.scale || f.sc == 0) && (!f.scale || fmtFloat f.fmt.toNat)
  | .acczero f => wfTileTop f && f.reg == 0 && !f.m && [15, 11, 0].contains f.fmt.toNat && f.sc == 0 && f.sb == 0 &&
      !f.scale && !f.sat && f.off == 0
  | .trec _ => true
  | .qblk _ | .hadm _ => true
  | .dqblk f => !f.flag
  | .sclq f => [4, 5, 6].contains f.fmt.toNat
  | .vldt f => !f.md
  | .vstt _ => true
  | .cpy _ | .cpys _ => true
  | .cpyw f | .cpywWait f => f.sd == 0
  | .cpywRe _ => true
  | .tlbw f => f.sd == 0
  | .tlbiVa _ | .tlbiAsid _ => true
  | .tlbiAll f => f.sa == 0 && !f.ma
  | .pbsel f => f.n.toNat % 64 == 0
  | .accept f => f.expl || (f.vb == 0 && !f.mb)
  | .pbclr _ | .pbcnt _ => true
  | .rng f => f.form.toNat < 3
  | .rngk _ | .cbrj _ => true
  | .cbr f => f.g == 15
  | .creduce f => f.g == 15 &&
      (if f.kind.toNat < 2 then f.op.toNat < 3 && [0, 1, 2, 3, 11, 12, 13, 14].contains f.fmt.toNat
       else f.op == 0 && f.fmt.toNat != 15)
  | .fld f | .fst f => wfData f && wfBase f.scalar f.base && f.space == 0 && f.cache == 0 && f.scope == 0
  | .fatom f => wfAtomRegs f true && f.order == 0 && f.scope == 0
  | .ffence _ => true
  | .nop _ | .trap _ | .brk _ => true
  | .sret f | .sretEsc f => f.g == 15
  | .rdsr f => f.vec || sreg10 f.rd
  | .wrsr _ | .wsw _ => true
  | .migrate f => f.named || (f.sb == 0 && !f.mb)
  | .qpush f => f.try_ && pdst f.pd || !f.try_ && f.pd == 0
  | .qpop f | .qpopO f => f.pd.toNat < 15 || (f.sb == 0 && !f.mb)
  | .qdone f => f.g == 15
  | .dtk _ | .dtkEnd _ => true
  | .loadDataReturn .. | .growUnitsFreed .. | .issueOverride | .issueSlotGrant .. | .writeAcknowledgement ..
  | .monitorTrigger .. | .mwaitDeadline .. | .mmaOperationComplete .. | .convergenceTimeout ..
  | .engineEntryComplete .. | .copyTransferStart .. | .copyComplete .. | .copyPromiseWake .. | .tlbMissWalk ..
  | .hostTlbFill .. | .pageFaultBatchResolved .. | .uncorrectableError .. | .hostMemoryAccess .. | .cbrOutcome ..
  | .collectiveStall .. | .memberLost .. | .creduceGenerationComplete .. | .creduceStall ..
  | .fabricRequestArrival .. | .fabricCountQuery .. | .fabricResponse .. | .fabricWaitNotice ..
  | .fabricRequestTimeout .. | .linkFailure .. | .deviceLeavesPod .. | .faultServiceDecision .. | .qpopDeadline ..
  | .taskTurnsNonspeculative .. | .launch .. | .teamPlacement .. | .teamResume .. | .gridCompletion ..
  | .feedAppend .. | .communicatorSetUp .. | .communicatorRelease .. | .determinismLevel .. | .token ..
  | .powerClass .. | .gridCheckpoint .. | .gridRestore .. | .gridEnd .. | .unknownPacketKind .. | .doorbell ..
  | .writeIndexNotice .. | .quantumSwap .. | .headroomUpdate .. | .registerWrite .. | .bkvocLoad .. | .bkcntRead ..
  | .barkerRequest .. | .barkerFeedAppend .. | .rudRmaWrite .. | .replyFlushTimer | .connectionEnd ..
  | .portLinkChange .. | .boot .. | .p1Wake | .mainPowerDown .. | .mainPowerUp | .pldmMonitoring ..
  | .pldmFirmwareUpdate .. | .spdmRequest .. | .recoveryWindowWrite .. | .releasePoint .. | .pageFaultResolved ..
  | .fabricLinkRestored .. | .hostLinkChange .. | .vstbyRailChange .. | .replyBufferFreed ..
  | .vocabularyLoadComplete .. => false

/-- The row is an event: it has no word. -/
def Instr.isEvent : Instr → Bool
  | .loadDataReturn .. | .growUnitsFreed .. | .issueOverride | .issueSlotGrant .. | .writeAcknowledgement ..
  | .monitorTrigger .. | .mwaitDeadline .. | .mmaOperationComplete .. | .convergenceTimeout ..
  | .engineEntryComplete .. | .copyTransferStart .. | .copyComplete .. | .copyPromiseWake .. | .tlbMissWalk ..
  | .hostTlbFill .. | .pageFaultBatchResolved .. | .uncorrectableError .. | .hostMemoryAccess .. | .cbrOutcome ..
  | .collectiveStall .. | .memberLost .. | .creduceGenerationComplete .. | .creduceStall ..
  | .fabricRequestArrival .. | .fabricCountQuery .. | .fabricResponse .. | .fabricWaitNotice ..
  | .fabricRequestTimeout .. | .linkFailure .. | .deviceLeavesPod .. | .faultServiceDecision .. | .qpopDeadline ..
  | .taskTurnsNonspeculative .. | .launch .. | .teamPlacement .. | .teamResume .. | .gridCompletion ..
  | .feedAppend .. | .communicatorSetUp .. | .communicatorRelease .. | .determinismLevel .. | .token ..
  | .powerClass .. | .gridCheckpoint .. | .gridRestore .. | .gridEnd .. | .unknownPacketKind .. | .doorbell ..
  | .writeIndexNotice .. | .quantumSwap .. | .headroomUpdate .. | .registerWrite .. | .bkvocLoad .. | .bkcntRead ..
  | .barkerRequest .. | .barkerFeedAppend .. | .rudRmaWrite .. | .replyFlushTimer | .connectionEnd ..
  | .portLinkChange .. | .boot .. | .p1Wake | .mainPowerDown .. | .mainPowerUp | .pldmMonitoring ..
  | .pldmFirmwareUpdate .. | .spdmRequest .. | .recoveryWindowWrite .. | .releasePoint .. | .pageFaultResolved ..
  | .fabricLinkRestored .. | .hostLinkChange .. | .vstbyRailChange .. | .replyBufferFreed ..
  | .vocabularyLoadComplete .. => true
  | _ => false

end Sys2Proof
end

