-- ==== Sys2Proof/Decode.lean ====
section
/-! DEFINITION. Decoding (R46, R48, R56 to R69), total on every 64-bit word and every byte sequence, and
the encoder written from the same encodings. The decoder takes the fields apart and accepts a word when
the fields are well formed and encode back to the word, so a reserved bit that is set refuses it (R69). -/

namespace Sys2Proof

/-- Bits [lo + n - 1 : lo] of a word. -/
def bits (w : BitVec 64) (lo n : Nat) : BitVec n := BitVec.ofNat n (w.toNat / 2 ^ lo)
/-- Bit `lo` of a word. -/
def bit (w : BitVec 64) (lo : Nat) : Bool := w.toNat / 2 ^ lo % 2 == 1

/-- The type code of a type (R52). -/
def Ty.code : Ty → Nat
  | .u32 => 0 | .s32 => 1 | .u64 => 2 | .s64 => 3 | .f32 => 4 | .f64 => 5 | .f16 => 6 | .bf16 => 7

/-- The type of a type code (R52). -/
def Ty.ofCode (c : BitVec 3) : Ty :=
  match c.toNat with
  | 0 => .u32 | 1 => .s32 | 2 => .u64 | 3 => .s64 | 4 => .f32 | 5 => .f64 | 6 => .f16 | _ => .bf16

/-- Major opcode and guard of a word, in place (R46). -/
def encTop (major : Nat) (g : BitVec 5) : Nat := major * 2 ^ 56 + g.toNat * 2 ^ 51

/-- The fields of R56, in place. -/
def encA (major : Nat) (f : FmtA) : Nat :=
  encTop major f.g + f.vd.toNat * 2 ^ 41 + f.va.toNat * 2 ^ 31 + f.vb.toNat * 2 ^ 21 + f.ma.toNat * 2 ^ 20 +
  f.mb.toNat * 2 ^ 19 + f.ty.code * 2 ^ 16 + f.minor.toNat * 2 ^ 8 + f.rnd.toNat * 2 ^ 5 +
  f.sat.toNat * 2 ^ 4 + f.p.toNat * 2 ^ 3

/-- The fields of R56, taken apart. -/
def decA (w : BitVec 64) : FmtA :=
  { g := bits w 51 5, vd := bits w 41 10, va := bits w 31 10, vb := bits w 21 10, ma := bit w 20,
    mb := bit w 19, ty := Ty.ofCode (bits w 16 3), minor := bits w 8 8, rnd := bits w 5 3, sat := bit w 4,
    p := bit w 3 }

/-- The fields of R57, in place. -/
def encB (major : Nat) (f : FmtB) : Nat :=
  encTop major f.g + f.vd.toNat * 2 ^ 41 + f.va.toNat * 2 ^ 31 + f.vb.toNat * 2 ^ 21 + f.vc.toNat * 2 ^ 11 +
  f.ma.toNat * 2 ^ 10 + f.mb.toNat * 2 ^ 9 + f.mc.toNat * 2 ^ 8 + f.ty.code * 2 ^ 5 + f.rnd.toNat * 2 ^ 3 +
  f.p.toNat * 2 ^ 2 + f.minor.toNat * 2 ^ 0

/-- The fields of R57, taken apart. -/
def decB (w : BitVec 64) : FmtB :=
  { g := bits w 51 5, vd := bits w 41 10, va := bits w 31 10, vb := bits w 21 10, vc := bits w 11 10,
    ma := bit w 10, mb := bit w 9, mc := bit w 8, ty := Ty.ofCode (bits w 5 3), rnd := bits w 3 2,
    p := bit w 2, minor := bits w 0 2 }

/-- The fields of R58, in place. -/
def encD (major : Nat) (f : FmtD) : Nat :=
  encTop major f.g + f.rd.toNat * 2 ^ 41 + f.minor.toNat * 2 ^ 37 + f.p.toNat * 2 ^ 33 + f.imm.toNat * 2 ^ 0

/-- The fields of R58, taken apart. -/
def decD (w : BitVec 64) : FmtD :=
  { g := bits w 51 5, rd := bits w 41 10, minor := bits w 37 4, p := bit w 33, imm := bits w 0 32 }

/-- The fields of R59, in place. -/
def encS (major : Nat) (f : FmtS) : Nat :=
  encTop major f.g + f.sd.toNat * 2 ^ 44 + f.sa.toNat * 2 ^ 37 + f.sb.toNat * 2 ^ 30 + f.ma.toNat * 2 ^ 29 +
  f.mb.toNat * 2 ^ 28 + f.ty.code * 2 ^ 25 + f.minor.toNat * 2 ^ 20 + f.i.toNat * 2 ^ 19 + f.imm.toNat * 2 ^ 0

/-- The fields of R59, taken apart. -/
def decS (w : BitVec 64) : FmtS :=
  { g := bits w 51 5, sd := bits w 44 7, sa := bits w 37 7, sb := bits w 30 7, ma := bit w 29, mb := bit w 28,
    ty := Ty.ofCode (bits w 25 3), minor := bits w 20 5, i := bit w 19, imm := bits w 0 19 }

/-- The fields of R59, in place. -/
def encSV (major : Nat) (f : FmtSV) : Nat :=
  encTop major f.g + f.sr.toNat * 2 ^ 44 + f.vr.toNat * 2 ^ 31 + f.m.toNat * 2 ^ 30 + f.p.toNat * 2 ^ 28 +
  f.ty.code * 2 ^ 25 + f.minor.toNat * 2 ^ 20 + f.lane.toNat * 2 ^ 0

/-- The fields of R59, taken apart. -/
def decSV (w : BitVec 64) : FmtSV :=
  { g := bits w 51 5, sr := bits w 44 7, vr := bits w 31 10, m := bit w 30, p := bit w 28,
    ty := Ty.ofCode (bits w 25 3), minor := bits w 20 5, lane := bits w 0 6 }

/-- The fields of R60, in place. -/
def encM (major : Nat) (f : FmtM) : Nat :=
  encTop major f.g + f.rd.toNat * 2 ^ 41 + f.base.toNat * 2 ^ 31 + f.scalar.toNat * 2 ^ 30 +
  f.m.toNat * 2 ^ 29 + f.width.toNat * 2 ^ 26 + f.space.toNat * 2 ^ 24 + f.cache.toNat * 2 ^ 22 +
  f.scope.toNat * 2 ^ 20 + f.off.toNat * 2 ^ 0

/-- The fields of R60, taken apart. -/
def decM (w : BitVec 64) : FmtM :=
  { g := bits w 51 5, rd := bits w 41 10, base := bits w 31 10, scalar := bit w 30, m := bit w 29,
    width := bits w 26 3, space := bits w 24 2, cache := bits w 22 2, scope := bits w 20 2,
    off := bits w 0 20 }

/-- The fields of R61, in place. -/
def encJ (major : Nat) (f : FmtJ) : Nat :=
  encTop major f.g + f.reg.toNat * 2 ^ 41 + f.m.toNat * 2 ^ 40 + f.k.toNat * 2 ^ 37 + f.off.toNat * 2 ^ 0

/-- The fields of R61, taken apart. -/
def decJ (w : BitVec 64) : FmtJ :=
  { g := bits w 51 5, reg := bits w 41 10, m := bit w 40, k := bits w 37 3, off := bits w 0 32 }

/-- The fields of R62, in place. -/
def encX (major : Nat) (f : FmtX) : Nat :=
  encTop major f.g + f.va.toNat * 2 ^ 41 + f.vb.toNat * 2 ^ 31 + f.acc.toNat * 2 ^ 24 + f.cv.toNat * 2 ^ 21 +
  f.shape.toNat * 2 ^ 16 + f.fa.toNat * 2 ^ 12 + f.fb.toNat * 2 ^ 8 + f.fc.toNat * 2 ^ 4 +
  f.ma.toNat * 2 ^ 3 + f.mb.toNat * 2 ^ 2 + f.z.toNat * 2 ^ 1

/-- The fields of R62, taken apart. -/
def decX (w : BitVec 64) : FmtX :=
  { g := bits w 51 5, va := bits w 41 10, vb := bits w 31 10, acc := bits w 24 7, cv := bits w 21 3,
    shape := bits w 16 5, fa := bits w 12 4, fb := bits w 8 4, fc := bits w 4 4, ma := bit w 3, mb := bit w 2,
    z := bit w 1 }

/-- The fields of R104, in place. -/
def encGrow (major : Nat) (f : FmtGrow) : Nat :=
  encTop major f.g + f.pd.toNat * 2 ^ 44 + f.try_.toNat * 2 ^ 43 + f.n.toNat * 2 ^ 39

/-- The fields of R104, taken apart. -/
def decGrow (w : BitVec 64) : FmtGrow :=
  { g := bits w 51 5, pd := bits w 44 7, try_ := bit w 43, n := bits w 39 4 }

/-- The fields of R38, in place. -/
def encSort (major : Nat) (f : FmtSort) : Nat :=
  encTop major f.g + f.va.toNat * 2 ^ 41 + f.ma.toNat * 2 ^ 40 + f.desc.toNat * 2 ^ 39 + f.mask.toNat * 2 ^ 23

/-- The fields of R38, taken apart. -/
def decSort (w : BitVec 64) : FmtSort :=
  { g := bits w 51 5, va := bits w 41 10, ma := bit w 40, desc := bit w 39, mask := bits w 23 16 }

/-- The fields of R234, in place. -/
def encAtom (major : Nat) (f : FmtAtom) : Nat :=
  encTop major f.g + f.vd.toNat * 2 ^ 41 + f.base.toNat * 2 ^ 31 + f.scalar.toNat * 2 ^ 30 +
  f.vb.toNat * 2 ^ 20 + f.ma.toNat * 2 ^ 19 + f.mb.toNat * 2 ^ 18 + f.op.toNat * 2 ^ 13 +
  f.wide.toNat * 2 ^ 12 + f.order.toNat * 2 ^ 10 + f.scope.toNat * 2 ^ 7

/-- The fields of R234, taken apart. -/
def decAtom (w : BitVec 64) : FmtAtom :=
  { g := bits w 51 5, vd := bits w 41 10, base := bits w 31 10, scalar := bit w 30, vb := bits w 20 10,
    ma := bit w 19, mb := bit w 18, op := bits w 13 5, wide := bit w 12, order := bits w 10 2,
    scope := bits w 7 3 }

/-- The fields of R231, in place. -/
def encFence (major : Nat) (f : FmtFence) : Nat :=
  encTop major f.g + f.order.toNat * 2 ^ 10 + f.scope.toNat * 2 ^ 7

/-- The fields of R231, taken apart. -/
def decFence (w : BitVec 64) : FmtFence :=
  { g := bits w 51 5, order := bits w 10 2, scope := bits w 7 3 }

/-- The fields of R239, in place. -/
def encSrc (major : Nat) (f : FmtSrc) : Nat :=
  encTop major f.g + f.sa.toNat * 2 ^ 37 + f.ma.toNat * 2 ^ 36

/-- The fields of R239, taken apart. -/
def decSrc (w : BitVec 64) : FmtSrc :=
  { g := bits w 51 5, sa := bits w 37 7, ma := bit w 36 }

/-- The fields of R240, in place. -/
def encDstSrc (major : Nat) (f : FmtDstSrc) : Nat :=
  encTop major f.g + f.sd.toNat * 2 ^ 44 + f.sa.toNat * 2 ^ 37 + f.ma.toNat * 2 ^ 36

/-- The fields of R240, taken apart. -/
def decDstSrc (w : BitVec 64) : FmtDstSrc :=
  { g := bits w 51 5, sd := bits w 44 7, sa := bits w 37 7, ma := bit w 36 }

/-- The fields of R243, in place. -/
def encBar (major : Nat) (f : FmtBar) : Nat :=
  encTop major f.g + f.sa.toNat * 2 ^ 44 + f.ma.toNat * 2 ^ 43 + f.n.toNat * 2 ^ 37

/-- The fields of R243, taken apart. -/
def decBar (w : BitVec 64) : FmtBar :=
  { g := bits w 51 5, sa := bits w 44 7, ma := bit w 43, n := bits w 37 6 }

/-- The fields of R158, in place. -/
def encKey (major : Nat) (f : FmtKey) : Nat :=
  encTop major f.g + f.sa.toNat * 2 ^ 41 + f.ma.toNat * 2 ^ 40 + f.k.toNat * 2 ^ 37

/-- The fields of R158, taken apart. -/
def decKey (w : BitVec 64) : FmtKey :=
  { g := bits w 51 5, sa := bits w 41 7, ma := bit w 40, k := bits w 37 3 }

/-- The fields of R172, in place. -/
def encCv (major : Nat) (f : FmtCv) : Nat :=
  encTop major f.g + f.k.toNat * 2 ^ 37

/-- The fields of R172, taken apart. -/
def decCv (w : BitVec 64) : FmtCv :=
  { g := bits w 51 5, k := bits w 37 3 }

/-- The fields of R63, in place. -/
def encG (major : Nat) (f : FmtG) : Nat :=
  encTop major f.g

/-- The fields of R63, taken apart. -/
def decG (w : BitVec 64) : FmtG :=
  { g := bits w 51 5 }

/-- The fields of R173, in place. -/
def encTile (major : Nat) (f : FmtTile) : Nat :=
  encTop major f.g + f.reg.toNat * 2 ^ 41 + f.m.toNat * 2 ^ 40 + f.sc.toNat * 2 ^ 33 + f.sb.toNat * 2 ^ 26 +
  f.acc.toNat * 2 ^ 19 + f.fmt.toNat * 2 ^ 15 + f.scale.toNat * 2 ^ 14 + f.sat.toNat * 2 ^ 13 +
  f.off.toNat * 2 ^ 0

/-- The fields of R173, taken apart. -/
def decTile (w : BitVec 64) : FmtTile :=
  { g := bits w 51 5, reg := bits w 41 10, m := bit w 40, sc := bits w 33 7, sb := bits w 26 7,
    acc := bits w 19 7, fmt := bits w 15 4, scale := bit w 14, sat := bit w 13, off := bits w 0 12 }

/-- The fields of R185, in place. -/
def encTrec (major : Nat) (f : FmtTrec) : Nat :=
  encTop major f.g + f.sa.toNat * 2 ^ 41 + f.ma.toNat * 2 ^ 40 + f.rec_.toNat * 2 ^ 35 + f.off.toNat * 2 ^ 0

/-- The fields of R185, taken apart. -/
def decTrec (w : BitVec 64) : FmtTrec :=
  { g := bits w 51 5, sa := bits w 41 7, ma := bit w 40, rec_ := bits w 35 5, off := bits w 0 20 }

/-- The fields of R189, in place. -/
def encQblk (major : Nat) (f : FmtQblk) : Nat :=
  encTop major f.g + f.sa.toNat * 2 ^ 41 + f.ma.toNat * 2 ^ 40 + f.sb.toNat * 2 ^ 33 + f.mb.toNat * 2 ^ 32 +
  f.dst.toNat * 2 ^ 27 + f.src.toNat * 2 ^ 22 + f.flag.toNat * 2 ^ 21

/-- The fields of R189, taken apart. -/
def decQblk (w : BitVec 64) : FmtQblk :=
  { g := bits w 51 5, sa := bits w 41 7, ma := bit w 40, sb := bits w 33 7, mb := bit w 32,
    dst := bits w 27 5, src := bits w 22 5, flag := bit w 21 }

/-- The fields of R188, in place. -/
def encSclq (major : Nat) (f : FmtSclq) : Nat :=
  encTop major f.g + f.vd.toNat * 2 ^ 41 + f.va.toNat * 2 ^ 31 + f.vb.toNat * 2 ^ 21 + f.ma.toNat * 2 ^ 20 +
  f.mb.toNat * 2 ^ 19 + f.fmt.toNat * 2 ^ 12

/-- The fields of R188, taken apart. -/
def decSclq (w : BitVec 64) : FmtSclq :=
  { g := bits w 51 5, vd := bits w 41 10, va := bits w 31 10, vb := bits w 21 10, ma := bit w 20,
    mb := bit w 19, fmt := bits w 12 4 }

/-- The fields of R194, in place. -/
def encVldt (major : Nat) (f : FmtVldt) : Nat :=
  encTop major f.g + f.reg.toNat * 2 ^ 41 + f.sa.toNat * 2 ^ 34 + f.ma.toNat * 2 ^ 33 + f.sb.toNat * 2 ^ 26 +
  f.mb.toNat * 2 ^ 25 + f.rec_.toNat * 2 ^ 20 + f.md.toNat * 2 ^ 19

/-- The fields of R194, taken apart. -/
def decVldt (w : BitVec 64) : FmtVldt :=
  { g := bits w 51 5, reg := bits w 41 10, sa := bits w 34 7, ma := bit w 33, sb := bits w 26 7,
    mb := bit w 25, rec_ := bits w 20 5, md := bit w 19 }

/-- The fields of R215, in place. -/
def encCpy (major : Nat) (f : FmtCpy) : Nat :=
  encTop major f.g + f.sd.toNat * 2 ^ 44 + f.sa.toNat * 2 ^ 37 + f.sb.toNat * 2 ^ 30 + f.sc.toNat * 2 ^ 23 +
  f.ma.toNat * 2 ^ 22 + f.mb.toNat * 2 ^ 21 + f.mc.toNat * 2 ^ 20

/-- The fields of R215, taken apart. -/
def decCpy (w : BitVec 64) : FmtCpy :=
  { g := bits w 51 5, sd := bits w 44 7, sa := bits w 37 7, sb := bits w 30 7, sc := bits w 23 7,
    ma := bit w 22, mb := bit w 21, mc := bit w 20 }

/-- The fields of R252, in place. -/
def encPbsel (major : Nat) (f : FmtPbsel) : Nat :=
  encTop major f.g + f.n.toNat * 2 ^ 41

/-- The fields of R252, taken apart. -/
def decPbsel (w : BitVec 64) : FmtPbsel :=
  { g := bits w 51 5, n := bits w 41 10 }

/-- The fields of R253, in place. -/
def encAccept (major : Nat) (f : FmtAccept) : Nat :=
  encTop major f.g + f.va.toNat * 2 ^ 31 + f.vb.toNat * 2 ^ 21 + f.ma.toNat * 2 ^ 20 + f.mb.toNat * 2 ^ 19 +
  f.expl.toNat * 2 ^ 18

/-- The fields of R253, taken apart. -/
def decAccept (w : BitVec 64) : FmtAccept :=
  { g := bits w 51 5, va := bits w 31 10, vb := bits w 21 10, ma := bit w 20, mb := bit w 19,
    expl := bit w 18 }

/-- The fields of R254, in place. -/
def encVd (major : Nat) (f : FmtVd) : Nat :=
  encTop major f.g + f.vd.toNat * 2 ^ 41

/-- The fields of R254, taken apart. -/
def decVd (w : BitVec 64) : FmtVd :=
  { g := bits w 51 5, vd := bits w 41 10 }

/-- The fields of R259, in place. -/
def encRng (major : Nat) (f : FmtRng) : Nat :=
  encTop major f.g + f.vd.toNat * 2 ^ 41 + f.k.toNat * 2 ^ 38 + f.form.toNat * 2 ^ 36 + f.p.toNat * 2 ^ 35

/-- The fields of R259, taken apart. -/
def decRng (w : BitVec 64) : FmtRng :=
  { g := bits w 51 5, vd := bits w 41 10, k := bits w 38 3, form := bits w 36 2, p := bit w 35 }

/-- The fields of R263, in place. -/
def encCbr (major : Nat) (f : FmtCbr) : Nat :=
  encTop major f.g + f.pn.toNat * 2 ^ 47 + f.or_.toNat * 2 ^ 46 + f.t.toNat * 2 ^ 45 + f.k.toNat * 2 ^ 42 +
  f.off.toNat * 2 ^ 0

/-- The fields of R263, taken apart. -/
def decCbr (w : BitVec 64) : FmtCbr :=
  { g := bits w 51 5, pn := bits w 47 4, or_ := bit w 46, t := bit w 45, k := bits w 42 3,
    off := bits w 0 32 }

/-- The fields of R336, in place. -/
def encCred (major : Nat) (f : FmtCred) : Nat :=
  encTop major f.g + f.sa.toNat * 2 ^ 44 + f.sb.toNat * 2 ^ 37 + f.sc.toNat * 2 ^ 30 + f.ma.toNat * 2 ^ 29 +
  f.mb.toNat * 2 ^ 28 + f.mc.toNat * 2 ^ 27 + f.k.toNat * 2 ^ 24 + f.kind.toNat * 2 ^ 22 +
  f.op.toNat * 2 ^ 20 + f.fmt.toNat * 2 ^ 16

/-- The fields of R336, taken apart. -/
def decCred (w : BitVec 64) : FmtCred :=
  { g := bits w 51 5, sa := bits w 44 7, sb := bits w 37 7, sc := bits w 30 7, ma := bit w 29, mb := bit w 28,
    mc := bit w 27, k := bits w 24 3, kind := bits w 22 2, op := bits w 20 2, fmt := bits w 16 4 }

/-- The fields of R280, in place. -/
def encTrap (major : Nat) (f : FmtTrap) : Nat :=
  encTop major f.g + f.imm.toNat * 2 ^ 0

/-- The fields of R280, taken apart. -/
def decTrap (w : BitVec 64) : FmtTrap :=
  { g := bits w 51 5, imm := bits w 0 16 }

/-- The fields of R283, in place. -/
def encBrk (major : Nat) (f : FmtBrk) : Nat :=
  encTop major f.g + f.sa.toNat * 2 ^ 41 + f.ma.toNat * 2 ^ 40 + f.k.toNat * 2 ^ 38

/-- The fields of R283, taken apart. -/
def decBrk (w : BitVec 64) : FmtBrk :=
  { g := bits w 51 5, sa := bits w 41 7, ma := bit w 40, k := bits w 38 2 }

/-- The fields of R298, in place. -/
def encRdsr (major : Nat) (f : FmtRdsr) : Nat :=
  encTop major f.g + f.rd.toNat * 2 ^ 41 + f.vec.toNat * 2 ^ 40 + f.num.toNat * 2 ^ 0

/-- The fields of R298, taken apart. -/
def decRdsr (w : BitVec 64) : FmtRdsr :=
  { g := bits w 51 5, rd := bits w 41 10, vec := bit w 40, num := bits w 0 16 }

/-- The fields of R298, in place. -/
def encWrsr (major : Nat) (f : FmtWrsr) : Nat :=
  encTop major f.g + f.sa.toNat * 2 ^ 41 + f.ma.toNat * 2 ^ 40 + f.num.toNat * 2 ^ 0

/-- The fields of R298, taken apart. -/
def decWrsr (w : BitVec 64) : FmtWrsr :=
  { g := bits w 51 5, sa := bits w 41 7, ma := bit w 40, num := bits w 0 16 }

/-- The fields of R284, in place. -/
def encWsw (major : Nat) (f : FmtWsw) : Nat :=
  encTop major f.g + f.sd.toNat * 2 ^ 44 + f.sa.toNat * 2 ^ 37 + f.sb.toNat * 2 ^ 30 + f.ma.toNat * 2 ^ 29 +
  f.mb.toNat * 2 ^ 28

/-- The fields of R284, taken apart. -/
def decWsw (w : BitVec 64) : FmtWsw :=
  { g := bits w 51 5, sd := bits w 44 7, sa := bits w 37 7, sb := bits w 30 7, ma := bit w 29,
    mb := bit w 28 }

/-- The fields of R295, in place. -/
def encMig (major : Nat) (f : FmtMig) : Nat :=
  encTop major f.g + f.sd.toNat * 2 ^ 44 + f.sa.toNat * 2 ^ 37 + f.sb.toNat * 2 ^ 30 + f.ma.toNat * 2 ^ 29 +
  f.mb.toNat * 2 ^ 28 + f.named.toNat * 2 ^ 27

/-- The fields of R295, taken apart. -/
def decMig (w : BitVec 64) : FmtMig :=
  { g := bits w 51 5, sd := bits w 44 7, sa := bits w 37 7, sb := bits w 30 7, ma := bit w 29, mb := bit w 28,
    named := bit w 27 }

/-- The fields of R365, in place. -/
def encQpush (major : Nat) (f : FmtQpush) : Nat :=
  encTop major f.g + f.sa.toNat * 2 ^ 37 + f.sb.toNat * 2 ^ 30 + f.sc.toNat * 2 ^ 23 + f.ma.toNat * 2 ^ 22 +
  f.mb.toNat * 2 ^ 21 + f.mc.toNat * 2 ^ 20 + f.try_.toNat * 2 ^ 19 + f.pd.toNat * 2 ^ 15

/-- The fields of R365, taken apart. -/
def decQpush (w : BitVec 64) : FmtQpush :=
  { g := bits w 51 5, sa := bits w 37 7, sb := bits w 30 7, sc := bits w 23 7, ma := bit w 22, mb := bit w 21,
    mc := bit w 20, try_ := bit w 19, pd := bits w 15 4 }

/-- The fields of R366, in place. -/
def encQpop (major : Nat) (f : FmtQpop) : Nat :=
  encTop major f.g + f.vd.toNat * 2 ^ 41 + f.sa.toNat * 2 ^ 34 + f.sb.toNat * 2 ^ 27 + f.ma.toNat * 2 ^ 26 +
  f.mb.toNat * 2 ^ 25 + f.pd.toNat * 2 ^ 21

/-- The fields of R366, taken apart. -/
def decQpop (w : BitVec 64) : FmtQpop :=
  { g := bits w 51 5, vd := bits w 41 10, sa := bits w 34 7, sb := bits w 27 7, ma := bit w 26,
    mb := bit w 25, pd := bits w 21 4 }

/-- The fields of R384, in place. -/
def encDtk (major : Nat) (f : FmtDtk) : Nat :=
  encTop major f.g + f.va.toNat * 2 ^ 41 + f.vb.toNat * 2 ^ 31 + f.ma.toNat * 2 ^ 30 + f.mb.toNat * 2 ^ 29

/-- The fields of R384, taken apart. -/
def decDtk (w : BitVec 64) : FmtDtk :=
  { g := bits w 51 5, va := bits w 41 10, vb := bits w 31 10, ma := bit w 30, mb := bit w 29 }

/-- The word of an instruction as a number; an event has none and gives 0. -/
def encodeNat : Instr → Nat
  | .vadd f => encA 0x10 f
  | .vsub f => encA 0x11 f
  | .vaddc f => encA 0x12 f
  | .vmul f => encA 0x13 f
  | .vmulh f => encA 0x14 f
  | .vmad f => encB 0x15 f
  | .vmin f => encA 0x16 f
  | .vmax f => encA 0x17 f
  | .vabsd f => encA 0x18 f
  | .vand f => encA 0x19 f
  | .vor f => encA 0x1A f
  | .vxor f => encA 0x1B f
  | .vnot f => encA 0x1C f
  | .vshl f => encA 0x1D f
  | .vshr f => encA 0x1E f
  | .vsar f => encA 0x1F f
  | .vrot f => encA 0x20 f
  | .vclz f => encA 0x21 f
  | .vpopc f => encA 0x22 f
  | .vbrev f => encA 0x23 f
  | .vext f => encB 0x24 f
  | .vins f => encB 0x25 f
  | .vsel f => encB 0x26 f
  | .vcmp f => encA 0x27 f
  | .vmov f => encA 0x28 f
  | .vmovi f => encD 0x29 f
  | .vshfl f => encB 0x2A f
  | .vbcast f => encA 0x2B f
  | .vvote f => encA 0x2C f
  | .vscan f => encA 0x2D f
  | .vred f => encA 0x2E f
  | .vcompact f => encA 0x2F f
  | .sadd f => encS 0x30 f
  | .ssub f => encS 0x31 f
  | .smul f => encS 0x32 f
  | .smad f => encS 0x33 f
  | .sand f => encS 0x34 f
  | .sor f => encS 0x35 f
  | .sxor f => encS 0x36 f
  | .sshl f => encS 0x37 f
  | .sshr f => encS 0x38 f
  | .ssar f => encS 0x39 f
  | .smov f => encS 0x3A f
  | .smovi f => encD 0x3B f
  | .scmp f => encS 0x3C f
  | .vtos f => encSV 0x3D f
  | .stov f => encSV 0x3E f
  | .fadd f => encA 0x40 f
  | .fsub f => encA 0x41 f
  | .fmul f => encA 0x42 f
  | .ffma f => encB 0x43 f
  | .fmin f => encA 0x44 f
  | .fmax f => encA 0x45 f
  | .fcmp f => encA 0x46 f
  | .fclass f => encA 0x47 f
  | .fround f => encA 0x48 f
  | .fscale f => encA 0x49 f
  | .fexp f => encA 0x4A f
  | .fman f => encA 0x4B f
  | .fcvt f => encA 0x4C f
  | .fcvti f => encA 0x4D f
  | .icvtf f => encA 0x4E f
  | .fex2 f => encA 0x4F f
  | .flg2 f => encA 0x50 f
  | .frcp f => encA 0x51 f
  | .frsq f => encA 0x52 f
  | .fsqrt f => encA 0x53 f
  | .fsin2 f => encA 0x54 f
  | .fcos2 f => encA 0x55 f
  | .fdot2 f => encB 0x56 f
  | .hadd2 f => encA 0x57 f
  | .hmul2 f => encA 0x58 f
  | .hfma2 f => encB 0x59 f
  | .fstat f => encA 0x5A f
  | .br f => encJ 0x60 f
  | .brd f => encJ 0x61 f
  | .call f => encJ 0x62 f
  | .ret f => encJ 0x63 f
  | .join f => encJ 0x64 f
  | .joinAct f => encJ 0x64 f + 4294967296
  | .wait f => encJ 0x65 f
  | .exit f => encJ 0x66 f
  | .ld f => encM 0x70 f
  | .st f => encM 0x71 f
  | .sld f => encM 0x72 f
  | .sst f => encM 0x73 f
  | .lda f => encM 0x74 f
  | .pf f => encM 0x75 f
  | .vldt f => encVldt 0x76 f
  | .vstt f => encVldt 0x77 f
  | .atom f => encAtom 0x80 f
  | .red f => encAtom 0x81 f
  | .fence f => encFence 0x82 f
  | .mon f => encSrc 0x83 f
  | .mwait f => encDstSrc 0x84 f
  | .cvdecl f => encKey 0x90 f
  | .mma f => encX 0x91 f
  | .mmas f => encX 0x92 f
  | .mmaw f => encCv 0x93 f
  | .orf f => encG 0x94 f
  | .accld f => encTile 0x95 f
  | .accst f => encTile 0x96 f
  | .accstReg f => encTile 0x96 f + 4096
  | .acczero f => encTile 0x97 f
  | .spfence f => encG 0x98 f
  | .trec f => encTrec 0xA0 f
  | .rfence f => encG 0xA1 f
  | .qblk f => encQblk 0xA2 f
  | .dqblk f => encQblk 0xA3 f
  | .hadm f => encQblk 0xA4 f
  | .sclq f => encSclq 0xA5 f
  | .cpy f => encCpy 0xB0 f
  | .cpys f => encCpy 0xB1 f
  | .cpyw f => encDstSrc 0xB2 f
  | .cpywWait f => encDstSrc 0xB2 f + 17179869184
  | .cpywRe f => encDstSrc 0xB2 f + 34359738368
  | .barr f => encBar 0xB3 f
  | .barw f => encBar 0xB4 f
  | .bara f => encBar 0xB5 f
  | .bmask f => encBar 0xB6 f
  | .qpush f => encQpush 0xB7 f
  | .qpop f => encQpop 0xB8 f
  | .qpopO f => encQpop 0xB8 f + 1048576
  | .qdone f => encG 0xB9 f
  | .dtk f => encDtk 0xBA f
  | .dtkEnd f => encDtk 0xBA f + 268435456
  | .fld f => encM 0xC0 f
  | .fst f => encM 0xC1 f
  | .fatom f => encAtom 0xC2 f
  | .ffence f => encG 0xC3 f
  | .creduce f => encCred 0xC4 f
  | .cbr f => encCbr 0xC5 f
  | .cbrj f => encKey 0xC6 f
  | .pbsel f => encPbsel 0xD0 f
  | .accept f => encAccept 0xD1 f
  | .pbclr f => encG 0xD2 f
  | .pbcnt f => encVd 0xD3 f
  | .rng f => encRng 0xD4 f
  | .rngk f => encKey 0xD5 f
  | .nop f => encG 0xE0 f
  | .trap f => encTrap 0xE1 f
  | .brk f => encBrk 0xE2 f
  | .sret f => encG 0xE3 f
  | .sretEsc f => encG 0xE3 f + 1
  | .rdsr f => encRdsr 0xE4 f
  | .wrsr f => encWrsr 0xE5 f
  | .grow f => encGrow 0xE6 f
  | .shrink f => encGrow 0xE7 f
  | .sortk f => encSort 0xE8 f
  | .wsw f => encWsw 0xE9 f
  | .tlbw f => encCpy 0xEA f
  | .tlbiVa f => encSrc 0xEB f
  | .tlbiAsid f => encSrc 0xEB f + 17179869184
  | .tlbiAll f => encSrc 0xEB f + 34359738368
  | .migrate f => encMig 0xEC f
  | _ => 0

/-- THE ENCODER: the 64-bit word of an instruction (R44). -/
def encode (i : Instr) : BitVec 64 := BitVec.ofNat 64 (encodeNat i)

/-- The instruction whose major opcode and minor form a word shows, its fields taken apart and not yet
checked. -/
def decodeRaw (w : BitVec 64) : Option Instr :=
  match w.toNat / 2 ^ 56 with
  | 0x10 => some (.vadd (decA w))
  | 0x11 => some (.vsub (decA w))
  | 0x12 => some (.vaddc (decA w))
  | 0x13 => some (.vmul (decA w))
  | 0x14 => some (.vmulh (decA w))
  | 0x15 => some (.vmad (decB w))
  | 0x16 => some (.vmin (decA w))
  | 0x17 => some (.vmax (decA w))
  | 0x18 => some (.vabsd (decA w))
  | 0x19 => some (.vand (decA w))
  | 0x1A => some (.vor (decA w))
  | 0x1B => some (.vxor (decA w))
  | 0x1C => some (.vnot (decA w))
  | 0x1D => some (.vshl (decA w))
  | 0x1E => some (.vshr (decA w))
  | 0x1F => some (.vsar (decA w))
  | 0x20 => some (.vrot (decA w))
  | 0x21 => some (.vclz (decA w))
  | 0x22 => some (.vpopc (decA w))
  | 0x23 => some (.vbrev (decA w))
  | 0x24 => some (.vext (decB w))
  | 0x25 => some (.vins (decB w))
  | 0x26 => some (.vsel (decB w))
  | 0x27 => some (.vcmp (decA w))
  | 0x28 => some (.vmov (decA w))
  | 0x29 => some (.vmovi (decD w))
  | 0x2A => some (.vshfl (decB w))
  | 0x2B => some (.vbcast (decA w))
  | 0x2C => some (.vvote (decA w))
  | 0x2D => some (.vscan (decA w))
  | 0x2E => some (.vred (decA w))
  | 0x2F => some (.vcompact (decA w))
  | 0x30 => some (.sadd (decS w))
  | 0x31 => some (.ssub (decS w))
  | 0x32 => some (.smul (decS w))
  | 0x33 => some (.smad (decS w))
  | 0x34 => some (.sand (decS w))
  | 0x35 => some (.sor (decS w))
  | 0x36 => some (.sxor (decS w))
  | 0x37 => some (.sshl (decS w))
  | 0x38 => some (.sshr (decS w))
  | 0x39 => some (.ssar (decS w))
  | 0x3A => some (.smov (decS w))
  | 0x3B => some (.smovi (decD w))
  | 0x3C => some (.scmp (decS w))
  | 0x3D => some (.vtos (decSV w))
  | 0x3E => some (.stov (decSV w))
  | 0x40 => some (.fadd (decA w))
  | 0x41 => some (.fsub (decA w))
  | 0x42 => some (.fmul (decA w))
  | 0x43 => some (.ffma (decB w))
  | 0x44 => some (.fmin (decA w))
  | 0x45 => some (.fmax (decA w))
  | 0x46 => some (.fcmp (decA w))
  | 0x47 => some (.fclass (decA w))
  | 0x48 => some (.fround (decA w))
  | 0x49 => some (.fscale (decA w))
  | 0x4A => some (.fexp (decA w))
  | 0x4B => some (.fman (decA w))
  | 0x4C => some (.fcvt (decA w))
  | 0x4D => some (.fcvti (decA w))
  | 0x4E => some (.icvtf (decA w))
  | 0x4F => some (.fex2 (decA w))
  | 0x50 => some (.flg2 (decA w))
  | 0x51 => some (.frcp (decA w))
  | 0x52 => some (.frsq (decA w))
  | 0x53 => some (.fsqrt (decA w))
  | 0x54 => some (.fsin2 (decA w))
  | 0x55 => some (.fcos2 (decA w))
  | 0x56 => some (.fdot2 (decB w))
  | 0x57 => some (.hadd2 (decA w))
  | 0x58 => some (.hmul2 (decA w))
  | 0x59 => some (.hfma2 (decB w))
  | 0x5A => some (.fstat (decA w))
  | 0x60 => some (.br (decJ w))
  | 0x61 => some (.brd (decJ w))
  | 0x62 => some (.call (decJ w))
  | 0x63 => some (.ret (decJ w))
  | 0x64 =>
    match w.toNat / 2 ^ 32 % 32 with
    | 0 => some (.join (decJ w))
    | 1 => some (.joinAct (decJ w))
    | _ => none
  | 0x65 => some (.wait (decJ w))
  | 0x66 => some (.exit (decJ w))
  | 0x70 => some (.ld (decM w))
  | 0x71 => some (.st (decM w))
  | 0x72 => some (.sld (decM w))
  | 0x73 => some (.sst (decM w))
  | 0x74 => some (.lda (decM w))
  | 0x75 => some (.pf (decM w))
  | 0x76 => some (.vldt (decVldt w))
  | 0x77 => some (.vstt (decVldt w))
  | 0x80 => some (.atom (decAtom w))
  | 0x81 => some (.red (decAtom w))
  | 0x82 => some (.fence (decFence w))
  | 0x83 => some (.mon (decSrc w))
  | 0x84 => some (.mwait (decDstSrc w))
  | 0x90 => some (.cvdecl (decKey w))
  | 0x91 => some (.mma (decX w))
  | 0x92 => some (.mmas (decX w))
  | 0x93 => some (.mmaw (decCv w))
  | 0x94 => some (.orf (decG w))
  | 0x95 => some (.accld (decTile w))
  | 0x96 =>
    match w.toNat / 2 ^ 12 % 2 with
    | 0 => some (.accst (decTile w))
    | _ => some (.accstReg (decTile w))
  | 0x97 => some (.acczero (decTile w))
  | 0x98 => some (.spfence (decG w))
  | 0xA0 => some (.trec (decTrec w))
  | 0xA1 => some (.rfence (decG w))
  | 0xA2 => some (.qblk (decQblk w))
  | 0xA3 => some (.dqblk (decQblk w))
  | 0xA4 => some (.hadm (decQblk w))
  | 0xA5 => some (.sclq (decSclq w))
  | 0xB0 => some (.cpy (decCpy w))
  | 0xB1 => some (.cpys (decCpy w))
  | 0xB2 =>
    match w.toNat / 2 ^ 34 % 4 with
    | 0 => some (.cpyw (decDstSrc w))
    | 1 => some (.cpywWait (decDstSrc w))
    | 2 => some (.cpywRe (decDstSrc w))
    | _ => none
  | 0xB3 => some (.barr (decBar w))
  | 0xB4 => some (.barw (decBar w))
  | 0xB5 => some (.bara (decBar w))
  | 0xB6 => some (.bmask (decBar w))
  | 0xB7 => some (.qpush (decQpush w))
  | 0xB8 =>
    match w.toNat / 2 ^ 20 % 2 with
    | 0 => some (.qpop (decQpop w))
    | _ => some (.qpopO (decQpop w))
  | 0xB9 => some (.qdone (decG w))
  | 0xBA =>
    match w.toNat / 2 ^ 28 % 2 with
    | 0 => some (.dtk (decDtk w))
    | _ => some (.dtkEnd (decDtk w))
  | 0xC0 => some (.fld (decM w))
  | 0xC1 => some (.fst (decM w))
  | 0xC2 => some (.fatom (decAtom w))
  | 0xC3 => some (.ffence (decG w))
  | 0xC4 => some (.creduce (decCred w))
  | 0xC5 => some (.cbr (decCbr w))
  | 0xC6 => some (.cbrj (decKey w))
  | 0xD0 => some (.pbsel (decPbsel w))
  | 0xD1 => some (.accept (decAccept w))
  | 0xD2 => some (.pbclr (decG w))
  | 0xD3 => some (.pbcnt (decVd w))
  | 0xD4 => some (.rng (decRng w))
  | 0xD5 => some (.rngk (decKey w))
  | 0xE0 => some (.nop (decG w))
  | 0xE1 => some (.trap (decTrap w))
  | 0xE2 => some (.brk (decBrk w))
  | 0xE3 =>
    match w.toNat / 2 ^ 0 % 2 with
    | 0 => some (.sret (decG w))
    | _ => some (.sretEsc (decG w))
  | 0xE4 => some (.rdsr (decRdsr w))
  | 0xE5 => some (.wrsr (decWrsr w))
  | 0xE6 => some (.grow (decGrow w))
  | 0xE7 => some (.shrink (decGrow w))
  | 0xE8 => some (.sortk (decSort w))
  | 0xE9 => some (.wsw (decWsw w))
  | 0xEA => some (.tlbw (decCpy w))
  | 0xEB =>
    match w.toNat / 2 ^ 34 % 4 with
    | 0 => some (.tlbiVa (decSrc w))
    | 1 => some (.tlbiAsid (decSrc w))
    | 2 => some (.tlbiAll (decSrc w))
    | _ => none
  | 0xEC => some (.migrate (decMig w))
  | _ => none

/-- THE DECODER: the instruction of a word, or none where the word is illegal (R69). -/
def decode (w : BitVec 64) : Option Instr :=
  match decodeRaw w with
  | some i => if i.wellFormed && encode i == w then some i else none
  | none => none

/-- Eight bytes as the word they hold, little-endian (R3, R44); missing bytes are zero. -/
def wordOfBytes (bs : List Byte) : BitVec 64 :=
  BitVec.ofNat 64 ((bs.take 8).foldr (fun b acc => b.toNat + 256 * acc) 0)

/-- The bytes of a word, lowest address first (R3, R44). -/
def bytesOfWord (w : BitVec 64) : List Byte :=
  (List.range 8).map (fun k => BitVec.ofNat 8 (w.toNat / 2 ^ (8 * k)))

/-- The instruction at the head of a byte sequence, and the bytes after it. -/
def decodeBytes (bs : List Byte) : Option (Instr × List Byte) :=
  (decode (wordOfBytes bs)).map (fun i => (i, bs.drop 8))

/-- The instruction that the decoder reads from an instruction whose bits are `w`, numbered as the
opcode table numbers them: one word of 64 bits. -/
def decodeTableWord (_nbits w : Nat) : Option Instr :=
  (decodeBytes (bytesOfWord (BitVec.ofNat 64 w))).map Prod.fst

end Sys2Proof
end

