-- ==== Sys2Proof/Machine/Numbers.lean ====
section
/-! DEFINITION. Element formats and rounding (chapter "Number formats and arithmetic contracts"). A number
is taken apart into an exact value, computed with exactly, and rounded once at the end (R116). -/

namespace Sys2Proof.Machine

/-! ### Sticky flags (R133) -/

def flInvalid : BitVec 6 := 1
def flDivzero : BitVec 6 := 2
def flOverflow : BitVec 6 := 4
def flUnderflow : BitVec 6 := 8
def flInexact : BitVec 6 := 16
def flSat : BitVec 6 := 32
/-- The flag where the condition holds. -/
def flIf (c : Bool) (f : BitVec 6) : BitVec 6 := if c then f else 0

/-! ### Exact values -/

/-- Number of bits of a natural number. -/
def bitLen (n : Nat) : Nat := if n = 0 then 0 else Nat.log2 n + 1

/-- An exact dyadic number m * 2^e. -/
structure Dy where
  m : Int
  e : Int
  deriving DecidableEq, Repr

/-- m * 2^k for k at least 0. -/
def shlInt (m : Int) (k : Int) : Int := m * (2 ^ k.toNat : Nat)
def Dy.add (a b : Dy) : Dy :=
  if a.m = 0 then b else if b.m = 0 then a
  else let e := min a.e b.e; { m := shlInt a.m (a.e - e) + shlInt b.m (b.e - e), e := e }
def Dy.neg (a : Dy) : Dy := { m := -a.m, e := a.e }
def Dy.sub (a b : Dy) : Dy := a.add b.neg
def Dy.mul (a b : Dy) : Dy := { m := a.m * b.m, e := a.e + b.e }
/-- The number times 2^k. -/
def Dy.scale (a : Dy) (k : Int) : Dy := { m := a.m, e := a.e + k }
def Dy.ofNat (n : Nat) : Dy := { m := n, e := 0 }
def Dy.ofInt (n : Int) : Dy := { m := n, e := 0 }
/-- floor(log2 |a|) of a nonzero number. -/
def Dy.expo (a : Dy) : Int := (bitLen a.m.natAbs : Int) - 1 + a.e
/-- a < b, exactly. The exponents decide unless they are close, so the numbers are never spread out. -/
def Dy.lt (a b : Dy) : Bool :=
  if a.m = 0 then 0 < b.m
  else if b.m = 0 then a.m < 0
  else if a.m < 0 && 0 < b.m then true
  else if 0 < a.m && b.m < 0 then false
  else if a.expo = b.expo then (a.sub b).m < 0
  else if 0 < a.m then a.expo < b.expo else b.expo < a.expo
def Dy.le (a b : Dy) : Bool := !b.lt a
def Dy.abs (a : Dy) : Dy := { m := a.m.natAbs, e := a.e }

/-- The value of a float: the payload of a NaN is its fraction field, left-aligned to 52 bits. -/
inductive FVal where
  | nan (neg sig : Bool) (payload : Nat)
  | inf (neg : Bool)
  | fin (neg : Bool) (m : Nat) (e : Int)
  deriving DecidableEq, Repr

def FVal.isNan : FVal → Bool | .nan .. => true | _ => false
def FVal.isSig : FVal → Bool | .nan _ s _ => s | _ => false
def FVal.isInf : FVal → Bool | .inf _ => true | _ => false
def FVal.isZero : FVal → Bool | .fin _ m _ => m == 0 | _ => false
def FVal.neg : FVal → Bool | .nan n .. => n | .inf n => n | .fin n .. => n
/-- The number of a finite value. -/
def FVal.dy : FVal → Dy
  | .fin n m e => { m := if n then -(m : Int) else m, e := e }
  | _ => { m := 0, e := 0 }
/-- A finite value from a nonzero number. -/
def FVal.ofDy (d : Dy) : FVal := .fin (d.m < 0) d.m.natAbs d.e
def FVal.setNeg (n : Bool) : FVal → FVal
  | .nan _ s p => .nan n s p | .inf _ => .inf n | .fin _ m e => .fin n m e
def FVal.zero (n : Bool) : FVal := .fin n 0 0

/-! ### Formats (R106, R107, R110) -/

/-- A float format: exponent and fraction bits, bias, and what sets it apart. -/
structure FFmt where
  eb : Nat
  fb : Nat
  bias : Int
  /-- keeps subnormals (XF48 has none) -/
  sub : Bool
  /-- has infinities; E4M3 has none and its top exponent holds numbers -/
  hasInf : Bool
  /-- has signalling NaNs -/
  hasSig : Bool
  /-- subnormals are subject to the contract's flush (R121) -/
  flushes : Bool
  /-- the canonical NaN -/
  cnan : Nat
  deriving DecidableEq, Repr

def fF64 : FFmt := ⟨11, 52, 1023, true, true, true, false, 0x7FF8000000000000⟩
def fF32 : FFmt := ⟨8, 23, 127, true, true, true, true, 0x7FC00000⟩
def fF16 : FFmt := ⟨5, 10, 15, true, true, true, false, 0x7E00⟩
def fBf16 : FFmt := ⟨8, 7, 127, true, true, true, true, 0x7FC0⟩
def fE4m3 : FFmt := ⟨4, 3, 7, true, false, false, true, 0x7F⟩
def fE5m2 : FFmt := ⟨5, 2, 15, true, true, false, true, 0x7E⟩
/-- DESIGN CHOICE (log 159): no NaN of XF48 is signalling, whatever its top fraction bit; R110 does not say. -/
def fXf48 : FFmt := ⟨10, 37, 511, false, true, false, false, 0x7FF000000000⟩

/-- The float format of a code of R53; the codes that are not float give binary32. -/
def fmtOf (c : Nat) : FFmt :=
  match c with
  | 0x0 => fF64 | 0x2 => fF16 | 0x3 => fBf16 | 0x4 => fE4m3 | 0x5 => fE5m2 | 0xF => fXf48 | _ => fF32

/-- Exponent of the smallest normal. -/
def FFmt.emin (f : FFmt) : Int := 1 - f.bias
/-- Largest finite magnitude as significand and exponent. -/
def FFmt.maxDy (f : FFmt) : Dy :=
  if f.hasInf then { m := 2 ^ (f.fb + 1) - 1, e := (2 ^ f.eb - 2 : Int) - f.bias - f.fb }
  else { m := 2 ^ (f.fb + 1) - 2, e := (2 ^ f.eb - 1 : Int) - f.bias - f.fb }
/-- Code of the largest finite magnitude. -/
def FFmt.maxCode (f : FFmt) : Nat :=
  if f.hasInf then (2 ^ f.eb - 2) * 2 ^ f.fb + (2 ^ f.fb - 1) else 2 ^ (f.eb + f.fb) - 2
def FFmt.infCode (f : FFmt) : Nat := if f.hasInf then (2 ^ f.eb - 1) * 2 ^ f.fb else f.cnan
def FFmt.signBit (f : FFmt) (neg : Bool) : Nat := if neg then 2 ^ (f.eb + f.fb) else 0

/-- The value of a code. -/
def FFmt.decode (f : FFmt) (code : Nat) : FVal :=
  let fr := code % 2 ^ f.fb
  let ex := code / 2 ^ f.fb % 2 ^ f.eb
  let neg := code / 2 ^ (f.eb + f.fb) % 2 == 1
  if f.hasInf && ex == 2 ^ f.eb - 1 then
    if fr == 0 then .inf neg
    else .nan neg (f.hasSig && fr < 2 ^ (f.fb - 1)) (fr * 2 ^ (52 - f.fb))
  else if !f.hasInf && ex == 2 ^ f.eb - 1 && fr == 2 ^ f.fb - 1 then .nan neg false (fr * 2 ^ (52 - f.fb))
  else if ex == 0 then .fin neg (if f.sub then fr else 0) (f.emin - f.fb)
  else .fin neg (2 ^ f.fb + fr) ((ex : Int) - f.bias - f.fb)

/-- The value is a subnormal number of the format. -/
def FFmt.isSubnormal (f : FFmt) (v : FVal) : Bool :=
  match v with
  | .fin _ m e => m != 0 && f.sub && ({ m := (m : Int), e := e } : Dy).expo < f.emin
  | _ => false

/-! ### Rounding (R116, R117) -/

/-- Rounding modes; `odd` is that of R117. -/
inductive RMode where
  | rn | rz | rm | rp | odd
  deriving DecidableEq, Repr

/-- The mode of a rounding field (R56, R57). -/
def RMode.ofCode (c : Nat) : RMode :=
  match c with | 1 => .rz | 2 => .rm | 3 => .rp | _ => .rn

/-- m / 2^s rounded to an integer in the mode, and whether the value changed. A shift far beyond the bits
of m is cut short, which changes nothing. -/
def roundShift (mode : RMode) (neg : Bool) (m : Nat) (s : Int) : Nat × Bool :=
  if s ≤ 0 then (m * 2 ^ (-s).toNat, false)
  else
    let s := min s.toNat (bitLen m + 2)
    let q := m / 2 ^ s
    let r := m % 2 ^ s
    if r == 0 then (q, false)
    else
      let half := 2 ^ (s - 1)
      let up := match mode with
        | .rn => decide (half < r) || (r == half && q % 2 == 1)
        | .rz => false
        | .rm => neg
        | .rp => !neg
        | .odd => q % 2 == 0
      (if up then q + 1 else q, true)

/-- A number rounded to `p` significant bits with unbounded exponent range. -/
def Dy.round (mode : RMode) (p : Nat) (a : Dy) : Dy × Bool :=
  let n := a.m.natAbs
  let s : Int := (bitLen n : Int) - p
  if s ≤ 0 then (a, false)
  else
    let (q, ch) := roundShift mode (a.m < 0) n s
    ({ m := if a.m < 0 then -(q : Int) else q, e := a.e + s }, ch)

/-- rnW of R146. -/
def Dy.rnW (w : Nat) (a : Dy) : Dy := (a.round .rn w).1

/-- The code of a nonzero magnitude that the format holds exactly: q * 2^e. -/
def FFmt.pack (f : FFmt) (neg : Bool) (q : Nat) (e : Int) : Nat :=
  let d : Dy := { m := q, e := e }
  if q == 0 then f.signBit neg
  else if d.expo < f.emin then
    let sh : Int := e - (f.emin - f.fb)
    f.signBit neg + q * 2 ^ sh.toNat / 2 ^ (-sh).toNat
  else
    let ex := (d.expo + f.bias).toNat
    let sh : Int := f.fb - (d.expo - e)
    let fr := q * 2 ^ sh.toNat / 2 ^ (-sh).toNat - 2 ^ f.fb
    f.signBit neg + ex * 2 ^ f.fb + fr

/-- Code and flags of an overflow (R116, R108). -/
def FFmt.overflow (f : FFmt) (mode : RMode) (neg : Bool) : Nat × BitVec 6 :=
  let toInf := match mode with
    | .rn | .odd => true
    | .rz => false
    | .rm => neg
    | .rp => !neg
  if toInf then (if f.hasInf then f.signBit neg + f.infCode else f.cnan, flOverflow ||| flInexact)
  else (f.signBit neg + f.maxCode, flOverflow ||| flInexact)

/-- ROUND a nonzero number m * 2^e with a sign to the format (R116): code, flags, and whether it
overflowed. `flush` is the contract's flush of subnormal results. DEDUCED (log 158): tininess is judged after rounding for XF48
too, so a value just below 2^-510 that rounds to 2^-510 is inexact and does not underflow, though R143 has values below it
become zero. -/
def FFmt.round (f : FFmt) (flush : Bool) (mode : RMode) (neg : Bool) (m : Nat) (e : Int) :
    Nat × BitVec 6 × Bool :=
  if m == 0 then (f.signBit neg, 0, false)
  else
    let (u, ch) := Dy.round mode (f.fb + 1) { m := if neg then -(m : Int) else m, e := e }
    if f.maxDy.lt u.abs then let (c, fl) := f.overflow mode neg; (c, fl, true)
    else if u.expo < f.emin then
      if !f.sub || (f.flushes && flush) then (f.signBit neg, flUnderflow ||| flInexact, false)
      else
        let (q, ch') := roundShift mode neg m (f.emin - f.fb - e)
        (f.pack neg q (f.emin - f.fb), flIf ch' (flUnderflow ||| flInexact), false)
    else (f.pack neg u.m.natAbs u.e, flIf ch flInexact, false)

/-- Round a number to the format; an exact zero keeps the sign given. -/
def FFmt.roundDy (f : FFmt) (flush : Bool) (mode : RMode) (zeroNeg : Bool) (d : Dy) : Nat × BitVec 6 × Bool :=
  if d.m = 0 then (f.signBit zeroNeg, 0, false) else f.round flush mode (d.m < 0) d.m.natAbs d.e

/-- Round-to-odd into XF48 (R117), as a value. -/
def roundOddXf48 (v : FVal) : FVal :=
  match v with
  | .nan .. => .nan false false (2 ^ 51)
  | .inf n => .inf n
  | .fin n m e =>
    if m == 0 then .fin n 0 0
    else
      let d : Dy := { m := m, e := e }
      if 511 < d.expo then .inf n
      else if d.expo < -510 then .fin n 0 0
      else
        let (u, _) := Dy.round .odd 38 d
        .fin n u.m.natAbs u.e

/-- The canonical NaN as a value. -/
def FVal.cnan : FVal := .nan false false (2 ^ 51)

/-- Code of a value that the format holds exactly (or a special value). -/
def FFmt.encodeExact (f : FFmt) (v : FVal) : Nat :=
  match v with
  | .nan .. => f.cnan
  | .inf n => if f.hasInf then f.signBit n + f.infCode else f.cnan
  | .fin n m e => (f.round false .rn n m e).1

/-! ### Contracts (R121) -/

/-- Subnormal inputs are flushed. -/
def flushIn (contract : Nat) : Bool := contract == 0x100 || contract == 0x200
/-- Subnormal results of the vector unit are flushed. -/
def flushVec (contract : Nat) : Bool := contract == 0x100 || contract == 0x200
/-- Subnormal results of the matrix engine and the reduction units are flushed. -/
def flushMat (contract : Nat) : Bool := contract == 0x100 || contract == 0x200 || contract == 0x300
/-- The NaN of an operand is kept. -/
def keepsNan (contract : Nat) : Bool := contract == 0x100 || contract == 0x200

/-- A source code read with the contract's input flush (R132). -/
def FFmt.read (f : FFmt) (contract : Nat) (code : Nat) : FVal :=
  let v := f.decode code
  if f.flushes && flushIn contract && f.isSubnormal v then .fin v.neg 0 0 else v

/-- A NaN as a code of the destination, quieted, with the payload bits that fit (R121, R143). -/
def FFmt.quiet (f : FFmt) (neg : Bool) (payload : Nat) : Nat :=
  let fr := payload / 2 ^ (52 - f.fb)
  f.signBit neg + (2 ^ f.eb - 1) * 2 ^ f.fb + (if fr / 2 ^ (f.fb - 1) % 2 == 1 then fr else fr + 2 ^ (f.fb - 1))

/-- The NaN result of the vector unit (R121, R132): the first NaN operand quieted under 0x0100 and 0x0200,
else the canonical NaN. FP8 destinations receive the canonical NaN. -/
def FFmt.nanOf (f : FFmt) (contract : Nat) (ops : List FVal) : Nat :=
  match ops.find? FVal.isNan with
  | some (.nan n _ p) => if keepsNan contract && f.hasSig then f.quiet n p
      else if keepsNan contract && f.fb == 37 then f.quiet n p else f.cnan
  | _ => f.cnan

/-- Invalid where an operand is a signalling NaN. -/
def sigFlag (ops : List FVal) : BitVec 6 := flIf (ops.any FVal.isSig) flInvalid

/-- The sign of an exact zero sum (R116): all addends zeros of one sign keep it, else +0, or −0 under
`.rm`. -/
def zeroSumNeg (mode : RMode) (addends : List FVal) : Bool :=
  if addends.all (fun v => v.isZero && v.neg) then true
  else if addends.all (fun v => v.isZero && !v.neg) then false
  else mode == .rm

/-- An exact product as an addend: NaN, infinity or number; `none` where 0 meets ∞. -/
def mulVal (a b : FVal) : Option FVal :=
  match a, b with
  | .nan .., _ => some a
  | _, .nan .. => some b
  | .inf n, b => if b.isZero then none else some (.inf (n != b.neg))
  | a, .inf n => if a.isZero then none else some (.inf (n != a.neg))
  | .fin n m e, .fin n' m' e' => some (.fin (n != n') (m * m') (e + e'))

/-- One rounding of an exact sum of addends to the format under the vector rules: `bad` says that a product
of 0 and ∞ stood among them, `ops` are the operands in NaN order (R135, R141). DESIGN CHOICE (log 157): where an operand is a
quiet NaN, infinities of opposite signs among the addends set no invalid; R141 says it for a product of 0 and ∞ only. -/
def FFmt.sum (f : FFmt) (contract : Nat) (mode : RMode) (bad : Bool) (ops addends : List FVal) :
    Nat × BitVec 6 :=
  if bad || ops.any FVal.isNan then (f.nanOf contract ops, flIf bad flInvalid ||| sigFlag ops)
  else
    match addends.filter FVal.isInf with
    | v :: vs =>
      if vs.all (fun w => w.neg == v.neg) then (f.signBit v.neg + f.infCode, 0)
      else (f.nanOf contract [], flInvalid)
    | [] =>
      let d := addends.foldl (fun acc v => acc.add v.dy) ({ m := 0, e := 0 } : Dy)
      let (c, fl, _) := f.roundDy (flushVec contract) mode (zeroSumNeg mode addends) d
      (c, fl)

/-- `fadd` (R135) on codes. -/
def FFmt.fadd (f : FFmt) (contract : Nat) (mode : RMode) (a b : Nat) : Nat × BitVec 6 :=
  let x := f.read contract a
  let y := f.read contract b
  f.sum contract mode false [x, y] [x, y]

/-- The value with its sign turned; a NaN operand keeps its own. -/
def FVal.negate (v : FVal) : FVal := match v with | .nan .. => v | v => v.setNeg (!v.neg)

/-- `fsub` (R135): a + (−b). -/
def FFmt.fsub (f : FFmt) (contract : Nat) (mode : RMode) (a b : Nat) : Nat × BitVec 6 :=
  let x := f.read contract a
  let y := f.read contract b
  f.sum contract mode false [x, y] [x, y.negate]

/-- `fmul` (R135). -/
def FFmt.fmul (f : FFmt) (contract : Nat) (mode : RMode) (a b : Nat) : Nat × BitVec 6 :=
  let x := f.read contract a
  let y := f.read contract b
  match mulVal x y with
  | some (.fin n m e) => let (c, fl, _) := f.round (flushVec contract) mode n m e; (c, fl)
  | some (.inf n) => (f.signBit n + f.infCode, 0)
  | some (.nan ..) => (f.nanOf contract [x, y], sigFlag [x, y])
  | none => (f.nanOf contract [], flInvalid)

/-- `ffma` (R135): exact product, one rounding. -/
def FFmt.ffma (f : FFmt) (contract : Nat) (mode : RMode) (a b c : Nat) : Nat × BitVec 6 :=
  let x := f.read contract a
  let y := f.read contract b
  let z := f.read contract c
  match mulVal x y with
  | some p => f.sum contract mode false [x, y, z] [p, z]
  | none => f.sum contract mode true [x, y, z] []

/-- −0 below +0, numbers by value, infinities at the ends. No NaN. -/
def FVal.lt (a b : FVal) : Bool :=
  match a, b with
  | .inf n, .inf n' => n && !n'
  | .inf n, _ => n
  | _, .inf n => !n
  | .fin n m e, .fin n' m' e' =>
    if m == 0 && m' == 0 then n && !n' else (FVal.fin n m e).dy.lt (FVal.fin n' m' e').dy
  | _, _ => false

/-- Equality of numbers: −0 equals +0. No NaN. -/
def FVal.eq (a b : FVal) : Bool := !a.lt b && !b.lt a || (a.isZero && b.isZero)

/-- Code of a value after the input flush, for results that are one of the operands. -/
def FFmt.recode (f : FFmt) (v : FVal) : Nat :=
  match v with
  | .nan n _ p => f.signBit n + (2 ^ f.eb - 1) * 2 ^ f.fb + p / 2 ^ (52 - f.fb)
  | v => f.encodeExact v

/-- `fmin` and `fmax` (R136). -/
def FFmt.fminmax (f : FFmt) (contract : Nat) (isMax : Bool) (a b : Nat) : Nat × BitVec 6 :=
  let x := f.read contract a
  let y := f.read contract b
  let fl := sigFlag [x, y]
  if x.isNan && y.isNan then (f.nanOf contract [x, y], fl)
  else if x.isNan then (f.recode y, fl)
  else if y.isNan then (f.recode x, fl)
  else (f.recode (if (if isMax then x.lt y else y.lt x) then y else x), fl)

/-- `fcmp` by condition code (R137). -/
def FFmt.fcmp (f : FFmt) (contract : Nat) (cond : Nat) (a b : Nat) : Bool × BitVec 6 :=
  let x := f.read contract a
  let y := f.read contract b
  let un := x.isNan || y.isNan
  let sig := sigFlag [x, y]
  let lt := !(x.isZero && y.isZero) && x.lt y
  let gt := !(x.isZero && y.isZero) && y.lt x
  match cond with
  | 0 => (!un && x.eq y, sig)
  | 1 => (un || !x.eq y, sig)
  | 2 => (!un && lt, flIf un flInvalid)
  | 3 => (!un && !gt, flIf un flInvalid)
  | 4 => (!un && gt, flIf un flInvalid)
  | 5 => (!un && !lt, flIf un flInvalid)
  | 6 => (un, sig)
  | _ => (!un, sig)

/-- `fclass` (R138), on the raw operand. -/
def FFmt.fclass (f : FFmt) (a : Nat) : Nat :=
  match f.decode a with
  | .nan _ s _ => if s then 2 ^ 8 else 2 ^ 9
  | .inf n => if n then 2 ^ 0 else 2 ^ 7
  | .fin n m e =>
    if m == 0 then (if n then 2 ^ 3 else 2 ^ 4)
    else if f.isSubnormal (.fin n m e) then (if n then 2 ^ 2 else 2 ^ 5)
    else (if n then 2 ^ 1 else 2 ^ 6)

/-- `fround` (R139). -/
def FFmt.fround (f : FFmt) (contract : Nat) (mode : RMode) (a : Nat) : Nat × BitVec 6 :=
  match f.read contract a with
  | .nan n s p => (f.nanOf contract [.nan n s p], flIf s flInvalid)
  | .inf n => (f.signBit n + f.infCode, 0)
  | .fin n m e =>
    if 0 ≤ e then (f.encodeExact (.fin n m e), 0)
    else (f.encodeExact (.fin n (roundShift mode n m (-e)).1 0), 0)

/-- `fscale` (R140). -/
def FFmt.fscale (f : FFmt) (contract : Nat) (mode : RMode) (a : Nat) (b : Int) : Nat × BitVec 6 :=
  match f.read contract a with
  | .nan n s p => (f.nanOf contract [.nan n s p], flIf s flInvalid)
  | .inf n => (f.signBit n + f.infCode, 0)
  | .fin n m e => let (c, fl, _) := f.round (flushVec contract) mode n m (e + b); (c, fl)

/-- `fexp` (R140). -/
def FFmt.fexp (f : FFmt) (contract : Nat) (a : Nat) : Nat × BitVec 6 :=
  match f.read contract a with
  | .nan n s p => (f.nanOf contract [.nan n s p], flIf s flInvalid)
  | .inf _ => (f.infCode, 0)
  | .fin _ m e =>
    if m == 0 then (f.signBit true + f.infCode, flDivzero)
    else
      let x := ({ m := m, e := e } : Dy).expo
      (f.encodeExact (FVal.ofDy (Dy.ofInt x)), 0)

/-- `fman` (R140). -/
def FFmt.fman (f : FFmt) (contract : Nat) (a : Nat) : Nat × BitVec 6 :=
  match f.read contract a with
  | .nan n s p => (f.nanOf contract [.nan n s p], flIf s flInvalid)
  | .inf n => (f.signBit n + f.infCode, 0)
  | .fin n m _ =>
    if m == 0 then (f.signBit n, 0)
    else (f.encodeExact (.fin n m (1 - (bitLen m : Int))), 0)

/-! ### DP8 (R112 to R114) and scale codes (R115) -/

/-- Sixty-fourths of a term of a DP8 code. -/
def dp8Term (s k : Nat) : Int := if k == 7 then 0 else (if s == 1 then -1 else 1) * (2 ^ (6 - k) : Nat)
/-- Sixty-fourths of a DP8 code. -/
def dp8Units (c : Nat) : Int := dp8Term (c / 128 % 2) (c / 16 % 8) + dp8Term (c / 8 % 2) (c % 8)
/-- Nonzero terms of a DP8 code. -/
def dp8Terms (c : Nat) : Nat := (if c / 16 % 8 == 7 then 0 else 1) + (if c % 8 == 7 then 0 else 1)
/-- The order of R113 among codes of one value: fewest terms, then the preferred place, then the code. -/
def dp8Rank (c : Nat) : Nat :=
  let pref := match dp8Terms c with
    | 1 => c / 16 % 8 != 7
    | 2 => c / 16 % 8 ≤ c % 8
    | _ => true
  (dp8Terms c * 2 + (if pref then 0 else 1)) * 256 + c
/-- The canonical code of a number of sixty-fourths, if it is a DP8 value. -/
def dp8Code (u : Int) : Option Nat :=
  (List.range 256).foldl (fun best c =>
    if dp8Units c == u then
      match best with
      | none => some c
      | some b => if dp8Rank c < dp8Rank b then some c else some b
    else best) none
/-- The code of zero in a format of R53 (R112, R113). -/
def zeroOf (fmt : Nat) : Nat := if fmt == 6 then 0x77 else 0
/-- The DP8 code's value. -/
def dp8Value (c : Nat) : FVal := .fin (dp8Units c < 0) (dp8Units c).natAbs (-6)

/-- The largest DP8 value at most, and the smallest at least, a number of units, going outward. -/
def dp8Near (up : Bool) (fuel : Nat) (u : Int) : Int :=
  match fuel with
  | 0 => u
  | n + 1 => if (dp8Code u).isSome then u else dp8Near up n (if up then u + 1 else u - 1)

/-- floor of a number times 2^k. -/
def Dy.floorAt (d : Dy) (k : Int) : Int :=
  let e := d.e + k
  if 0 ≤ e then shlInt d.m e
  else
    let s := min (-e).toNat (bitLen d.m.natAbs + 1)
    d.m / ((2 ^ s : Nat) : Int)

/-- Quantise an exact number to DP8 (R114). `sticky` says that a discarded positive part lies above `d`
(a quotient). -/
def dp8Quantise (v : FVal) (sticky : Bool) : Nat × BitVec 6 :=
  match v with
  | .nan .. => (0x77, flInvalid)
  | .inf n => (if n then 0x88 else 0x00, flSat)
  | .fin n m e =>
    let a : Dy := { m := m, e := e }
    let two : Dy := { m := 2, e := 0 }
    if two.lt a || (sticky && !a.lt two) then (if n then 0x88 else 0x00, flSat)
    else
      let u := a.floorAt 6
      let exact := !sticky && (({ m := u, e := -6 } : Dy).sub a).m == 0
      let lo := dp8Near false 130 u
      let hi := dp8Near true 130 (if exact then u else u + 1)
      let code (x : Int) : Nat := ((dp8Code (if n then -x else x)).getD 0x77)
      if exact && lo == u then (code u, 0)
      else
        let twice : Dy := { m := lo + hi, e := -7 }
        let below := a.lt twice
        let above := twice.lt a || (sticky && !a.lt twice)
        let x := if below then lo else if above then hi
          else if dp8Terms (code hi) < dp8Terms (code lo) then hi else lo
        (code x, flInexact)

/-- scale8 of a code (R115). -/
def scale8 (c : Nat) : Dy :=
  if c / 8 == 0 then { m := (c % 8 : Nat), e := -17 }
  else { m := ((8 + c % 8 : Nat) : Int), e := (c / 8 : Int) - 18 }

/-- Scale code of a block (R188): code and flags. `fmax` is a number of units of one. -/
def scaleCode (amax s2 : FVal) (fmax : Nat) : Nat × BitVec 6 :=
  if amax.isNan || s2.isNan || s2.isInf || s2.neg || s2.isZero then (0xFF, flInvalid)
  else if amax.isInf then (0xFF, flSat)
  else
    let lim (c : Nat) : Dy := ((Dy.ofNat fmax).mul (scale8 c)).mul s2.dy
    match (List.range 256).find? (fun c => amax.dy.le (lim c)) with
    | some c => (c, 0)
    | none => (0xFF, flSat)

/-! ### Quotients and roots -/

/-- a / b for natural numbers as a number of `bits` or more significant bits whose last bit is forced to 1
when something was discarded, so that a later rounding is that of the exact quotient. -/
def quotJam (bits : Nat) (a b : Nat) : Nat × Int :=
  let k := bits + bitLen b + 2 - min (bitLen a) (bits + bitLen b + 2)
  let n := a * 2 ^ k
  let q := n / b
  let jam := if n % b == 0 then 0 else 1
  (2 * q + jam, -(k : Int) - 1)

/-- Newton's iteration for the integer square root, from above. -/
def isqrtLoop (fuel n x : Nat) : Nat :=
  match fuel with
  | 0 => x
  | k + 1 => let y := (x + n / x) / 2; if y < x then isqrtLoop k n y else x

/-- floor of the square root. -/
def isqrt (n : Nat) : Nat := if n == 0 then 0 else isqrtLoop (bitLen n + 2) n (2 ^ ((bitLen n + 1) / 2))

/-- The square root of m * 2^e with at least 128 significant bits, the last forced to 1 when inexact. -/
def sqrtJam (m : Nat) (e : Int) : Nat × Int :=
  let k : Nat := 256 + (if (e % 2 == 0) then 0 else 1)
  let n := m * 2 ^ k
  let r := isqrt n
  (2 * r + (if r * r == n then 0 else 1), (e - k) / 2 - 1)

/-- 1 / sqrt(m * 2^e) with at least 64 significant bits, the last forced to 1 when inexact. -/
def rsqrtJam (m : Nat) (e : Int) : Nat × Int :=
  let (m, e) := if e % 2 == 0 then (m, e) else (2 * m, e - 1)
  let k := bitLen m + 70
  let t := 2 ^ (2 * k) / m
  let r := isqrt t
  (2 * r + (if r * r * m == 2 ^ (2 * k) then 0 else 1), -(k : Int) - e / 2 - 1)

end Sys2Proof.Machine
end

