-- ==== Sys2Proof/Machine/State.lean ====
section
/-! DEFINITION. The state of a Vilrov V4: everything that the specification gives the machine, as plain
data. `State.cur` is the wave whose step comes next and `State.rest` are the other resident waves, so the
wave that issues is one field. A map by number is a list of pairs with rising keys that lists no default.
The model's own fields are `freeCtr`, `sched`, `nextGrid` and `lanesNow`. -/

namespace Sys2Proof.Machine

/-- A finite map with rising keys. -/
abbrev Map (α : Type) := List (Nat × α)

/-! ### Lanes -/

/-- What a lane does (R17, R405). -/
inductive LaneSt where
  /-- ready -/
  | run
  | exited
  /-- parked on rejoin mask `k` (R21) -/
  | parked (k : Nat)
  /-- asleep in `mwait`: destination register and deadline (R240) -/
  | mwait (sd : Nat) (deadline : Nat)
  /-- asleep in `cpyw`: the waiting form, and the ticket (R220) -/
  | cpyw (waits : Bool) (ticket : Word64)
  /-- waiting at Turnstile name `n` for generation `gen`; `again` when it has still to arrive in the next
  generation, `both` when it then waits on it, as `bara` (R244, R405) -/
  | bar (n gen : Nat) (again both : Bool)
  /-- arrived at `sortk` (R40) -/
  | sort
  /-- stands at `sret` until every lane does or is parked (R277) -/
  | sret
  /-- stopped for the rest of a run-ahead (R210) -/
  | stopped
  deriving DecidableEq, Repr

/-- One lane of a wave with the thread that occupies it (R11, R15). -/
structure Lane where
  tid : Nat
  /-- next instruction, in words (R16) -/
  vpc : Nat
  /-- header and last word of the block the lane stands in (R16, R49) -/
  blk : Nat
  blkEnd : Nat
  /-- the block was entered by passing into it and its header is not well formed (R49) -/
  bad : Bool
  st : LaneSt
  /-- issuing set of the instruction at which the lane waits (R282) -/
  iss : BitVec 64
  /-- predicates p0 to p14; bit 15 is kept clear -/
  p : BitVec 16
  v : Map Elem
  /-- registers written since the last `orf` of the wave, each with its value before the last write of them (R164) -/
  old : Map Elem
  /-- sticky arithmetic status (R133) -/
  flags : BitVec 6
  /-- draw counts of the streams (R258) -/
  draws : Map (BitVec 32)
  accepted : BitVec 16
  proposed : BitVec 16
  /-- shadow elements of the two proposal banks, by register of the window, and the written bits of the
  current bank (R250) -/
  sh0 : Map Elem
  sh1 : Map Elem
  written : List Nat
  /-- Turnstile names at which the thread has arrived in the current generation (R242) -/
  arr : List Nat
  /-- registers and predicates whose value is unknown to the run-ahead (R210, R267) -/
  unk : List Nat
  unkP : BitVec 16
  /-- trap bank: the predicates and the barrier wait saved at trap entry (R274, R405) -/
  bankP : BitVec 16
  bankBar : Option LaneSt
  /-- where the lane stood at the entry: `vpc`, `blk`, `blkEnd`, `bad` -/
  bankPos : Nat × Nat × Nat × Bool
  deriving DecidableEq, Repr

/-! ### Waves -/

/-- A rejoin mask (R21). -/
structure Rejoin where
  armed : Bool
  e : BitVec 64
  a : BitVec 64
  deriving DecidableEq, Repr

/-- Fragment registers of a signature that has not been observed (R165): convergence register and generation, the tile,
size and pair of the operation, the members' threads, the registers, and whether one of them has been written. -/
structure Watch where
  cv : Nat
  gen : Nat
  tile : Nat
  size : Nat
  pair : Bool
  tids : List Nat
  regs : List Nat
  hit : Bool
  deriving DecidableEq, Repr

/-- The state of a wave that a run-ahead restores (R210, R265, R288): what pre-emption saves and
instructions of the run-ahead change. -/
structure Arch where
  lanes : List Lane
  s : Map Word64
  /-- empty vector and scalar registers (R30) -/
  vEmpty : List Nat
  sEmpty : List Nat
  /-- scalar registers unknown to the run-ahead -/
  unkS : List Nat
  alloc : Nat
  /-- written-groups mask (R51) -/
  wgrp : BitVec 16
  /-- signatures whose completion no `mmaw` of the wave has observed (R165) -/
  watch : List Watch
  rejoin : List Rejoin
  pbase : Nat
  bank : Bool
  keys : List Word64
  wct : Nat
  step : Bool
  dbg : Bool
  /-- issue counts by `vpc` and the lanes that issue under the override (R20) -/
  counts : Map Nat
  ovr : List Nat
  deriving DecidableEq, Repr

/-- A membership register and its bits of `$cbst` (R261, R333). -/
structure Memb where
  /-- slot and use number of the communicator, or unbound -/
  comm : Option (Nat × Nat)
  rank : Nat
  g : Nat
  h : Nat
  /-- hint of the vote that awaits its outcome, and the time of the vote -/
  vote : Option Bool
  votedAt : Nat
  /-- header and length of the block that the vote's label names -/
  tgt : Nat
  tgtLen : Nat
  /-- an outcome that arrived while the wave did not run ahead, until the `cbr` issues again (R264, R270) -/
  arrived : Option Bool
  /-- the collective-stall trap has been taken: the bound counts afresh from the next issue (R269, R341) -/
  stalled : Bool
  redStalled : Bool
  /-- a `creduce` of generation `h - 1` waits, and the time it began -/
  red : Bool
  redAt : Nat
  lost : Bool
  outcome : Bool
  pending : Bool
  deriving DecidableEq, Repr

/-- The monitor (R239, R241). `line` is the location of the first byte of the watched line. -/
structure Monitor where
  armed : Bool
  line : Nat
  trig : Bool
  lost : Bool
  deriving DecidableEq, Repr

/-- The bytes that a pending load reads from memory. `late`: a fall-back access (class 3, R233), of which each byte is read at
its own instant, at the return at the latest; `got` are those that have been read, by location. Else they were read at the
issue, and may be read anew while the load is `Pend.moves` (R227). `zero`: poisoned bytes read as zero (policy 2, R214). -/
structure PSrc where
  locs : List Nat
  late : Bool
  zero : Bool
  got : List (Nat × Byte)
  deriving DecidableEq, Repr

/-- One element that a pending producer will write: lane, register, value, and where it is read. -/
structure PElem where
  lane : Nat
  reg : Nat
  val : Elem
  src : PSrc
  deriving DecidableEq, Repr

/-- A pending producer (R31). -/
structure Pend where
  id : Nat
  /-- writes a scalar register: its number, its value, and where it is read -/
  scalar : Option (Nat × Word64 × PSrc)
  elems : List PElem
  regs : List Nat
  /-- issued by a speculation -/
  spec : Bool
  /-- a fabric load or atomic: it is written by responses, not by a data return -/
  fabric : Bool
  /-- its main-path reads may still take place: no later main-path access of the wave has been performed (R227) -/
  moves : Bool
  /-- how many of the wave's pending writes, from the first, are earlier than it -/
  before : Nat
  /-- the context's poison count has been incremented for it (R214) -/
  counted : Bool
  deriving DecidableEq, Repr

/-- What a pending write does at its location. -/
inductive PWKind where
  | store
  /-- a reduction performed when it becomes visible (R236): operation, width, operand, contract, and a number that its
  lanes share and other instructions do not -/
  | rmw (op : Nat) (wide : Bool) (v : Word64) (contract ins : Nat)
  /-- a drain of the matrix engine, ordered by `spfence` only (R176) -/
  | drain
  deriving DecidableEq, Repr

/-- A pending write (R225): bytes by location that are not yet visible. `fb` marks class 3 (R233). -/
structure PWrite where
  bytes : List (Nat × Byte)
  kind : PWKind
  fb : Bool
  /-- some of its bytes have become visible already -/
  part : Bool
  deriving DecidableEq, Repr

/-- A store held by a speculation (R265, R266, R288). -/
structure Held where
  bytes : List (Nat × Byte)
  fb : Bool
  /-- the bytes are unknown to the run-ahead (R210) -/
  unk : Bool
  deriving DecidableEq, Repr

/-- Rows of a copy transfer: destination, source and length of each row (R215). -/
structure CopyRow where
  dst : Nat
  src : Nat
  len : Nat
  deriving DecidableEq, Repr

/-- Where a byte of a transfer lies: a location of memory or scratchpad, or a byte of the on-chip physical map
(R199, R200). -/
inductive CopyByte where
  | mem (loc : Nat)
  | map (addr : Nat)
  deriving DecidableEq, Repr

/-- Where a transfer stands (R218). -/
inductive CopyPhase where
  /-- waits for the earlier writes of the wave -/
  | waiting
  /-- waits for the fault service; the entry is malformed -/
  | faulted (addr : Nat) (malformed : Bool)
  /-- checked: destination, source and generic source address of each byte -/
  | started (moves : List (CopyByte × CopyByte × Nat))
  /-- every byte written, at C; a `cpyw` that slept on the slot still reads C -/
  | complete (c : Nat)
  /-- ended with an error: cause, first failing address, and the page stamp of a contract mix, the malformed mark of a page
  fault, or the mark of an uncorrectable error in a source element (R211) -/
  | failed (cause addr info : Nat)
  deriving DecidableEq, Repr

/-- A copy slot in use (R217). -/
structure Copy where
  ticket : Word64
  promise : Nat
  rows : List CopyRow
  /-- registers of the issuing wave that the transfer writes (R219) -/
  regDst : List Nat
  /-- how many of the wave's pending writes, from the first, are earlier than the transfer (R218) -/
  before : Nat
  /-- own registers that the transfer no longer writes: an exchange of lanes has filled them (R39) -/
  dropped : List Nat
  /-- issued in a privileged mode -/
  priv : Bool
  /-- its masked stamp mismatch has been counted (R129) -/
  counted : Bool
  /-- granules of memory written so far -/
  written : List Nat
  /-- granules of memory written in part: the locations written, and whether some of the data were poisoned (R237) -/
  torn : List (Nat × List Nat × Bool)
  phase : CopyPhase
  deriving DecidableEq, Repr

/-- The lanes that a fabric request serves, with the byte addresses and registers of each: used to write
the response and to report a failure (R312, R315). -/
structure FabUse where
  lane : Nat
  tid : Nat
  ea : Nat
  reg : Nat
  size : Nat
  /-- result of an atomic: the lanes before it, combined (R314) -/
  fold : List Word64
  deriving DecidableEq, Repr

/-- A fabric request of a wave that has no response yet (R307, R322). -/
structure FabOut where
  req : FabReq
  /-- it holds a slot and has been sent; else it waits for one -/
  sent : Bool
  uses : List FabUse
  /-- the pending producer that it writes, for a load or an atomic -/
  pend : Option Nat
  /-- offset and word of the fabric instruction, and its
  place in the order of issue (R315) -/
  offset : Nat
  word : Word64
  seq : Nat
  /-- how many of the wave's pending writes, from the first, are earlier, and the number of the wave's next load: a request to the
  wave's own device comes after them at each location (R233) -/
  before : Nat
  loads : Nat
  /-- deadline held by a wait notice (R322) -/
  held : Bool
  /-- sent again once after a timeout (R323) -/
  resent : Bool
  spec : Bool
  /-- issued in trap mode -/
  tm : Bool
  deriving DecidableEq, Repr

/-- A fence interval towards one device (R317, R320). `replay` are the stores of the interval in the order
sent. -/
structure Interval where
  num : Nat
  count : Nat
  bad : Bool
  replay : List FabOut
  /-- the count query of the fence in progress: not sent, sent, or answered -/
  query : Option (Option Nat)
  /-- the stores of a mismatched interval have been replayed for this fence -/
  replayed : Bool
  deriving DecidableEq, Repr

/-- A fabric instruction at which lanes wait until its requests have been sent (R307): where it stands, its
issuing set and its place in the order of issue. -/
structure FabAt where
  offset : Nat
  tm : Bool
  iss : List Nat
  seq : Nat
  deriving DecidableEq, Repr

/-- A failed request, waiting to be reported, or reported and waiting for `sret` (R315, R316). -/
structure FabFail where
  out : FabOut
  cause : Nat
  stamp : Nat
  reported : Bool
  deriving DecidableEq, Repr

/-- An instruction that has been performed in part: where it stands, and numbered values. Of an atomic or a hand-over of tokens they
are those of the lanes in which it has been performed (R236, R384); of a tensor instruction, what it has counted, and the
locations whose writes it awaits (R189). -/
structure Progress where
  offset : Nat
  tm : Bool
  lanes : List (Nat × Nat)
  deriving DecidableEq, Repr

/-- Why a wave does not issue (R25). -/
inductive Why where
  | none
  | regs | growing | tlb | pageFault | release | copySlot | engine | cv | slots | room | record
  | outcome | reduction | oldest | trapRecord | reply | drain | migrating | staging
  deriving DecidableEq, Repr

/-- A page-fault batch (R209): pages in order with the malformed mark, and the instructions that the
run-ahead has issued. -/
structure Batch where
  pages : List (Nat × Bool)
  /-- pages of the faulting instruction itself -/
  base : Nat
  /-- first faulting address, faulting lanes and offset of the instruction -/
  first : Nat
  lanes : List Nat
  /-- the cause that each lane of the instruction met (R275) -/
  laneCause : List (Nat × Nat)
  offset : Nat
  issued : Nat
  running : Bool
  deriving DecidableEq, Repr

/-- An open ordered task (R287, R288). -/
structure Task where
  feed : Nat
  idx : Nat
  /-- granules read, by location (the read signature) -/
  sig : List Nat
  /-- granules that the task has stored to; `wide` where it has also written in other ways -/
  wrote : List Nat
  wide : Bool
  deriving DecidableEq, Repr

/-- A trap whose record is still to be written (R275): cause, lanes, address, info A, info B, lane causes,
saved positions, offset, word, batch. -/
structure TrapInfo where
  cause : Nat
  lanes : BitVec 64
  addr : Nat
  infoA : Nat
  infoB : Nat
  laneCause : List Nat
  offset : Nat
  word : Word64
  batch : List Nat
  /-- the fault is escalated whatever the trap segment (R211) -/
  esc : Bool
  /-- cause of the failed write of the record that went to the service directly, 0 for none (R275) -/
  failed : Nat
  deriving DecidableEq, Repr

/-- A wave. -/
structure Wave extends Arch where
  key : WKey
  core : Nat
  /-- wave slot of the core, 0 to 63 (R24, R199) -/
  place : Nat
  width : Nat
  memb : List Memb
  /-- retired copy time (R218) -/
  rct : Nat
  /-- completion time of the drains that `spfence` has still to fold into `$wct` (R172) -/
  dct : Nat
  tm : Bool
  priv : Bool
  /-- the wave runs the walker routine: its `ld` and `sld` addresses are physical (R205) -/
  walker : Bool
  cause : Nat
  bp : List (BitVec 33)
  bpSkip : Bool
  /-- trap bank of s120 to s127 (R274) -/
  bankS : List Word64
  mon : Monitor
  copies : List (Option Copy)
  ivals : Map Interval
  hwm : Nat
  tgt : Nat
  /-- own generation of each convergence register, and whether a lane signed it (R157, R161) -/
  ownGen : List (Option Nat)
  signedGen : List Bool
  /-- in the interrupted code, and in the handler -/
  prog : List Progress
  pend : List Pend
  nextPend : Nat
  /-- increments of the context's poison count that loads of class 3 have still to make (R214) -/
  duePoison : Nat
  pw : List PWrite
  fab : List FabOut
  fabFail : List FabFail
  fabSeq : Nat
  fabAt : List FabAt
  /-- fabric instructions whose contract mix (`false`) or poison (`true`) has been counted (R129, R325) -/
  fabCounted : List (Nat × Bool)
  /-- the schedule lets the wave pass its next release before the release point (R229) -/
  loose : Bool
  /-- releases that the wave has passed before their release point: the scope, and how many of the wave's pending writes, from
  the first, are earlier (R229) -/
  opens : List (Nat × Nat)
  /-- targets towards which the effect of `ffence` comes before the next issue (R320) -/
  mustFence : List Nat
  slot : Bool
  why : Why
  ck : Option Arch
  /-- 0 none, 1 page-fault run-ahead, 2 collective run-ahead, 3 speculative task (R284) -/
  spec : Nat
  specMemb : Nat
  hold : List Held
  /-- context counts held by the speculation: contract mix and poison (R267) -/
  heldCmix : Nat
  heldPoison : Nat
  /-- some fabric load of the run-ahead was declined (R267) -/
  declined : Bool
  task : Option Task
  nonspec : Bool
  /-- the task that an abort or a pre-emption holds for re-delivery (R290, R293) -/
  redeliver : Option (Nat × Nat)
  batch : Option Batch
  escalated : Bool
  /-- the escalation went to the host (R279, R374) -/
  escHost : Bool
  /-- a trap whose record is still to be written, or, once escalated, the record that went to the service directly (R275) -/
  trapPend : Option TrapInfo
  /-- entry number of the Safety Net (R285) -/
  snSeq : Nat
  /-- elements with an uncorrectable error: lane and register (R211) -/
  regErr : List (Nat × Nat)
  deriving DecidableEq, Repr

/-! ### Teams, grids, communicators -/

/-- State of a convergence register (R157). -/
inductive CvSt where
  | idle | declared | issued | done | timedOut
  deriving DecidableEq, Repr

/-- The fragments that a member contributes by its signature (R163, R164). -/
structure Frag where
  rank : Nat
  tid : Nat
  a : List Elem
  b : List Elem
  /-- fragment registers written since the last `orf`, with the value before that write; either is contributed -/
  alt : Map Elem
  /-- fragment registers that a producer had still to write; the value before or after is contributed -/
  late : List Nat
  deriving DecidableEq, Repr

/-- A convergence register (R157). `word` is the first signature's word without guard and mode bits, with
the handle of `mmas`; `start` is the time of the first signature, kept as elapsed ticks while the team is
saved; `done` holds the tile status of each finished generation (R172), `timed` the signed mask of each
generation that timed out (R161). -/
structure Cv where
  gen : Nat
  st : CvSt
  s : Nat
  b : Nat
  signed : List Nat
  word : Option (Word64 × Word64)
  start : Nat
  frags : List Frag
  /-- elements that the operation will leave unpredictable: 0 none, 1 those of its shape (R165), 2 the whole tile, since another
  instruction has named it and entered the queue before the operation (R177) -/
  spoiled : Nat
  done : Map (BitVec 6)
  timed : Map (BitVec 64)
  deriving DecidableEq, Repr

/-- Tags of a tile (R166). -/
inductive TileTag where
  | xf48 | s32 | f64
  deriving DecidableEq, Repr

/-- An accumulator tile: elements that are not zero, tag, status (R166), elements with an uncorrectable error
(R211). Element (m, n) is number 64 m + n. -/
structure Tile where
  elems : Map (BitVec 48)
  tag : TileTag
  status : BitVec 6
  bad : List Nat
  deriving DecidableEq, Repr

/-- An entry of the matrix engine's queue (R168). -/
inductive EngOp where
  /-- a matrix operation: word without guard and modes, handle, convergence register, generation, S, b,
  fragments of the members that signed, k-progress and partial values (R178), and the B operand of `mmas` once it has
  been read (R170) -/
  | mma (f : FmtX) (scratch : Bool) (handle : Word64) (cv gen s b : Nat) (frags : List Frag) (kprog : Nat)
      (partials : Map (BitVec 64)) (operand : Option (List Byte))
  /-- a tile load whose bytes have been read: format and elements -/
  | accld (fmt : Nat) (elems : Map (BitVec 64)) (status : BitVec 6)
  /-- a drain: format, scale, saturation, destination bytes, class 3, threads for the status -/
  | accst (fmt : Nat) (scale : Option Elem) (sat : Bool) (base : List Nat) (tids : List Nat) (fb : Bool)
  /-- a drain into registers: first row, destination register, pending producer, lanes with their threads -/
  | accstReg (fmt : Nat) (scale : Option Elem) (row vd pend : Nat) (lanes : List (Nat × Nat))
  | acczero (fmt : Nat)
  deriving DecidableEq, Repr

/-- A queued engine entry: tile within the team, who issued it. `wild`: the elements that are unpredictable once it has been
performed, as `Cv.spoiled` has them; for a drain, the bytes that it writes (R165, R177). -/
structure EngEntry where
  who : WKey
  tile : Nat
  op : EngOp
  wild : Nat
  deriving DecidableEq, Repr

/-- A Turnstile name of a team: generation (team scope), membership mask (R242). -/
structure BarName where
  gen : Nat
  mask : BitVec 32
  deriving DecidableEq, Repr

/-- A team (R11, R166, R185, R242). -/
structure Team where
  grid : Nat
  idx : Nat
  core : Nat
  waves : Nat
  /-- first byte of the scratchpad window and first tile on the core -/
  scrBase : Nat
  tileBase : Nat
  cv : List Cv
  bar : List BarName
  recs : List (Option Word64)
  /-- a team that is out holds its waves, tiles and scratchpad here in logical form (R294) -/
  saved : Bool
  savedWaves : List Wave
  savedTiles : Map Tile
  savedScr : List Host.Cell
  savedPoison : List Nat
  savedEngine : List EngEntry
  deriving DecidableEq, Repr

/-- Debug settings and bounds of a context (R354). -/
structure Ctx where
  status : Nat
  root : Nat
  asid : Nat
  fkey : Nat
  stack : Nat
  stackBase : Nat
  trapSeg : Nat
  trapLen : Nat
  trapArea : Nat
  netArea : Nat
  cvBound : Nat
  stall : Nat
  ftime : Nat
  debug : Nat
  bps : List Nat
  deriving DecidableEq, Repr

/-- The fields of a launch packet (R353). -/
structure LaunchPkt where
  code : Nat
  codeLen : Nat
  tabLen : Nat
  table : Nat
  args : Nat
  seed : Word64
  launch : Nat
  contract : Nat
  width : Nat
  pair : Bool
  ext : Nat × Nat × Nat
  waves : Nat
  vregs : Nat
  scratch : Nat
  acc : Nat
  pclass : Nat
  take : Nat
  detmin : Nat
  deriving DecidableEq, Repr

/-- A launched grid with its context (R354). -/
structure Grid where
  id : Nat
  queue : Nat
  pkt : Nat
  p : LaunchPkt
  ctx : Ctx
  det : Nat
  trapen : Word64
  nextTeam : Nat
  /-- generations of the grid-scope Turnstile names n48 to n63 (R242) -/
  barGen : Map Nat
  /-- end of the grid: code, context status, cause, team, wave, offset (R357, R300) -/
  ended : Option (Nat × Nat)
  /-- checkpoints that are asked for: queue and packet, name, buffer, length (R296, R363) -/
  ckpt : List (Nat × Nat × Nat × Nat × Nat)
  /-- latest visibility time of the writes of waves that have gone (R352) -/
  wct : Nat
  /-- grid-end packets that complete after the launch packet (R363) -/
  endPkts : List (Nat × Nat)
  /-- cores that the launch still asks to be vacated (R370) -/
  take : Nat
  /-- waves that have exited: team and wave (R268, R340) -/
  exits : List (Nat × Nat)
  /-- the device has lost its main power since the grid ended: its packet completes after the next boot (R388) -/
  orphan : Bool
  deriving DecidableEq, Repr

/-- A vote of a member in a generation: rank, vote, operation (`true` for `.or`). -/
structure Vote where
  gen : Nat
  rank : Nat
  v : Bool
  or_ : Bool
  deriving DecidableEq, Repr

/-- A contribution of a member to a reduction generation (R338). -/
structure Contrib where
  gen : Nat
  rank : Nat
  kind : Nat
  op : Nat
  fmt : Nat
  count : Nat
  /-- local bytes to be read by the units, or the bytes that another device sent -/
  src : List Nat
  bytes : List Byte
  /-- bytes of the source that the units have read already, by their number (R338) -/
  early : Map Byte
  dst : List Nat
  deriving DecidableEq, Repr

/-- The result of a reduction generation for this device's members: flags per rank, mismatch (R339). -/
structure RedDone where
  gen : Nat
  mismatch : Bool
  flags : Map (BitVec 6)
  wtime : Nat
  lost : Bool
  deriving DecidableEq, Repr

/-- A reduction generation whose destinations are being written (R343): what it will leave as its result, and the pieces that
are still to be written, each of one granule of the destination of a rank. -/
structure RedRun where
  done : RedDone
  pieces : List (Nat × List (Nat × Byte))
  /-- when the last piece of each rank was written -/
  times : Map Nat
  deriving DecidableEq, Repr

/-- A communicator (R329 to R333). -/
structure Comm where
  slot : Nat
  use : Nat
  /-- launch, team, wave, device of each rank -/
  members : List (Nat × Nat × Nat × Nat)
  contract : Nat
  scope : Nat
  votes : List Vote
  /-- generation, outcome of `.and` members, outcome of `.or` members, some member lost -/
  outcomes : List (Nat × Bool × Bool × Bool)
  contribs : List Contrib
  reduced : List RedDone
  running : List RedRun
  /-- ranks whose waves have exited, and ranks lost (R268) -/
  exited : List Nat
  lost : List Nat
  /-- generations on which a member has taken the collective-stall trap -/
  stalled : List Nat
  stalledRed : List Nat
  deriving DecidableEq, Repr

/-- A checkpoint of a grid (R296, R297), held under the number that its buffer names: the grid, the barrier name whose
generation is still to complete, its teams in logical form, and the communicators of its waves. -/
structure Ckpt where
  grid : Grid
  name : Nat
  teams : List Team
  comms : List Comm
  deriving DecidableEq, Repr

/-! ### Cores -/

/-- A TLB entry (R205, R206): ASID, page size 0 to 2, virtual page address, leaf words. -/
structure TlbEntry where
  asid : Nat
  size : Nat
  va : Nat
  w0 : Word64
  w1 : Word64
  deriving DecidableEq, Repr

/-- A TLB miss that is being served (R205). -/
structure Miss where
  asid : Nat
  root : Nat
  va : Nat
  /-- the walk failed: malformed or absent -/
  failed : Option Bool
  /-- the miss was posted to the host, in the mode of that time (R374) -/
  host : Bool
  deriving DecidableEq, Repr

/-- An entry of the operand cache (R170): grid, team, offset, generation number, format, shape; the
operand's bytes and scale codes. -/
structure OpEntry where
  grid : Nat
  team : Nat
  off : Nat
  gen : Nat
  fb : Nat
  shape : Nat
  bytes : List Byte
  deriving DecidableEq, Repr

/-- A core (chapters 02, 08, 09, 10). -/
structure Core where
  tlb : List TlbEntry
  misses : List Miss
  rcache : List (Nat × List Byte)
  tiles : Map Tile
  engine : List EngEntry
  opcache : List OpEntry
  /-- waves blocked in `grow` and their demand in units, in order (R105) -/
  growQ : List WKey
  /-- waves at a quantisation instruction whose checks have passed, in the order in which the core serves them (R189) -/
  stageQ : List WKey
  /-- parked waves able to issue, in order (R25) -/
  ableQ : List WKey
  tagCtr : Nat
  /-- incarnation that the next use of a tag takes (R323) -/
  tagInc : Map Nat
  /-- until when a tag with an incarnation (16 tag + incarnation), and a timed-out tag towards a peer on a V3 link
  (4096 device + tag), stay out of use (R323, R326) -/
  tagUsed : Map Nat
  tagHeld : Map Nat
  headroom : Nat
  halved : Bool
  hot : Int
  deriving DecidableEq, Repr

/-! ### Fabric target, queues, Barker, management -/

/-- An entry of the fabric export table (R310). -/
structure Export where
  asid : Nat
  root : Nat
  r : Bool
  w : Bool
  deriving DecidableEq, Repr

/-- Who waits to append to a feed, in order of arrival: a wave in `qpush` (R365), a feed-append packet by its queue and
index (R359), a Barker request with its records and the bytes it holds in the receive buffer (R383). -/
inductive Appender where
  | wave (w : WKey)
  | packet (q i : Nat)
  | barker (records : List (List Byte)) (held : Nat)
  deriving DecidableEq, Repr

/-- An entry of Barker's stream table (R379, R385). `reqs` lists the unended requests, oldest first: does it
carry close. -/
structure Stream where
  isOpen : Bool
  use : Nat
  conn : Nat
  port : Nat
  tag : Nat
  slot : Nat
  feed : Nat
  reqs : List Bool
  held : List Byte
  ready : List Byte
  readyAt : Nat
  seq : Nat
  /-- bytes sent that still occupy the reply buffer (R384) -/
  inBuf : Nat
  deriving DecidableEq, Repr

/-- A vocabulary slot (R377, R382): the image in use, and the one before it while streams bound to the slot were open at
the reload, so that either may be used. -/
structure Voc where
  image : List Byte
  old : Option (List Byte)
  deriving DecidableEq, Repr

/-- The stores that this target has performed for an interval of a source wave (R317, R318). `reported`: a count
query has been answered, so later stores without the replay mark are dropped (R322); `fresh`: no replay has been
performed since the last answer. -/
structure FabCount where
  src : Nat
  w : WKey
  interval : Nat
  count : Nat
  reported : Bool
  fresh : Bool
  deriving DecidableEq, Repr

/-- A message that leaves the device. -/
inductive Out where
  /-- a reply: connection, port, header and text (R385) -/
  | reply (conn port : Nat) (bytes : List Byte)
  /-- a refusal posted to the Ringmaster or the host (R380) -/
  | refusal (toHost : Bool) (status : Nat)
  /-- an RMA write of a connection is complete, or is refused (R376) -/
  | rmaDone (conn : Nat) (done : Bool)
  | fabReq (r : FabReq)
  | fabResp (dst core tag inc : Nat) (res : FabResult)
  | fabWait (dst core tag inc : Nat)
  | countReply (dst : Nat) (w : WKey) (interval sent received : Nat)
  | countQuery (dst : Nat) (w : WKey) (interval sent : Nat) (replayed : Bool)
  | hostData (bytes : List Byte)
  | hostFault (w : WKey)
  | hostMiss (core asid va : Nat)
  /-- the host is asked to complete a communicator set-up: queue and packet (R331) -/
  | hostComm (q i : Nat)
  /-- an escalated wave, and its record where that goes to the service directly (R275, R279) -/
  | hostEscalation (w : WKey) (record : Option TrapInfo)
  | retireFrame (addr : Nat)
  | sideband (bytes : List Nat)
  | spdm (bytes : List Nat)
  deriving DecidableEq, Repr

/-- Power states (R386). -/
inductive Power where
  | off | standby | p1 | p0
  deriving DecidableEq, Repr

/-- An image in flash (R389): version, valid signature, bytes. -/
structure Image where
  version : Nat
  valid : Bool
  bytes : List Byte
  deriving DecidableEq, Repr

/-- A flash copy (R389): the firmware image and the configuration image. -/
structure Flash where
  fw : Image
  cfg : Image
  deriving DecidableEq, Repr

/-- The configuration in force: what the configuration image gives (R389), with the devices that boot has found (R304) and the
Ringmaster cores that it has reserved (R390). -/
structure FlashConfig where
  devNum : Nat
  podSize : Nat
  /-- port map: peer and port -/
  ports : List (Nat × Nat)
  present : List Nat
  dieLocal : Bool
  ringmaster : List Nat
  /-- reserved replay areas, by target: base and length (R320) -/
  replay : List (Nat × Nat)
  /-- identity certificate chain (R395) -/
  certs : List Byte
  /-- peers whose links speak the V3 protocol (R326) -/
  v3 : List Nat
  deriving DecidableEq, Repr

/-- The device registers of BAR 0 (R344, R374, R377, R391). -/
structure DevRegs where
  fmode : Word64
  qtbase : Word64
  ftbase : Word64
  bkctl : Word64
  bkvoc : List Word64
  bkwin : Word64
  bkwlen : Word64
  bkcnt : List Word64
  bootst : Word64
  deriving DecidableEq, Repr

/-- What the environment decides: which agent acts next, and what it brings. -/
inductive Choice where
  | event (i : Instr)
  /-- this wave issues next -/
  | wave (w : WKey)
  /-- this wave issues next, and an atomic or a hand-over of tokens is performed in the listed lanes only, the others
  following (R236, R384) -/
  | wavePart (w : WKey) (lanes : List Nat)
  /-- the read of one element of a pending load takes place now (R227, R233); element 0 of a scalar load -/
  | lateRead (w : WKey) (k j : Nat)
  /-- a wave passes its next release before the release point, for agents that one of the scopes leaves out (R229) -/
  | loose (w : WKey)
  /-- a wave runs firmware, as the walker routine or otherwise: it is in a privileged mode, and in walker mode if the walker
  (R205, R284) -/
  | firmware (w : WKey) (walker : Bool)
  /-- a correctable soft error is corrected and counted (R201) -/
  | softError
  /-- the Ringmaster writes or clears an entry of the fabric export table (R310) -/
  | exportWrite (key : Nat) (e : Option Export)
  /-- the fabric tracks a peer's clock (R322) -/
  | clockOffset (dev : Nat) (ahead : Int)
  /-- a checkpoint, or the part of one that this device is to run, is moved here whole from another device (R297) -/
  | importCkpt (id : Nat) (k : Ckpt)
  /-- a member on another device has taken the collective-stall trap on a generation, of reductions or of votes (R269, R341) -/
  | foreignStall (slot gen : Nat) (red : Bool)
  /-- a grid of another device starts, or has completed: device and launch (R334) -/
  | foreignGrid (dev launch : Nat) (runs : Bool)
  /-- a communicator set up from another device's queue is installed here, or removed: released, or withdrawn (R331, R334) -/
  | commInstall (slot use : Nat) (members : List (Nat × Nat × Nat × Nat)) (contract scope : Nat)
  | commRemove (slot use : Nat) (withdrawn : Bool)
  /-- the reduction units read the granule of a contribution in which its byte `k` lies, combine a generation, and write one
  granule of its destinations (R338, R343) -/
  | redRead (slot gen rank k : Nat)
  | redStart (slot gen : Nat) (foreign : List ForeignContrib)
  | redGranule (slot gen k : Nat)
  /-- a packet of a service that Barker does not support arrives, and is dropped and counted (R375) -/
  | barkerDrop
  /-- the fault service edits a record that it holds: the record, and positions of lanes (R275, R279) -/
  | editRecord (w : WKey) (t : TrapInfo) (vpcs : List (Nat × Nat))
  /-- bytes of an RMA write land: `n` of them from the `j`-th that the `k`-th pending write has left (R376) -/
  | rmaLand (k j n : Nat)
  /-- cores fail self-test at the next boot (R390) -/
  | selfTest (fails : List Nat)
  /-- time passes -/
  | advance (n : Nat)
  /-- a TLB entry, a record or an operand is replaced -/
  | evictTlb (core k : Nat)
  | evictRec (core k : Nat)
  | evictOp (core k : Nat)
  /-- the copy engine writes a 32-byte piece of a started transfer early -/
  | copyPiece (w : WKey) (q k : Nat)
  /-- the copy engine writes `n` bytes of a granule of a started transfer from location `loc` early (R237) -/
  | copyBytes (w : WKey) (q k loc n : Nat)
  /-- the matrix engine performs one k-step (R178) -/
  | kstep (core k : Nat)
  deriving DecidableEq, Repr

/-- THE STATE. -/
structure State where
  cur : Wave
  rest : List Wave
  teams : List Team
  grids : List Grid
  cores : Map Core
  /-- bytes by location: physical addresses below 2^52, scratchpad bytes above 2^56 -/
  mem : List Host.Cell
  /-- poisoned granules of 32 bytes, by location divided by 32 (R211) -/
  poison : List Nat
  /-- words of the code and entries of the table of live grids as they stood before a write: grid, location, bytes, value
  (R45, R93) -/
  stale : List (Nat × Nat × Nat × Word64)
  gtc : Nat
  regs : DevRegs
  power : Power
  flash : Flash × Flash
  running : Flash
  writer : Option Bool
  /-- the image that is being written: the configuration image of the copy, and the bytes so far -/
  newPart : Bool
  newImage : List Byte
  /-- cores that fail self-test (R390) -/
  selfTestFailed : List Nat
  config : FlashConfig
  eventLog : List (Nat × Nat × Nat)
  sensors : Map Int
  watts : Nat
  /-- the controller's effecters: main power up, main power down, and its forced flag (R394) -/
  effecters : Bool × Bool × Bool
  hostLink : Bool
  portLink : Bool × Bool
  linkDown : List Nat
  exports : Map Export
  fabErrors : Nat
  /-- how far the GTC of this device is ahead of a peer's, as the fabric tracks it (R322) -/
  clockOff : Map Int
  fabCounts : List FabCount
  /-- count queries that wait for stores of their interval: source, wave, interval, sent, replayed (R318) -/
  fabQueries : List (Nat × WKey × Nat × Nat × Bool)
  /-- requests that wait at the fault service of this target (R310) -/
  fabWaiting : List FabReq
  comms : List Comm
  /-- communicators without a member on this device that a packet of its queues has set up, for their release (R331, R334) -/
  awayComms : List Comm
  /-- communicator set-up packets that the host is to complete (R331, R374) -/
  hostComms : List (Nat × Nat)
  /-- grids that run on other devices: device and launch (R334) -/
  awayGrids : List (Nat × Nat)
  /-- checkpoints taken, by the number written into their buffers -/
  ckpts : Map Ckpt
  /-- number of uses of each communicator slot (R331) -/
  commUse : Map Nat
  /-- write index of each queue as last read (R347) -/
  noticed : Map Nat
  /-- queues that the device has found valid (R347, R351) -/
  queuesOn : List Nat
  /-- packets of the windows as they were read when they entered: queue, index, bytes (R347) -/
  window : List (Nat × Nat × List Byte)
  /-- packets of the windows that have started: queue, index, completed -/
  started : List (Nat × Nat × Bool)
  /-- queues resident on each die (R368) -/
  resident : Map (List Nat)
  /-- the queue that the arbiter of each die has served last (R368) -/
  lastServed : Map Nat
  /-- quanta for which a queue with work has waited outside a resident set, by die times 1024 plus queue (R369) -/
  waited : Map Nat
  /-- waves that wait in `qpop`: feed and wave, in order (R366); appends that wait for room (R365) -/
  popQ : List (Nat × WKey)
  pushQ : List (Nat × Appender)
  /-- records of unordered feeds that are still to be written to registers: wave and pending producer, feed and index (R364) -/
  popping : List ((WKey × Nat) × Nat × Nat)
  /-- records freed out of order: feed, index (R364) -/
  freed : List (Nat × Nat)
  /-- timestamp of the last record appended to an ordered feed, with the tail after it (R364) -/
  feedLast : Map (Nat × Nat)
  streams : Map Stream
  vocs : Map Voc
  /-- bytes held in Barker's receive buffer (R380) -/
  bkHeld : Nat
  /-- RMA writes into the bulk window: connection, and the bytes that are still to land (R376) -/
  rma : List (Nat × List (Nat × Byte))
  /-- correctable soft errors that have been corrected (R201) -/
  softErrors : Nat
  /-- lanes to which the instruction that issues now is limited, if it can be performed lane by lane (R236, R384) -/
  lanesNow : Option (List Nat)
  outbox : List Out
  freeCtr : Nat
  nextGrid : Nat
  sched : List Choice
  deriving DecidableEq, Repr

/-- Reasons to stop. -/
inductive Fault where
  /-- Raised by a host access to a physical range that the specification reserves (R197). Safe: the
  hardware goes on in a way that the specification does not give. -/
  | reservedPhysical
  deriving DecidableEq, Repr

/-- Reasons to refuse. -/
inductive Refusal where
  /-- Raised by an arm of the dispatch whose instruction has no meaning yet. Safe. -/
  | notModelled (mnemonic : String)
  deriving DecidableEq, Repr

/-! ### Reset -/

def Rejoin.zero : Rejoin := { armed := false, e := 0, a := 0 }

def Memb.unbound : Memb :=
  { comm := none, rank := 0, g := 0, h := 0, vote := none, votedAt := 0, tgt := 0, tgtLen := 0, arrived := none,
    stalled := false, redStalled := false, red := false, redAt := 0,
    lost := false, outcome := false, pending := false }

def Monitor.off : Monitor := { armed := false, line := 0, trig := false, lost := false }

def Arch.zero : Arch :=
  { lanes := [], s := [], vEmpty := [], sEmpty := [], unkS := [], alloc := 64, wgrp := 0, watch := [],
    rejoin := List.replicate 8 Rejoin.zero, pbase := 0, bank := false, keys := List.replicate 8 0, wct := 0,
    step := false, dbg := false, counts := [], ovr := [] }

/-- The wave that stands in `cur` while no wave is resident: it has no lane. -/
def Wave.nobody : Wave :=
  { Arch.zero with
    key := ⟨0, 0, 0⟩, core := 0, place := 0, width := 16, memb := List.replicate 8 Memb.unbound, rct := 0, dct := 0, tm := false,
    priv := false, walker := false, cause := 0, bp := List.replicate 4 0, bpSkip := false, bankS := List.replicate 8 0,
    mon := Monitor.off, copies := List.replicate 16 none, ivals := [], hwm := 0, tgt := 0,
    ownGen := List.replicate 8 none, signedGen := List.replicate 8 false, prog := [], pend := [], nextPend := 0, duePoison := 0, pw := [],
    fab := [], fabFail := [], fabSeq := 0, fabAt := [], fabCounted := [], loose := false, opens := [], mustFence := [], slot := false, why := .none, ck := none, spec := 0,
    specMemb := 0, hold := [], heldCmix := 0, heldPoison := 0, declined := false, task := none,
    nonspec := false, redeliver := none, batch := none, escalated := false, escHost := false, trapPend := none, snSeq := 0,
    regErr := [] }

def Cv.zero : Cv :=
  { gen := 0, st := .idle, s := 0, b := 0, signed := [], word := none, start := 0, frags := [],
    spoiled := 0, done := [], timed := [] }

def Team.zero : Team :=
  { grid := 0, idx := 0, core := 0, waves := 0, scrBase := 0, tileBase := 0, cv := List.replicate 8 Cv.zero,
    bar := List.replicate 64 { gen := 0, mask := BitVec.allOnes 32 }, recs := List.replicate 32 none,
    saved := false, savedWaves := [], savedTiles := [], savedScr := [], savedPoison := [],
    savedEngine := [] }

def Ctx.zero : Ctx :=
  { status := 0, root := 0, asid := 0, fkey := 0, stack := 0, stackBase := 0, trapSeg := 0, trapLen := 0,
    trapArea := 0, netArea := 0, cvBound := 1048576, stall := 2000000, ftime := 100000, debug := 0,
    bps := [0, 0, 0, 0] }

def LaunchPkt.zero : LaunchPkt :=
  { code := 0, codeLen := 0, tabLen := 0, table := 0, args := 0, seed := 0, launch := 0, contract := 0x400,
    width := 16, pair := false, ext := (1, 1, 1), waves := 1, vregs := 64, scratch := 0, acc := 0, pclass := 0,
    take := 0, detmin := 0 }

def Grid.zero : Grid :=
  { id := 0, queue := 0, pkt := 0, p := LaunchPkt.zero, ctx := Ctx.zero, det := 0, trapen := 0x300,
    nextTeam := 0, barGen := [], ended := none, ckpt := [], wct := 0, endPkts := [], take := 0, exits := [], orphan := false }

def Tile.zero : Tile := { elems := [], tag := .xf48, status := 0, bad := [] }

def Lane.zero : Lane :=
  { tid := 0, vpc := 0, blk := 0, blkEnd := 0, bad := false, st := .exited, iss := 0, p := 0, v := [], old := [], flags := 0,
    draws := [], accepted := 0, proposed := 0, sh0 := [], sh1 := [], written := [], arr := [], unk := [],
    unkP := 0, bankP := 0, bankBar := none, bankPos := (0, 0, 0, false) }

def Core.zero : Core :=
  { tlb := [], misses := [], rcache := [], tiles := [], engine := [], opcache := [], growQ := [], stageQ := [], ableQ := [],
    tagCtr := 0, tagInc := [], tagUsed := [], tagHeld := [], headroom := 7, halved := false, hot := 0 }

def Image.empty : Image := { version := 0, valid := false, bytes := [] }
def Flash.empty : Flash := { fw := Image.empty, cfg := Image.empty }

/-- The machine right after reset. Registers have the reset values of R344, R374, R377 and R391; the values
that the specification leaves open are those of log entries 1 to 6. -/
def State.reset : State :=
  { cur := Wave.nobody, rest := [], teams := [], grids := [], cores := [], mem := [], poison := [], stale := [], gtc := 0,
    regs := { fmode := BitVec.ofNat 64 (1000 * 256), qtbase := 0, ftbase := 0, bkctl := 0,
              bkvoc := List.replicate 4 0, bkwin := 0, bkwlen := 0, bkcnt := List.replicate 6 0, bootst := 0 },
    power := .off, flash := (Flash.empty, Flash.empty), running := Flash.empty, writer := none, newPart := false, newImage := [],
    selfTestFailed := [],
    config := { devNum := 0, podSize := 8, ports := [], present := [0], dieLocal := false, ringmaster := [0, 128, 256, 384],
                replay := [], certs := [], v3 := [] },
    eventLog := [], sensors := [], watts := 0, effecters := (false, false, false), hostLink := false, portLink := (false, false), linkDown := [],
    exports := [], fabErrors := 0, clockOff := [], fabCounts := [], fabQueries := [], fabWaiting := [], comms := [], awayComms := [],
    hostComms := [], awayGrids := [], ckpts := [], commUse := [], noticed := [], queuesOn := [], window := [], started := [],
    resident := [], lastServed := [], waited := [], popQ := [], pushQ := [], popping := [], freed := [], feedLast := [], streams := [], vocs := [],
    bkHeld := 0, rma := [],
    softErrors := 0, lanesNow := none,
    outbox := [], freeCtr := 0, nextGrid := 1, sched := [] }

end Sys2Proof.Machine
end

