-- ==== Sys2Proof/Machine/Ops.lean ====
section
/-! DEFINITION. The named operations of the machine: maps, memory, waves and lanes, translation, the checks of
an access, visibility of writes, block entry, taking a trap and returning from it. -/

namespace Sys2Proof.Machine

/-! ### Maps by number: rising keys -/

def mget (m : Map α) (k : Nat) : Option α :=
  match m with
  | [] => none
  | (j, v) :: r => if j = k then some v else mget r k

/-- The value at a key, or the default that an unlisted key reads as. -/
def mgetD (m : Map α) (k : Nat) (d : α) : α := (mget m k).getD d

/-- The map with a value at a key. -/
def mput (m : Map α) (k : Nat) (v : α) : Map α :=
  match m with
  | [] => [(k, v)]
  | (j, x) :: r => if k < j then (k, v) :: (j, x) :: r else if k = j then (k, v) :: r else (j, x) :: mput r k v

/-- The map without a key. -/
def mdel (m : Map α) (k : Nat) : Map α :=
  match m with
  | [] => []
  | (j, x) :: r => if j = k then mdel r k else (j, x) :: mdel r k

/-- The map with a value at a key; the default is not listed. -/
def mputD [DecidableEq α] (d : α) (m : Map α) (k : Nat) (v : α) : Map α := if v = d then mdel m k else mput m k v

/-- A sorted list of numbers with one more. -/
def insNat (l : List Nat) (k : Nat) : List Nat :=
  match l with
  | [] => [k]
  | j :: r => if k < j then k :: j :: r else if k = j then j :: r else j :: insNat r k

/-- An element put before the first one that it does not follow. -/
def insertBy (le : α → α → Bool) (x : α) (l : List α) : List α :=
  match l with
  | [] => [x]
  | y :: r => if le x y then x :: y :: r else y :: insertBy le x r

/-- A list in the order of `le`; equal elements keep their order. -/
def sortBy (le : α → α → Bool) (l : List α) : List α := l.foldr (insertBy le) []

/-- The list with the element at an index changed. -/
def setAt (l : List α) (i : Nat) (v : α) : List α := l.set i v

/-- Numbers below `n` that satisfy a test. -/
def below (n : Nat) (p : Nat → Bool) : List Nat := (List.range n).filter p

/-- Bit `i` of a word. -/
def tbit (w : BitVec n) (i : Nat) : Bool := w.getLsbD i

/-- The mask of a list of lanes. -/
def maskOf (ls : List Nat) : BitVec 64 := ls.foldl (fun m l => m ||| (1#64 <<< l)) 0

/-- Bits [lo + n - 1 : lo] of a natural number. -/
def nbits (x lo n : Nat) : Nat := x / 2 ^ lo % 2 ^ n

/-- A two's complement number of `n` bits. -/
def toSigned (n x : Nat) : Int := if x % 2 ^ n < 2 ^ (n - 1) then ((x % 2 ^ n : Nat) : Int) else (x % 2 ^ n : Nat) - (2 ^ n : Nat)

/-- An integer modulo 2^n. -/
def wrapTo (n : Nat) (x : Int) : Nat := (x % ((2 ^ n : Nat) : Int)).toNat

/-- Little-endian bytes (R3). -/
def leBytes (n v : Nat) : List Byte := (List.range n).map (fun k => BitVec.ofNat 8 (v / 2 ^ (8 * k)))
/-- The number that bytes hold, little-endian (R3). -/
def leNat (bs : List Byte) : Nat := bs.foldr (fun b acc => b.toNat + 256 * acc) 0

/-! ### Free values (R2) -/

/-- The next unpredictable value, `k`-th word. -/
def State.free (s : State) (k : Nat) : BitVec 64 := Config.free s.freeCtr k
/-- Later unpredictable values are new ones. -/
def State.freeNext (s : State) : State := { s with freeCtr := s.freeCtr + 1 }

/-! ### Memory -/

/-- A byte of memory: an unlisted location reads 0 (log 2). -/
def Memory.read (m : List Host.Cell) (loc : Nat) : Byte := mgetD m loc 0
/-- Memory with a byte written; a 0 is not listed. -/
def Memory.write (m : List Host.Cell) (loc : Nat) (b : Byte) : List Host.Cell := mputD 0 m loc b
/-- The canonical form: addresses rise strictly and no listed byte is 0. -/
def Memory.wf (m : List Host.Cell) : Bool :=
  match m with
  | [] => true
  | [(_, b)] => b != 0
  | (a, b) :: (a', b') :: r => decide (a < a') && b != 0 && Memory.wf ((a', b') :: r)

/-- Bytes at consecutive locations. -/
def State.readN (s : State) (loc n : Nat) : List Byte := (List.range n).map (fun k => Memory.read s.mem (loc + k))
/-- A little-endian number at consecutive locations. -/
def State.readNat (s : State) (loc n : Nat) : Nat := leNat (s.readN loc n)

/-- Location of a byte of a core's scratchpad. -/
def scrLoc (core off : Nat) : Nat := 2 ^ 56 + core * 2 ^ 21 + off

/-- The physical ranges that exist (R197). -/
def physValid (p : Nat) : Bool := p < 0x6000000000 || (0x8000000000000 ≤ p && p < 0xC000000000000)

/-- The value of a byte among pairs, latest first. -/
def lastByte (bs : List (Nat × Byte)) (loc : Nat) : Option Byte :=
  bs.foldl (fun r b => if b.1 == loc then some b.2 else r) none

/-- The granule of a location (R211). -/
def granule (loc : Nat) : Nat := loc / 32
def State.isPoisoned (s : State) (loc : Nat) : Bool := s.poison.contains (granule loc)

/-! ### Waves -/

def State.waves (s : State) : List Wave := s.cur :: s.rest
def State.findWave (s : State) (k : WKey) : Option Wave := s.waves.find? (fun w => w.key == k && w.lanes != [])
def State.setWave (s : State) (w : Wave) : State :=
  if s.cur.key = w.key then { s with cur := w }
  else { s with rest := s.rest.map (fun x => if x.key = w.key then w else x) }
def State.mapWaves (s : State) (f : Wave → Wave) : State := { s with cur := f s.cur, rest := s.rest.map f }
/-- Change one wave, if it is resident. -/
def State.onWave (s : State) (k : WKey) (f : Wave → Wave) : State :=
  match s.findWave k with
  | some w => s.setWave (f w)
  | none => s
/-- Make a wave the current one. The waves keep their cyclic order. -/
def State.focus (s : State) (k : WKey) : State :=
  match s.rest.dropWhile (fun w => w.key != k) with
  | w :: r => { s with cur := w, rest := r ++ s.cur :: s.rest.takeWhile (fun x => x.key != k) }
  | [] => s
/-- Act with another resident wave as the current one. -/
def State.withWave (s : State) (k : WKey) (f : State → State) : State :=
  let k0 := s.cur.key
  if (s.findWave k).isNone then s else if k = k0 then f s else (f (s.focus k)).focus k0
/-- The next wave in turn. -/
def State.rotate (s : State) : State :=
  match s.rest with
  | [] => s
  | w :: r => { s with cur := w, rest := r ++ [s.cur] }

def State.gridOf (s : State) (w : Wave) : Grid := (s.grids.find? (fun g => g.id == w.key.grid)).getD Grid.zero
def State.teamAt (s : State) (grid team : Nat) : Team :=
  (s.teams.find? (fun t => t.grid == grid && t.idx == team)).getD Team.zero
def State.teamOf (s : State) (w : Wave) : Team := s.teamAt w.key.grid w.key.team
def State.setGrid (s : State) (g : Grid) : State :=
  { s with grids := s.grids.map (fun x => if x.id = g.id then g else x) }
def State.setTeam (s : State) (t : Team) : State :=
  { s with teams := s.teams.map (fun x => if x.grid = t.grid ∧ x.idx = t.idx then t else x) }
def State.coreAt (s : State) (c : Nat) : Core := mgetD s.cores c Core.zero
def State.setCore (s : State) (c : Nat) (x : Core) : State := { s with cores := mput s.cores c x }
def State.contract (s : State) : Nat := (s.gridOf s.cur).p.contract
/-- Resident waves of a team. -/
def State.teamWaves (s : State) (grid team : Nat) : List Wave :=
  s.waves.filter (fun w => w.key.grid == grid && w.key.team == team && w.lanes != [])
/-- Resident waves of a core: those with an unexited lane (R96). -/
def State.coreWaves (s : State) (c : Nat) : List Wave :=
  s.waves.filter (fun w => w.core == c && w.lanes.any (fun x => x.st != .exited))

/-- Units of the register file per group (R26). -/
def unitsPerGroup (width : Nat) : Nat := width / 16
def Wave.units (w : Wave) : Nat := w.alloc / 64 * unitsPerGroup w.width
def State.unitsUsed (s : State) (c : Nat) : Nat := (s.coreWaves c).foldl (fun n w => n + w.units) 0
def State.unitsFree (s : State) (c : Nat) : Nat := Config.unitsPerCore - s.unitsUsed c

/-- A privileged mode (R274, R284). -/
def Wave.privileged (w : Wave) : Bool := w.tm || w.priv

/-! ### Lanes -/

def Wave.lane (w : Wave) (l : Nat) : Lane := w.lanes.getD l Lane.zero
def Wave.setLane (w : Wave) (l : Nat) (x : Lane) : Wave := { w with lanes := w.lanes.set l x }
def Wave.modLane (w : Wave) (l : Nat) (f : Lane → Lane) : Wave := w.setLane l (f (w.lane l))
def Wave.modLanes (w : Wave) (ls : List Nat) (f : Lane → Lane) : Wave := ls.foldl (fun w l => w.modLane l f) w
/-- Lane numbers of a wave. -/
def Wave.idx (w : Wave) : List Nat := List.range w.lanes.length
def Lane.live (x : Lane) : Bool := x.st != .exited
def Wave.liveLanes (w : Wave) : List Nat := w.idx.filter (fun l => (w.lane l).live)
/-- Ready lanes (R17). A lane of an escalated wave is not ready (R279). -/
def Wave.ready (w : Wave) : List Nat := if w.escalated then [] else w.idx.filter (fun l => (w.lane l).st == .run)
/-- Lanes in ascending $tid. -/
def Wave.byTid (w : Wave) (ls : List Nat) : List Nat := sortBy (fun a b => (w.lane a).tid ≤ (w.lane b).tid) ls
/-- The lane with the lowest $tid. -/
def Wave.lowestTid (w : Wave) (ls : List Nat) : Nat :=
  match ls with
  | [] => 0
  | l :: r => r.foldl (fun b x => if (w.lane x).tid < (w.lane b).tid then x else b) l

def minNat (l : List Nat) : Option Nat := l.foldl (fun b x => match b with | none => some x | some y => some (min x y)) none

/-- The `vpc` at which the wave issues (R18), or under the override (R20). -/
def Wave.issuePc (w : Wave) : Option Nat :=
  match minNat ((w.ready.filter (fun l => w.ovr.contains l)).map (fun l => (w.lane l).vpc)) with
  | some v => some v
  | none => minNat (w.ready.map (fun l => (w.lane l).vpc))

/-- The issuing set (R18). -/
def Wave.issuingSet (w : Wave) : List Nat :=
  match w.issuePc with
  | none => []
  | some v => w.ready.filter (fun l => (w.lane l).vpc == v)

/-- A guard holds in a lane (R46): `p15` is true. -/
def predOf (x : Lane) (p : Nat) : Bool := p == 15 || tbit x.p p
def guardHolds (g : BitVec 5) (x : Lane) : Bool := predOf x (g.toNat % 16) != (16 ≤ g.toNat)

def Lane.setPred (x : Lane) (p : Nat) (b : Bool) : Lane :=
  if p < 15 then { x with p := if b then x.p ||| (1#16 <<< p) else x.p &&& ~~~(1#16 <<< p) } else x

/-- A vector register element. -/
def Lane.getV (x : Lane) (r : Nat) : Elem := mgetD x.v r 0
def Lane.setV (x : Lane) (r : Nat) (e : Elem) : Lane := { x with v := mputD 0 x.v r e }
def Lane.getDraw (x : Lane) (k : Nat) : BitVec 32 := mgetD x.draws k 0
def Lane.addDraw (x : Lane) (k : Nat) : Lane := { x with draws := mputD 0 x.draws k (x.getDraw k + 1) }

def Wave.getS (w : Wave) (r : Nat) : Word64 := mgetD w.s r 0
def Wave.setS (w : Wave) (r : Nat) (v : Word64) : Wave := { w with s := mputD 0 w.s r v }

/-- Mark the group of a written register (R51). -/
def Wave.touch (w : Wave) (r : Nat) : Wave := { w with wgrp := w.wgrp ||| (1#16 <<< (r / 64)) }

/-- An element written, with the value before it remembered until the next `orf` (R164). -/
def Lane.putOld (x : Lane) (r : Nat) (e : Elem) : Lane := { x.setV r e with old := mput x.old r (x.getV r) }

/-- A producer's write of a live element; an uncorrectable error of the element is gone (R211). -/
def Wave.storeV (w : Wave) (l r : Nat) (e : Elem) : Wave :=
  let w := if w.regErr.isEmpty then w else { w with regErr := w.regErr.filter (· != (l, r)) }
  (w.modLane l (fun x => x.putOld r e)).touch r

/-- An instruction writes registers of a lane: a signature whose fragments they hold is broken (R165). -/
def Wave.watched (w : Wave) (l : Nat) (rs : List Nat) : Wave :=
  if w.watch.isEmpty then w
  else
    let tid := (w.lane l).tid
    { w with watch := w.watch.map (fun x => if x.tids.contains tid && rs.any x.regs.contains then { x with hit := true } else x) }

/-- An instruction's write of a live element. -/
def Wave.putV (w : Wave) (l r : Nat) (e : Elem) : Wave := (w.storeV l r e).watched l [r]

/-- A change of what a speculation restores, made to the wave and to its checkpoint. -/
def Wave.both (w : Wave) (f : Wave → Wave) : Wave :=
  { f w with ck := w.ck.map (fun a => (f { w with toArch := a }).toArch) }

/-! ### Proposal banks (R250) -/

def Wave.inWindow (w : Wave) (r : Nat) : Bool := w.pbase ≤ r && r < w.pbase + 64
def Lane.shadow (bank : Bool) (x : Lane) (i : Nat) : Elem := mgetD (if bank then x.sh1 else x.sh0) i 0
def Lane.setShadow (bank : Bool) (x : Lane) (i : Nat) (e : Elem) : Lane :=
  let x := if bank then { x with sh1 := mputD 0 x.sh1 i e } else { x with sh0 := mputD 0 x.sh0 i e }
  { x with written := insNat x.written i }

/-- Read an element, through the current bank when `p` holds (R251). -/
def Wave.readV (w : Wave) (p : Bool) (l r : Nat) : Elem :=
  let x := w.lane l
  if p && w.inWindow r && x.written.contains (r - w.pbase) then x.shadow w.bank (r - w.pbase) else x.getV r

/-- Write an element, to the current bank when `p` holds (R251). -/
def Wave.writeV (w : Wave) (p : Bool) (l r : Nat) (e : Elem) : Wave :=
  if p then w.modLane l (fun x => x.setShadow w.bank (r - w.pbase) e) else w.putV l r e

/-- A value of one register or an even pair, low word first (R54). -/
def Wave.readX (w : Wave) (p wide : Bool) (l r : Nat) : Nat :=
  if wide then (w.readV p l r).toNat + (w.readV p l (r + 1)).toNat * 2 ^ 32 else (w.readV p l r).toNat
def Wave.writeX (w : Wave) (p wide : Bool) (l r : Nat) (v : Nat) : Wave :=
  if wide then (w.writeV p l r (BitVec.ofNat 32 v)).writeV p l (r + 1) (BitVec.ofNat 32 (v / 2 ^ 32))
  else w.writeV p l r (BitVec.ofNat 32 v)

/-! ### Translation (R203 to R206) -/

def physMask : Nat := 2 ^ 52

/-- A leaf entry keeps the rules of R203 for its page size. -/
def leafValid (size : Nat) (w0 w1 : Word64) : Bool :=
  let n := w0.toNat
  n % 2 == 1 && nbits n 1 1 == 1 && nbits n 8 2 != 3 && nbits n 11 5 == 0 && nbits n 52 12 == 0 &&
  (size == 0 || nbits n 16 5 == 0) && (size != 2 || nbits n 16 14 == 0) && w1.toNat / 2 ^ 16 == 0

/-- A non-leaf entry keeps the rules of R203; `al` is the alignment of the next table in bits. -/
def nonleafValid (al : Nat) (w0 w1 : Word64) : Bool :=
  let n := w0.toNat
  n % 2 == 1 && nbits n 1 1 == 0 && nbits n 2 7 == 0 && nbits n 52 12 == 0 && n % 2 ^ al / 2 ^ 9 == 0 && w1 == 0

def pageBits (size : Nat) : Nat := match size with | 0 => 16 | 1 => 21 | _ => 30

/-- Outcome of a table walk. -/
inductive Walk where
  | leaf (size : Nat) (w0 w1 : Word64)
  | absent
  | malformed
  deriving DecidableEq, Repr

/-- The levels of the table below the root: first bit of the index, bits of the index, page size of a leaf,
alignment of the next table (R203). -/
def walkLevels : List (Nat × Nat × Option Nat × Nat) :=
  [(39, 18, none, 13), (30, 9, some 2, 13), (21, 9, some 1, 9), (16, 5, some 0, 0)]

/-- Walk the levels from a table. -/
def walkFrom (s : State) (levels : List (Nat × Nat × Option Nat × Nat)) (table va : Nat) : Walk :=
  match levels with
  | [] => .malformed
  | (lo, n, leaf, al) :: rest =>
    let e := table + 16 * nbits va lo n
    let w0 := BitVec.ofNat 64 (s.readNat e 8)
    let w1 := BitVec.ofNat 64 (s.readNat (e + 8) 8)
    if w0.toNat % 2 == 0 then .absent
    else if nbits w0.toNat 1 1 == 1 then
      match leaf with
      | some size => if leafValid size w0 w1 then .leaf size w0 w1 else .malformed
      | none => .malformed
    else if rest.isEmpty || !nonleafValid al w0 w1 then .malformed
    else walkFrom s rest (nbits w0.toNat 9 43 * 2 ^ 9) va

def State.walk (s : State) (root va : Nat) : Walk := walkFrom s walkLevels root va

/-- A TLB entry covers an address of an ASID. -/
def TlbEntry.covers (e : TlbEntry) (asid va : Nat) : Bool :=
  e.asid == asid && e.va / 2 ^ pageBits e.size == va / 2 ^ pageBits e.size

/-- Outcome of a translation. -/
inductive Trans where
  | hit (size : Nat) (w0 w1 : Word64)
  | miss
  | fault (malformed : Bool)
  deriving DecidableEq, Repr

/-- Translate through a core's TLB; a failed walk of the page that is still recorded gives the fault. -/
def State.translate (s : State) (core asid va : Nat) : Trans :=
  let c := s.coreAt core
  match c.tlb.find? (fun e => e.covers asid va) with
  | some e => .hit e.size e.w0 e.w1
  | none =>
    match c.misses.find? (fun m => m.asid == asid && m.va / 2 ^ 16 == va / 2 ^ 16 && m.failed.isSome) with
    | some m => .fault (m.failed.getD false)
    | none => .miss

/-- Translate through the TLB, and walk at once on a miss (fetch, trap record, run-ahead, engines). -/
def State.translateNow (s : State) (core asid root va : Nat) : Trans :=
  match (s.coreAt core).tlb.find? (fun e => e.covers asid va) with
  | some e => .hit e.size e.w0 e.w1
  | none =>
    match s.walk root va with
    | .leaf size w0 w1 => .hit size w0 w1
    | .absent => .fault false
    | .malformed => .fault true

/-- Physical address of a virtual address under a leaf. -/
def leafPhys (size : Nat) (w0 : Word64) (va : Nat) : Nat :=
  nbits w0.toNat (pageBits size) (52 - pageBits size) * 2 ^ pageBits size + va % 2 ^ pageBits size

/-! ### The checks of an access (R98, R99, R195) -/

/-- Where the comparators send a generic address (R195). -/
inductive Aperture where
  | scratch (off : Nat)
  | stack (off : Nat)
  | global
  | bad
  deriving DecidableEq, Repr

def steer (ea : Nat) : Aperture :=
  let top := ea / 2 ^ 56 % 256
  if top != 0 && top != 255 then .bad
  else if ea / 2 ^ 32 == 0xFFFFFF00 then .scratch (ea % 2 ^ 32)
  else if ea / 2 ^ 32 == 0xFFFFFE00 then .stack (ea % 2 ^ 32)
  else .global

/-- What an access needs (R204), and which checks it takes. -/
structure AccNeed where
  r : Bool
  w : Bool
  x : Bool
  align : Bool
  stamp : Bool
  poison : Bool
  /-- class 3 gives the protection trap (atomics, monitor, collectives) -/
  noClass3 : Bool
  /-- the stack aperture gives the protection trap -/
  noStack : Bool
  deriving DecidableEq, Repr

def needLoad : AccNeed := ⟨true, false, false, true, true, true, false, false⟩
def needStore : AccNeed := ⟨false, true, false, true, true, false, false, false⟩
def needAtom : AccNeed := ⟨true, true, false, true, true, true, true, false⟩

/-- An access that passed its checks: byte locations, class, masked stamp mismatch, some granule is poisoned and reads as zero
(policy 2), the page's poison policy (R214). -/
structure Access where
  locs : List Nat
  cls : Nat
  mix : Bool
  zero : Bool
  pol : Nat
  deriving DecidableEq, Repr

/-- Outcome of the checks of one lane's access. -/
inductive LaneAcc where
  | ok (a : Access)
  | trap (order cause info : Nat)
  | miss (va : Nat)
  | fault (va : Nat) (malformed : Bool)
  deriving DecidableEq, Repr

/-- Threads of a team (R196). -/
def Grid.threads (g : Grid) : Nat := g.p.waves * g.p.width

/-- Location of a byte of a thread's stack (R196). -/
def stackLoc (g : Grid) (team tid o : Nat) : Nat :=
  g.ctx.stackBase + team * g.threads * g.ctx.stack + o / 4 * (4 * g.threads) + 4 * tid + o % 4

/-- Location of a byte of a team's scratchpad window (R37). -/
def teamScr (g : Grid) (t : Team) (o : Nat) : Nat :=
  if g.p.pair && 0xC0000 ≤ o then scrLoc (t.core + 1) (o - 0xC0000) else scrLoc t.core (t.scrBase + o)

/-- A store that the wave holds, or that is not yet visible, covers the granule of a location: the wave reads it as valid
(R100, R212, R265). -/
def Wave.coversGranule (w : Wave) (loc : Nat) : Bool :=
  let all (bs : List (Nat × Byte)) : Bool := (List.range 32).all (fun k => (lastByte bs (32 * granule loc + k)).isSome)
  w.hold.any (fun h => all h.bytes) || w.pw.any (fun e => e.kind == .store && all e.bytes)

/-- A location reads as poisoned for the wave. -/
def State.poisonedFor (s : State) (w : Wave) (loc : Nat) : Bool := s.isPoisoned loc && !w.coversGranule loc

/-- Check 6 of R99, the seventh of an atomic (R236), on bytes that passed the others; policy 0 holds for scratchpad and stack (R214). Under policy 1
the info is the poisoned location and one more. -/
def poisonCheck (s : State) (w : Wave) (need : AccNeed) (atomic : Bool) (a : Access) : LaneAcc :=
  let bad (loc : Nat) : Bool := if atomic then s.isPoisoned loc else s.poisonedFor w loc
  if need.poison && a.locs.any bad then
    if a.pol == 2 && !atomic then .ok { a with zero := true }
    else .trap 7 9 (if a.pol == 1 then (a.locs.find? bad).getD 0 + 1 else 0)
  else .ok a

/-- CHECK an access of `n` bytes at `ea` by a thread of a wave, in the order of R99; the class of the page comes after the
stamp (R236). `now` walks the tables at once; otherwise a TLB miss is reported. -/
def checkAccess (s : State) (w : Wave) (now : Bool) (need : AccNeed) (space tid ea n : Nat) : LaneAcc :=
  let g := s.gridOf w
  let t := s.teamOf w
  let atomic := need.r && need.w
  if need.align && ea % n != 0 then .trap 1 5 0
  else
    match steer ea with
    | .bad => .trap 2 7 0
    | .scratch o =>
      if (space != 0 && space != 1) || g.p.scratch < o + n then .trap 2 7 0
      else poisonCheck s w need atomic ⟨(List.range n).map (fun k => teamScr g t (o + k)), 0, false, false, 0⟩
    | .stack o =>
      if (space != 0 && space != 2) || need.noStack || g.ctx.stack < o + n then .trap 2 7 0
      else poisonCheck s w need atomic
        ⟨(List.range n).map (fun k => stackLoc g w.key.team tid (o + k)), 0, false, false, 0⟩
    | .global =>
      if space != 0 && space != 3 then .trap 2 7 0
      else
        let va := ea % 2 ^ 57
        let tr := if now then s.translateNow w.core g.ctx.asid g.ctx.root va else s.translate w.core g.ctx.asid va
        match tr with
        | .miss => .miss ea
        | .fault m => .fault ea m
        | .hit size w0 w1 =>
          let e := w0.toNat
          let p := leafPhys size w0 va
          let cls := nbits e 6 2
          if (need.r && nbits e 2 1 == 0) || (need.w && nbits e 3 1 == 0) || (need.x && nbits e 4 1 == 0) ||
             (nbits e 5 1 == 1 && !w.privileged) || !physValid p then .trap 4 7 0
          else
            let stamp := w1.toNat % 2 ^ 16
            let mix := need.stamp && stamp != 0 && stamp != g.p.contract
            if mix && tbit g.trapen 8 then .trap 5 8 stamp
            else if need.noClass3 && cls == 3 then .trap 6 7 0
            else poisonCheck s w need atomic ⟨(List.range n).map (fun k => p + k), cls, mix, false, nbits e 8 2⟩

/-- The verdict on the accesses of several lanes. -/
inductive Verdict where
  | ok
  /-- cause, trapping lanes, info, cause of every lane -/
  | trap (cause : Nat) (lanes : List Nat) (info : Nat) (laneCause : List (Nat × Nat))
  | miss (vas : List Nat)
  | fault (pages : List (Nat × Bool)) (laneCause : List (Nat × Nat))
  deriving DecidableEq, Repr

def LaneAcc.order : LaneAcc → Nat
  | .ok _ => 100 | .trap o .. => o | .miss _ => 3 | .fault .. => 3
def LaneAcc.cause : LaneAcc → Nat
  | .ok _ => 0 | .trap _ c _ => c | .miss _ => 0 | .fault .. => 6
def LaneAcc.info : LaneAcc → Nat
  | .trap _ _ i => i | _ => 0
def LaneAcc.access : LaneAcc → Access
  | .ok a => a | _ => ⟨[], 0, false, false, 0⟩

/-- The first address of a page of 64 KiB. -/
def pageOf (va : Nat) : Nat := va / 2 ^ 16 * 2 ^ 16

/-- Add a page to a list of distinct pages in order. -/
def addPage (ps : List (Nat × Bool)) (p : Nat × Bool) : List (Nat × Bool) :=
  if ps.any (fun q => q.1 == p.1) then ps else ps ++ [p]

/-- The addresses that missed the TLB. -/
def missesOf (rs : List (Nat × LaneAcc)) : List Nat := rs.filterMap (fun r => match r.2 with | .miss v => some v | _ => none)

/-- THE RULE FOR SEVERAL LANES (R99, R209, R275): once every translation is at hand, the cause that comes first in the
order of the checks is reported, with every lane's own cause; a page fault in that order is served before it could be
reported. -/
def verdict (rs : List (Nat × LaneAcc)) : Verdict :=
  match missesOf rs with
  | v :: vs => .miss (v :: vs)
  | [] =>
    match minNat (rs.map (fun r => r.2.order)) with
    | none => .ok
    | some o =>
      if o == 100 then .ok
      else if o == 3 then
        .fault (rs.foldl (fun ps r => match r.2 with | .fault v m => addPage ps (pageOf v, m) | _ => ps) [])
          (rs.map (fun r => (r.1, r.2.cause)))
      else
        let hit := rs.filter (fun r => r.2.order == o)
        .trap ((hit.head?.map (fun r => r.2.cause)).getD 0) (hit.map Prod.fst)
          ((hit.head?.map (fun r => r.2.info)).getD 0) (rs.map (fun r => (r.1, r.2.cause)))

/-- The page of an address, as the TLB and the walker know it (R203). -/
def missPage (va : Nat) : Nat := pageOf (va % 2 ^ 57)

/-- Record TLB misses at a core (R205). -/
def State.postMisses (s : State) (core asid root : Nat) (vas : List Nat) : State :=
  let c := s.coreAt core
  let ms := vas.foldl (fun ms va =>
    if ms.any (fun m : Miss => m.asid == asid && m.va == missPage va) then ms
    else ms ++ [{ asid := asid, root := root, va := missPage va, failed := none, host := false }]) c.misses
  s.setCore core { c with misses := ms }

/-- Forget the failed walks of pages whose fault is now being served. -/
def State.clearFailed (s : State) (core asid : Nat) (pages : List Nat) : State :=
  let c := s.coreAt core
  s.setCore core { c with misses := c.misses.filter (fun m => !(m.asid == asid && m.failed.isSome && (pages.map missPage).contains m.va)) }

/-! ### Reads and writes of a wave on the main path (R100, R224, R227) -/

/-- The wave's own latest store to a byte that is not yet visible: held, or pending (R100). -/
def Wave.ownByte (w : Wave) (loc : Nat) : Option Byte :=
  match w.hold.foldl (fun r h => match lastByte h.bytes loc with | some b => some b | none => r) none with
  | some b => some b
  | none => w.pw.foldl (fun r p =>
      match p.kind with
      | .store => (match lastByte p.bytes loc with | some b => some b | none => r)
      | _ => r) none

/-- A byte as the wave reads it. -/
def State.loadByte (s : State) (w : Wave) (loc : Nat) : Byte := (w.ownByte loc).getD (Memory.read s.mem loc)

/-- Bytes as the wave reads them; poisoned granules read as zero where the access says so (R214). -/
def State.loadBytes (s : State) (w : Wave) (a : Access) : List Byte :=
  a.locs.map (fun loc => if a.zero && s.poisonedFor w loc then 0 else s.loadByte w loc)

/-- A monitor that a write of the location triggers (R239). -/
def Monitor.hit (m : Monitor) (loc : Nat) : Bool := m.armed && m.line ≤ loc && loc < m.line + 128

/-- Poison after good data are written to the listed locations in one write (R212). -/
def unpoison (poison : List Nat) (locs : List Nat) : List Nat :=
  poison.filter (fun g => !((List.range 32).all (fun k => locs.contains (32 * g + k))))

/-- Bytes of stores that have become visible in part and are still to become visible. -/
def State.partBytes (s : State) : List (Nat × Byte) :=
  s.waves.flatMap (fun w => w.pw.flatMap (fun e => if e.part then e.bytes else []))
/-- Bytes of memory with each store that has landed in part whole: what is read whole is never torn (R45, R93, R186). -/
def State.wholeBytes (s : State) (locs : List Nat) : List Byte :=
  let part := s.partBytes
  locs.map (fun l => (lastByte part l).getD (Memory.read s.mem l))

/-- Units of `size` bytes of an array of a grid in which the listed locations lie, by their locations. -/
def State.unitsAt (s : State) (g : Grid) (base len size : Nat) (locs : List Nat) : List Nat :=
  ((List.range ((base % 2 ^ 16 + size * len + 0xFFFF) / 2 ^ 16)).flatMap (fun k =>
    let va := (base / 2 ^ 16 + k) * 2 ^ 16
    match s.walk g.ctx.root va with
    | .leaf ps w0 _ =>
      let p := leafPhys ps w0 va
      (locs.filter (fun l => p ≤ l && l < p + 2 ^ 16 && base ≤ va + (l - p) && va + (l - p) < base + size * len)).map (fun l => l / size * size)
    | _ => [])).eraseDups

/-- Words of the code and of the trap segments, and table entries, of live grids that a write of the locations makes
stale (R45, R93). -/
def State.staleWords (s : State) (locs : List Nat) : List (Nat × Nat × Nat × Word64) :=
  (s.grids.filter (fun g => g.ended.isNone)).flatMap (fun g =>
    let old (size a : Nat) : Nat × Nat × Nat × Word64 :=
      (g.id, a, size, BitVec.ofNat 64 (leNat (s.wholeBytes ((List.range size).map (fun k => a + k)))))
    (s.unitsAt g g.p.code g.p.codeLen 8 locs ++ s.unitsAt g g.ctx.trapSeg g.ctx.trapLen 8 locs).map (old 8) ++
      (s.unitsAt g g.p.table g.p.tabLen 4 locs).map (old 4))

/-- A unit of a grid's code or table: after a write to it, the new value or an old one (R45, R93). -/
def State.eitherUnit (s : State) (grid loc size : Nat) (new : Word64) : Word64 :=
  match (s.stale.filter (fun x => x.1 == grid && x.2.1 == loc && x.2.2.1 == size)).map (fun x => x.2.2.2) with
  | [] => new
  | old => (new :: old).getD ((Config.free s.freeCtr (2 ^ 64 * (s.gtc + 1) + loc)).toNat % (old.length + 1)) new

/-- BYTES BECOME VISIBLE to every agent, at a new instant (R224): memory, poison, stale code, monitors. -/
def State.makeVisible (s : State) (bytes : List (Nat × Byte)) : State :=
  let s := { s with gtc := s.gtc + 1,
                    stale := s.staleWords (bytes.map Prod.fst) ++ s.stale,
                    mem := bytes.foldl (fun m (b : Nat × Byte) => Memory.write m b.1 b.2) s.mem,
                    poison := if s.poison.isEmpty then s.poison else unpoison s.poison (bytes.map Prod.fst) }
  s.mapWaves (fun w => if bytes.any (fun b => w.mon.hit b.1) then { w with mon := { w.mon with trig := true } } else w)

/-- Writes by an agent other than a wave (host, units, fabric target): each call one instant. -/
def State.agentWrite (s : State) (loc : Nat) (bs : List Byte) : State :=
  s.makeVisible ((List.range bs.length).map (fun k => (loc + k, bs.getD k 0)))

/-- Queue a store of the wave, or hold it in a speculation (R265, R288). -/
def Wave.queueStore (w : Wave) (bytes : List (Nat × Byte)) (fb : Bool) : Wave :=
  if bytes.isEmpty then w
  else if w.spec != 0 then { w with hold := w.hold ++ [{ bytes := bytes, fb := fb, unk := false }] }
  else
    { w with pw := w.pw ++ [{ bytes := bytes, kind := .store, fb := fb, part := false }],
             task := w.task.map (fun t => { t with wrote := (bytes.map (fun b => granule b.1)).foldl insNat t.wrote }) }

/-- Granules that the speculations of a core hold (R266). -/
def State.heldGranules (s : State) (core : Nat) : Nat :=
  (s.coreWaves core).foldl (fun n w =>
    n + ((w.hold.flatMap (fun h => h.bytes.map (fun b => granule b.1))).eraseDups).length) 0

/-- Increment a 32-bit count of the context status block, saturating, as a device-scope atomic (R300). -/
def State.countUp (s : State) (g : Grid) (off n : Nat) : State :=
  if n == 0 then s
  else
    let a := g.ctx.status + off
    s.agentWrite a (leBytes 4 (min (s.readNat a 4 + n) 0xFFFFFFFF))

/-! ### Code segments and blocks (R44 to R50) -/

/-- Base and length of the segment in which the wave runs: code, or trap segment in trap mode (R274). -/
def State.segment (s : State) (w : Wave) : Nat × Nat :=
  let g := s.gridOf w
  if w.tm then (g.ctx.trapSeg, g.ctx.trapLen) else (g.p.code, g.p.codeLen)

/-- Outcome of a fetch. -/
inductive Fetch where
  | word (v : Word64)
  | trap (cause addr : Nat)
  | miss (va : Nat)
  | fault (va : Nat) (malformed : Bool)
  deriving DecidableEq, Repr

/-- What an instruction fetch needs. -/
def needFetch : AccNeed := ⟨false, false, true, false, false, true, false, true⟩

/-- Fetch the word at an offset (R44, R45), through the TLB or walking the tables at once; beyond the segment it is
zero. -/
def State.fetchBy (s : State) (w : Wave) (now : Bool) (off : Nat) : Fetch :=
  let (base, len) := s.segment w
  if len ≤ off then .word 0
  else
    let ea := (base + 8 * off) % 2 ^ 64
    match checkAccess s w now needFetch 3 0 ea 8 with
    | .ok a =>
      let bs := (a.locs.zip (s.wholeBytes a.locs)).map (fun p => if a.zero && s.poisonedFor w p.1 then 0 else p.2)
      .word (s.eitherUnit w.key.grid (a.locs.headD 0) 8 (BitVec.ofNat 64 (leNat bs)))
    | .trap _ c _ => .trap c ea
    | .miss va => .miss va
    | .fault va m => .fault va m

/-- The fetch of an instruction. -/
def State.fetch (s : State) (w : Wave) (off : Nat) : Fetch := s.fetchBy w false off
/-- A word that the machine looks at without issuing it: a saved position, a waiting instruction. -/
def State.fetchNow (s : State) (w : Wave) (off : Nat) : Fetch := s.fetchBy w true off
/-- The word at an offset, as a record shows it. -/
def State.wordOf (s : State) (w : Wave) (off : Nat) : Word64 := match s.fetchNow w off with | .word x => x | _ => 0

/-- Length field of a well-formed header at an offset (R48, R49). -/
def headerLen (segLen off : Nat) (v : Word64) : Option Nat :=
  let n := v.toNat
  let len := nbits n 46 10
  if n / 2 ^ 56 == 0xFE && 1 ≤ len && off + len < segLen && n % 2 ^ 10 == 0 then some len else none

/-- Live-in mask of a header (R48). -/
def headerLive (v : Word64) : Nat := nbits v.toNat 30 16

/-- Outcome of a header check. -/
inductive Header where
  | ok (len : Nat)
  | bad
  | trap (cause addr : Nat)
  | miss (va : Nat)
  | fault (va : Nat) (malformed : Bool)
  deriving DecidableEq, Repr

/-- Check the header at an offset (R49, R50). -/
def State.headerBy (s : State) (w : Wave) (now : Bool) (h : Nat) : Header :=
  let (_, len) := s.segment w
  if len ≤ h then .bad
  else
    match s.fetchBy w now h with
    | .word v => match headerLen len h v with | some n => .ok n | none => .bad
    | .trap c a => .trap c a
    | .miss va => .miss va
    | .fault va m => .fault va m
def State.header (s : State) (w : Wave) (h : Nat) : Header := s.headerBy w false h

/-- Lanes enter the block at `h` whose header is well formed (R16). Entering ends the override (R20). -/
def Wave.enter (w : Wave) (ls : List Nat) (h len : Nat) : Wave :=
  let w := w.modLanes ls (fun x => { x with vpc := h + 1, blk := h, blkEnd := h + len, bad := false })
  { w with ovr := w.ovr.filter (fun l => !ls.contains l) }

/-- Lanes pass into the block after their own; a header that is not well formed, or cannot be read, is found
at their next issue (R49). -/
def State.passInto (s : State) (w : Wave) (ls : List Nat) (h : Nat) : Wave :=
  match s.header w h with
  | .ok len => w.enter ls h len
  | _ =>
    let w := w.modLanes ls (fun x => { x with vpc := h + 1, blk := h, blkEnd := h + 1, bad := true })
    { w with ovr := w.ovr.filter (fun l => !ls.contains l) }

/-- Clear the written-groups mask at a block entry after which every unexited lane stands in one block
(R51). -/
def Wave.clearGroups (w : Wave) (entered : Bool) : Wave :=
  let live := w.liveLanes
  match live with
  | [] => w
  | l :: r =>
    if entered && r.all (fun k => (w.lane k).blk == (w.lane l).blk) then { w with wgrp := 0 } else w

/-- One lane retires the instruction at which it stands without transferring (R16). -/
def State.advanceLane (s : State) (w : Wave) (l : Nat) : Wave :=
  if (w.lane l).vpc < (w.lane l).blkEnd then w.modLane l (fun x => { x with vpc := x.vpc + 1 })
  else s.passInto w [l] ((w.lane l).blkEnd + 1)

/-- Lanes retire the instructions at which they stand. -/
def State.advance (s : State) (w : Wave) (ls : List Nat) : Wave :=
  (ls.foldl s.advanceLane w).clearGroups (ls.any (fun l => !((w.lane l).vpc < (w.lane l).blkEnd)))

/-- The nearest well-formed header before an offset whose block reaches it: header and last word. -/
def blockFrom (s : State) (w : Wave) (off n : Nat) : Option (Nat × Nat) :=
  match n with
  | 0 => none
  | h + 1 =>
    match s.headerBy w true h with
    | .ok len => if off ≤ h + len then some (h, h + len) else blockFrom s w off h
    | _ => blockFrom s w off h

/-- The block in which a lane stands that is set to an offset (R277): its header and last word. Where no block holds the
offset, the lane stands at the only word of a block of its own. -/
def State.locate (s : State) (w : Wave) (off : Nat) : Nat × Nat := (blockFrom s w off off).getD (off - 1, off)

/-! ### Producers and writes that come due -/

/-- A byte as a load of class 3 reads it now (R214, R233). -/
def State.lateByte (s : State) (x : PSrc) (loc : Nat) : Byte :=
  (lastByte x.got loc).getD (if x.zero && s.isPoisoned loc then 0 else Memory.read s.mem loc)

/-- The value of a part of a load that returns: bytes of class 3 that have not been read are read now (R233). -/
def State.srcVal (s : State) (x : PSrc) (val : Nat) : Nat := if x.late then leNat (x.locs.map (s.lateByte x)) else val

/-- Write the elements of a producer that has returned, and set its registers full (R31). -/
def State.returnElems (s : State) (w : Wave) (p : Pend) : Wave :=
  let w := p.elems.foldl (fun w e => w.storeV e.lane e.reg (BitVec.ofNat 32 (s.srcVal e.src e.val.toNat))) w
  let w := match p.scalar with
    | some (r, v, x) => w.setS r (BitVec.ofNat 64 (s.srcVal x v.toNat))
    | none => w
  let w := p.regs.foldl (fun w r => w.touch r) w
  { w with vEmpty := w.vEmpty.filter (fun r => !p.regs.contains r),
           sEmpty := match p.scalar with | some (r, _) => w.sEmpty.filter (· != r) | none => w.sEmpty }

/-- Bytes of a part of a pending load that have still to be read. -/
def PSrc.lateLocs (x : PSrc) : List Nat := if x.late then x.locs.filter (fun l => (lastByte x.got l).isNone) else []
def Pend.srcs (p : Pend) : List PSrc := p.elems.map PElem.src ++ (match p.scalar with | some (_, _, x) => [x] | none => [])
def Pend.lateLocs (p : Pend) : List Nat := p.srcs.flatMap PSrc.lateLocs
/-- The load has an access of the fall-back model; it has no other (R233). -/
def Pend.someLate (p : Pend) : Bool := p.srcs.any PSrc.late
def Pend.allLate (p : Pend) : Bool := !p.srcs.isEmpty && p.srcs.all PSrc.late

/-- Bytes of class 3 of a part of a load are read now (R233). -/
def PSrc.readNow (s : State) (locs : List Nat) (x : PSrc) : PSrc :=
  { x with got := x.got ++ (x.lateLocs.filter locs.contains).map (fun l => (l, s.lateByte x l)) }
/-- Some of the listed bytes are poisoned, and are now read as zero (R214). -/
def PSrc.readsZero (s : State) (locs : List Nat) (x : PSrc) : Bool :=
  x.zero && (x.lateLocs.filter locs.contains).any s.isPoisoned
def Pend.readNow (s : State) (locs : List Nat) (p : Pend) : Pend :=
  { p with elems := p.elems.map (fun e => { e with src := e.src.readNow s locs }),
           scalar := p.scalar.map (fun x => (x.1, x.2.1, x.2.2.readNow s locs)),
           counted := p.counted || p.srcs.any (fun x => x.readsZero s locs) }

/-- READS OF CLASS 3 TAKE PLACE NOW: those of the listed bytes by the loads of a wave that the test picks (R233). Loads that then
read a poisoned byte as zero are counted once (R214). -/
def State.readLate (s : State) (w : Wave) (pick : Pend → Bool) (locs : List Nat) : Wave :=
  if locs.isEmpty then w
  else
    let now := w.pend.map (fun q => if pick q then q.readNow s locs else q)
    let due (spec : Bool) : Nat := ((w.pend.zip now).filter (fun q => q.1.counted != q.2.counted && q.1.spec == spec)).length
    { w with pend := now, duePoison := w.duePoison + due false, heldPoison := w.heldPoison + due true }

/-- One load returns (R31). A load issued before a speculation writes its checkpoint too. The reads of earlier loads have
then taken place (R227). -/
def State.returnOne (s : State) (w : Wave) (id : Nat) : Wave :=
  match w.pend.find? (fun p => p.id == id && !p.fabric) with
  | none => w
  | some p =>
    let w' := s.returnElems w p
    let ck := match w.ck with
      | some a => if p.spec then some a else some (s.returnElems { w with toArch := a } p).toArch
      | none => none
    let fixed (q : Pend) : Pend := if q.id < id && !p.allLate then { q with moves := false } else q
    { w' with pend := (w.pend.filter (fun q => q.id != id)).map fixed, ck := ck, why := .none }

/-- A load returns: what it has still to read of class 3 is read now, by the earlier loads of the wave too, whose reads of a byte
come first (R100, R233). -/
def State.returnPend (s : State) (w : Wave) (id : Nat) : Wave :=
  match w.pend.find? (fun p => p.id == id && !p.fabric) with
  | none => w
  | some p => s.returnOne (s.readLate w (fun q => q.id ≤ id) p.lateLocs) id

/-- Every load of the wave returns. -/
def State.returnAll (s : State) (w : Wave) : Wave :=
  w.pend.foldl (fun w p => s.returnPend w p.id) w

/-! ### Atomic operations (R235) -/

/-- The new value at a location of `n` bits: operation code, old value, operand, and the second operand of
`.cas`. Float operations follow the contract and set no flag. -/
def atomicNew (contract op : Nat) (wide : Bool) (old v v2 : Nat) : Nat :=
  let n := if wide then 64 else 32
  let f := if wide then fF64 else fF32
  match op with
  | 0x00 => (old + v) % 2 ^ n
  | 0x01 => min old v
  | 0x02 => max old v
  | 0x03 => if toSigned n old ≤ toSigned n v then old else v
  | 0x04 => if toSigned n old ≤ toSigned n v then v else old
  | 0x05 => Nat.land old v
  | 0x06 => Nat.lor old v
  | 0x07 => Nat.xor old v
  | 0x08 => v
  | 0x09 => if old == v then v2 else old
  | 0x10 => (f.fadd contract .rn old v).1
  | 0x11 => (f.fminmax contract false old v).1
  | _ => (f.fminmax contract true old v).1

/-! ### Requests of a wave to its own device (R233, R312) -/

/-- The bytes that a fabric request names, by their addresses at the target. -/
def FabReqAddrs (r : FabReq) : List Nat :=
  match r.kind with
  | .load as => as
  | .store bs => bs.map Prod.fst
  | .atomic _ wide a _ _ => (List.range (if wide then 8 else 4)).map (fun k => a + k)

/-- The locations of a request to this device (R310). -/
def State.ownLocs (s : State) (r : FabReq) : List Nat :=
  match mget s.exports r.key with
  | none => []
  | some e =>
    match s.walk e.root ((FabReqAddrs r).headD 0) with
    | .leaf size w0 _ => (FabReqAddrs r).map (leafPhys size w0)
    | _ => []

/-- AN EARLIER REQUEST of the wave to its own device for one of the locations has no answer yet: an access of class 3 there comes
after it (R233, log 152). -/
def State.behindOwn (s : State) (w : Wave) (locs : List Nat) (earlier : FabOut → Bool) : Bool :=
  w.fab.any (fun o => o.req.dst == s.config.devNum && earlier o && (s.ownLocs o.req).any locs.contains)

/-! ### Acknowledgement of writes (R225) -/

/-- A write time folds into `$wct`, of the wave and of its checkpoint: what is pending was issued before (R226). -/
def Wave.foldTime (w : Wave) (t : Nat) : Wave :=
  { w with wct := max w.wct t, ck := w.ck.map (fun a => { a with wct := max a.wct t }) }

/-- Drains and the wave's own stores take no order from each other (R176, R172). -/
def PWKind.ordersWith (a b : PWKind) : Bool :=
  match a, b with
  | .drain, .drain => true
  | .drain, _ => false
  | _, .drain => false
  | _, _ => true
def PWKind.isRmw : PWKind → Bool | .rmw .. => true | _ => false
/-- The instruction of a reduction. -/
def PWKind.ins : PWKind → Nat | .rmw _ _ _ _ n => n | _ => 0

/-- One pending write lands, at the listed locations: its bytes become visible, and its time folds into `$wct` (for a
drain, into the time that `spfence` folds; for class 3 into none, R226). Reads of class 3 of the same bytes by loads issued
before it come first (R233), and reads of the main path that were issued before it have taken place (R227 rule 2). -/
def State.landEntry (s : State) (key : WKey) (k : Nat) (locs : List Nat) : State :=
  match s.findWave key with
  | none => s
  | some w =>
    match w.pw[k]? with
    | none => s
    | some e =>
      let now := e.bytes.filter (fun b => locs.contains b.1)
      let later := e.bytes.filter (fun b => !locs.contains b.1)
      if now.isEmpty then s
      else
        let w := s.readLate w (fun _ => true) (now.map Prod.fst)
        let fixed (p : Pend) : Pend := if p.before ≤ k && !e.fb && e.kind != .drain then { p with moves := false } else p
        let w := { w with pend := w.pend.map fixed }
        let s := s.setWave w
        match e.kind with
        | .rmw op wide v c _ =>
          let ls := e.bytes.map Prod.fst
          let old := leNat (ls.map (fun l => Memory.read s.mem l))
          let new := atomicNew c op wide old v.toNat 0
          let s := s.makeVisible (ls.zip (leBytes ls.length new))
          s.onWave key (fun w => ({ w with pw := w.pw.set k { e with bytes := [] } } : Wave).foldTime s.gtc)
        | .store =>
          let s := s.makeVisible now
          s.onWave key (fun w =>
            let w := { w with pw := w.pw.set k { e with bytes := later, part := true } }
            if e.fb then w else w.foldTime s.gtc)
        | .drain =>
          let s := s.makeVisible now
          s.onWave key (fun w => { w with pw := w.pw.set k { e with bytes := later, part := true }, dct := max w.dct s.gtc })

/-- Forget the pending writes that have landed, and count them off the copies and loads that know how many are earlier
(R218, R227). -/
def Wave.prunePw (w : Wave) : Wave :=
  let gone (n : Nat) : Nat := ((w.pw.take n).filter (fun e => e.bytes.isEmpty)).length
  { w with pw := w.pw.filter (fun e => !e.bytes.isEmpty),
           pend := w.pend.map (fun p => { p with before := p.before - gone p.before }),
           copies := w.copies.map (fun c => c.map (fun x => { x with before := x.before - gone x.before })),
           fab := w.fab.map (fun o => { o with before := o.before - gone o.before }),
           opens := (w.opens.map (fun x => (x.1, x.2 - gone x.2))).filter (fun x => x.2 != 0) }

/-- WHAT COMES BEFORE an access of the wave among its first `k` pending writes, with their bytes: earlier writes of the same
bytes (R227 rule 3), and, for a main-path access, the reductions of other instructions, which are reads (rules 1 and 2), with
what comes before those. -/
def earlierOf (pw : List PWrite) (k : Nat) (main : Bool) (kind : PWKind) (locs : List Nat) : List (Nat × List Nat) :=
  ((List.range k).foldr (fun j (r : List (Nat × List Nat) × List Nat) =>
    match pw[j]? with
    | none => r
    | some e =>
      let all := e.bytes.map Prod.fst
      let here := all.filter r.2.contains
      if all.isEmpty || !e.kind.ordersWith kind then r
      else if e.kind.isRmw then
        (if (main && e.kind.ins != kind.ins) || !here.isEmpty then ((j, all) :: r.1, all ++ r.2) else r)
      else if here.isEmpty then r else ((j, here) :: r.1, r.2)) ([], locs)).1

/-- WRITE ACKNOWLEDGEMENT: bytes `lo` to `lo + len - 1` of pending write `k` become visible and are acknowledged, after what
comes before them (R227). A length of 0 names the whole write; a reduction is always whole. -/
def State.ackWrite (s : State) (key : WKey) (k lo len : Nat) : State :=
  match s.findWave key with
  | none => s
  | some w =>
    match w.pw[k]? with
    | none => s
    | some e =>
      let sel := if len == 0 || e.kind.isRmw then e.bytes else (e.bytes.drop lo).take len
      let locs := sel.map Prod.fst
      if e.fb && s.behindOwn w locs (fun o => o.before ≤ k) then s
      else
      let s := (earlierOf w.pw k (!e.fb) e.kind locs).foldl (fun s p => s.landEntry key p.1 p.2) s
      let s := s.landEntry key k locs
      s.onWave key (fun w => { w.prunePw with why := if w.why == .release || w.why == .staging then .none else w.why })

/-- The scope names a wave to another one (R229): the wave, its team, core pair or die, or every agent of the device. -/
def scopeHas (scope : Nat) (a b : Wave) : Bool :=
  match scope with
  | 0 => a.key == b.key
  | 1 => a.key.grid == b.key.grid && a.key.team == b.key.team
  | 2 => a.core / 2 == b.core / 2
  | 3 => a.core / 128 == b.core / 128
  | _ => true

/-- The main-path writes of a wave before its open releases that the test picks become visible (R228, log 149). -/
def State.closeWave (s : State) (key : WKey) (pick : Nat → Bool) : State :=
  match s.findWave key with
  | none => s
  | some w =>
    let n := ((w.opens.filter (fun x => pick x.1)).map Prod.snd).foldl max 0
    let s := (List.range n).foldl (fun s k =>
      match w.pw[k]? with
      | some e => if e.fb || e.kind == .drain then s else s.landEntry key k (e.bytes.map Prod.fst)
      | none => s) s
    s.onWave key (fun w => { w.prunePw with opens := w.prunePw.opens.filter (fun x => !pick x.1) })

/-- Every open release is complete. -/
def State.closeAll (s : State) : State :=
  if s.waves.all (fun w => w.opens.isEmpty) then s
  else s.waves.foldl (fun s w => if w.opens.isEmpty then s else s.closeWave w.key (fun _ => true)) s

/-- AN ACQUIRE of the current wave at a scope: it finds visible what was written before each release that has been passed where the
scopes of the two include each other's waves (R229). -/
def State.closeFor (s : State) (scope : Nat) : State :=
  s.waves.foldl (fun s w =>
    if w.opens.isEmpty || w.key == s.cur.key || !scopeHas scope s.cur w then s else s.closeWave w.key (fun r => scopeHas r w s.cur)) s

/-- Land, in the current wave, what comes before an access of the listed bytes that is performed now. -/
def State.landBefore (s : State) (main : Bool) (locs : List Nat) : State :=
  if s.cur.pw.isEmpty then s
  else
    let s := (earlierOf s.cur.pw s.cur.pw.length main .store locs).foldl (fun s p => s.landEntry s.cur.key p.1 p.2) s
    { s with cur := s.cur.prunePw }

/-- A READ of the wave is made: its earlier reductions, which are reads too, are performed first (R227). A read on the main
path whose time is then fixed fixes those before it; a load's is fixed when it returns. -/
def State.beforeRead (s : State) (main fixed : Bool) : State :=
  let s := if main && s.cur.pw.any (fun e => e.kind.isRmw) then s.landBefore true [] else s
  if main && fixed && s.cur.pend.any (fun p => p.moves) then
    { s with cur := { s.cur with pend := s.cur.pend.map (fun p => { p with moves := false }) } }
  else s

/-- An atomic of the wave at the listed bytes is performed: a read and a write (R227). -/
def State.landEarlier (s : State) (locs : List Nat) : State := (s.landBefore true locs).beforeRead true true

/-- THE READ of an element of a pending load takes place now. Of a main-path load, with those of the loads behind it, which
cannot be earlier (R227 rule 1): later than at the issue, while nothing that follows has been performed; a granule that has become
poisoned since is read before that, or as zero (R214). Of class 3, with the reads of the same bytes by earlier loads (R233). -/
def State.lateRead (s : State) (key : WKey) (k j : Nat) : State :=
  s.onWave key (fun w =>
    let value (p : Pend) (x : PSrc) (old : Nat) : Nat :=
      let u := { w with pw := w.pw.take p.before, hold := [] }
      if x.late || x.locs.isEmpty || (!x.zero && x.locs.any (s.poisonedFor u)) then old
      else leNat (x.locs.map (fun l => if s.poisonedFor u l then 0 else s.loadByte u l))
    let again (p : Pend) (pick : Nat → Bool) : Pend :=
      { p with elems := (p.elems.zip (List.range p.elems.length)).map (fun e =>
                 if pick e.2 then { e.1 with val := BitVec.ofNat 32 (value p e.1.src e.1.val.toNat) } else e.1),
               scalar := p.scalar.map (fun x => (x.1, BitVec.ofNat 64 (value p x.2.2 x.2.1.toNat), x.2.2)) }
    match w.pend[k]? with
    | some p =>
      if ((p.srcs[j]?).map PSrc.late).getD false then
        let locs := ((p.srcs[j]?).map PSrc.lateLocs).getD []
        if s.behindOwn w locs (fun o => o.loads ≤ p.id) then w else s.readLate w (fun q => q.id ≤ p.id) locs
      else if w.spec != 0 || p.fabric || !p.moves then w
      else { w with pend := w.pend.map (fun q =>
               if q.id == p.id then again q (· == j) else if p.id < q.id && !q.fabric then again q (fun _ => true) else q) }
    | none => w)

/-- The GTC has passed a time (R225). -/
def State.passed (s : State) (t : Nat) : Bool := t + Config.gtcMargin < s.gtc

/-- A GRANULE BECOMES POISONED: what pending loads of class 3 read of it without reading it as zero was read before, as the check at
their issue demands (R99, R214). -/
def State.addPoison (s : State) (g : Nat) : State :=
  let read (w : Wave) : Wave :=
    if w.pend.isEmpty then w
    else s.readLate w (fun q => q.srcs.any (fun x => !x.zero)) ((List.range 32).map (fun k => 32 * g + k))
  { s.mapWaves read with poison := insNat s.poison g }

/-- Every earlier main-path write of the wave is acknowledged (R228). -/
def Wave.acked (w : Wave) : Bool := w.pw.all (fun e => e.fb || e.kind == .drain)
/-- Every earlier main-path read of the wave has returned. -/
def Wave.returned (w : Wave) : Bool := w.pend.all (fun p => p.fabric || p.allLate)
/-- The release point is reached (R228). -/
def State.released (s : State) (w : Wave) : Bool := w.acked && w.returned && s.passed w.wct

/-! ### Taking a trap (R271 to R276) -/

/-- k-progress of the operation that a wave has in progress (R284). -/
def State.kprog (s : State) (w : Wave) : Nat :=
  (s.coreAt (s.teamOf w).core).engine.foldl (fun n e =>
    match e.op with
    | .mma _ _ _ _ _ _ _ _ k _ _ => if e.who == w.key && k != 0 then k else n
    | _ => n) 0

/-- The wave status word (R284). -/
def State.wsw (s : State) (w : Wave) : Word64 :=
  BitVec.ofNat 64 ((if w.tm then 1 else 0) + (if w.step then 2 else 0) + (if w.dbg then 4 else 0) +
    (if w.privileged then 8 else 0) + w.cause * 16 + s.kprog w * 2 ^ 10 + w.spec * 2 ^ 16 +
    (if w.task.isSome then 2 ^ 18 else 0) + (if w.nonspec then 2 ^ 19 else 0))

/-- Address of a wave's trap record (R275). -/
def recordAddr (g : Grid) (w : Wave) : Nat := (g.ctx.trapArea + 2048 * (32 * w.key.team + w.key.wave)) % 2 ^ 64

/-- THE TRAP RECORD (R275). -/
def State.recordBytes (s : State) (w : Wave) (t : TrapInfo) : List Byte :=
  leBytes 4 t.cause ++ leBytes 4 t.offset ++ leBytes 8 t.lanes.toNat ++ leBytes 8 t.word.toNat ++
  leBytes 8 t.addr ++ leBytes 8 t.infoA ++ leBytes 8 t.infoB ++ leBytes 8 s.gtc ++ leBytes 8 (s.wsw w &&& ~~~1).toNat ++
  (List.range 64).flatMap (fun l => leBytes 4 (w.lane l).vpc) ++
  (List.range 64).map (fun l => BitVec.ofNat 8 (t.laneCause.getD l 0)) ++ List.replicate 128 0 ++
  (List.range 96).flatMap (fun k => leBytes 8 (t.batch.getD k 0)) ++ List.replicate 768 0

/-- What the trap record's stores need: W, in privileged mode (R275). -/
def needRecord : AccNeed := ⟨false, true, false, false, false, false, false, true⟩

/-- Where the record of a wave lies, by its context's translation: through the TLB, or walking the tables at once. -/
def State.recordAccess (s : State) (w : Wave) (now : Bool) : LaneAcc :=
  checkAccess s { w with tm := true } now needRecord 3 0 (recordAddr (s.gridOf w) w) 2048

/-- Bytes of the record as the wave reads them (R277). -/
def State.readRecord (s : State) (w : Wave) (off n : Nat) : Nat :=
  match s.recordAccess w true with
  | .ok a => leNat (((a.locs.drop off).take n).map (s.loadByte w))
  | _ => 0

/-- The fault service in the host is told (R279, R354). -/
def State.tellsHost (s : State) (w : Wave) (cause : Nat) : Bool :=
  tbit s.regs.fmode 1 || (tbit (BitVec.ofNat 32 (s.gridOf w).ctx.debug) 2 && (cause == 20 || cause == 21))

/-- The wave is escalated to the fault service (R279): it stays in trap mode with no lane ready, and no lane waits for anything: lanes
that were asleep or waiting stand at their instructions (R276). -/
def State.escalate (s : State) (cause : Nat) (direct : Option TrapInfo) : State :=
  let w := s.cur.modLanes s.cur.liveLanes (fun x => { x with st := .run })
  { s with cur := { w with tm := true, cause := cause, escalated := true, escHost := s.tellsHost w cause, trapPend := direct },
           outbox := if s.tellsHost w cause then s.outbox ++ [.hostEscalation w.key direct] else s.outbox }

/-- The fault service edits the record that went to it directly: its fields, and positions of lanes. -/
def State.editRecord (s : State) (key : WKey) (t : TrapInfo) (vpcs : List (Nat × Nat)) : State :=
  s.onWave key (fun w =>
    if w.escalated && w.trapPend.isSome then
      vpcs.foldl (fun (w : Wave) p => w.modLane p.1 (fun x => { x with vpc := p.2 % 2 ^ 32 })) { w with trapPend := some t }
    else w)

/-- Save the trap bank, unless a trap is being handled already (R274 step 2). -/
def Wave.saveBank (w : Wave) : Wave :=
  if w.tm then w
  else { w with bankS := (List.range 8).map (fun k => w.getS (120 + k)) }.modLanes w.liveLanes (fun x =>
    { x with bankP := x.p, bankPos := (x.vpc, x.blk, x.blkEnd, x.bad),
             bankBar := match x.st with | .bar .. => some x.st | _ => none })

/-- The wave in the handler, whose first block has `len` words: the trap bank is saved, and every unexited lane starts at
word 1 of the trap segment (R274 steps 2 to 4). DESIGN CHOICE (log 151): this entry does not clear the written-groups mask, since
R49 does not list it among the entries of a block. -/
def Wave.inHandler (w : Wave) (t : TrapInfo) (len record : Nat) : Wave :=
  let w1 := { w.saveBank with tm := true, cause := t.cause, ovr := [], counts := [], trapPend := none }
  let w2 := w1.modLanes w1.liveLanes (fun x => { x with st := .run, p := 0 })
  let w2 := w2.modLanes (w2.liveLanes.filter (fun l => tbit t.lanes l)) (fun x => { x with p := 1 })
  let w2 := w2.enter w2.liveLanes 0 len
  { w2.setS 127 (BitVec.ofNat 64 record) with sEmpty := w2.sEmpty.filter (· != 127), why := .none }

/-- The trap waits for a translation, or for the fault service (R275). -/
def State.holdTrap (s : State) (t : TrapInfo) (why : Why) : State :=
  { s with cur := { s.cur with trapPend := some t, why := why },
           outbox := if why == .trapRecord && tbit s.regs.fmode 1 then s.outbox ++ [.hostFault s.cur.key] else s.outbox }
def State.missTrap (s : State) (t : TrapInfo) (va : Nat) : State :=
  let g := s.gridOf s.cur
  (s.postMisses s.cur.core g.ctx.asid g.ctx.root [va]).holdTrap t .tlb

/-- The record cannot be written: the wave is escalated, and its record goes to the service directly, with the cause of
the failed write (R275). -/
def State.escalateDirect (s : State) (t : TrapInfo) (cause : Nat) : State :=
  { s with cur := { s.cur.saveBank with why := .none } }.escalate t.cause (some { t with failed := cause })

/-- A trap whose record has been written is escalated in place of an entry of the handler (R274, R276). -/
def State.escalateWritten (s : State) (t : TrapInfo) (a : Access) : State :=
  let w := { s.cur.queueStore (a.locs.zip (s.recordBytes s.cur t)) (a.cls == 3) with trapPend := none }
  { s with cur := { w.saveBank with why := .none } }.escalate t.cause none

/-- The service has declined the page of the record, or that of the first word of the trap segment, before which the record is
written (R274, R275). -/
def State.declined (s : State) (t : TrapInfo) : State :=
  match s.recordAccess s.cur false with
  | .ok a => s.escalateWritten t a
  | _ => s.escalateDirect t 6

/-- Write a trap record and go on as R274 and R275 state. Where the record's page or the first word of the trap segment has
no translation, the trap waits. A service that resumes a wave does so from the record, so the bank is saved as at an entry. -/
def State.writeRecord (s : State) (t : TrapInfo) : State :=
  let w := s.cur
  let g := s.gridOf w
  match s.recordAccess w false with
  | .ok a =>
    let w1 := { w.queueStore (a.locs.zip (s.recordBytes w t)) (a.cls == 3) with trapPend := none }
    if w.tm || t.esc || g.ctx.trapLen == 0 then s.escalateWritten t a
    else
      match s.header { w with tm := true } 0 with
      | .ok len => { s with cur := w1.inHandler t len (recordAddr g w) }
      | .miss va => s.missTrap t va
      | .fault .. => s.holdTrap t .trapRecord
      | .bad | .trap .. => s.escalateWritten t a
  | .miss va => s.missTrap t va
  | .fault .. => s.holdTrap t .trapRecord
  | .trap _ c _ => s.escalateDirect t c

/-- The record that went to the service directly. -/
def Wave.directRecord (w : Wave) : Option TrapInfo := if w.escalated then w.trapPend else none

/-- The wave leaves the staging buffer, and those behind it look again (R189). -/
def State.leaveStage (s : State) (key : WKey) : State :=
  if s.cores.any (fun c => c.2.stageQ.contains key) then
    let s : State := { s with cores := s.cores.map (fun c => (c.1, { c.2 with stageQ := c.2.stageQ.filter (· != key) })) }
    s.mapWaves (fun w => if w.why == .staging then { w with why := .none } else w)
  else s

/-- The wave waits no longer in any queue: for room or records of a feed (R365, R366), or for the staging buffer (R189). -/
def State.leaveQueues (s : State) (key : WKey) : State :=
  let s : State := { s with popQ := s.popQ.filter (fun x => x.2 != key), pushQ := s.pushQ.filter (fun x => x.2 != Appender.wave key) }
  s.leaveStage key

/-- TAKE A TRAP (R271 to R276), in the current wave: earlier loads return first, the record is written, the
bank is saved, and every unexited lane starts at word 1 of the trap segment. A trap in trap mode is a
double trap: the first record is kept in the context status block and the wave is escalated (R276). -/
def State.takeTrap (s : State) (t : TrapInfo) : State :=
  let s := { s with cur := s.returnAll s.cur }.leaveQueues s.cur.key
  let w := s.cur
  if w.tm then
    match s.recordAccess w false with
    | .ok a => (s.agentWrite ((s.gridOf w).ctx.status + 0x400) ((a.locs.take 1024).map (s.loadByte w))).writeRecord t
    | _ => s.writeRecord t
  else s.writeRecord t

/-- The offset and the word of the record, for a set of lanes that stand together. -/
def mkTrap (cause : Nat) (lanes : List Nat) (addr infoA infoB : Nat) (laneCause : List (Nat × Nat))
    (offset : Nat) (word : Word64) (batch : List Nat) : TrapInfo :=
  { cause := cause, lanes := maskOf lanes, addr := addr, infoA := infoA, infoB := infoB,
    laneCause := (List.range 64).map (fun l =>
      match laneCause.find? (fun p => p.1 == l) with
      | some p => p.2
      | none => if laneCause.isEmpty && lanes.contains l then cause else 0),
    offset := offset, word := word, batch := batch, esc := false, failed := 0 }

/-! ### Returning from a trap (R277) -/

/-- Where a lane stands after a return: `vpc`, header and last word of its block, the header is not well formed, and whether
the lane entered the block. -/
structure RetPos where
  lane : Nat
  vpc : Nat
  blk : Nat
  blkEnd : Nat
  bad : Bool
  entered : Bool
  deriving DecidableEq, Repr

/-- The position of a lane that a record sets to `v`: a header is entered as a transfer; the position that was saved is the
block that was left; any other is the block that holds it. `none` where the return is a double trap. -/
def State.returnPos (s : State) (u : Wave) (l v : Nat) : Option RetPos :=
  let (vpc, blk, blkEnd, bad) := (u.lane l).bankPos
  let stays : RetPos :=
    if v == vpc then ⟨l, v, blk, blkEnd, bad, false⟩ else let b := s.locate u v; ⟨l, v, b.1, b.2, false, false⟩
  if (s.segment u).2 ≤ v then none
  else
    match s.fetchNow u v with
    | .word x =>
      if x.toNat / 2 ^ 56 == 0xFE then
        match s.headerBy u true v with
        | .ok n => some ⟨l, v + 1, v, v + n, false, true⟩
        | _ => none
      else some stays
    | _ => some stays

/-- The saved position of a lane in the record. -/
def State.recordPos (s : State) (w : Wave) (l : Nat) : Nat :=
  if w.directRecord.isSome then (w.lane l).vpc else s.readRecord w (0x40 + 4 * l) 4

/-- The positions that a record gives the unexited lanes; where some position is an illegal target, that of the lowest
`$tid` among those lanes (R277, R273). -/
def State.returnPositions (s : State) (w : Wave) : Except Nat (List RetPos) :=
  let u := { w with tm := false }
  let ps := w.liveLanes.map (fun l => (l, s.returnPos u l (s.recordPos w l)))
  match (ps.filter (fun p => p.2.isNone)).map Prod.fst with
  | [] => .ok (ps.filterMap Prod.snd)
  | ls => .error (s.recordPos w (w.lowestTid ls))

/-! ### Fabric requests of a wave (R307, R315, R316) -/

/-- Write an element by a producer issued before or in the speculation: before it, the checkpoint holds the
element too. -/
def Wave.putBoth (w : Wave) (spec : Bool) (l r : Nat) (e : Elem) : Wave :=
  let w := w.storeV l r e
  match w.ck with
  | some a => if spec then w else { w with ck := some ({ w with toArch := a }.storeV l r e).toArch }
  | none => w

/-- A producer of fabric data is finished once no request of it is outstanding, failed or held: its registers
become full (R312). -/
def Wave.settleFab (w : Wave) (ids : List Nat) : Wave :=
  let waits (p : Pend) : Bool :=
    w.fab.any (fun o => o.pend == some p.id) || w.fabFail.any (fun x => x.out.pend == some p.id)
  let ready := w.pend.filter (fun p => ids.contains p.id && !waits p)
  ready.foldl (fun (w : Wave) p =>
    let still := w.vEmpty.filter (fun r => !p.regs.contains r)
    { w with pend := w.pend.filter (fun q => q.id != p.id), vEmpty := still,
             ck := w.ck.map (fun a => if p.spec then a else { a with vEmpty := a.vEmpty.filter (fun r => !p.regs.contains r) }) }) w

/-- The registers of a lane that a fabric load or atomic writes. -/
def FabUse.regs (u : FabUse) : List Nat := (List.range ((u.size + 3) / 4)).map (fun k => u.reg + k)

/-- Write zero to the destinations of abandoned lanes (R316). -/
def Wave.zeroUses (w : Wave) (spec : Bool) (us : List FabUse) : Wave :=
  us.foldl (fun w u => u.regs.foldl (fun w r => w.putBoth spec u.lane r 0) w) w

/-- A fabric request is an atomic. -/
def FabOut.isAtomic (o : FabOut) : Bool := match o.req.kind with | .atomic .. => true | _ => false
/-- A fabric request is a store or an atomic, which a fence interval counts (R317). -/
def FabOut.isStore (o : FabOut) : Bool := match o.req.kind with | .load _ => false | _ => true

/-- The request restricted to some of its lanes, as first formed. -/
def FabOut.restrict (o : FabOut) (us : List FabUse) : FabOut :=
  let inUse (a : Nat) : Bool := us.any (fun u => u.ea % 2 ^ 52 ≤ a && a < u.ea % 2 ^ 52 + u.size)
  let kind := match o.req.kind with
    | .load as => FabKind.load (as.filter inUse)
    | .store bs => FabKind.store (bs.filter (fun b => inUse b.1))
    | k => k
  { o with uses := us, sent := false, resent := false, held := false, req := { o.req with kind := kind, replay := false } }

/-- AT SRET from the trap of failed requests: lanes that the record's lanes field still names send their loads
and stores again; the others are abandoned; a failed atomic is never sent again (R316). -/
def Wave.fabReturn (w : Wave) (mask : Nat) : Wave :=
  let done := w.fabFail.filter (fun x => x.reported)
  let w := { w with fabFail := w.fabFail.filter (fun x => !x.reported) }
  let w := done.foldl (fun (w : Wave) x =>
    let o := x.out
    let again := if o.isAtomic then [] else o.uses.filter (fun u => tbit (BitVec.ofNat 64 mask) u.lane)
    let gone := o.uses.filter (fun u => !again.contains u)
    let w := if o.pend.isSome then w.zeroUses o.spec gone else w
    if again.isEmpty then w else { w with fab := w.fab ++ [o.restrict again] }) w
  w.settleFab (done.filterMap (fun x => x.out.pend))

/-- The lanes field of the record. -/
def State.recordLanes (s : State) (w : Wave) : Nat :=
  match w.directRecord with
  | some t => t.lanes.toNat
  | none => s.readRecord w 8 8

/-- RETURN FROM A TRAP: positions from the record, the bank restored, trap mode left (R277). A lane that was
waiting at a Turnstile instruction and still stands there resumes its wait (R405). -/
def State.returnFromTrap (s : State) (ps : List RetPos) : State :=
  let w := if s.cur.fabFail.any (fun x => x.reported) then s.cur.fabReturn (s.recordLanes s.cur) else s.cur
  let w1 := ps.foldl (fun (w : Wave) p =>
    w.modLane p.lane (fun x => { x with vpc := p.vpc, blk := p.blk, blkEnd := p.blkEnd, bad := p.bad, p := x.bankP,
                                        st := if x.bankPos.1 == p.vpc then x.bankBar.getD .run else .run,
                                        bankBar := none })) w
  let w2 := (List.range 8).foldl (fun (w : Wave) k => w.setS (120 + k) (w.bankS.getD k 0)) w1
  let keeps (a : FabAt) : Bool := !a.tm && a.iss.all (fun l => (w2.lane l).vpc == a.offset)
  let w3 := { w2 with tm := false, cause := 0, bpSkip := w.cause == 21, escalated := false,
                      trapPend := if w.escalated then none else w.trapPend, ovr := [],
                      counts := [], why := .none, fabAt := w2.fabAt.filter keeps,
                      prog := w2.prog.filter (fun p => !p.tm && w2.liveLanes.any (fun l => (w2.lane l).vpc == p.offset)) }
  { s with cur := w3.clearGroups (ps.any (fun p => p.entered)) }

end Sys2Proof.Machine
end

