-- ==== Sys2Proof/Machine/FabCore.lean ====
section
/-! DEFINITION. The fabric as a source (R307 to R323): sending requests as slots allow, the replay buffer, and
the effect of `ffence`. -/

namespace Sys2Proof.Machine

def Interval.zero : Interval :=
  { num := 0, count := 0, bad := false, replay := [], query := none, replayed := false }

def Wave.ival (w : Wave) (d : Nat) : Interval := mgetD w.ivals d Interval.zero
def Wave.setIval (w : Wave) (d : Nat) (i : Interval) : Wave := { w with ivals := mputD Interval.zero w.ivals d i }

/-- Packets pass between this device and another: a link is up, or a V4 device may relay them. A relay through a V3 device is
not used (R305, R326). -/
def State.reaches (s : State) (d : Nat) : Bool :=
  let own := s.config.devNum
  d == own || !s.linkDown.contains d ||
  s.config.present.any (fun x => x != own && x != d && !s.config.v3.contains x && !s.linkDown.contains x)

/-- Slots that a wave holds towards a target. -/
def Wave.slotsTo (w : Wave) (d : Nat) : Nat := (w.fab.filter (fun o => o.sent && o.req.dst == d)).length

/-- Free request slots of a core towards a target (R307). -/
def State.fabFree (s : State) (core d : Nat) : Nat :=
  8 - ((s.waves.filter (fun w => w.core == core)).map (fun w => w.slotsTo d)).sum

/-- Entries of a core's replay buffer towards a target (R320). -/
def State.replayUsed (s : State) (core d : Nat) : Nat :=
  ((s.waves.filter (fun w => w.core == core)).map (fun w => (w.ival d).replay.length)).sum

/-- The location of an atomic request, for the order of `.cas` requests (R314). -/
def FabOut.casAt (o : FabOut) : Option Nat :=
  match o.req.kind with
  | .atomic 9 _ a _ _ => some (o.req.dst * 2 ^ 52 + a)
  | _ => none

/-- An earlier `.cas` request of the same instruction and location has no response yet. -/
def casBlocked (before : List FabOut) (o : FabOut) : Bool :=
  o.casAt.isSome && before.any (fun b => b.seq == o.seq && b.casAt == o.casAt)

/-- The link to a device speaks the V3 protocol (R326). -/
def State.onV3 (s : State) (d : Nat) : Bool := s.config.v3.contains d

/-- A tag may be used now towards a device: no request that is outstanding holds it, its next incarnation has not been used
within 16 times the bound, and on a V3 link it has not timed out within that time (R323, R326). -/
def State.tagFree (s : State) (c : Core) (busy : List Nat) (d tag : Nat) : Bool :=
  !busy.contains tag && mgetD c.tagUsed (16 * tag + mgetD c.tagInc tag 0) 0 ≤ s.gtc &&
  !(s.onV3 d && s.gtc < mgetD c.tagHeld (4096 * d + tag) 0)

/-- Tags of the core's outstanding requests. -/
def State.tagsBusy (s : State) (core : Nat) : List Nat :=
  (s.waves.filter (fun w => w.core == core)).flatMap (fun w => (w.fab.filter (fun o => o.sent)).map (fun o => o.req.tag))

/-- The first of `n` tags from `t` that may be used. -/
def State.tagFrom (s : State) (c : Core) (busy : List Nat) (d t n : Nat) : Option Nat :=
  match n with
  | 0 => none
  | n + 1 => if s.tagFree c busy d (t % 4096) then some (t % 4096) else s.tagFrom c busy d (t + 1) n

/-- The tag of a request: its own where it is sent again (R323), unless the link does not carry the incarnation (R326). -/
def State.pickTag (s : State) (w : Wave) (o : FabOut) : Option Nat :=
  let c := s.coreAt w.core
  let busy := s.tagsBusy w.core
  if o.resent && !s.onV3 o.req.dst then (if s.tagFree c busy o.req.dst o.req.tag then some o.req.tag else none)
  else s.tagFrom c busy o.req.dst c.tagCtr 4096

/-- Send the `k`-th request of a wave under a tag: an incarnation and a deadline (R322), its place in the fence interval and
in the replay buffer (R317, R320). -/
def State.sendOne (s : State) (w : Wave) (k : Nat) (o : FabOut) (tag : Nat) : State :=
  let c := s.coreAt w.core
  let inc := mgetD c.tagInc tag 0
  let d := o.req.dst
  let bound := (s.gridOf w).ctx.ftime
  let counted := o.isStore && !o.req.replay
  let req : FabReq := { o.req with tag := tag, inc := if s.onV3 d then 0 else inc, deadline := s.gtc + bound,
                                   interval := (w.ival d).num }
  let s := s.setCore w.core { c with tagCtr := if tag == c.tagCtr % 4096 then c.tagCtr + 1 else c.tagCtr,
                                     tagInc := mputD 0 c.tagInc tag ((inc + 1) % 16),
                                     tagUsed := mput c.tagUsed (16 * tag + inc) (s.gtc + 16 * bound) }
  let sent : FabOut := { o with req := req, sent := true }
  let w := { w with fab := w.fab.set k sent, tgt := d }
  let w := { w with hwm := max w.hwm (w.slotsTo d) }
  let i := w.ival d
  let w := if counted then w.setIval d { i with count := i.count + 1, replay := i.replay ++ [sent], query := none } else w
  { s.setWave w with outbox := s.outbox ++ [.fabReq req] }

/-- What keeps a request of a wave from being sent now: no free slot, a request of the same instruction before it that has
not been sent (R307, R312), an earlier `.cas` (R314), or an effect of `ffence` that is to come first (R320). -/
def State.fabHeld (s : State) (w : Wave) (k : Nat) (o : FabOut) : Bool :=
  s.fabFree w.core o.req.dst == 0 || casBlocked (w.fab.take k) o ||
  (w.fab.take k).any (fun b => b.seq == o.seq && !b.sent && !casBlocked (w.fab.take k) b) ||
  (w.mustFence.contains o.req.dst && !o.resent && !o.req.replay)

/-- Send what can be sent of a wave's requests, in order (R307, R312). A full replay buffer asks every wave of the
core with entries in it for the effect of `ffence` (R320). -/
def State.pumpFrom (s : State) (key : WKey) (ks : List Nat) : State :=
  match ks with
  | [] => s
  | k :: r =>
    match s.findWave key with
    | none => s
    | some w =>
      match w.fab[k]? with
      | none => s
      | some o =>
        if o.sent || s.fabHeld w k o then s.pumpFrom key r
        else if o.isStore && !o.req.replay && 4096 ≤ s.replayUsed w.core o.req.dst then
          (s.mapWaves (fun x => if x.core == w.core && !(x.ival o.req.dst).replay.isEmpty then
            { x with mustFence := insNat x.mustFence o.req.dst } else x)).pumpFrom key r
        else
          match s.pickTag w o with
          | some tag => (s.sendOne w k o tag).pumpFrom key r
          | none => s.pumpFrom key r

def State.fabPump (s : State) (key : WKey) : State :=
  match s.findWave key with
  | some w => if w.fab.all (fun o => o.sent) then s else s.pumpFrom key (List.range w.fab.length)
  | none => s

/-! ### The effect of ffence (R318) -/

/-- Outcome of the effect of `ffence`. -/
inductive FenceRes where
  | ready (s : State)
  | waiting (s : State)
  /-- target, counts, interval -/
  | mismatch (s : State) (d sent received num : Nat)
  deriving DecidableEq, Repr

/-- Every earlier fall-back access of the wave is acknowledged, but for fabric requests (R233). -/
def Wave.class3Quiet (w : Wave) : Bool :=
  w.pw.all (fun e => !e.fb) && w.pend.all (fun p => p.fabric || !p.someLate)

/-- Stores of an interval to be replayed, each as a request of its own, which writes no register. -/
def replayOuts (w : Wave) (i : Interval) : List FabOut :=
  i.replay.map (fun o => { o with req := { o.req with replay := true }, sent := false, pend := none, before := 0, held := false, resent := false,
                                  spec := false, tm := w.tm })

/-- The entry of the replay buffer that belongs to a request. -/
def FabOut.replays (o e : FabOut) : Bool := e.seq == o.seq && e.req.kind == o.req.kind && e.uses == o.uses

/-- A request stands between the wave and the effect of `ffence` towards its target. Where a full replay buffer asks for the
effect, a request that has still to be sent for the first time comes after it (R320). -/
def FabOut.beforeFence (only : Option Nat) (o : FabOut) : Bool :=
  match only with
  | none => true
  | some d => o.req.dst == d && (o.sent || o.resent || o.req.replay)

/-- THE EFFECT OF `ffence`, towards every target or one, as far as it can go now. -/
def State.fenceStep (s : State) (only : Option Nat) : FenceRes :=
  let w := s.cur
  let mine (d : Nat) : Bool := match only with | none => true | some x => x == d
  if w.fab.any (FabOut.beforeFence only) || (only.isNone && !w.class3Quiet) then .waiting s
  else
    match w.ivals.find? (fun p => mine p.1 && p.2.count != 0 && p.2.query != some (some p.2.count)) with
    | some (d, i) =>
      match i.query with
      | some (some n) =>
        .mismatch { s with cur := w.setIval d { i with bad := true, query := none, replayed := false } } d i.count n i.num
      | some none => .waiting s
      | none =>
        if i.bad && !i.replayed then
          let w := w.setIval d { i with replayed := true }
          .waiting ({ s with cur := { w with fab := w.fab ++ replayOuts w i } }.fabPump w.key)
        else
          .waiting { s with cur := w.setIval d { i with query := some none },
                            outbox := s.outbox ++ [.countQuery d w.key i.num i.count i.bad] }
    | none =>
      let w := (below 16 mine).foldl (fun (w : Wave) d =>
        w.setIval d { Interval.zero with num := ((w.ival d).num + 1) % 2 ^ 16 }) w
      .ready ({ s with cur := { w with mustFence := w.mustFence.filter (fun d => !mine d) } }.fabPump w.key)

/-- The record of the count-mismatch trap (R319): address, info A, info B. -/
def mismatchAddr (d : Nat) : Nat := d * 2 ^ 52
def mismatchA (sent received : Nat) : Nat := sent % 2 ^ 32 + received % 2 ^ 32 * 2 ^ 32
def mismatchB (d num : Nat) : Nat := d + num * 2 ^ 16

end Sys2Proof.Machine
end

