-- ==== Sys2Proof/Machine/Operands.lean ====
section
/-! DEFINITION. The register operands of every instruction (R28, R30 to R33, R54, R406), its predicate
operands, and the reads and writes of lanes. The fields of a word are listed in descending order of their
highest bit. -/

namespace Sys2Proof.Machine

/-- A register field: kind of R406 (0 vector, 1 scalar, 2 tile), first register, number of registers for the
allotment check, number of registers whose full bit is checked, whether it is a source or a destination, and its
mode bit. -/
structure Opd where
  kind : Nat
  num : Nat
  cnt : Nat
  chk : Nat
  src : Bool
  dst : Bool
  mode1 : Bool
  deriving DecidableEq, Repr

/-- A vector source of `n` registers. -/
def vs (r n : Nat) (m : Bool) : Opd := ⟨0, r, n, n, true, false, m⟩
/-- A vector destination of `n` registers. -/
def vd (r n : Nat) : Opd := ⟨0, r, n, n, false, true, false⟩
/-- A scalar source of `n` registers. -/
def ss (r n : Nat) (m : Bool) : Opd := ⟨1, r, n, n, true, false, m⟩
/-- A scalar destination. -/
def sd (r : Nat) : Opd := ⟨1, r, 1, 1, false, true, false⟩
/-- Accumulator tiles. -/
def tl (k n : Nat) : Opd := ⟨2, k, n, 0, false, false, false⟩

/-- Two registers where the operand is 64 bits wide. -/
def two (wide : Bool) : Nat := if wide then 2 else 1

/-- The scalar register of a base or handle in the high seven bits of a ten-bit field. -/
def baseS (b : BitVec 10) : Nat := b.toNat / 8
/-- The base address register of a format M word or an atomic. -/
def baseOpd (scalar : Bool) (b : BitVec 10) (m : Bool) : Opd :=
  if scalar then ss (baseS b) 1 m else vs b.toNat 2 m

/-- Format A with a destination and two vector sources, all of the type. -/
def opA3 (f : FmtA) : List Opd :=
  [vd f.vd.toNat (two f.ty.wide), vs f.va.toNat (two f.ty.wide) f.ma, vs f.vb.toNat (two f.ty.wide) f.mb]
/-- As `opA3`, with a second source of one register. -/
def opA3n (f : FmtA) : List Opd :=
  [vd f.vd.toNat (two f.ty.wide), vs f.va.toNat (two f.ty.wide) f.ma, vs f.vb.toNat 1 f.mb]
/-- Format A with a destination and one source. -/
def opA2 (f : FmtA) (wd wa : Bool) : List Opd := [vd f.vd.toNat (two wd), vs f.va.toNat (two wa) f.ma]
/-- Format A, a compare. -/
def opCmp (f : FmtA) : List Opd := [vs f.va.toNat (two f.ty.wide) f.ma, vs f.vb.toNat (two f.ty.wide) f.mb]
/-- Format A, a lane operation with its mask in a scalar register. -/
def opLane (f : FmtA) : List Opd :=
  [vd f.vd.toNat (two f.ty.wide), vs f.va.toNat (two f.ty.wide) f.ma, ss f.vb.toNat 1 f.mb]
/-- Format B with every operand of the type. -/
def opB (f : FmtB) (w : Bool) : List Opd :=
  [vd f.vd.toNat (two w), vs f.va.toNat (two w) f.ma, vs f.vb.toNat (two w) f.mb, vs f.vc.toNat (two w) f.mc]
/-- Format S: destination, first source, second source. -/
def opS (f : FmtS) : List Opd :=
  [sd f.sd.toNat, ss f.sa.toNat 1 f.ma] ++ (if f.i then [] else [ss f.sb.toNat 1 f.mb])
/-- Registers of a data operand of format M. -/
def dataRegs (f : FmtM) : Nat := match f.width.toNat with | 3 => 2 | 4 => 4 | _ => 1
/-- Registers of the data of an atomic (R235). -/
def atomRegs (f : FmtAtom) : Nat := if f.op.toNat == 9 then (if f.wide then 4 else 2) else two f.wide
/-- Rows or columns of a shape (R162). -/
def shapeM (c : Nat) : Nat := match mmaShape c with | some (m, _) => m | none => 64
def shapeK (c : Nat) : Nat := match mmaShape c with | some (_, k) => k | none => 16
/-- Registers of a row of A (R163). -/
def ra (f : FmtX) : Nat := if f.fa == 3 && f.fb == 6 then 16 else 8
/-- Rows that one member holds. -/
def rowsEach (f : FmtX) (s : Nat) : Nat := shapeM f.shape.toNat / max s 1
/-- Tiles that an accumulator format takes. -/
def tilesOf (fmt : BitVec 4) : Nat := if fmt == 0 then 2 else 1

/-- S suits the shape (R162). -/
def suits (shape s : Nat) : Bool :=
  let m := shapeM shape
  if m == 64 then s == 16 || s == 32 || s == 64 else s == 8 || s == 16 || s == 32

/-- Registers of a fragment of `r` registers a row (R163): by the declared signing-set size where it suits the shape; else
the field names its one register. -/
def State.fragCount (s : State) (f : FmtX) (r : Nat) : Nat :=
  let c := (s.teamOf s.cur).cv.getD f.cv.toNat Cv.zero
  if c.st == .declared && suits f.shape.toNat c.s then r * rowsEach f c.s else 1

/-- THE REGISTER FIELDS of an instruction (R28, R31 to R33). -/
def Instr.operands (s : State) : Instr → List Opd
  | .vadd f | .vsub f | .vmul f | .vmulh f | .vmin f | .vmax f | .vabsd f | .vand f | .vor f | .vxor f | .vaddc f
  | .fadd f | .fsub f | .fmul f | .fmin f | .fmax f | .hadd2 f | .hmul2 f => opA3 f
  | .vshl f | .vshr f | .vsar f | .vrot f | .fscale f => opA3n f
  | .vnot f | .vclz f | .vpopc f | .vbrev f | .vmov f | .fround f | .fman f | .fex2 f | .flg2 f | .frcp f | .frsq f
  | .fsqrt f | .fsin2 f | .fcos2 f => opA2 f f.ty.wide f.ty.wide
  | .fexp f => opA2 f f.ty.wide f.ty.wide
  | .fclass f => opA2 f false f.ty.wide
  | .fcvt f | .fcvti f | .icvtf f => opA2 f (fmtWide (cvtDst f)) (fmtWide (cvtSrc f))
  | .vcmp f | .fcmp f => opCmp f
  | .fstat f => [vd f.vd.toNat 1]
  | .vmad f | .vsel f | .ffma f => opB f f.ty.wide
  | .vext f | .vins f | .fdot2 f | .hfma2 f => opB f false
  | .vshfl f => [vd f.vd.toNat (two f.ty.wide), vs f.va.toNat (two f.ty.wide) f.ma, vs f.vb.toNat 1 f.mb,
      ss f.vc.toNat 1 f.mc]
  | .vbcast f | .vscan f | .vred f => opLane f
  | .vvote f => (if f.minor == 2 then [vd f.vd.toNat (two (s.cur.width == 64))] else []) ++ [ss f.vb.toNat 1 f.mb]
  | .vcompact f => [vd f.vd.toNat 1, ss f.vb.toNat 1 f.mb]
  | .vmovi f => [vd f.rd.toNat 1]
  | .smovi f => [sd f.rd.toNat]
  | .sadd f | .ssub f | .smul f | .smad f | .sand f | .sor f | .sxor f | .sshl f | .sshr f | .ssar f => opS f
  | .smov f => [sd f.sd.toNat, ss f.sa.toNat 1 f.ma]
  | .scmp f => (opS f).drop 1
  | .vtos f => [sd f.sr.toNat, vs f.vr.toNat (two f.ty.wide) f.m]
  | .stov f => [ss f.sr.toNat 1 f.m, vd f.vr.toNat (two f.ty.wide)]
  | .br _ | .joinAct _ | .wait _ | .exit _ => []
  | .brd f | .ret f => [vs f.reg.toNat 1 f.m]
  | .call f => [vd f.reg.toNat 1]
  | .join f => [ss f.reg.toNat 1 f.m]
  | .ld f | .fld f => [vd f.rd.toNat (dataRegs f), baseOpd f.scalar f.base f.m]
  | .st f | .fst f => [vs f.rd.toNat (dataRegs f) f.m, baseOpd f.scalar f.base f.m]
  | .sld f => [sd f.rd.toNat, baseOpd f.scalar f.base f.m]
  | .sst f => [ss f.rd.toNat 1 f.m, baseOpd f.scalar f.base f.m]
  | .lda f => [vd f.rd.toNat 2, baseOpd f.scalar f.base f.m]
  | .pf f => [baseOpd f.scalar f.base f.m]
  | .grow _ | .shrink _ => []
  | .sortk f => [vs f.va.toNat 1 f.ma] ++
      (List.range 16).filterMap (fun g => if tbit f.mask g then some ⟨0, 64 * g, 64, 0, true, false, false⟩ else none)
  | .atom f | .fatom f => [vd f.vd.toNat (two f.wide), baseOpd f.scalar f.base f.ma, vs f.vb.toNat (atomRegs f) f.mb]
  | .red f => [baseOpd f.scalar f.base f.ma, vs f.vb.toNat (atomRegs f) f.mb]
  | .fence _ | .ffence _ | .mmaw _ | .orf _ | .spfence _ | .rfence _ | .pbclr _ | .nop _ | .trap _ | .sret _
  | .sretEsc _ | .qdone _ | .cbr _ => []
  | .pbsel f => [⟨0, f.n.toNat, 64, 0, false, false, false⟩]
  | .mon f | .tlbiVa f | .tlbiAsid f => [ss f.sa.toNat 1 f.ma]
  | .tlbiAll _ => []
  | .mwait f | .cpywRe f => [sd f.sd.toNat, ss f.sa.toNat 1 f.ma]
  | .cpyw f | .cpywWait f => [ss f.sa.toNat 1 f.ma]
  | .barr _ | .barw _ | .bara _ => []
  | .bmask f => [ss f.sa.toNat 1 f.ma]
  | .cvdecl f | .rngk f | .cbrj f => [ss f.sa.toNat 1 f.ma]
  | .mma f => [⟨0, f.va.toNat, s.fragCount f (ra f), 1, true, false, f.ma⟩,
      ⟨0, f.vb.toNat, s.fragCount f 8, 1, true, false, f.mb⟩]
  | .mmas f => [⟨0, f.va.toNat, s.fragCount f (ra f), 1, true, false, f.ma⟩, ss (baseS f.vb) 1 f.mb]
  | .accld f => [ss f.reg.toNat 1 f.m, tl f.acc.toNat (tilesOf f.fmt)]
  | .accst f => [ss f.reg.toNat 1 f.m] ++ (if f.scale then [ss f.sc.toNat 1 f.m] else []) ++
      [tl f.acc.toNat (tilesOf f.fmt)]
  | .accstReg f => [vd f.reg.toNat 64] ++ (if f.scale then [ss f.sc.toNat 1 f.m] else []) ++
      [ss f.sb.toNat 1 f.m, tl f.acc.toNat (tilesOf f.fmt)]
  | .acczero f => [tl f.acc.toNat (tilesOf f.fmt)]
  | .trec f => [ss f.sa.toNat 1 f.ma]
  | .qblk f | .dqblk f | .hadm f => [ss f.sa.toNat 1 f.ma, ss f.sb.toNat 1 f.mb]
  | .sclq f => [vd f.vd.toNat 1, vs f.va.toNat 1 f.ma, vs f.vb.toNat 1 f.mb]
  | .vldt f => [vd f.reg.toNat 1, ss f.sa.toNat 1 f.ma, ss f.sb.toNat 1 f.mb]
  | .vstt f => [vs f.reg.toNat 1 f.md, ss f.sa.toNat 1 f.ma, ss f.sb.toNat 1 f.mb]
  | .cpy f => [sd f.sd.toNat, ss f.sa.toNat 1 f.ma, ss f.sb.toNat 1 f.mb, ss f.sc.toNat 1 f.mc]
  | .cpys f => [sd f.sd.toNat, ss f.sa.toNat 1 f.ma, ss f.sb.toNat 1 f.mb, ss f.sc.toNat (if f.sc == 127 then 1 else 2) f.mc]
  | .tlbw f => [ss f.sa.toNat 1 f.ma, ss f.sb.toNat 1 f.mb, ss f.sc.toNat 1 f.mc]
  | .accept f => [vs f.va.toNat 1 f.ma] ++ (if f.expl then [vs f.vb.toNat 1 f.mb] else [])
  | .pbcnt f => [vd f.vd.toNat 1]
  | .rng f => [vd f.vd.toNat 1]
  | .creduce f => [ss f.sa.toNat 1 f.ma, ss f.sb.toNat 1 f.mb, ss f.sc.toNat 1 f.mc]
  | .brk f => [ss f.sa.toNat 1 f.ma]
  | .rdsr f => if f.vec then [vd f.rd.toNat 1] else [sd f.rd.toNat]
  | .wrsr f => [ss f.sa.toNat 1 f.ma]
  | .wsw f => [sd f.sd.toNat, ss f.sa.toNat 1 f.ma, ss f.sb.toNat 1 f.mb]
  | .migrate f => [sd f.sd.toNat, ss f.sa.toNat 1 f.ma] ++ (if f.named then [ss f.sb.toNat 1 f.mb] else [])
  | .qpush f => [ss f.sa.toNat 1 f.ma, ss f.sb.toNat 1 f.mb, ss f.sc.toNat 1 f.mc]
  | .qpop f | .qpopO f => [vd f.vd.toNat 1, ss f.sa.toNat 1 f.ma] ++
      (if f.pd == 15 then [] else [ss f.sb.toNat 1 f.mb])
  | .dtk f | .dtkEnd f => [vs f.va.toNat 1 f.ma, vs f.vb.toNat 1 f.mb]
  | .loadDataReturn .. | .growUnitsFreed .. | .issueOverride | .issueSlotGrant .. | .writeAcknowledgement ..
  | .monitorTrigger .. | .mwaitDeadline .. | .mmaOperationComplete .. | .convergenceTimeout ..
  | .engineEntryComplete .. | .copyTransferStart .. | .copyComplete .. | .copyPromiseWake .. | .tlbMissWalk ..
  | .hostTlbFill .. | .pageFaultBatchResolved .. | .uncorrectableError .. | .hostMemoryAccess .. | .cbrOutcome ..
  | .collectiveStall .. | .memberLost .. | .creduceGenerationComplete .. | .creduceStall ..
  | .fabricRequestArrival .. | .fabricCountQuery .. | .fabricResponse .. | .fabricWaitNotice ..
  | .fabricRequestTimeout .. | .linkFailure .. | .deviceLeavesPod .. | .faultServiceDecision .. | .qpopDeadline ..
  | .taskTurnsNonspeculative .. | .launch .. | .teamPlacement .. | .teamResume .. | .gridCompletion ..
  | .feedAppend .. | .communicatorSetUp .. | .communicatorRelease .. | .determinismLevel .. | .token ..
  | .powerClass .. | .gridCheckpoint .. | .gridRestore .. | .gridEnd .. | .unknownPacketKind .. | .doorbell ..
  | .writeIndexNotice .. | .quantumSwap .. | .headroomUpdate .. | .registerWrite .. | .bkvocLoad .. | .bkcntRead ..
  | .barkerRequest .. | .barkerFeedAppend .. | .rudRmaWrite .. | .replyFlushTimer | .connectionEnd ..
  | .portLinkChange .. | .boot .. | .p1Wake | .mainPowerDown .. | .mainPowerUp | .pldmMonitoring ..
  | .pldmFirmwareUpdate .. | .spdmRequest .. | .recoveryWindowWrite .. | .releasePoint .. | .pageFaultResolved ..
  | .fabricLinkRestored .. | .hostLinkChange .. | .vstbyRailChange .. | .replyBufferFreed ..
  | .vocabularyLoadComplete .. => []

/-- The guard of a word: bits [55:51] (R46). -/
def Instr.guard (i : Instr) : BitVec 5 := BitVec.ofNat 5 ((encode i).toNat / 2 ^ 51)

/-- The instruction carries `.p` (R251). -/
def Instr.usesBank : Instr → Bool
  | .vadd f | .vsub f | .vaddc f | .vmul f | .vmulh f | .vmin f | .vmax f | .vabsd f | .vand f | .vor f | .vxor f
  | .vnot f | .vshl f | .vshr f | .vsar f | .vrot f | .vclz f | .vpopc f | .vbrev f | .vmov f | .vbcast f
  | .vvote f | .vscan f | .vred f | .vcompact f | .fadd f | .fsub f | .fmul f | .fmin f | .fmax f | .fclass f
  | .fround f | .fscale f | .fexp f | .fman f | .fcvt f | .fcvti f | .icvtf f | .fex2 f | .flg2 f | .frcp f
  | .frsq f | .fsqrt f | .fsin2 f | .fcos2 f | .hadd2 f | .hmul2 f => f.p
  | .vmad f | .vext f | .vins f | .vsel f | .vshfl f | .ffma f | .fdot2 f | .hfma2 f => f.p
  | .vmovi f => f.p
  | .stov f => f.p
  | .rng f => f.p
  | _ => false

/-- The lane that `vshfl` names for lane `l`, if any (R84). -/
def shflSource (mode l d : Nat) : Option Nat :=
  match mode with
  | 0 => some d
  | 1 => if d ≤ l then some (l - d) else none
  | 2 => some (l + d)
  | _ => some (Nat.xor l d)

/-- The lane whose element `vshfl` reads for lane `l`: its own where the lane named is no member (R84). -/
def Wave.shflLane (w : Wave) (f : FmtB) (l : Nat) : Nat :=
  match shflSource f.minor.toNat l (w.readX f.p false l f.vb.toNat) with
  | some src => if w.width ≤ src || !tbit (w.getS f.vc.toNat) src then l else src
  | none => l

/-- The predicate that the instruction writes in lanes. -/
def Instr.predDst : Instr → Option Nat
  | .vaddc f => some (f.minor.toNat % 16)
  | .vcmp f | .fcmp f => some f.vd.toNat
  | .vvote f => if f.minor == 2 then none else some f.vd.toNat
  | .scmp f => some f.sd.toNat
  | .grow f => if f.try_ then some f.pd.toNat else none
  | .qpush f => if f.try_ then some f.pd.toNat else none
  | .qpop f | .qpopO f => if f.pd == 15 then none else some f.pd.toNat
  | _ => none

/-- Predicates that the instruction reads beside its guard. -/
def Instr.predSrc : Instr → List Nat
  | .vaddc f => [f.minor.toNat % 16]
  | .vvote f | .vcompact f => [f.va.toNat]
  | .cbr f => [f.pn.toNat]
  | _ => []

/-- The instruction has a wave effect: once, not per lane (R47). -/
def Instr.crossLane : Instr → Bool
  | .vshfl _ | .vbcast _ | .vvote _ | .vscan _ | .vred _ | .vcompact _ | .vtos _ => true
  | _ => false

/-! ### Reads and writes of lanes (R5, R251) -/

/-- Write a value of one register or a pair in each listed lane. `f` was computed from the state before, so
every lane reads before any lane writes. -/
def Wave.writeLanes (w : Wave) (p wide : Bool) (r : Nat) (ls : List Nat) (f : Nat → Nat) : Wave :=
  ls.foldl (fun w l => w.writeX p wide l r (f l)) w

/-- Write a predicate in each listed lane. -/
def Wave.writePreds (w : Wave) (k : Nat) (ls : List Nat) (f : Nat → Bool) : Wave :=
  ls.foldl (fun w l => w.modLane l (fun x => x.setPred k (f l))) w

/-- Write a scalar register, which marks nothing of the vector groups. -/
def State.putS (s : State) (r : Nat) (v : Word64) : State := { s with cur := s.cur.setS r v }

/-- A base address in a lane (R97). -/
def Wave.baseAddr (w : Wave) (scalar : Bool) (b : BitVec 10) (l : Nat) : Nat :=
  if scalar then (w.getS (baseS b)).toNat else w.readX false true l b.toNat

/-- The effective address of a format M word in a lane: base + sign_extend(offset) modulo 2^64 (R97). -/
def Wave.effAddr (w : Wave) (f : FmtM) (l : Nat) : Nat :=
  wrapTo 64 ((w.baseAddr f.scalar f.base l : Int) + f.off.toInt)

/-- Bytes of an access of format M (R60). -/
def accBytes (f : FmtM) : Nat := 2 ^ f.width.toNat

/-- The second source of format S (R89). -/
def secondSrc (f : FmtS) (w : Wave) : Nat :=
  if f.i then wrapTo 64 (toSigned 19 f.imm.toNat) else (w.getS f.sb.toNat).toNat

end Sys2Proof.Machine
end

