-- ==== Sys2Proof/Machine/Flags.lean ====
section
/-! DEFINITION. Flags and saturation (R74, R133): the sticky status of lanes, and the clamping of integer
results. -/

namespace Sys2Proof.Machine

/-- Bits of the type. -/
def tyBits (t : Ty) : Nat := if t.wide then 64 else 32
/-- The type is signed. -/
def tySigned (t : Ty) : Bool := t == .s32 || t == .s64
/-- A register value as a number of the type. -/
def tyVal (t : Ty) (x : Nat) : Int :=
  if tySigned t then toSigned (tyBits t) x else ((x % 2 ^ tyBits t : Nat) : Int)
/-- Smallest and largest value of the type. -/
def tyMin (t : Ty) : Int := if tySigned t then -(2 ^ (tyBits t - 1) : Nat) else 0
def tyMax (t : Ty) : Int := if tySigned t then (2 ^ (tyBits t - 1) : Nat) - 1 else (2 ^ tyBits t : Nat) - 1

/-- AN INTEGER RESULT (R74): modulo 2^n, or clamped with the saturation flag. -/
def intResult (t : Ty) (sat : Bool) (x : Int) : Nat × BitVec 6 :=
  if sat && tyMax t < x then (wrapTo (tyBits t) (tyMax t), flSat)
  else if sat && x < tyMin t then (wrapTo (tyBits t) (tyMin t), flSat)
  else (wrapTo (tyBits t) x, 0)

/-- OR flags into the sticky status of lanes (R133). -/
def Wave.orFlags (w : Wave) (ls : List Nat) (f : Nat → BitVec 6) : Wave :=
  ls.foldl (fun w l => if f l = 0 then w else w.modLane l (fun x => { x with flags := x.flags ||| f l })) w

/-- Write results with their flags: `f` gives the value and the flags of a lane. -/
def Wave.writeFlagged (w : Wave) (p wide : Bool) (r : Nat) (ls : List Nat) (f : Nat → Nat × BitVec 6) : Wave :=
  (w.writeLanes p wide r ls (fun l => (f l).1)).orFlags ls (fun l => (f l).2)

/-- The lanes whose status meets the arithmetic-trap enable (R153): none in trap mode (R276). -/
def State.stickyLanes (s : State) (act : List Nat) : List Nat :=
  if s.cur.tm then []
  else
    let en := BitVec.ofNat 6 (s.gridOf s.cur).trapen.toNat
    act.filter (fun l => (s.cur.lane l).flags &&& en != 0)

end Sys2Proof.Machine
end

