-- ==== Sys2Proof/Machine/Issue.lean ====
section
/-! DEFINITION. How a wave issues an instruction (R16 to R20, R28, R32, R33, R69): the checks made at issue for
every lane of the issuing set, the active lanes, what happens to a result of an instruction's body, and how
each kind of speculation (R210, R265, R288) changes that. -/

namespace Sys2Proof.Machine

/-- A trap that an instruction takes: cause, trapping lanes and record fields (R273, R275). -/
structure TrapReq where
  cause : Nat
  lanes : List Nat
  addr : Nat
  infoA : Nat
  infoB : Nat
  laneCause : List (Nat × Nat)
  deriving DecidableEq, Repr

/-- A trap without record fields of its own. -/
def trapOf (cause : Nat) (lanes : List Nat) : TrapReq := ⟨cause, lanes, 0, 0, 0, []⟩
/-- The illegal-instruction trap in the given lanes. -/
def illegal (lanes : List Nat) : TrapReq := trapOf 1 lanes
/-- The protection trap with an address. -/
def protection (lanes : List Nat) (addr : Nat) : TrapReq := ⟨7, lanes, addr, 0, 0, []⟩

/-- What an instruction's body does. -/
inductive Res where
  /-- retires; the lanes in `keep` do not advance -/
  | done (s : State) (keep : List Nat)
  /-- retires after a transfer of the lanes in `keep` into a block -/
  | jump (s : State) (keep : List Nat)
  /-- takes a trap, in the given state -/
  | trap (s : State) (t : TrapReq)
  /-- waits at the instruction, which issues again -/
  | wait (why : Why) (s : State)
  /-- meets page faults: pages, first faulting address, faulting lanes, and the cause that each lane meets (R275) -/
  | fault (pages : List (Nat × Bool)) (first : Nat) (lanes : List Nat) (laneCause : List (Nat × Nat))
  deriving DecidableEq, Repr

/-! ### The checks at issue -/

/-- A matrix or tensor instruction may name the format under the contract (R124). -/
def formatUnder (contract fmt : Nat) : Bool :=
  if fmt == 4 || fmt == 5 then 0x300 ≤ contract else if fmt == 6 then contract == 0x400 else true

/-- The table of special registers (R298): its numbers, and those of per-lane registers. -/
def sregListed (n : Nat) : Bool := n ≤ 0x20
def sregPerLane (n : Nat) : Bool := n < 2

/-- The word is legal in this grid and wave (R59, R69, R86, R124, R298). -/
def legalHere (s : State) (i : Instr) : Bool :=
  i.wellFormed &&
  (match i with
   | .mma f | .mmas f => formatUnder s.contract f.fa.toNat && formatUnder s.contract f.fb.toNat
   | .sclq f => formatUnder s.contract f.fmt.toNat
   | .vtos f => f.lane.toNat < s.cur.width
   | .vvote f => f.minor != 2 || s.cur.width != 64 || f.vd.toNat % 2 == 0
   | .rdsr f => sregListed f.num.toNat && (f.vec || !sregPerLane f.num.toNat)
   | .wrsr f => f.num == 0x20
   | _ => true)

/-- Info A of R406. -/
def regInfo (kind num : Nat) : Nat := num + kind * 1024

/-- The first register above the allotment (R28, R406). -/
def overAllotment (s : State) (ops : List Opd) : Option Nat :=
  ops.findSome? (fun o =>
    let limit := if o.kind == 2 then (s.gridOf s.cur).p.acc else s.cur.alloc
    if o.kind != 1 && limit < o.num + o.cnt then some (regInfo o.kind (max o.num limit)) else none)

/-- The first empty register of an operand (R30). -/
def emptyReg (w : Wave) (o : Opd) : Option Nat :=
  ((List.range o.chk).map (fun k => o.num + k)).find? (fun r =>
    match o.kind with
    | 0 => w.vEmpty.contains r
    | 1 => w.sEmpty.contains r
    | _ => false)

/-- The first empty mode-1 source (R32, R406). -/
def emptyTrap (w : Wave) (ops : List Opd) : Option Nat :=
  ops.findSome? (fun o => if o.src && o.mode1 then (emptyReg w o).map (regInfo o.kind) else none)

/-- Some source or destination is empty, so the wave waits (R32, R33). -/
def mustWait (w : Wave) (ops : List Opd) : Bool := ops.any (fun o => (o.src || o.dst) && (emptyReg w o).isSome)

/-- Every destination lies in the proposal window (R251). -/
def dstsInWindow (w : Wave) (ops : List Opd) : Bool :=
  ops.all (fun o => !(o.dst && o.kind == 0) || (List.range o.cnt).all (fun k => w.inWindow (o.num + k)))

/-- The lanes whose elements of a source register an instruction reads on behalf of an active lane. -/
def Instr.readLanes (w : Wave) (i : Instr) (act : List Nat) (l r : Nat) : List Nat :=
  let members (m : Word64) : List Nat := w.liveLanes.filter (fun l => tbit m l)
  match i with
  | .vshfl f => (if r == f.vb.toNat then [l] else []) ++
      (if f.va.toNat ≤ r && r < f.va.toNat + two f.ty.wide then [w.shflLane f l] else [])
  | .vbcast f => [(w.getS f.vb.toNat).toNat % w.width]
  | .vred f => members (w.getS f.vb.toNat)
  | .vscan f => (members (w.getS f.vb.toNat)).filter (fun m =>
      if 8 ≤ f.minor.toNat then (w.lane m).tid < (w.lane l).tid else (w.lane m).tid ≤ (w.lane l).tid)
  | .vtos f => [f.lane.toNat]
  | .sld _ | .sst _ => [w.lowestTid act]
  | _ => [l]

/-- A lane reads a register element that holds an uncorrectable error (R211). -/
def readsError (w : Wave) (i : Instr) (ops : List Opd) (act : List Nat) (l : Nat) : Bool :=
  !w.regErr.isEmpty &&
  ops.any (fun o => o.src && o.kind == 0 && (List.range o.cnt).any (fun k =>
    let r := o.num + k
    (Instr.readLanes w i act l r).any (fun m => w.regErr.contains (m, r) &&
      !(Instr.usesBank i && w.inWindow r && (w.lane m).written.contains (r - w.pbase)))))

/-- Elements of accumulator tiles of the team that an instruction reads: tile and the elements' numbers (R166, R169, R176). -/
def Instr.tilesRead (s : State) (i : Instr) (act : List Nat) : List (Nat × (Nat → Bool)) :=
  let t := s.teamOf s.cur
  let pair (acc : Nat) : Bool := (mgetD (s.coreAt t.core).tiles (t.tileBase + acc) Tile.zero).tag == .f64
  let both (acc : Nat) (two : Bool) (p : Nat → Bool) : List (Nat × (Nat → Bool)) := (acc, p) :: (if two then [(acc + 1, p)] else [])
  match i with
  | .mma f | .mmas f =>
    let m := shapeM f.shape.toNat
    if f.z then [] else both f.acc.toNat (f.fc == 0) (fun e => e / 64 < m && e % 64 < m)
  | .accst f => both f.acc.toNat (f.fmt == 0 && pair f.acc.toNat) (fun _ => true)
  | .accstReg f => [(f.acc.toNat, fun e => act.any (fun l => e / 64 == (s.cur.getS f.sb.toNat).toNat + l))]
  | _ => []

/-- The instruction reads an element of a tile that holds an uncorrectable error, which no entry of the engine's queue will write
anew (R211). -/
def readsBadTile (s : State) (i : Instr) (act : List Nat) : Bool :=
  let t := s.teamOf s.cur
  let c := s.coreAt t.core
  (Instr.tilesRead s i act).any (fun r =>
    let x := mgetD c.tiles (t.tileBase + r.1) Tile.zero
    x.bad.any r.2 && !c.engine.any (fun e => e.who.grid == t.grid && e.who.team == t.idx && (e.tile == r.1 || e.tile + 1 == r.1) &&
      (match e.op with | .accld .. | .acczero _ => true | .mma f .. => f.z | _ => false)))

/-- Outcome of the checks at issue. -/
inductive Gate where
  /-- no lane issues -/
  | idle
  | trap (cause infoA : Nat) (lanes : List Nat)
  | wait
  /-- active lanes that read an element with an uncorrectable error, of a register or a tile (R211) -/
  | regError (lanes : List Nat)
  /-- issuing set and active lanes -/
  | go (iss act : List Nat)
  deriving DecidableEq, Repr

/-- THE CHECKS AT ISSUE, in order (R69, R28, R32, R251), then the waits (R32, R33), then the active lanes
(R5, R18). -/
def gate (i : Instr) (s : State) : Gate :=
  let w := s.cur
  let iss := w.issuingSet
  if iss.isEmpty then .idle
  else if !legalHere s i then .trap 1 0 iss
  else
    let ops := Instr.operands s i
    match overAllotment s ops with
    | some a => .trap 3 a iss
    | none =>
      match emptyTrap w ops with
      | some a => .trap 4 a iss
      | none =>
        if Instr.usesBank i && !dstsInWindow w ops then .trap 1 0 iss
        else if mustWait w ops then .wait
        else
          let act := iss.filter (fun l => guardHolds (Instr.guard i) (w.lane l))
          match (if readsBadTile s i act then act else act.filter (readsError w i ops act)) with
          | [] => .go iss act
          | ls => .regError ls

/-! ### Counts of the override (R20) -/

/-- The distinct `vpc` values of ready lanes. -/
def Wave.readyPcs (w : Wave) : List Nat := ((w.ready.map (fun l => (w.lane l).vpc)).foldl insNat [])

/-- The counts after an issue at `v`: `before` are the values that ready lanes held. -/
def Wave.recount (w : Wave) (v : Nat) (before : List Nat) : Wave :=
  { w with counts := w.readyPcs.foldl (fun m u =>
             mputD 0 m u (if u == v then 0 else if before.contains u then mgetD w.counts u 0 + 1 else 0)) [],
           ovr := w.ovr.filter (fun l => w.ready.contains l) }

/-! ### The Safety Net (R285) -/

/-- Effects that the log cannot undo. -/
def isHorizon : Instr → Bool
  | .atom _ | .red _ | .cpy _ | .cpys _ | .cpyw _ | .cpywWait _ | .cpywRe _ | .cvdecl _ | .mma _ | .mmas _ | .mmaw _
  | .orf _ | .spfence _ | .accld _ | .accst _ | .accstReg _ | .acczero _ | .qblk _ | .dqblk _ | .hadm _ | .vldt _ | .vstt _
  | .fld _ | .fst _ | .fatom _ | .ffence _ | .qpush _ | .qpop _ | .qpopO _ | .qdone _ | .dtk _ | .dtkEnd _ | .accept _
  | .cbr _ | .creduce _ | .sortk _ | .exit _ => true
  | _ => false

/-- Address of the log of a wave. -/
def netAddr (g : Grid) (w : Wave) (seq : Nat) : Nat :=
  (g.ctx.netArea + 1310720 * (32 * w.key.team + w.key.wave) + 320 * (seq % 4096)) % 2 ^ 64

/-- One entry of 320 bytes. -/
def netEntry (seq offset kind : Nat) (full : Bool) (count where_ : Nat) (lanes : BitVec 64) (prior : List Byte) :
    List Byte :=
  leBytes 8 seq ++ leBytes 4 offset ++ leBytes 1 kind ++ leBytes 1 (if full then 1 else 0) ++ leBytes 2 count ++
  leBytes 8 where_ ++ leBytes 8 lanes.toNat ++ List.replicate 32 0 ++ prior ++
  List.replicate (256 - prior.length) 0

/-- An entry of the log: kind, prior full bit, pairs, register, prior value. -/
structure NetEntry where
  kind : Nat
  full : Bool
  count : Nat
  where_ : Nat
  prior : List Byte
  deriving DecidableEq, Repr

/-- The places of the bytes of the `k`-th of several entries: one range, or two where it crosses a page. -/
def State.netPlaces (s : State) (k : Nat) : List (Nat × LaneAcc) :=
  let w := s.cur
  let base := netAddr (s.gridOf w) w (w.snSeq + k)
  let first := min 320 (2 ^ 16 - base % 2 ^ 16)
  let ranges := (base, first) :: (if first == 320 then [] else [((base + first) % 2 ^ 64, 320 - first)])
  ranges.map (fun r =>
    (r.1, checkAccess s w false { needStore with align := false, stamp := false, noStack := true } 3 0 r.1 r.2))

/-- The aligned 8-byte units that a store writes, with their prior bytes. -/
def storeUnits (s : State) (i : Instr) (act : List Nat) : List (Nat × Nat) :=
  let w := s.cur
  let units (f : FmtM) (ls : List Nat) : List (Nat × Nat) :=
    (ls.flatMap (fun l =>
      let ea := w.effAddr f l
      let lo := ea / 8 * 8
      let us := if accBytes f == 16 then [lo, lo + 8] else [lo]
      us.filterMap (fun u =>
        match checkAccess s w true { needStore with stamp := false } 0 (w.lane l).tid u 8 with
        | .ok a => some (u, leNat (a.locs.map (s.loadByte w)))
        | _ => none)))
  match i with
  | .st f => units f (w.byTid act)
  | .sst f => units f [w.lowestTid act]
  | _ => []

/-- What the Safety Net logs of an instruction: the prior value of all that it is about to change. Page-fault and collective
run-ahead write no entry. -/
def State.netEntries (s : State) (i : Instr) (act : List Nat) : List NetEntry :=
  let w := s.cur
  if !w.dbg || w.tm || w.spec == 1 || w.spec == 2 || act.isEmpty then []
  else if isHorizon i then [⟨4, false, 0, 0, []⟩]
  else
    let dsts := (Instr.operands s i).filter (fun o => o.dst && !(o.kind == 0 && Instr.usesBank i))
    let regs := dsts.flatMap (fun o => (List.range o.cnt).map (fun k =>
      let r := o.num + k
      if o.kind == 0 then
        (⟨0, !w.vEmpty.contains r, 0, r, (List.range 64).flatMap (fun l => leBytes 4 ((w.lane l).getV r).toNat)⟩ : NetEntry)
      else ⟨1, !w.sEmpty.contains r, 0, r, leBytes 8 (w.getS r).toNat⟩))
    let pred := match Instr.predDst i with
      | some p => [(⟨2, false, 0, p, leBytes 8 (maskOf (w.idx.filter (fun l => tbit (w.lane l).p p))).toNat⟩ : NetEntry)]
      | none => []
    let us := storeUnits s i act
    let mem := (List.range ((us.length + 15) / 16)).map (fun k =>
      let part := (us.drop (16 * k)).take 16
      (⟨3, false, part.length, 0, part.flatMap (fun u => leBytes 8 u.1 ++ leBytes 8 u.2)⟩ : NetEntry))
    regs ++ pred ++ mem

/-- Append entries as stores of the wave. -/
def State.netWrite (s : State) (es : List NetEntry) (offset : Nat) (lanes : BitVec 64) : State :=
  (List.range es.length).foldl (fun s k =>
    match es[k]? with
    | some e =>
      let bs := netEntry s.cur.snSeq offset e.kind e.full e.count e.where_ lanes e.prior
      let places := (s.netPlaces 0).flatMap (fun p => p.2.access.locs.map (fun l => (l, p.2.access.cls == 3)))
      let part (fb : Bool) : List (Nat × Byte) :=
        ((places.zip bs).filter (fun x => x.1.2 == fb)).map (fun x => (x.1.1, x.2))
      { s with cur := { (s.cur.queueStore (part false) false).queueStore (part true) true with snSeq := s.cur.snSeq + 1 } }
    | none => s) s

/-! ### Retiring -/

/-- A request for the poisoned-data trap, whose record has no info B, carries here the mark that it is escalated (R211). -/
def TrapReq.escalated (t : TrapReq) : Bool := t.cause == 9 && t.infoB == 1

/-- The trap record's fields for a request at the issuing instruction. -/
def TrapReq.info (t : TrapReq) (offset : Nat) (word : Word64) : TrapInfo :=
  { mkTrap t.cause t.lanes t.addr t.infoA (if t.escalated then 0 else t.infoB) t.laneCause offset word [] with esc := t.escalated }

/-- A trap that covers the lanes of another one too. -/
def TrapInfo.joined (t u : TrapInfo) : TrapInfo :=
  let ls := t.lanes ||| u.lanes
  { t with lanes := ls, laneCause := (List.range 64).map (fun l => if tbit ls l then t.cause else 0) }

/-- A step trap that waits to be taken, with one that waits already (R282). -/
def Wave.stepHeld (w : Wave) (t : TrapInfo) : Wave :=
  match w.trapPend with
  | none => { w with trapPend := some t }
  | some u => if u.cause == 20 then { w with trapPend := some (u.joined t) } else w

/-- The offset at which the wave issues. -/
def State.at_ (s : State) : Nat := s.cur.issuePc.getD 0

/-- The lanes in which the instruction at the wave's position has been performed already, each with its value. -/
def State.progress (s : State) : List (Nat × Nat) :=
  match s.cur.prog.find? (fun p => p.tm == s.cur.tm && p.offset == s.at_) with
  | some p => p.lanes
  | none => []

/-- The instruction has been performed in these lanes so far. -/
def State.progressed (s : State) (ls : List (Nat × Nat)) : State :=
  { s with cur := { s.cur with prog := ⟨s.at_, s.cur.tm, ls⟩ :: s.cur.prog.filter (fun p => p.tm != s.cur.tm || p.offset != s.at_) } }

/-- RETIRE: every lane of the issuing set but those kept advances (R16, R18); counts and the override go on
(R20); with the step bit set the step trap follows, together with that of lanes whose waits this instruction has ended (R282).
`before` lists no value where the instruction was a return from a trap: what the return did for the next issue (R277) then
stays. -/
def State.retire (s : State) (i : Instr) (v : Nat) (before iss : List Nat) (stepping jumped : Bool) (keep : List Nat) : State :=
  if s.cur.lanes.isEmpty then s
  else
    let w := s.advance s.cur (iss.filter (fun l => !keep.contains l))
    let w := ({ w.clearGroups jumped with bpSkip := w.bpSkip && before.isEmpty,
                                          why := if w.trapPend.isSome then w.why else Why.none,
                                          prog := w.prog.filter (fun p => before.isEmpty || p.tm != w.tm || p.offset != v) }).recount v before
    let s := { s with cur := w }
    let waits := keep.any (fun l => (w.lane l).st != .exited && (w.lane l).st != .run)
    let ls := iss.filter (fun l => (w.lane l).live)
    if !stepping || waits || ls.isEmpty then s
    else
      let own := (trapOf 20 ls).info v (encode i)
      let t := match w.trapPend with | some u => if u.cause == 20 then own.joined u else own | none => own
      if s.cur.spec == 0 then { s with cur := { s.cur with trapPend := none } }.takeTrap t
      else
        -- the instruction opened a speculation, which defers the trap (R265, R288)
        { s with cur := { s.cur with trapPend := some t, why := if s.cur.spec == 3 then .oldest else .outcome } }

/-! ### Page-fault run-ahead (R209, R210) -/

/-- An element, predicate or scalar is unknown to the run-ahead. -/
def srcUnknown (w : Wave) (ops : List Opd) (l : Nat) : Bool :=
  ops.any (fun o => o.src && (List.range o.cnt).any (fun k =>
    if o.kind == 0 then (w.lane l).unk.contains (o.num + k) else o.kind == 1 && w.unkS.contains (o.num + k)))

/-- A predicate is unknown in a lane. -/
def predUnknown (w : Wave) (l k : Nat) : Bool := tbit (w.lane l).unkP k

/-- The guard of the instruction is unknown in a lane. -/
def guardUnknown (w : Wave) (i : Instr) (l : Nat) : Bool :=
  let gp := (Instr.guard i).toNat % 16
  gp != 15 && predUnknown w l gp

/-- The value of some source of the instruction in a lane, its guard among them, is unknown. -/
def inputUnknown (s : State) (i : Instr) (l : Nat) : Bool :=
  let w := s.cur
  let ops := Instr.operands s i
  let here (k : Nat) : Bool := srcUnknown w ops k || (Instr.predSrc i).any (predUnknown w k) || guardUnknown w i k
  if Instr.crossLane i then w.idx.any here else here l

/-- Mark the destinations of an instruction: unknown in the lanes of `bad`, known in the other active lanes. A write to the current
proposal bank leaves the live registers as they are (R251, R267). -/
def State.markKnown (s : State) (i : Instr) (act bad : List Nat) : State :=
  let w := s.cur
  let ops := (Instr.operands s i).filter (fun o => o.dst)
  let vregs := ops.flatMap (fun o => if o.kind == 0 && !Instr.usesBank i then (List.range o.cnt).map (fun k => o.num + k) else [])
  let sregs := ops.flatMap (fun o => if o.kind == 1 then [o.num] else [])
  let w := act.foldl (fun (w : Wave) l => w.modLane l (fun x =>
    let unk := if bad.contains l then vregs.foldl insNat x.unk else x.unk.filter (fun r => !vregs.contains r)
    let unkP := match Instr.predDst i with
      | some k => if bad.contains l then x.unkP ||| (1#16 <<< k) else x.unkP &&& ~~~(1#16 <<< k)
      | none => x.unkP
    { x with unk := unk, unkP := unkP })) w
  let w := { w with unkS := if bad.isEmpty then w.unkS.filter (fun r => !sregs.contains r) else sregs.foldl insNat w.unkS }
  { s with cur := w }

/-- Restore the checkpoint of a speculation (R210, R266, R290). -/
def Wave.rollback (w : Wave) : Wave :=
  match w.ck with
  | some a => { w with toArch := a, ck := none, spec := 0, hold := [], heldCmix := 0, heldPoison := 0, declined := false,
                       trapPend := if w.spec == 1 then w.trapPend else none, pend := w.pend.filter (fun p => !p.spec),
                       fabFail := w.fabFail.filter (fun x => !x.out.spec),
                       fabAt := w.fabAt.filter (fun a => !w.fab.any (fun o => o.spec && o.seq == a.seq)),
                       fab := (w.fab.filter (fun o => o.sent || !o.spec)).map (fun o =>
                         if o.spec then { o with uses := [], pend := none } else o) }
  | none => { w with spec := 0, hold := [] }

/-- END OF THE RUN-AHEAD: the checkpoint is restored and the batch goes to the fault service (R209, R210). -/
def State.endAhead (s : State) : State :=
  let w := s.cur.rollback
  let w := { w with batch := w.batch.map (fun b => { b with pages := b.pages.take (b.base + 32), running := false }),
                    why := .pageFault }
  { s with cur := w, outbox := if tbit s.regs.fmode 1 then s.outbox ++ [.hostFault w.key] else s.outbox }

/-- Where the run-ahead must end after an instruction (R210). -/
def State.checkAhead (s : State) : State :=
  match s.cur.batch with
  | some b => if b.base + 32 ≤ b.pages.length || 2048 ≤ b.issued || s.cur.ready.isEmpty then s.endAhead else s
  | none => s

/-- A PAGE FAULT: pending loads return, the checkpoint is taken, and the wave runs ahead from the next
instruction (R209). The destinations of the faulting instruction are unknown. -/
def State.startBatch (s : State) (i : Instr) (v : Nat) (iss act : List Nat) (pages : List (Nat × Bool)) (first : Nat)
    (lanes : List Nat) (laneCause : List (Nat × Nat)) : State :=
  let g := s.gridOf s.cur
  let s := s.clearFailed s.cur.core g.ctx.asid (pages.map Prod.fst)
  let w := s.returnAll s.cur
  let copying := w.copies.any (fun c => match c with | some x => !x.regDst.isEmpty | none => false)
  if !w.pend.isEmpty || copying then { s with cur := { w with why := .regs } }
  else
    let w := { w with ck := some w.toArch, spec := 1, why := .none,
                      batch := some { pages := pages, base := pages.length, first := first, lanes := lanes,
                                      laneCause := laneCause, offset := v, issued := 0, running := true } }
    let before := w.readyPcs
    let s := ({ s with cur := w }).markKnown i act act
    let w := (s.advance s.cur iss).recount v before
    ({ s with cur := w }).checkAhead

/-- The instructions of R210's first row. -/
def rowOne (i : Instr) : Bool :=
  !Instr.usesBank i &&
  (match i with
   | .vadd _ | .vsub _ | .vaddc _ | .vmul _ | .vmulh _ | .vmad _ | .vmin _ | .vmax _ | .vabsd _ | .vand _ | .vor _
   | .vxor _ | .vnot _ | .vshl _ | .vshr _ | .vsar _ | .vrot _ | .vclz _ | .vpopc _ | .vbrev _ | .vext _ | .vins _
   | .vsel _ | .vcmp _ | .vmov _ | .vmovi _ | .vshfl _ | .vbcast _ | .vvote _ | .vscan _ | .vred _ | .vcompact _
   | .sadd _ | .ssub _ | .smul _ | .smad _ | .sand _ | .sor _ | .sxor _ | .sshl _ | .sshr _ | .ssar _ | .smov _
   | .smovi _ | .scmp _ | .vtos _ | .stov _ | .fadd _ | .fsub _ | .fmul _ | .ffma _ | .fmin _ | .fmax _ | .fcmp _
   | .fclass _ | .fround _ | .fscale _ | .fexp _ | .fman _ | .fcvt _ | .fcvti _ | .icvtf _ | .fex2 _ | .flg2 _
   | .frcp _ | .frsq _ | .fsqrt _ | .fsin2 _ | .fcos2 _ | .fdot2 _ | .hadd2 _ | .hmul2 _ | .hfma2 _ | .br _ | .brd _
   | .call _ | .ret _ | .join _ | .joinAct _ | .wait _ | .ld _ | .st _ | .sld _ | .sst _ | .lda _ | .pf _ => true
   | _ => false)

/-- What each speculation performs: 1 page-fault run-ahead (R210), 2 collective run-ahead (R265), 3 speculative
task (R288). -/
def performs (spec : Nat) (i : Instr) : Bool :=
  if spec == 0 then true
  else if spec == 1 then rowOne i
  else rowOne i || Instr.usesBank i ||
    (match i with
     | .accept _ | .pbsel _ | .pbclr _ | .pbcnt _ | .rng _ | .fstat _ => true
     | .fld _ => spec == 2
     | .qdone _ => spec == 3
     | _ => false)

/-- Why a speculation waits at an instruction. -/
def specWhy (spec : Nat) : Why := if spec == 3 then .oldest else .outcome

/-- The instruction transfers control, or acts on where lanes go on. -/
def Instr.isControl : Instr → Bool
  | .br _ | .brd _ | .call _ | .ret _ | .join _ | .joinAct _ | .wait _ => true
  | _ => false

/-- Lanes that the run-ahead stops before an instruction: their address, their branch condition, the lane set that they store
or their target is unknown (R210). -/
def stopsBefore (s : State) (i : Instr) (iss act : List Nat) : List Nat :=
  let w := s.cur
  let addrUnk (scalar : Bool) (b : BitVec 10) : List Nat :=
    act.filter (fun l => srcUnknown w [baseOpd scalar b false] l)
  (if Instr.isControl i then iss.filter (guardUnknown w i) else []) ++
  (match i with
   | .ld f | .st f | .sld f | .sst f => addrUnk f.scalar f.base
   | .brd _ | .ret _ | .join _ => act.filter (inputUnknown s i)
   | _ => [])

/-- Lanes stop for the rest of the run-ahead. -/
def State.stopLanes (s : State) (ls : List Nat) : State :=
  { s with cur := s.cur.modLanes ls (fun x => { x with st := .stopped }) }

/-- A page fault of the run-ahead: its pages join the batch; the lanes of a transfer stop, and what a load would have written
is unknown (R210). -/
def State.aheadFault (s : State) (i : Instr) (v : Nat) (before iss act : List Nat) (pages : List (Nat × Bool))
    (lanes : List Nat) : State :=
  let more (b : Batch) : Batch := { b with pages := pages.foldl addPage b.pages }
  let s := s.clearFailed s.cur.core (s.gridOf s.cur).ctx.asid (pages.map Prod.fst)
  let s := { s with cur := { s.cur with batch := s.cur.batch.map more } }
  if Instr.isControl i then (s.stopLanes lanes).checkAhead
  else
    let count (b : Batch) : Batch := { b with issued := b.issued + 1 }
    let s := (s.markKnown i act act).retire i v before iss false false []
    { s with cur := { s.cur with batch := s.cur.batch.map count } }.checkAhead

/-- WHAT BECOMES OF AN INSTRUCTION'S RESULT, by the speculation in force. -/
def settle (i : Instr) (s0 : State) (iss act : List Nat) (r : Res) : State :=
  let v := s0.cur.issuePc.getD 0
  let before := s0.cur.readyPcs
  let stepping := s0.cur.step && !s0.cur.tm
  match s0.cur.spec with
  | 0 =>
    match r with
    | .done s keep => s.retire i v (if s.cur.tm == s0.cur.tm then before else []) iss stepping false keep
    | .jump s keep => s.retire i v before iss stepping true keep
    | .trap s t => ({ s with cur := { s.cur with bpSkip := false } }).takeTrap (t.info v (encode i))
    | .wait why s => { s with cur := { s.cur with why := why } }
    | .fault pages first lanes lc => s0.startBatch i v iss act pages first lanes lc
  | 1 =>
    let count (s : State) : State :=
      { s with cur := { s.cur with batch := s.cur.batch.map (fun b => { b with issued := b.issued + 1 }) } }
    match r with
    | .done s keep =>
      let bad := act.filter (inputUnknown s0 i)
      let s := s.markKnown i act (bad ++ s.cur.idx.filter (fun l => (s.cur.lane l).unk.contains 1024))
      let s := { s with cur := s.cur.modLanes act (fun x => { x with unk := x.unk.filter (· != 1024) }) }
      (count (s.retire i v before iss false false keep)).checkAhead
    | .jump s keep => (count ((s.markKnown i act []).retire i v before iss false true keep)).checkAhead
    | .trap _ t => (s0.stopLanes t.lanes).checkAhead
    | .wait why s => if why == .tlb then { s with cur := { s.cur with why := why } } else s0.endAhead
    | .fault pages _ lanes _ => s0.aheadFault i v before iss act pages lanes
  | spec =>
    match r with
    | .done s keep =>
      let s := if spec == 2 then s.markKnown i act [] else s
      let s := s.retire i v before iss false false keep
      if stepping then { s with cur := { s.cur with trapPend := some ((trapOf 20 iss).info v (encode i)), why := specWhy spec } } else s
    | .jump s keep =>
      let s := s.retire i v before iss false true keep
      if stepping then { s with cur := { s.cur with trapPend := some ((trapOf 20 iss).info v (encode i)), why := specWhy spec } } else s
    | .trap _ _ => { s0 with cur := { s0.cur with why := specWhy spec } }
    | .wait why s => { s with cur := { s.cur with why := why } }
    | .fault .. => { s0 with cur := { s0.cur with why := specWhy spec } }

/-! ### Results of the checks of an access -/

/-- What an instruction does where its accesses do not all pass (R99): `none` where they pass. The record's address and stamp
are those of the trapping lane with the lowest `$tid` (R273). -/
def failed (s : State) (act : List Nat) (ea : Nat → Nat) (rs : List (Nat × LaneAcc)) (all : Bool) : Option Res :=
  match verdict rs with
  | .ok => none
  | .trap c ls info lc =>
    let ls := if all then act else ls
    let low := s.cur.lowestTid ls
    let info := if all then info else ((rs.find? (fun r => r.1 == low)).map (fun r => r.2.info)).getD info
    some (.trap s ⟨c, ls, ea low, if c == 8 then info else 0, if c == 8 then s.contract else 0,
      if all then act.map (fun l => (l, c)) else lc⟩)
  | .miss vas =>
    let g := s.gridOf s.cur
    some (.wait .tlb (s.postMisses s.cur.core g.ctx.asid g.ctx.root vas))
  | .fault pages lc =>
    let ls := (rs.filter (fun r => match r.2 with | .fault .. => true | _ => false)).map Prod.fst
    let low := s.cur.lowestTid ls
    let first := match rs.find? (fun r => r.1 == low) with
      | some (_, .fault va _) => va
      | _ => 0
    some (.fault pages first (if all then act else ls) (if all then act.map (fun l => (l, 6)) else lc))

/-- The holding buffer of the core has room for a store of the wave (R266). -/
def State.holdRoom (s : State) (locs : List Nat) : Bool :=
  s.cur.spec == 0 ||
  (let held := s.cur.hold.flatMap (fun h => h.bytes.map (fun b => granule b.1))
   let more := (locs.map granule).eraseDups.filter (fun g => !held.contains g)
   s.heldGranules s.cur.core + more.length ≤ 2048)

/-- THE SAFETY NET logs what the instruction is about to change. Its entries are stores of the wave: where one does not pass
the checks, the instruction has no effect and takes what follows (R285, R99). -/
def State.netLog (s : State) (i : Instr) (iss act : List Nat) : Except Res State :=
  let es := s.netEntries i act
  let places := (List.range es.length).flatMap s.netPlaces
  match failed s act (fun _ => ((places.find? (fun p => p.2.order != 100)).map Prod.fst).getD 0)
      (places.map (fun p => (s.cur.lowestTid act, p.2))) true with
  | some r => .error r
  | none =>
    if !s.holdRoom (places.flatMap (fun p => p.2.access.locs)) then .error (.wait (specWhy s.cur.spec) s)
    else .ok (s.netWrite es (s.cur.issuePc.getD 0) (maskOf iss))

/-- The instruction takes its effect, or the first part of it, with this result: it retires, or waits with requests of the fabric to
be sent or having been performed in part. What comes after that first part logs no more. -/
def State.performsNow (s : State) (iss : List Nat) (r : Res) : Bool :=
  let begun := !s.progress.isEmpty || s.cur.fabAt.any (fun a => a.offset == s.at_ && a.tm == s.cur.tm && a.iss == iss)
  match r with
  | .done .. | .jump .. => !begun
  | .wait _ t => !begun && (t.cur.fabSeq != s.cur.fabSeq || !t.progress.isEmpty)
  | _ => false

/-- The body is run on the state with the Safety Net's entries queued, where it takes its effect; else on the plain
state. -/
def runBody (i : Instr) (s : State) (iss act : List Nat) (body : List Nat → List Nat → State → Res) : Res :=
  let r := body iss act s
  if !s.performsNow iss r || (s.netEntries i act).isEmpty then r
  else
    match s.netLog i iss act with
    | .ok t => body iss act t
    | .error e => e

/-- A non-speculative task writes in a way that `Task.wrote` does not list (R290). -/
def State.taskWide (s : State) (i : Instr) : State :=
  match i with
  | .atom _ | .red _ | .cpy _ | .cpys _ | .accst _ | .qblk _ | .dqblk _ | .hadm _ | .vstt _ | .creduce _ | .fst _ | .fatom _
  | .qpush _ =>
    { s with cur := { s.cur with task := s.cur.task.map (fun t => { t with wide := true }) } }
  | _ => s

/-- Granules that a load adds to the read signature of a speculative task (R288). -/
def State.sign (s : State) (as : List Access) : State :=
  match s.cur.task with
  | some t =>
    if s.cur.spec == 3 then
      let gs := as.foldl (fun g a => (a.locs.map granule).foldl insNat g) t.sig
      { s with cur := { s.cur with task := some { t with sig := gs } } }
    else s
  | none => s

/-- Traps that an instruction takes in every lane of the issuing set even with no active lane: those of the checks that its own rule
makes at issue (R96, R216, R243, R263, R337), and the convergence-timeout trap of the instructions that R161 names. -/
def Instr.trapsIdle (i : Instr) (cause : Nat) : Bool :=
  match i with
  | .cpy _ | .cpys _ | .barr _ | .barw _ | .bara _ | .exit _ | .cbr _ => true
  | .bmask _ => cause == 12
  | .qpop _ | .qpopO _ | .vldt _ | .vstt _ => cause == 3
  | .creduce _ => cause != 16
  | .cvdecl _ | .mma _ | .mmas _ | .mmaw _ => cause == 11
  | _ => false

/-- An instruction without active lanes retires without effect (R47), but for the checks that its own rule makes at issue in
every lane of the issuing set. -/
def idleBody (i : Instr) (iss : List Nat) (s : State) (body : List Nat → List Nat → State → Res) : Res :=
  match body iss [] s with
  | .trap t r => if r.lanes == iss && Instr.trapsIdle i r.cause then .trap t r else .done s []
  | _ => .done s []

/-- A producer is a drain of the matrix engine: no load, no pop, and no request of the fabric (R25, R176). -/
def Wave.drainOf (w : Wave) (p : Pend) : Bool :=
  p.fabric && !w.fab.any (fun o => o.pend == some p.id) && !w.fabFail.any (fun x => x.out.pend == some p.id)

/-- A register that the operands await has a producer other than a matrix drain. -/
def Wave.longProducer (w : Wave) (ops : List Opd) : Bool :=
  ops.any (fun o => (o.src || o.dst) && (List.range o.chk).any (fun k =>
    match o.kind with
    | 0 => w.vEmpty.contains (o.num + k) && !w.pend.any (fun p => p.regs.contains (o.num + k) && w.drainOf p)
    | 1 => w.sEmpty.contains (o.num + k)
    | _ => false))

/-- Why a wave waits for its operands: a wait for matrix drains alone keeps its slot (R25). -/
def State.regsWhy (s : State) (i : Instr) : Why := if s.cur.longProducer (Instr.operands s i) then .regs else .drain

/-- ISSUE an instruction in the current wave. A page-fault run-ahead also performs it in lanes whose guard is unknown: what
it writes there is unknown (R210). -/
def issueState (i : Instr) (s : State) (body : List Nat → List Nat → State → Res) : State :=
  match gate i s with
  | .idle => s
  | .trap c a ls => settle i s ls ls (.trap s { trapOf c ls with infoA := a })
  | .wait => settle i s s.cur.issuingSet [] (.wait (s.regsWhy i) s)
  | .regError ls =>
    if s.cur.spec == 0 then
      ({ s with cur := { s.cur with bpSkip := false } }).takeTrap { (trapOf 9 ls).info s.at_ (encode i) with esc := true }
    else settle i s ls ls (.trap s (trapOf 9 ls))
  | .go iss act =>
    let act := if s.cur.spec == 1 then iss.filter (fun l => act.contains l || guardUnknown s.cur i l) else act
    if !performs s.cur.spec i then
      (if s.cur.spec == 1 then s.endAhead else { s with cur := { s.cur with why := specWhy s.cur.spec } })
    else if act.isEmpty then settle i s iss act (idleBody i iss s body)
    else if s.cur.spec == 2 && iss.any (fun l => guardUnknown s.cur i l || (act.contains l && inputUnknown s i l)) then
      -- an element that a declined fabric load left unknown (R267)
      { s with cur := { s.cur with why := .outcome } }
    else if s.cur.spec == 1 && !(stopsBefore s i iss act).isEmpty then (s.stopLanes (stopsBefore s i iss act)).checkAhead
    else settle i s iss act (runBody i (if s.cur.spec == 0 then s.taskWide i else s) iss act body)

/-- Issue, as an outcome of a step. -/
def issue (i : Instr) (s : State) (body : List Nat → List Nat → State → Res) : Host.Outcome State Fault Refusal :=
  .next (issueState i s body)

/-- The counts that masked stamp mismatches and poisoned bytes read as zero add, once per instruction
(R129, R214); a speculation holds them (R267). -/
def State.countAccess (s : State) (as : List Access) : State :=
  let mix := if as.any Access.mix then 1 else 0
  let poi := if as.any Access.zero then 1 else 0
  if s.cur.spec != 0 then
    { s with cur := { s.cur with heldCmix := s.cur.heldCmix + mix, heldPoison := s.cur.heldPoison + poi } }
  else
    let g := s.gridOf s.cur
    (s.countUp g 0x14 mix).countUp g 0x1C poi

/-- The frame of a location, in pieces of 64 KiB. -/
def frameOf (loc : Nat) : Nat := loc / 2 ^ 16 * 2 ^ 16

/-- The frames that policy 1 asks the fault service to retire (R214). -/
def State.askRetire (s : State) (rs : List (Nat × LaneAcc)) : State :=
  { s with outbox := s.outbox ++ (rs.filterMap (fun r => match r.2 with
      | .trap 7 9 (n + 1) => some (Out.retireFrame (frameOf n))
      | _ => none)).eraseDups }

/-- An access of class 3 waits in a speculative task (R288). -/
def taskWaits (w : Wave) (as : List Access) : Bool := w.spec == 3 && as.any (fun a => a.cls == 3)

/-- A trap under policy 1 also asks for the frame to be retired (R214). -/
def retiring (s : State) (rs : List (Nat × LaneAcc)) (r : Res) : Res :=
  match r with
  | .trap _ t => if t.cause == 9 then .trap (s.askRetire rs) t else r
  | r => r

/-- Lanes wait at the instruction that they issue; its issuing set is kept for the step trap (R282). -/
def Wave.rest (w : Wave) (iss ls : List Nat) (st : LaneSt) : Wave :=
  w.modLanes ls (fun x => { x with st := st, iss := maskOf iss })

/-- Waiting lanes retire their instruction: they become ready and advance. -/
def State.wake (s : State) (w : Wave) (ls : List Nat) : Wave := s.advance (w.modLanes ls (fun x => { x with st := .run })) ls

/-- The step trap of lanes that retire an instruction at which they waited: their issuing set, less lanes that have exited
(R282). -/
def State.stepAfterWait (s : State) (old w : Wave) (ls : List Nat) : Wave :=
  if !old.step || old.tm || ls.isEmpty then w
  else
    let iss := ls.foldl (fun m l => m ||| (old.lane l).iss) (maskOf ls)
    let v := (old.lane (ls.headD 0)).vpc
    w.stepHeld ((trapOf 20 (w.liveLanes.filter (fun l => tbit iss l))).info v (s.wordOf old v))

/-- Lanes of a wave retire an instruction at which they waited (R240, R220, R244), whatever the wave speculates; a step trap
that was held back follows (R282). -/
def State.lateRetire (s : State) (key : WKey) (ls : List Nat) : State :=
  match s.findWave key with
  | none => s
  | some w =>
    let w1 := s.stepAfterWait w (w.both (fun w => s.wake w ls)) ls
    -- a wave that waits for the fault service, or for a trap, goes on waiting
    s.setWave { w1 with why := if w.batch.any (fun b => !b.running) || w.trapPend.isSome then w.why else .none }

/-! ### Issue slots (R24, R25) -/

/-- The wave has something to do: a ready lane, or a trap that waits to be taken. -/
def Wave.runnable (w : Wave) : Bool := !w.ready.isEmpty || (w.trapPend.isSome && !w.escalated)

/-- A wave gives up its slot while it cannot issue for long (R25, and the rules by which it waits parked). -/
def Wave.parks (w : Wave) : Bool :=
  !w.runnable ||
  (match w.why with
   | .none | .release | .drain => false
   | _ => true)

/-- A wave that could issue if it held a slot. -/
def Wave.able (w : Wave) : Bool := !w.lanes.isEmpty && !w.slot && w.why == .none && w.runnable

/-- Slots held on a core. -/
def State.slotsHeld (s : State) (c : Nat) : Nat := ((s.coreWaves c).filter Wave.slot).length

/-- Lanes that wait at a fabric instruction whose requests have all been sent retire it (R307). -/
def State.fabPass (s : State) (key : WKey) (a : FabAt) : State :=
  match s.findWave key with
  | none => s
  | some w =>
    if a.tm == w.tm && !w.escalated && w.fab.all (fun o => o.seq != a.seq || o.sent) &&
       a.iss.all (fun l => (w.lane l).st == .run && (w.lane l).vpc == a.offset) then
      let w := { w with fabAt := w.fabAt.filter (· != a) }
      (s.setWave (w.modLanes a.iss (fun x => { x with iss := maskOf a.iss }))).lateRetire key a.iss
    else s

/-- After a step: waves that park give up their slots, and fabric requests that wait for a slot are sent where one is free
(R307). -/
def State.tidy (s : State) : State :=
  let s := s.waves.foldl (fun s w => if w.fab.all (fun o => o.sent) then s else s.fabPump w.key) s
  let s := s.waves.foldl (fun s w => w.fabAt.foldl (fun s a => s.fabPass w.key a) s) s
  s.mapWaves (fun w => if w.slot && w.parks then { w with slot := false } else w)

end Sys2Proof.Machine
end

