-- ==== Sys2Proof/Machine/VecInt.lean ====
section
/-! DEFINITION. The vector integer instructions (R73 to R81): arithmetic, logic, shifts, bit fields, compares and
moves. Each value is computed from the numbers of the operands and is narrowed once. -/

namespace Sys2Proof.Machine

/-! ### Values -/

/-- Shift left by `b` places in `n` bits; 0 from `n` on (R77). -/
def shlN (n a b : Nat) : Nat := if n ≤ b then 0 else a * 2 ^ b % 2 ^ n
/-- Shift right with zeros entering. -/
def shrN (n a b : Nat) : Nat := if n ≤ b then 0 else a % 2 ^ n / 2 ^ b
/-- Shift right with copies of the sign entering. -/
def sarN (n a b : Nat) : Nat := wrapTo n (toSigned n a / ((2 ^ min b n : Nat) : Int))
/-- Rotate left by b mod n places. -/
def rotlN (n a b : Nat) : Nat :=
  let k := b % n
  let x := a % 2 ^ n
  x * 2 ^ k % 2 ^ n + x / 2 ^ (n - k)
/-- Rotate right. -/
def rotrN (n a b : Nat) : Nat := rotlN n a (n - b % n)
/-- Leading zeros. -/
def clzN (n a : Nat) : Nat := n - bitLen (a % 2 ^ n)
/-- Number of one bits. -/
def popcN (n a : Nat) : Nat := (List.range n).foldl (fun c k => c + a / 2 ^ k % 2) 0
/-- Bits in reverse order. -/
def brevN (n a : Nat) : Nat := (List.range n).foldl (fun c k => c + a / 2 ^ k % 2 * 2 ^ (n - 1 - k)) 0
/-- Complement. -/
def notN (n a : Nat) : Nat := 2 ^ n - 1 - a % 2 ^ n
/-- `vext` (R78): a field of the 64-bit value b:a. -/
def extVal (signed : Bool) (a b c : Nat) : Nat :=
  let pos := c % 64
  let len := min (c / 256 % 64) 32
  let f := (b * 2 ^ 32 + a) / 2 ^ pos % 2 ^ len
  if signed && len != 0 then wrapTo 32 (toSigned len f) else f
/-- `vins` (R78): a field of b written into a. -/
def insVal (a b c : Nat) : Nat :=
  let pos := c % 32
  let len := min (c / 256 % 64) (32 - pos)
  let m := (2 ^ len - 1) * 2 ^ pos
  Nat.lor (Nat.land a (notN 32 m)) (Nat.land (b * 2 ^ pos % 2 ^ 32) m)
/-- A condition of `vcmp` and `scmp` by its code (R80). -/
def condHolds (c : Nat) (a b : Int) : Bool :=
  match c with
  | 0 => a == b | 1 => a != b | 2 => decide (a < b) | 3 => decide (a ≤ b) | 4 => decide (b < a) | _ => decide (b ≤ a)

/-! ### Bodies -/

/-- The body of a format A instruction of two vector sources of the type. -/
def bodyA3 (f : FmtA) (op : Nat → Nat → Nat × BitVec 6) (_ act : List Nat) (s : State) : Res :=
  let w := s.cur
  .done { s with cur := w.writeFlagged f.p f.ty.wide f.vd.toNat act (fun l =>
    op (w.readX f.p f.ty.wide l f.va.toNat) (w.readX f.p f.ty.wide l f.vb.toNat)) } []

/-- As `bodyA3`, with a second source of one register. -/
def bodyA3n (f : FmtA) (op : Nat → Nat → Nat × BitVec 6) (_ act : List Nat) (s : State) : Res :=
  let w := s.cur
  .done { s with cur := w.writeFlagged f.p f.ty.wide f.vd.toNat act (fun l =>
    op (w.readX f.p f.ty.wide l f.va.toNat) (w.readX f.p false l f.vb.toNat)) } []

/-- The body of a format A instruction of one vector source; widths of destination and source. -/
def bodyA2 (f : FmtA) (wd wa : Bool) (op : Nat → Nat × BitVec 6) (_ act : List Nat) (s : State) : Res :=
  let w := s.cur
  .done { s with cur := w.writeFlagged f.p wd f.vd.toNat act (fun l => op (w.readX f.p wa l f.va.toNat)) } []

/-- The body of a format B instruction with every operand of one width. -/
def bodyB (f : FmtB) (wide : Bool) (op : Nat → Nat → Nat → Nat × BitVec 6) (_ act : List Nat) (s : State) : Res :=
  let w := s.cur
  .done { s with cur := w.writeFlagged f.p wide f.vd.toNat act (fun l =>
    op (w.readX f.p wide l f.va.toNat) (w.readX f.p wide l f.vb.toNat) (w.readX f.p wide l f.vc.toNat)) } []

/-- A value without flags. -/
def plain (v : Nat) : Nat × BitVec 6 := (v, 0)

/-! ### Instructions (R77) -/

def execVadd (f : FmtA) (s : State) : Host.Outcome State Fault Refusal :=
  issue (.vadd f) s (bodyA3 f (fun a b => intResult f.ty f.sat (tyVal f.ty a + tyVal f.ty b)))

def execVsub (f : FmtA) (s : State) : Host.Outcome State Fault Refusal :=
  issue (.vsub f) s (bodyA3 f (fun a b => intResult f.ty f.sat (tyVal f.ty a - tyVal f.ty b)))

def execVmul (f : FmtA) (s : State) : Host.Outcome State Fault Refusal :=
  issue (.vmul f) s (bodyA3 f (fun a b => intResult f.ty f.sat (tyVal f.ty a * tyVal f.ty b)))

/-- Bits [63:32] of the exact product. -/
def execVmulh (f : FmtA) (s : State) : Host.Outcome State Fault Refusal :=
  issue (.vmulh f) s (bodyA3 f (fun a b => plain (wrapTo 64 (tyVal f.ty a * tyVal f.ty b) / 2 ^ 32)))

def execVmad (f : FmtB) (s : State) : Host.Outcome State Fault Refusal :=
  issue (.vmad f) s (bodyB f f.ty.wide (fun a b c => plain (wrapTo (tyBits f.ty) ((a : Int) * b + c))))

def execVmin (f : FmtA) (s : State) : Host.Outcome State Fault Refusal :=
  issue (.vmin f) s (bodyA3 f (fun a b => plain (if tyVal f.ty b < tyVal f.ty a then b else a)))

def execVmax (f : FmtA) (s : State) : Host.Outcome State Fault Refusal :=
  issue (.vmax f) s (bodyA3 f (fun a b => plain (if tyVal f.ty a < tyVal f.ty b then b else a)))

def execVabsd (f : FmtA) (s : State) : Host.Outcome State Fault Refusal :=
  issue (.vabsd f) s (bodyA3 f (fun a b => plain (tyVal f.ty a - tyVal f.ty b).natAbs))

def execVand (f : FmtA) (s : State) : Host.Outcome State Fault Refusal :=
  issue (.vand f) s (bodyA3 f (fun a b => plain (Nat.land a b)))

def execVor (f : FmtA) (s : State) : Host.Outcome State Fault Refusal :=
  issue (.vor f) s (bodyA3 f (fun a b => plain (Nat.lor a b)))

def execVxor (f : FmtA) (s : State) : Host.Outcome State Fault Refusal :=
  issue (.vxor f) s (bodyA3 f (fun a b => plain (Nat.xor a b)))

def execVnot (f : FmtA) (s : State) : Host.Outcome State Fault Refusal :=
  issue (.vnot f) s (bodyA2 f f.ty.wide f.ty.wide (fun a => plain (notN (tyBits f.ty) a)))

def execVshl (f : FmtA) (s : State) : Host.Outcome State Fault Refusal :=
  issue (.vshl f) s (bodyA3n f (fun a b => plain (shlN (tyBits f.ty) a b)))

def execVshr (f : FmtA) (s : State) : Host.Outcome State Fault Refusal :=
  issue (.vshr f) s (bodyA3n f (fun a b => plain (shrN (tyBits f.ty) a b)))

def execVsar (f : FmtA) (s : State) : Host.Outcome State Fault Refusal :=
  issue (.vsar f) s (bodyA3n f (fun a b => plain (sarN (tyBits f.ty) a b)))

def execVrot (f : FmtA) (s : State) : Host.Outcome State Fault Refusal :=
  issue (.vrot f) s (bodyA3n f (fun a b =>
    plain (if f.minor == 0 then rotlN (tyBits f.ty) a b else rotrN (tyBits f.ty) a b)))

def execVclz (f : FmtA) (s : State) : Host.Outcome State Fault Refusal :=
  issue (.vclz f) s (bodyA2 f f.ty.wide f.ty.wide (fun a => plain (clzN (tyBits f.ty) a)))

def execVpopc (f : FmtA) (s : State) : Host.Outcome State Fault Refusal :=
  issue (.vpopc f) s (bodyA2 f f.ty.wide f.ty.wide (fun a => plain (popcN (tyBits f.ty) a)))

def execVbrev (f : FmtA) (s : State) : Host.Outcome State Fault Refusal :=
  issue (.vbrev f) s (bodyA2 f f.ty.wide f.ty.wide (fun a => plain (brevN (tyBits f.ty) a)))

def execVext (f : FmtB) (s : State) : Host.Outcome State Fault Refusal :=
  issue (.vext f) s (bodyB f false (fun a b c => plain (extVal (f.ty == .s32) a b c)))

def execVins (f : FmtB) (s : State) : Host.Outcome State Fault Refusal :=
  issue (.vins f) s (bodyB f false (fun a b c => plain (insVal a b c)))

/-- (a AND c) OR (b AND NOT c), bit by bit. -/
def execVsel (f : FmtB) (s : State) : Host.Outcome State Fault Refusal :=
  issue (.vsel f) s (bodyB f f.ty.wide (fun a b c =>
    plain (Nat.lor (Nat.land a c) (Nat.land b (notN (tyBits f.ty) c)))))

/-- The body of `vaddc` (R79): the carry predicate is live, and read with the guard. -/
def bodyAddc (f : FmtA) (_ act : List Nat) (s : State) : Res :=
  let w := s.cur
  let k := f.minor.toNat % 16
  let e (l : Nat) : Nat := w.readX f.p false l f.va.toNat + w.readX f.p false l f.vb.toNat +
    (if predOf (w.lane l) k then 1 else 0)
  .done { s with cur := (w.writeLanes f.p false f.vd.toNat act (fun l => e l % 2 ^ 32)).writePreds k act
                          (fun l => decide (2 ^ 32 ≤ e l)) } []

def execVaddc (f : FmtA) (s : State) : Host.Outcome State Fault Refusal := issue (.vaddc f) s (bodyAddc f)

/-! ### Compares and moves (R80, R81) -/

/-- The body of `vcmp`. -/
def bodyVcmp (f : FmtA) (_ act : List Nat) (s : State) : Res :=
  let w := s.cur
  .done { s with cur := w.writePreds f.vd.toNat act (fun l =>
    condHolds f.minor.toNat (tyVal f.ty (w.readX false f.ty.wide l f.va.toNat))
      (tyVal f.ty (w.readX false f.ty.wide l f.vb.toNat))) } []

def execVcmp (f : FmtA) (s : State) : Host.Outcome State Fault Refusal := issue (.vcmp f) s (bodyVcmp f)

def execVmov (f : FmtA) (s : State) : Host.Outcome State Fault Refusal :=
  issue (.vmov f) s (bodyA2 f f.ty.wide f.ty.wide plain)

def execVmovi (f : FmtD) (s : State) : Host.Outcome State Fault Refusal :=
  issue (.vmovi f) s (fun _ act s =>
    .done { s with cur := s.cur.writeLanes f.p false f.rd.toNat act (fun _ => f.imm.toNat) } [])

end Sys2Proof.Machine
end

