-- ==== Sys2Proof/Machine/LaneOps.lean ====
section
/-! DEFINITION. The lane operations (R82 to R88): shuffles, broadcasts, votes, scans, reductions and compaction
among the lanes of one wave, under a member mask. -/

namespace Sys2Proof.Machine

/-- Lanes named in a member mask (R82). -/
def Wave.members (w : Wave) (mask : Word64) : List Nat := w.idx.filter (fun l => tbit mask l)

/-- The member-mask check (R82): every active lane must be a member. -/
def maskChecked (mask : Word64) (act : List Nat) (s : State) (k : Wave) : Res :=
  if act.all (fun l => tbit mask l) then .done { s with cur := k } [] else .trap s (illegal act)

/-- Number format of a float type. -/
def tyFmt (t : Ty) : FFmt := if t == .f64 then fF64 else fF32

/-- The operations of `vscan` and `vred` by code (R87). -/
def combine (contract : Nat) (t : Ty) (op a b : Nat) : Nat × BitVec 6 :=
  if t.isFlt then
    match op with
    | 0 => (tyFmt t).fadd contract .rn a b
    | 1 => (tyFmt t).fminmax contract false a b
    | _ => (tyFmt t).fminmax contract true a b
  else
    match op with
    | 0 => plain ((a + b) % 2 ^ tyBits t)
    | 1 => plain (if tyVal t b < tyVal t a then b else a)
    | 2 => plain (if tyVal t a < tyVal t b then b else a)
    | 3 => plain (Nat.land a b)
    | 4 => plain (Nat.lor a b)
    | _ => plain (Nat.xor a b)

/-- The identity of an operation (R83). -/
def identity (t : Ty) (op : Nat) : Nat :=
  if t.isFlt then
    match op with
    | 0 => (tyFmt t).signBit true
    | 1 => (tyFmt t).infCode
    | _ => (tyFmt t).signBit true + (tyFmt t).infCode
  else
    match op with
    | 1 => wrapTo (tyBits t) (tyMax t)
    | 2 => wrapTo (tyBits t) (tyMin t)
    | 3 => 2 ^ tyBits t - 1
    | _ => 0

/-- One level of a tree: neighbours combined, an unpaired last element passed up. -/
def treeLevel (op : Nat → Nat → Nat × BitVec 6) (xs : List Nat) : List Nat × BitVec 6 :=
  match xs with
  | a :: b :: r =>
    let (v, fl) := op a b
    let (vs, fls) := treeLevel op r
    (v :: vs, fl ||| fls)
  | xs => (xs, 0)

/-- The tree of R87 over a list; the fuel is the length of the list. -/
def tree (op : Nat → Nat → Nat × BitVec 6) (fuel : Nat) (xs : List Nat) : Nat × BitVec 6 :=
  match fuel, xs with
  | _, [] => (0, 0)
  | _, [x] => (x, 0)
  | 0, x :: _ => (x, 0)
  | n + 1, xs =>
    let (ys, fl) := treeLevel op xs
    let (v, fl') := tree op n ys
    (v, fl ||| fl')

/-- The fold of R87. -/
def foldOp (op : Nat → Nat → Nat × BitVec 6) (i : Nat) (xs : List Nat) : Nat × BitVec 6 :=
  xs.foldl (fun acc x => let (v, fl) := op acc.1 x; (v, acc.2 ||| fl)) (i, 0)

/-- The value a member contributes (R83). -/
def Wave.contribution (w : Wave) (p wide : Bool) (r : Nat) (ident m : Nat) : Nat :=
  if (w.lane m).live then w.readX p wide m r else ident

/-- The body of `vred`. -/
def bodyVred (f : FmtA) (_ act : List Nat) (s : State) : Res :=
  let w := s.cur
  let mask := w.getS f.vb.toNat
  let op := f.minor.toNat
  let xs := (w.byTid (w.members mask)).map (w.contribution f.p f.ty.wide f.va.toNat (identity f.ty op))
  maskChecked mask act s (w.writeFlagged f.p f.ty.wide f.vd.toNat act
    (fun _ => tree (combine s.contract f.ty op) xs.length xs))

def execVred (f : FmtA) (s : State) : Host.Outcome State Fault Refusal := issue (.vred f) s (bodyVred f)

/-- The body of `vscan`. -/
def bodyVscan (f : FmtA) (_ act : List Nat) (s : State) : Res :=
  let w := s.cur
  let mask := w.getS f.vb.toNat
  let op := f.minor.toNat % 8
  let excl := 8 ≤ f.minor.toNat
  let ms := w.byTid (w.members mask)
  maskChecked mask act s (w.writeFlagged f.p f.ty.wide f.vd.toNat act (fun l =>
    let t := (w.lane l).tid
    let before := ms.filter (fun m => if excl then (w.lane m).tid < t else (w.lane m).tid ≤ t)
    foldOp (combine s.contract f.ty op) (identity f.ty op)
      (before.map (w.contribution f.p f.ty.wide f.va.toNat (identity f.ty op)))))

def execVscan (f : FmtA) (s : State) : Host.Outcome State Fault Refusal := issue (.vscan f) s (bodyVscan f)

/-- The body of `vshfl`. -/
def bodyVshfl (f : FmtB) (_ act : List Nat) (s : State) : Res :=
  let w := s.cur
  let mask := w.getS f.vc.toNat
  maskChecked mask act s (w.writeLanes f.p f.ty.wide f.vd.toNat act (fun l =>
    let src := w.shflLane f l
    if src == l || (w.lane src).live then w.readX f.p f.ty.wide src f.va.toNat else 0))

def execVshfl (f : FmtB) (s : State) : Host.Outcome State Fault Refusal := issue (.vshfl f) s (bodyVshfl f)

/-- The body of `vbcast` (R85). -/
def bodyVbcast (f : FmtA) (_ act : List Nat) (s : State) : Res :=
  let w := s.cur
  let src := (w.getS f.vb.toNat).toNat % w.width
  .done { s with cur := w.writeLanes f.p f.ty.wide f.vd.toNat act (fun _ =>
    if (w.lane src).live then w.readX f.p f.ty.wide src f.va.toNat else 0) } []

def execVbcast (f : FmtA) (s : State) : Host.Outcome State Fault Refusal := issue (.vbcast f) s (bodyVbcast f)

/-- The body of `vvote` (R86). -/
def bodyVvote (f : FmtA) (_ act : List Nat) (s : State) : Res :=
  let w := s.cur
  let mask := w.getS f.vb.toNat
  let pv (m : Nat) : Bool := predOf (w.lane m) f.va.toNat
  let v := (w.members mask).filter (fun m => (w.lane m).live)
  maskChecked mask act s (
    match f.minor.toNat with
    | 0 => w.writePreds f.vd.toNat act (fun _ => v.all pv)
    | 1 => w.writePreds f.vd.toNat act (fun _ => v.any pv)
    | 2 => w.writeLanes f.p (w.width == 64) f.vd.toNat act (fun _ => (maskOf (v.filter pv)).toNat)
    | _ => w.writePreds f.vd.toNat act (fun _ => v.all pv || v.all (fun m => !pv m)))

def execVvote (f : FmtA) (s : State) : Host.Outcome State Fault Refusal := issue (.vvote f) s (bodyVvote f)

/-- The body of `vcompact` (R88). -/
def bodyVcompact (f : FmtA) (_ act : List Nat) (s : State) : Res :=
  let w := s.cur
  let mask := w.getS f.vb.toNat
  let v := (w.members mask).filter (fun m => (w.lane m).live && predOf (w.lane m) f.va.toNat)
  maskChecked mask act s (w.writeLanes f.p false f.vd.toNat act (fun l =>
    (v.filter (fun m => (w.lane m).tid < (w.lane l).tid)).length))

def execVcompact (f : FmtA) (s : State) : Host.Outcome State Fault Refusal := issue (.vcompact f) s (bodyVcompact f)

end Sys2Proof.Machine
end

