-- ==== Sys2Proof/Machine/Scalar.lean ====
section
/-! DEFINITION. The scalar instructions (R89 to R91) and the moves between vector and scalar registers (R81).
They take effect once, where some lane is active. -/

namespace Sys2Proof.Machine

/-- A scalar result: modulo 2^n, then zero- or sign-extended to 64 bits (R89). -/
def scalarResult (t : Ty) (x : Int) : Word64 :=
  BitVec.ofNat 64 (if tySigned t then wrapTo 64 (toSigned (tyBits t) (wrapTo (tyBits t) x)) else wrapTo (tyBits t) x)

/-- The body of a format S instruction: `op` acts on the source values as unsigned numbers of the type and
answers the exact result. -/
def bodyS (f : FmtS) (op : Nat → Nat → Int) (_ _ : List Nat) (s : State) : Res :=
  let w := s.cur
  let n := 2 ^ tyBits f.ty
  .done (s.putS f.sd.toNat (scalarResult f.ty (op ((w.getS f.sa.toNat).toNat % n) (secondSrc f w % n)))) []

def execSadd (f : FmtS) (s : State) : Host.Outcome State Fault Refusal :=
  issue (.sadd f) s (bodyS f (fun a b => (a : Int) + b))

def execSsub (f : FmtS) (s : State) : Host.Outcome State Fault Refusal :=
  issue (.ssub f) s (bodyS f (fun a b => (a : Int) - b))

def execSmul (f : FmtS) (s : State) : Host.Outcome State Fault Refusal :=
  issue (.smul f) s (bodyS f (fun a b => (a : Int) * b))

/-- a × b + d, where d is the old destination (R90). -/
def execSmad (f : FmtS) (s : State) : Host.Outcome State Fault Refusal :=
  issue (.smad f) s (fun iss act s => bodyS f (fun a b => (a : Int) * b + (s.cur.getS f.sd.toNat).toNat) iss act s)

def execSand (f : FmtS) (s : State) : Host.Outcome State Fault Refusal :=
  issue (.sand f) s (bodyS f (fun a b => ((Nat.land a b : Nat) : Int)))

def execSor (f : FmtS) (s : State) : Host.Outcome State Fault Refusal :=
  issue (.sor f) s (bodyS f (fun a b => ((Nat.lor a b : Nat) : Int)))

def execSxor (f : FmtS) (s : State) : Host.Outcome State Fault Refusal :=
  issue (.sxor f) s (bodyS f (fun a b => ((Nat.xor a b : Nat) : Int)))

def execSshl (f : FmtS) (s : State) : Host.Outcome State Fault Refusal :=
  issue (.sshl f) s (bodyS f (fun a b => ((shlN (tyBits f.ty) a b : Nat) : Int)))

def execSshr (f : FmtS) (s : State) : Host.Outcome State Fault Refusal :=
  issue (.sshr f) s (bodyS f (fun a b => ((shrN (tyBits f.ty) a b : Nat) : Int)))

def execSsar (f : FmtS) (s : State) : Host.Outcome State Fault Refusal :=
  issue (.ssar f) s (bodyS f (fun a b => ((sarN (tyBits f.ty) a b : Nat) : Int)))

/-- `.u32` zero-extends bits [31:0] of the source. -/
def execSmov (f : FmtS) (s : State) : Host.Outcome State Fault Refusal :=
  issue (.smov f) s (fun _ _ s => .done (s.putS f.sd.toNat (scalarResult f.ty (s.cur.getS f.sa.toNat).toNat)) [])

/-- The value of `smovi` (R91). -/
def moviVal (minor : Nat) (imm : BitVec 32) (old : Word64) : Word64 :=
  match minor with
  | 0 => BitVec.ofNat 64 imm.toNat
  | 1 => BitVec.ofInt 64 imm.toInt
  | _ => BitVec.ofNat 64 (imm.toNat * 2 ^ 32 + old.toNat % 2 ^ 32)

def execSmovi (f : FmtD) (s : State) : Host.Outcome State Fault Refusal :=
  issue (.smovi f) s (fun _ _ s =>
    .done (s.putS f.rd.toNat (moviVal f.minor.toNat f.imm (s.cur.getS f.rd.toNat))) [])

/-- The body of `scmp` (R90): the predicate is written in every active lane. -/
def bodyScmp (f : FmtS) (_ act : List Nat) (s : State) : Res :=
  let w := s.cur
  .done { s with cur := w.writePreds f.sd.toNat act (fun _ =>
    condHolds f.minor.toNat (tyVal f.ty (w.getS f.sa.toNat).toNat) (tyVal f.ty (secondSrc f w))) } []

def execScmp (f : FmtS) (s : State) : Host.Outcome State Fault Refusal := issue (.scmp f) s (bodyScmp f)

/-- `vtos` reads the named lane, whatever its state (R81). -/
def execVtos (f : FmtSV) (s : State) : Host.Outcome State Fault Refusal :=
  issue (.vtos f) s (fun _ _ s =>
    .done (s.putS f.sr.toNat (BitVec.ofNat 64 (s.cur.readX false f.ty.wide f.lane.toNat f.vr.toNat))) [])

def execStov (f : FmtSV) (s : State) : Host.Outcome State Fault Refusal :=
  issue (.stov f) s (fun _ act s =>
    .done { s with cur := s.cur.writeLanes f.p f.ty.wide f.vr.toNat act (fun _ => (s.cur.getS f.sr.toNat).toNat) } [])

end Sys2Proof.Machine
end

