-- ==== Sys2Proof/Machine/Control.lean ====
section
/-! DEFINITION. Control transfer (R50, R92 to R94), rejoin masks (R21, R22, R95) and the end of a handler
(R277). -/

namespace Sys2Proof.Machine

/-! ### Transfers -/

/-- The check of a target offset (R50), as the check of an access: 8 is the order after the checks of a table
read. -/
inductive Target where
  | ok (h len : Nat)
  | no (a : LaneAcc)
  deriving DecidableEq, Repr

/-- Check a target offset. DESIGN CHOICE (log 156): a page fault, or a miss, at the header of a target ranks with the page faults of
other lanes' table reads, and so before their permission and poison traps; R93 places the illegal target last, and says nothing of this. -/
def State.target (s : State) (t : Int) : Target :=
  if t < 0 then .no (.trap 8 2 0)
  else
    match s.header s.cur t.toNat with
    | .ok len => .ok t.toNat len
    | .bad => .no (.trap 8 2 0)
    | .trap .. => .no (.trap 8 2 0)
    | .miss va => .no (.miss va)
    | .fault va m => .no (.fault va m)

/-- Transfer the active lanes, each to its target, where every target passes; `s'` is the state in which the
instruction's other effects are done. -/
def transferAll (s s' : State) (act : List Nat) (tgt : Nat → Int) : Res :=
  let ts := act.map (fun l => (l, s.target (tgt l)))
  let rs := ts.map (fun p => (p.1, match p.2 with | .ok .. => LaneAcc.ok ⟨[], 0, false, false, 0⟩ | .no a => a))
  match failed s act (fun l => wrapTo 64 (tgt l)) rs false with
  | some r => r
  | none =>
    .jump { s' with cur := ts.foldl (fun w p => match p.2 with | .ok h len => w.enter [p.1] h len | .no _ => w) s'.cur } act

def execBr (f : FmtJ) (s : State) : Host.Outcome State Fault Refusal :=
  issue (.br f) s (fun _ act s => transferAll s s act (fun _ => (s.at_ : Int) + f.off.toInt))

/-- The body of `call` (R94): the link is the offset of the word after the call. -/
def bodyCall (f : FmtJ) (_ act : List Nat) (s : State) : Res :=
  transferAll s { s with cur := s.cur.writeLanes false false f.reg.toNat act (fun _ => s.at_ + 1) } act
    (fun _ => (s.at_ : Int) + f.off.toInt)

def execCall (f : FmtJ) (s : State) : Host.Outcome State Fault Refusal := issue (.call f) s (bodyCall f)

def execRet (f : FmtJ) (s : State) : Host.Outcome State Fault Refusal :=
  issue (.ret f) s (fun _ act s =>
    transferAll s s act (fun l => ((s.cur.readX false false l f.reg.toNat : Nat) : Int)))

/-- What a table read needs: R, no alignment, no stamp; poison traps under every policy (R93). -/
def needTable : AccNeed := ⟨true, false, false, false, false, false, false, false⟩

/-- The access to the entry of the dispatch table for an index: a load by the lane of that `$tid` (R93, R196). -/
def tableAccess (s : State) (tid i : Nat) : LaneAcc :=
  checkAccess s s.cur false needTable 0 tid (((s.gridOf s.cur).p.table + 4 * i) % 2 ^ 64) 4

/-- The entry of the dispatch table for an index (R93), with the check that failed. An entry that has been written is read
whole, old or new. -/
def tableEntry (s : State) (tid i : Nat) : Except LaneAcc Nat :=
  let g := s.gridOf s.cur
  if g.p.tabLen ≤ i then .error (.trap 0 13 i)
  else
    match tableAccess s tid i with
    | .ok a =>
      if a.locs.any (s.poisonedFor s.cur) then
        .error (.trap 7 9 (if a.pol == 1 then (a.locs.find? (s.poisonedFor s.cur)).getD 0 + 1 else 0))
      else
        let bs := (a.locs.zip (s.wholeBytes a.locs)).map (fun p => (s.cur.ownByte p.1).getD p.2)
        .ok (s.eitherUnit g.id (a.locs.headD 0) 4 (BitVec.ofNat 64 (leNat bs))).toNat
    | a => .error a

/-- The body of `brd` (R93). -/
def bodyBrd (f : FmtJ) (_ act : List Nat) (s : State) : Res :=
  let w := s.cur
  let g := s.gridOf w
  let idx (l : Nat) : Nat := w.readX false false l f.reg.toNat
  let tgt (s : State) (l : Nat) : Int := match tableEntry s (w.lane l).tid (idx l) with | .ok t => (t : Int) | .error _ => -1
  let rs := act.map (fun l => (l, match tableEntry s (w.lane l).tid (idx l) with
    | .error a => a
    | .ok t => (match s.target t with | .ok .. => LaneAcc.ok ⟨[], 0, false, false, 0⟩ | .no a => a)))
  match verdict rs with
  | .trap c ls _ lc =>
    let low := w.lowestTid ls
    let addr := if c == 13 then 0 else if c == 2 then wrapTo 64 (tgt s low) else (g.p.table + 4 * idx low) % 2 ^ 64
    retiring s rs (.trap s ⟨c, ls, addr, if c == 13 then idx low else 0, if c == 13 then g.p.tabLen else 0, lc⟩)
  | .ok =>
    let as := act.map (fun l => (tableAccess s (w.lane l).tid (idx l)).access)
    if taskWaits w as then .wait .oldest s
    else
      let s := (s.sign as).beforeRead (as.any (fun a => a.cls != 3)) true
      transferAll s s act (tgt s)
  | _ => (failed s act (fun l => (g.p.table + 4 * idx l) % 2 ^ 64) rs false).getD (.done s [])

def execBrd (f : FmtJ) (s : State) : Host.Outcome State Fault Refusal := issue (.brd f) s (bodyBrd f)

/-! ### Return from a handler (R277) -/

/-- Lanes that stand at `sret`. -/
def Wave.sretLanes (w : Wave) : List Nat := w.liveLanes.filter (fun l => (w.lane l).st == .sret)

/-- Every unexited lane of the wave stands at one `sret` or is parked, and some lane stands at it. -/
def Wave.atSret (w : Wave) : Bool :=
  match w.sretLanes with
  | [] => false
  | k :: _ => w.liveLanes.all (fun l =>
      match (w.lane l).st with | .sret => (w.lane l).vpc == (w.lane k).vpc | .parked _ => true | _ => false)

/-- The translations that a return from a trap needs and the TLB does not hold: of the record, and of the words at the positions
that it gives (R205, R277). -/
def State.returnMisses (s : State) (w : Wave) : List Nat :=
  match s.recordAccess w false with
  | .miss va => [va]
  | _ =>
    let u := { w with tm := false }
    w.liveLanes.filterMap (fun l => match s.fetch u (s.recordPos w l) with | .miss va => some va | _ => none)

/-- The double trap of a return to a position that is an illegal target (R277). -/
def illegalReturn (ls : List Nat) (pos : Nat) : TrapReq := { trapOf 2 ls with addr := pos }

/-- A return for which translations are missing: they are asked for, and `sret` issues again (R205). -/
def State.sretAgain (s : State) (vas : List Nat) : State :=
  let g := s.gridOf s.cur
  let s := s.postMisses s.cur.core g.ctx.asid g.ctx.root vas
  { s with cur := s.cur.modLanes s.cur.sretLanes (fun x => { x with st := .run }) }

/-- Once every unexited lane stands at `sret` or is parked, the wave returns, when the translations that it needs are there; a saved
position outside the segment, or in a block that cannot be entered, is a double trap. -/
def State.sretCheck (s : State) : State :=
  if s.cur.tm && s.cur.atSret then
    match s.returnMisses s.cur with
    | va :: vas => s.sretAgain (va :: vas)
    | [] =>
      match s.returnPositions s.cur with
      | .ok ps => s.returnFromTrap ps
      | .error pos =>
        let ls := s.cur.sretLanes
        let v := match ls with | l :: _ => (s.cur.lane l).vpc | [] => 0
        s.takeTrap ((illegalReturn ls pos).info v 0xE378000000000000)
  else s

/-! ### Rejoin masks (R21, R22, R95) -/

/-- The completion check on a mask: where every expected lane has arrived, the parked lanes retire. -/
def State.rejoinCheck (s : State) (k : Nat) : State :=
  let w := s.cur
  let j := w.rejoin.getD k Rejoin.zero
  if j.armed && j.e &&& ~~~j.a == 0 then
    let ls := w.idx.filter (fun l => (w.lane l).st == .parked k)
    let w1 := s.wake { w with rejoin := w.rejoin.set k Rejoin.zero } ls
    { s with cur := if w.spec == 0 then s.stepAfterWait w w1 ls else w1 }
  else s

/-- Arm a mask with a lane set. -/
def State.arm (s : State) (k : Nat) (m : BitVec 64) : State :=
  let w := s.cur
  let j := w.rejoin.getD k Rejoin.zero
  let s := { s with cur := { w with rejoin := w.rejoin.set k { j with armed := true, e := m &&& maskOf w.liveLanes } } }
  s.rejoinCheck k

def execJoin (f : FmtJ) (s : State) : Host.Outcome State Fault Refusal :=
  issue (.join f) s (fun _ _ s => .done (s.arm f.k.toNat (s.cur.getS f.reg.toNat)) [])

def execJoinAct (f : FmtJ) (s : State) : Host.Outcome State Fault Refusal :=
  issue (.joinAct f) s (fun _ act s => .done (s.arm f.k.toNat (maskOf act)) [])

/-- Every unexited lane is parked on a rejoin mask (R22). -/
def Wave.deadlocked (w : Wave) : Bool :=
  !w.liveLanes.isEmpty && w.liveLanes.all (fun l => match (w.lane l).st with | .parked _ => true | _ => false)

/-- Bit k: lanes park on mask k. -/
def Wave.parkMask (w : Wave) : Nat :=
  ((List.range 8).filter (fun k => w.liveLanes.any (fun l => (w.lane l).st == .parked k))).foldl (fun n k => n + 2 ^ k) 0

/-- The rejoin-deadlock trap of every parked lane. -/
def Wave.deadlockTrap (w : Wave) : TrapReq := ⟨10, w.liveLanes, 0, w.parkMask, 0, []⟩

/-- The body of `wait`. -/
def bodyWait (f : FmtJ) (iss act : List Nat) (s : State) : Res :=
  let w := s.cur
  let k := f.k.toNat
  let j := w.rejoin.getD k Rejoin.zero
  if !j.armed then .done s []
  else
    let w := { w with rejoin := w.rejoin.set k { j with a := j.a ||| maskOf act } }
    let s := { s with cur := w.rest iss act (.parked k) }
    let s := s.rejoinCheck k
    if s.cur.deadlocked then .trap s s.cur.deadlockTrap else .done s.sretCheck act

def execWait (f : FmtJ) (s : State) : Host.Outcome State Fault Refusal := issue (.wait f) s (bodyWait f)

end Sys2Proof.Machine
end

