-- ==== Sys2Proof/Machine/Mem.lean ====
section
/-! DEFINITION. Plain loads and stores (R97 to R103) and the return of load data (R31). A load reads its bytes at
issue, or later while no access that follows has been performed (R227); a class 3 load reads them when it returns (R233). -/

namespace Sys2Proof.Machine

/-- Sizes of the register parts of an access of `n` bytes: one register for up to 4 bytes, else 4 each. -/
def partsOf (n : Nat) : List (Nat × Nat × Nat) :=
  if n ≤ 4 then [(0, 0, n)] else (List.range (n / 4)).map (fun k => (k, 4 * k, 4))

/-- Where the bytes of a load are read: those of class 3 by the return, but for those that the wave's own store supplies. -/
def loadSrc (w : Wave) (a : Access) (locs : List Nat) : PSrc :=
  { locs := locs, late := a.cls == 3, zero := a.pol == 2,
    got := if a.cls == 3 then locs.filterMap (fun l => (w.ownByte l).map (fun b => (l, b))) else [] }

/-- One register part of a load in a lane. -/
def loadPart (s : State) (w : Wave) (a : Access) (lane reg off n : Nat) : PElem :=
  let locs := (a.locs.drop off).take n
  { lane := lane, reg := reg, val := BitVec.ofNat 32 (leNat (s.loadBytes w { a with locs := locs })), src := loadSrc w a locs }

/-- The bytes come from a held store whose value is unknown (R210). -/
def heldUnknown (w : Wave) (locs : List Nat) : Bool :=
  locs.any (fun loc =>
    w.hold.foldl (fun r h => if (lastByte h.bytes loc).isSome then h.unk else r) false)

/-- The load reads bytes on the main path. -/
def Pend.readsMain (p : Pend) : Bool :=
  let main (x : PSrc) : Bool := !x.late && !x.locs.isEmpty
  p.elems.any (fun e => main e.src) || (match p.scalar with | some (_, _, x) => main x | none => false)

/-- Accept a producer that writes elements of the listed lanes: its registers become empty (R31), and signatures whose
fragments they hold are broken (R165). In a page-fault run-ahead it returns at once. -/
def State.addPend (s : State) (p : Pend) (ls : List Nat) : State :=
  let w := ls.foldl (fun (w : Wave) l => w.watched l p.regs) s.cur
  if w.spec == 1 then { s with cur := s.returnElems w p }
  else
    { s with cur := { w with pend := w.pend ++ [{ p with id := w.nextPend, spec := w.spec != 0, moves := p.readsMain,
                                                         before := w.pw.length }],
                             nextPend := w.nextPend + 1,
                             vEmpty := p.regs.foldl insNat w.vEmpty,
                             sEmpty := match p.scalar with | some (r, _) => insNat w.sEmpty r | none => w.sEmpty } }

/-- A producer of vector elements. -/
def vecPend (elems : List PElem) (regs : List Nat) (fabric : Bool) : Pend :=
  { id := 0, scalar := none, elems := elems, regs := regs, spec := false, fabric := fabric, moves := false, before := 0, counted := false }
/-- A producer of a scalar register. -/
def scalarPend (r : Nat) (v : Word64) (src : PSrc) : Pend :=
  { id := 0, scalar := some (r, v, src), elems := [], regs := [], spec := false, fabric := false, moves := false, before := 0,
    counted := false }

/-- What an access has read by its issue: nothing of class 3, where a poisoned byte is counted when it is read (R214, R233). -/
def Access.atIssue (a : Access) : Access := if a.cls == 3 then { a with zero := false } else a

/-- An access of the walker routine: the address is physical, and carries no stamp (R205). DESIGN CHOICE (log 136): there is no page to
give a policy, so a poisoned granule meets poison policy 0, and a reserved address takes the protection trap. -/
def walkerAccess (s : State) (need : AccNeed) (ea n : Nat) : LaneAcc :=
  if ea % n != 0 then .trap 1 5 0
  else if !physValid ea then .trap 4 7 0
  else poisonCheck s s.cur need false ⟨(List.range n).map (fun k => ea + k), 0, false, false, 0⟩

/-- The accesses of several lanes, each of `n` bytes, as they come out of the checks. -/
def laneAccesses (s : State) (need : AccNeed) (space n : Nat) (act : List Nat) (ea : Nat → Nat) : List (Nat × LaneAcc) :=
  act.map (fun l => (l,
    if s.cur.walker && need == needLoad then walkerAccess s need (ea l) n
    else checkAccess s s.cur false need space (s.cur.lane l).tid (ea l) n))

/-- The accesses that passed. -/
def passedOf (rs : List (Nat × LaneAcc)) : List (Nat × Access) := rs.map (fun r => (r.1, r.2.access))

/-- The body of `ld`. -/
def bodyLd (f : FmtM) (_ act : List Nat) (s : State) : Res :=
  let w := s.cur
  let rs := laneAccesses s needLoad f.space.toNat (accBytes f) act (w.effAddr f)
  match failed s act (w.effAddr f) rs false with
  | some r => retiring s rs r
  | none =>
    let as := passedOf rs
    if taskWaits w (as.map Prod.snd) then .wait .oldest s
    else
      let s := s.beforeRead (as.any (fun a => a.2.cls != 3)) false
      let elems := as.flatMap (fun a => (partsOf (accBytes f)).map (fun p => loadPart s s.cur a.2 a.1 (f.rd.toNat + p.1) p.2.1 p.2.2))
      let read := as.map (fun a => a.2.atIssue)
      let s := (s.countAccess read).sign (as.map Prod.snd)
      let s := s.addPend { vecPend elems ((List.range (dataRegs f)).map (fun k => f.rd.toNat + k)) false with
                           counted := read.any Access.zero } act
      let bad := (as.filter (fun a => s.cur.spec == 1 && heldUnknown s.cur a.2.locs)).map Prod.fst
      .done { s with cur := s.cur.modLanes bad (fun x => { x with unk := insNat x.unk 1024 }) } []

def execLd (f : FmtM) (s : State) : Host.Outcome State Fault Refusal := issue (.ld f) s (bodyLd f)

/-- Bytes of a store with the last value of each location. -/
def lastBytes (bs : List (Nat × Byte)) : List (Nat × Byte) :=
  match bs with
  | [] => []
  | b :: r => if r.any (fun c => c.1 == b.1) then lastBytes r else b :: lastBytes r

/-- Queue a store of several lanes: bytes of class 3 apart (R233), bytes unknown to a run-ahead apart. -/
def State.storeAll (s : State) (as : List (Nat × Access)) (bytes : Nat → List Byte) (unk : Nat → Bool) : State :=
  let part (fb u : Bool) : List (Nat × Byte) :=
    lastBytes ((as.filter (fun a => (a.2.cls == 3) == fb && unk a.1 == u)).flatMap (fun a => a.2.locs.zip (bytes a.1)))
  let w := ((s.cur.queueStore (part false false) false).queueStore (part true false) true)
  let ub := part false true ++ part true true
  { s with cur := if w.spec == 1 && !ub.isEmpty then { w with hold := w.hold ++ [{ bytes := ub, fb := false, unk := true }] } else w }

/-- The bytes that a lane stores: the low bytes, the register, or the pair or quad. -/
def storeBytes (w : Wave) (f : FmtM) (l : Nat) : List Byte :=
  ((List.range (dataRegs f)).flatMap (fun k => leBytes 4 (w.readV false l (f.rd.toNat + k)).toNat)).take (accBytes f)

/-- The body of `st`. Lanes store in ascending `$tid`, so the highest wins a byte (R100). -/
def bodySt (f : FmtM) (_ act : List Nat) (s : State) : Res :=
  let w := s.cur
  let rs := laneAccesses s needStore f.space.toNat (accBytes f) (w.byTid act) (w.effAddr f)
  match failed s act (w.effAddr f) rs false with
  | some r => r
  | none =>
    let as := passedOf rs
    if !s.holdRoom (as.flatMap (fun a => a.2.locs)) then .wait (specWhy w.spec) s
    else
      let s := s.countAccess (as.map Prod.snd)
      .done (s.storeAll as (storeBytes w f) (fun l =>
        w.spec == 1 && (srcUnknown w [vs f.rd.toNat (dataRegs f) false] l || guardUnknown w (.st f) l))) []

def execSt (f : FmtM) (s : State) : Host.Outcome State Fault Refusal := issue (.st f) s (bodySt f)

/-- The body of `sld`: one access, by the active lane with the lowest `$tid` where it is the stack (R101). -/
def bodySld (f : FmtM) (_ act : List Nat) (s : State) : Res :=
  let w := s.cur
  let l := w.lowestTid act
  let rs := laneAccesses s needLoad f.space.toNat (accBytes f) [l] (w.effAddr f)
  match failed s act (w.effAddr f) rs true with
  | some r => retiring s rs r
  | none =>
    let as := (passedOf rs).map Prod.snd
    if taskWaits w as then .wait .oldest s
    else
      let s := s.beforeRead (as.any (fun a => a.cls != 3)) false
      let a := as.headD ⟨[], 0, false, false, 0⟩
      let v := BitVec.ofNat 64 (leNat (s.loadBytes s.cur a))
      let s := (s.countAccess [a.atIssue]).sign as
      let s := if s.cur.spec == 1 then { s with cur := s.cur.setS f.rd.toNat v }
        else s.addPend { scalarPend f.rd.toNat v (loadSrc s.cur a a.locs) with counted := a.atIssue.zero } []
      .done { s with cur := if s.cur.spec == 1 && heldUnknown s.cur a.locs then
                s.cur.modLanes act (fun x => { x with unk := insNat x.unk 1024 }) else s.cur } []

def execSld (f : FmtM) (s : State) : Host.Outcome State Fault Refusal := issue (.sld f) s (bodySld f)

/-- The body of `sst`. -/
def bodySst (f : FmtM) (_ act : List Nat) (s : State) : Res :=
  let w := s.cur
  let l := w.lowestTid act
  let rs := laneAccesses s needStore f.space.toNat (accBytes f) [l] (w.effAddr f)
  match failed s act (w.effAddr f) rs true with
  | some r => r
  | none =>
    let as := passedOf rs
    if !s.holdRoom (as.flatMap (fun a => a.2.locs)) then .wait (specWhy w.spec) s
    else
      let s := s.countAccess (as.map Prod.snd)
      .done (s.storeAll as (fun _ => leBytes (accBytes f) (w.getS f.rd.toNat).toNat)
        (fun _ => w.spec == 1 && (w.unkS.contains f.rd.toNat || act.any (guardUnknown w (.sst f))))) []

def execSst (f : FmtM) (s : State) : Host.Outcome State Fault Refusal := issue (.sst f) s (bodySst f)

/-- The generic address that `lda` writes (R102). -/
def ldaVal (space ea : Nat) : Nat :=
  match space with
  | 1 => (0xFFFFFF0000000000 + ea) % 2 ^ 64
  | 2 => (0xFFFFFE0000000000 + ea) % 2 ^ 64
  | _ => ea

def execLda (f : FmtM) (s : State) : Host.Outcome State Fault Refusal :=
  issue (.lda f) s (fun _ act s =>
    .done { s with cur := s.cur.writeLanes false true f.rd.toNat act (fun l => ldaVal f.space.toNat (s.cur.effAddr f l)) } [])

/-- `pf` changes no architectural state (R103). -/
def execPf (f : FmtM) (s : State) : Host.Outcome State Fault Refusal := issue (.pf f) s (fun _ _ s => .done s [])

/-- LOAD DATA RETURN: the `k`-th pending load of a wave writes its registers (R31). -/
def execLoadDataReturn (key : WKey) (k : Nat) (s : State) : Host.Outcome State Fault Refusal :=
  .next (match s.findWave key with
    | some w =>
      match w.pend[k]? with
      | some p => if s.behindOwn w p.lateLocs (fun o => o.loads ≤ p.id) then s else s.setWave (s.returnPend w p.id)
      | none => s
    | none => s)

end Sys2Proof.Machine
end

