-- ==== Sys2Proof/Machine/Alloc.lean ====
section
/-! DEFINITION. Register allotment (R26 to R29, R104, R105), the reordering of threads (R38 to R41), the override
of the issue rule (R20) and the grant of issue slots (R24, R25). -/

namespace Sys2Proof.Machine

/-! ### grow and shrink -/

/-- A group's units at the width of the wave (R26). -/
def groupUnits (w : Wave) (n : Nat) : Nat := n * unitsPerGroup w.width

/-- Add groups: the new registers are full and zero (R29). -/
def Wave.allot (w : Wave) (n : Nat) : Wave := { w with alloc := w.alloc + 64 * n }

/-- The body of `grow`. A blocked wave lines up at its core and is served in order (R105). -/
def bodyGrow (f : FmtGrow) (_ act : List Nat) (s : State) : Res :=
  let w := s.cur
  let n := f.n.toNat
  let c := s.coreAt w.core
  let fits := groupUnits w n ≤ s.unitsFree w.core
  let alone := match c.growQ with | [] => true | k :: _ => k == w.key
  if 1024 < w.alloc + 64 * n then .trap s (trapOf 3 act)
  else if f.try_ then
    if fits then .done { s with cur := (w.allot n).writePreds f.pd.toNat act (fun _ => true) } []
    else .done { s with cur := w.writePreds f.pd.toNat act (fun _ => false) } []
  else if fits && alone then
    let s := s.setCore w.core { c with growQ := c.growQ.filter (· != w.key) }
    .done { s with cur := s.cur.allot n } []
  else
    .wait .growing (s.setCore w.core { c with growQ := if c.growQ.contains w.key then c.growQ else c.growQ ++ [w.key] })

def execGrow (f : FmtGrow) (s : State) : Host.Outcome State Fault Refusal := issue (.grow f) s (bodyGrow f)

/-- The instruction at which a wave stands. -/
def State.standsAt (s : State) (w : Wave) : Option Instr :=
  match w.issuePc with
  | none => none
  | some v => match s.fetchNow w v with | .word x => decode x | _ => none

/-- GROW UNITS FREED: the first blocked `grow` of a core issues again. -/
def execGrowUnitsFreed (core : Nat) (s : State) : Host.Outcome State Fault Refusal :=
  .next (match (s.coreAt core).growQ with
    | [] => s
    | k :: _ =>
      match s.findWave k with
      | none => s
      | some w =>
        match s.standsAt w with
        | some (.grow f) => s.withWave k (fun s => issueState (.grow f) s (bodyGrow f))
        | _ => let c := s.coreAt core; s.setCore core { c with growQ := c.growQ.drop 1 })

/-- Drop the registers at or above a number (R29). -/
def Wave.dropFrom (w : Wave) (n : Nat) : Wave :=
  { w with alloc := n, regErr := w.regErr.filter (fun e => e.2 < n),
           lanes := w.lanes.map (fun x => { x with v := x.v.filter (fun e => e.1 < n), old := x.old.filter (fun e => e.1 < n) }) }

/-- The body of `shrink`. -/
def bodyShrink (f : FmtGrow) (_ act : List Nat) (s : State) : Res :=
  let w := s.cur
  let n := f.n.toNat
  if w.alloc < 64 + 64 * n then .trap s (trapOf 3 act)
  else
    let new := w.alloc - 64 * n
    if w.lanes.any (fun x => x.written.any (fun i => new ≤ w.pbase + i)) then .trap s (illegal act)
    else if w.vEmpty.any (fun r => new ≤ r) then .wait .regs s
    else .done { s with cur := w.dropFrom new } []

def execShrink (f : FmtGrow) (s : State) : Host.Outcome State Fault Refusal := issue (.shrink f) s (bodyShrink f)

/-! ### sortk -/

/-- A thread of a team in the sort: key, wave, lane, and what moves with it. -/
structure SortThread where
  key : Nat
  live : Bool
  lane : Lane
  deriving DecidableEq, Repr

/-- Waves of a team by wave index. -/
def State.teamSorted (s : State) (grid team : Nat) : List Wave :=
  sortBy (fun a b => a.key.wave ≤ b.key.wave) (s.teamWaves grid team)

/-- The threads of a team in their new order (R39). -/
def sortThreads (f : FmtSort) (ws : List Wave) : List SortThread :=
  let all := ws.flatMap (fun w => w.lanes.map (fun x =>
    ({ key := (x.getV f.va.toNat).toNat, live := x.live, lane := x } : SortThread)))
  let before (a b : SortThread) : Bool :=
    if a.key = b.key then a.lane.tid ≤ b.lane.tid else if f.desc then b.key < a.key else a.key < b.key
  sortBy before (all.filter SortThread.live) ++
    sortBy (fun a b => a.lane.tid ≤ b.lane.tid) (all.filter (fun t => !t.live))

/-- The lane at a position after the move: the thread's own state and named groups; every other register is
unpredictable (R39). `n` numbers the position in the team. -/
def placeThread (f : FmtSort) (alloc ctr n : Nat) (old : Lane) (t : SortThread) : Lane :=
  let others := (List.range alloc).filter (fun r => !tbit f.mask (r / 64))
  let moved := t.lane.v.filter (fun e => tbit f.mask (e.1 / 64))
  { old with
    tid := t.lane.tid, p := t.lane.p, flags := t.lane.flags, draws := t.lane.draws, accepted := t.lane.accepted,
    proposed := t.lane.proposed, arr := t.lane.arr,
    old := t.lane.old.filter (fun e => tbit f.mask (e.1 / 64)), st := if t.live then .run else .exited,
    v := others.foldl (fun v r => mputD 0 v r (BitVec.ofNat 32 (Config.free ctr (1024 * n + r)).toNat)) moved }

/-- Fragments that a `sortk` has made unpredictable (R179); `n` numbers the fragment set. -/
def Frag.sorted (ctr n : Nat) (x : Frag) : Frag :=
  let wild (h : Nat) (es : List Elem) : List Elem :=
    (List.range es.length).map (fun k => BitVec.ofNat 32 (Config.free ctr (2 ^ 24 * (n + 1) + 2 ^ 12 * x.tid + 2 ^ 11 * h + k)).toNat)
  { x with a := wild 0 x.a, b := wild 1 x.b, alt := [], late := [] }

/-- The fragments of the team's signatures, and of operations that have not completed, after a `sortk` (R179). -/
def State.sortFrags (s : State) (grid team : Nat) : State :=
  let t := s.teamAt grid team
  let c := s.coreAt t.core
  let cv (k : Nat) (x : Cv) : Cv := { x with frags := x.frags.map (Frag.sorted s.freeCtr k) }
  let entry (k : Nat) (e : EngEntry) : EngEntry :=
    match e.op with
    | .mma f scr h cv gen n b frags kp part op =>
      if e.who.grid == grid && e.who.team == team then
        { e with op := .mma f scr h cv gen n b (frags.map (Frag.sorted s.freeCtr (8 + k))) kp part op }
      else e
    | _ => e
  (s.setTeam { t with cv := (t.cv.zip (List.range 8)).map (fun p => cv p.2 p.1) }).setCore t.core
    { c with engine := (c.engine.zip (List.range c.engine.length)).map (fun p => entry p.2 p.1) }

/-- A request of the fabric whose destination the move has filled: its response writes no register (R39). -/
def FabOut.filled (gone : Nat → Bool) (o : FabOut) : FabOut := { o with pend := o.pend.filter (fun p => !gone p) }

/-- The move fills the registers of a wave that are not kept: what was still to write one of them writes it no more, be it a load,
a drain, a request of the fabric or a copy of the wave's own (R33, R39). No register that is kept has a pending producer. -/
def Wave.fillOthers (w : Wave) (keep : Nat → Bool) : Wave :=
  let pend := w.pend.map (fun p => { p with elems := p.elems.filter (fun e => keep e.reg), regs := p.regs.filter keep })
  let gone (n : Nat) : Bool := w.pend.any (fun p => p.id == n && !p.regs.isEmpty && !p.regs.any keep)
  let others := (List.range w.alloc).filter (fun r => !keep r)
  { w with vEmpty := w.vEmpty.filter keep, regErr := w.regErr.filter (fun e => keep e.2),
           pend := pend.filter (fun p => !gone p.id || p.scalar.isSome),
           fab := w.fab.map (FabOut.filled gone), fabFail := w.fabFail.map (fun x => { x with out := x.out.filled gone }),
           copies := w.copies.map (fun c => c.map (fun x =>
             if x.regDst.isEmpty then x
             else { x with dropped := (others.foldl insNat x.dropped), regDst := x.regDst.filter keep })) }

/-- Move the threads of a team (R39). Every wave continues after the `sortk`. A wave whose lanes had all exited stays on its core
and takes up the live threads that the order places in it (log 131). -/
def State.sortMove (s : State) (f : FmtSort) (grid team : Nat) : State :=
  let ws := s.teamSorted grid team
  let order := sortThreads f ws
  let wct := ws.foldl (fun m w => max m w.wct) 0
  let watch := (ws.flatMap (fun w => w.watch)).eraseDups
  let vpc := match ws.flatMap (fun w => w.lanes.filter (fun x => x.st == .sort)) with
    | x :: _ => (x.vpc, x.blk, x.blkEnd) | [] => (0, 0, 0)
  let ctr := s.freeCtr
  let place (s : State) (w : Wave) : State :=
    let base := w.key.wave * w.width
    let lanes := w.idx.map (fun l =>
      match order[base + l]? with
      | some t => placeThread f w.alloc ctr (base + l) { w.lane l with vpc := vpc.1, blk := vpc.2.1, blkEnd := vpc.2.2 } t
      | none => w.lane l)
    let w1 := { w.fillOthers (fun r => tbit f.mask (r / 64)) with
                lanes := lanes, rejoin := List.replicate 8 Rejoin.zero, wct := wct, watch := watch, counts := [], ovr := [],
                wgrp := w.wgrp ||| f.mask }
    let ls := w1.liveLanes
    let w2 := s.advance w1 ls
    s.setWave { (if w.step && !w.tm && !ls.isEmpty then w2.stepHeld ((trapOf 20 ls).info vpc.1 (encode (.sortk f))) else w2) with
      why := .none }
  (ws.foldl place (s.sortFrags grid team)).freeNext

/-- Every unexited thread of a team has arrived, at the same `sortk` (R40). -/
def State.sortReady (s : State) (grid team : Nat) : Bool :=
  let ws := s.teamWaves grid team
  ws.all (fun w => w.liveLanes.all (fun l => (w.lane l).st == .sort)) &&
  ((ws.flatMap (fun w => (w.lanes.filter (fun x => x.st == .sort)).map (fun x => x.vpc))).eraseDups).length == 1

/-- No producer into a register of the named groups is pending in the team (R39). -/
def State.sortQuiet (s : State) (f : FmtSort) (grid team : Nat) : Bool :=
  (s.teamWaves grid team).all (fun w => !w.vEmpty.any (fun r => tbit f.mask (r / 64)))

/-- The body of `sortk`: the lanes arrive; the last arrival moves the threads, once the pending producers into registers of the
named groups have written. -/
def bodySortk (f : FmtSort) (iss act : List Nat) (s : State) : Res :=
  let w := s.cur
  if w.lanes.any (fun x => !x.written.isEmpty) then .trap s (illegal act)
  else if w.vEmpty.any (fun r => tbit f.mask (r / 64)) then .wait .regs s
  else
    let s := { s with cur := w.rest iss act .sort }
    if s.sortReady w.key.grid w.key.team && s.sortQuiet f w.key.grid w.key.team then
      .done (s.sortMove f w.key.grid w.key.team) s.cur.idx
    else .done s act

def execSortk (f : FmtSort) (s : State) : Host.Outcome State Fault Refusal := issue (.sortk f) s (bodySortk f)

/-- After lanes have exited, or a producer has written, a `sortk` may be complete (R39, R40). -/
def State.sortCheck (s : State) (grid team : Nat) : State :=
  match (s.teamWaves grid team).filter (fun w => w.lanes.any (fun x => x.st == .sort)) with
  | [] => s
  | w :: _ =>
    if s.sortReady grid team then
      let v := match w.lanes.filter (fun x => x.st == .sort) with | x :: _ => x.vpc | [] => 0
      match s.fetchNow w v with
      | .word x =>
        (match decode x with
         | some (.sortk f) => if s.sortQuiet f grid team then s.sortMove f grid team else s
         | _ => s)
      | _ => s
    else s

/-! ### The override and the slots -/

/-- The value whose count has reached the bound: the largest count, the lower value between equals (R20). -/
def Wave.overdue (w : Wave) : Option Nat :=
  let due := (w.readyPcs.filter (fun v => Config.overrideBound ≤ mgetD w.counts v 0))
  match due with
  | [] => none
  | v :: r => some (r.foldl (fun b u => if mgetD w.counts b 0 < mgetD w.counts u 0 then u else b) v)

/-- ISSUE OVERRIDE: the lanes at the overdue value issue until each has left its block (R20). -/
def execIssueOverride (s : State) : Host.Outcome State Fault Refusal :=
  .next (match s.cur.overdue with
    | some v => { s with cur := { s.cur with ovr := s.cur.ready.filter (fun l => (s.cur.lane l).vpc == v) } }
    | none => s)

/-- ISSUE SLOT GRANT: the first able wave of a core receives a free issue slot (R25). -/
def execIssueSlotGrant (core : Nat) (s : State) : Host.Outcome State Fault Refusal :=
  .next (
    let c := s.coreAt core
    match c.ableQ with
    | [] => s
    | k :: r =>
      match s.findWave k with
      | none => s.setCore core { c with ableQ := r }
      | some w =>
        if !w.able then s.setCore core { c with ableQ := r }
        else if s.slotsHeld core < Config.slotsPerCore then (s.setCore core { c with ableQ := r }).setWave { w with slot := true }
        else s)

end Sys2Proof.Machine
end

