-- ==== Sys2Proof/Machine/Atomic.lean ====
section
/-! DEFINITION. Release, acquire and scope (R228, R229), `fence` (R231), atomics (R234 to R236), the monitor (R239,
R240) and the acknowledgement of writes (R225). -/

namespace Sys2Proof.Machine

/-- The current wave passes a release before the release point. To the agents that the scope includes its earlier writes are visible
before an acquire of theirs; to the others nothing but R227 orders them (R229, log 149). -/
def State.passLoose (s : State) (scope : Nat) : State :=
  { s with cur := { s.cur with loose := false, opens := s.cur.opens ++ [(scope, s.cur.pw.length)] } }

/-- A RELEASE AND AN ACQUIRE as far as they go now: at scope `.pod` (5) both have the effect of `ffence`, with which a release
begins; a release then waits for the release point, unless the schedule lets it pass (R228, R229). Scope 6 stands for a release
that no scope leaves an agent out of. -/
def State.order (s : State) (rel : Bool) (scope : Nat) : FenceRes :=
  match (if scope == 5 then s.fenceStep none else .ready s) with
  | .ready s =>
    if !rel || s.released s.cur then .ready s
    else if s.cur.loose && scope < 6 then .ready (s.passLoose scope)
    else .waiting s
  | r => r

/-- THE COUNT-MISMATCH TRAP of the lanes (R319). -/
def mismatchTrap (act : List Nat) (d sent received num : Nat) : TrapReq :=
  ⟨15, act, mismatchAddr d, mismatchA sent received, mismatchB d num, []⟩

/-- Continue once a release or an acquire is done; else wait, or take the count-mismatch trap. -/
def ordered (s : State) (rel : Bool) (scope : Nat) (act : List Nat) (k : State → Res) : Res :=
  match s.order rel scope with
  | .ready s => k s
  | .waiting s => .wait (if rel && !s.released s.cur then .release else .reply) s
  | .mismatch s d sent received num => .trap s (mismatchTrap act d sent received num)

/-- An acquire at `.pod` ends with the effect of `ffence`, its faults included (R229), and an instruction that traps has had no effect in
any lane (R236, R271): an atomic with such an acquire is performed once that effect can be had with no wait and no trap (log 40). -/
def podFirst (s : State) (acq : Bool) (scope : Nat) (act : List Nat) (k : Res) : Res :=
  match (if acq && scope == 5 then s.fenceStep none else .ready s) with
  | .ready _ => k
  | .waiting s => .wait .reply s
  | .mismatch s d sent received num => .trap s (mismatchTrap act d sent received num)

def execFence (f : FmtFence) (s : State) : Host.Outcome State Fault Refusal :=
  issue (.fence f) s (fun _ act s => ordered s (2 ≤ f.order.toNat) f.scope.toNat act (fun s => .done s []))

/-! ### Atomics -/

/-- The effective address of an atomic in a lane. -/
def Wave.atomAddr (w : Wave) (f : FmtAtom) (l : Nat) : Nat := w.baseAddr f.scalar f.base l
def atomSize (f : FmtAtom) : Nat := if f.wide then 8 else 4
/-- The operand, and for `.cas` the new value (R235). -/
def Wave.atomVal (w : Wave) (f : FmtAtom) (l : Nat) : Nat := w.readX false f.wide l f.vb.toNat
def Wave.atomVal2 (w : Wave) (f : FmtAtom) (l : Nat) : Nat :=
  if f.op.toNat == 9 then w.readX false f.wide l (f.vb.toNat + if f.wide then 2 else 1) else 0

/-- The non-deterministic-operation trap: float `.add` of `atom` and `red`, and the float forms of `fatom` (R286). -/
def nonDet (s : State) (f : FmtAtom) (fabric : Bool) : Bool :=
  (f.op.toNat == 0x10 || (fabric && 0x10 ≤ f.op.toNat)) && 1 ≤ (s.gridOf s.cur).det && s.cur.task.isNone

/-- One lane's read-modify-write at one instant. -/
def State.atomOne (s : State) (f : FmtAtom) (l : Nat) (a : Access) : State × Nat :=
  let s := s.landEarlier a.locs
  let old := leNat (a.locs.map (fun x => Memory.read s.mem x))
  let new := atomicNew s.contract f.op.toNat f.wide old (s.cur.atomVal f l) (s.cur.atomVal2 f l)
  let s := s.makeVisible (a.locs.zip (leBytes a.locs.length new))
  ({ s with cur := s.cur.foldTime s.gtc }, old)

/-- The lanes' operations in ascending `$tid`, and the old value that each returns. -/
def State.atomAll (s : State) (f : FmtAtom) (as : List (Nat × Access)) : State × List (Nat × Nat) :=
  as.foldl (fun r a => let (s, old) := r.1.atomOne f a.1 a.2; (s, r.2 ++ [(a.1, old)])) (s, [])

/-- The checks of `atom` and `red`, among them that of an acquire at `.pod`, and the release with which they begin (R236). -/
def atomBody (f : FmtAtom) (major : Nat) (act : List Nat) (s : State) (k : List (Nat × Access) → State → Res) : Res :=
  let w := s.cur
  if nonDet s f false then .trap s ⟨18, act, 0, major, f.op.toNat, []⟩
  else
    let rs := laneAccesses s needAtom 0 (atomSize f) (w.byTid act) (w.atomAddr f)
    match failed s act (w.atomAddr f) rs false with
    | some r => retiring s rs r
    | none =>
      let as := passedOf rs
      let rel := 2 ≤ f.order.toNat
      podFirst s (f.order.toNat % 2 == 1) f.scope.toNat act
        (ordered s rel (if rel then f.scope.toNat else 0) act (fun s => k as s))

/-- The locations at which an atomic is performed, kept with the lanes that are left: for lane `l` its first byte under 64 + l, and the
fifth under 128 + l. -/
def atomLocs (as : List (Nat × Access)) : List (Nat × Nat) :=
  as.flatMap (fun a => [(64 + a.1, a.2.locs.getD 0 0), (128 + a.1, a.2.locs.getD 4 0)])
def keptAccess (f : FmtAtom) (kept : List (Nat × Nat)) (l : Nat) : Access :=
  let part (k : Nat) : List Nat := (List.range 4).map (fun j => ((kept.find? (fun p => p.1 == k + l)).map Prod.snd).getD 0 + j)
  ⟨part 64 ++ (if f.wide then part 128 else []), 0, false, false, 0⟩

/-- Lanes of an atomic that come before others: of the lanes that name one location, those of lower `$tid` (R236). -/
def Wave.withLower (w : Wave) (as : List (Nat × Access)) (now : List Nat) : List (Nat × Access) :=
  as.filter (fun a => now.contains a.1 ||
    as.any (fun b => now.contains b.1 && (w.lane a.1).tid < (w.lane b.1).tid && a.2.locs == b.2.locs))

/-- The lanes in which an instruction that is performed lane by lane is performed now: all that remain, or those that the
schedule names. -/
def State.nowOf (s : State) (ls : List Nat) : List Nat :=
  match s.lanesNow with
  | some now => if ls.any now.contains then ls.filter now.contains else ls
  | none => ls

/-- The end of `atom`: the acquire, which ends with the effect of `ffence` at `.pod`, and the results. Lanes that have come to the
instruction since it was issued stay at it. -/
def atomEnd (f : FmtAtom) (act : List Nat) (s : State) (done : List (Nat × Nat)) : Res :=
  let acq := f.order.toNat % 2 == 1
  let old := done.filter (fun p => act.contains p.1)
  ordered s false (if acq then f.scope.toNat else 0) act (fun s =>
    .done { s with cur := old.foldl (fun w p => w.writeX false f.wide p.1 f.vd.toNat p.2) s.cur }
      (act.filter (fun l => done.all (fun p => p.1 != l))))

/-- The atomic is performed in the lanes whose turn it is, of those that are left; `before` are the lanes that it has been performed
in, and the locations of those that were left. -/
def atomLanes (f : FmtAtom) (act : List Nat) (before : List (Nat × Nat)) (as : List (Nat × Access)) (s : State) : Res :=
  let now := s.cur.withLower as (s.nowOf (as.map Prod.fst))
  let left := as.filter (fun a => !now.contains a)
  let (s, olds) := s.atomAll f now
  let done := before.filter (fun p => p.1 < 64) ++ olds
  let s := s.progressed (done ++ atomLocs left)
  if left.isEmpty then atomEnd f act s done else .wait .none s

/-- The body of `atom`: every lane is checked before it is performed in any, and it is performed in each lane once, and traps in none
after that (R236, R271). -/
def bodyAtom (f : FmtAtom) (_ act : List Nat) (s : State) : Res :=
  let before := s.progress
  if before.isEmpty then
    atomBody f 0x80 act s (fun as s => atomLanes f act [] as (s.countAccess (as.map Prod.snd)))
  else
    let left := (s.cur.byTid act).filter (fun l => before.any (fun p => p.1 == 64 + l))
    atomLanes f act before (left.map (fun l => (l, keptAccess f before l))) s

def execAtom (f : FmtAtom) (s : State) : Host.Outcome State Fault Refusal := issue (.atom f) s (bodyAtom f)

/-- The body of `red`: each lane's access is sent, to be performed at its own instant. -/
def bodyRed (f : FmtAtom) (_ act : List Nat) (s : State) : Res :=
  atomBody f 0x81 act s (fun as s =>
    let s := s.countAccess (as.map Prod.snd)
    let w := s.cur
    let ins := (w.pw.map (fun e => e.kind.ins)).foldl max 0 + 1
    let e (a : Nat × Access) : PWrite :=
      { bytes := a.2.locs.map (fun x => (x, 0)), fb := false, part := false,
        kind := .rmw f.op.toNat f.wide (BitVec.ofNat 64 (w.atomVal f a.1)) s.contract ins }
    .done { s with cur := { w with pw := w.pw ++ as.map e } } [])

def execRed (f : FmtAtom) (s : State) : Host.Outcome State Fault Refusal := issue (.red f) s (bodyRed f)

/-- WRITE ACKNOWLEDGEMENT (R225). -/
def execWriteAcknowledgement (key : WKey) (k lo len : Nat) (s : State) : Host.Outcome State Fault Refusal :=
  .next (s.ackWrite key k lo len)

/-- RELEASE POINT: the GTC passes `$wct` by the margin, and a wait on it ends (R225, R228). -/
def execReleasePoint (key : WKey) (s : State) : Host.Outcome State Fault Refusal :=
  .next (match s.findWave key with
    | none => s
    | some w =>
      let s := { s with gtc := max s.gtc (w.wct + Config.gtcMargin + 1) }
      s.setWave { w with why := if w.why == .release then .none else w.why })

/-! ### The monitor -/

/-- Lanes that sleep in `mwait`, with their destination and deadline. -/
def Wave.asleep (w : Wave) : List (Nat × Nat × Nat) :=
  w.idx.filterMap (fun l => match (w.lane l).st with | .mwait sd dl => some (l, sd, dl) | _ => none)

/-- Sleeping lanes retire their `mwait` with a value; the monitor is disarmed (R240). -/
def State.wakeMwait (s : State) (key : WKey) (ls : List (Nat × Nat × Nat)) (v : Nat) : State :=
  if ls.isEmpty then s
  else
    let s := s.onWave key (fun w => w.both (fun w =>
      { ls.foldl (fun (w : Wave) p => w.setS p.2.1 (BitVec.ofNat 64 v)) w with mon := Monitor.off }))
    s.lateRetire key (ls.map Prod.fst)

/-- Lanes of the current wave whose sleep a trigger has ended, before an instruction that uses the monitor anew. -/
def State.wakeFirst (s : State) : State := if s.cur.mon.trig then s.wakeMwait s.cur.key s.cur.asleep 1 else s

/-- What `mon` needs: R; class 3 and the stack are refused; alignment, stamps and poison are not checked. -/
def needMon : AccNeed := ⟨true, false, false, false, false, false, true, true⟩

/-- The body of `mon`. -/
def bodyMon (f : FmtSrc) (_ act : List Nat) (s : State) : Res :=
  let ea := (s.cur.getS f.sa.toNat).toNat
  let l := s.cur.lowestTid act
  let rs := laneAccesses s needMon 0 1 [l] (fun _ => ea)
  match failed s act (fun _ => ea) rs true with
  | some r => r
  | none =>
    let loc := ((passedOf rs).flatMap (fun a => a.2.locs)).headD 0
    let s := s.wakeFirst.beforeRead true true
    .done { s with cur := { s.cur with mon := { armed := true, line := loc - ea % 128, trig := false, lost := false } } } []

def execMon (f : FmtSrc) (s : State) : Host.Outcome State Fault Refusal := issue (.mon f) s (bodyMon f)

/-- The body of `mwait`. -/
def bodyMwait (f : FmtDstSrc) (iss act : List Nat) (s : State) : Res :=
  let w := s.cur
  let dl := (w.getS f.sa.toNat).toNat
  let over_ (v : Nat) : Res :=
    .done { s with cur := { w.setS f.sd.toNat (BitVec.ofNat 64 v) with mon := Monitor.off } } []
  if w.mon.lost then over_ 4
  else if !w.mon.armed then over_ 3
  else if w.mon.trig then
    let s := s.wakeFirst
    .done { s with cur := { s.cur.setS f.sd.toNat 1 with mon := Monitor.off } } []
  else if dl != 0 && dl ≤ s.gtc then over_ 2
  else .done { s with cur := w.rest iss act (.mwait f.sd.toNat dl) } act

def execMwait (f : FmtDstSrc) (s : State) : Host.Outcome State Fault Refusal := issue (.mwait f) s (bodyMwait f)

/-- MONITOR TRIGGER: a wave whose monitor has been triggered wakes (R239, R240). -/
def execMonitorTrigger (key : WKey) (s : State) : Host.Outcome State Fault Refusal :=
  .next (match s.findWave key with
    | some w => if w.mon.trig then s.wakeMwait key w.asleep 1 else s
    | none => s)

/-- MWAIT DEADLINE: the GTC reaches the earliest deadline at which lanes of the wave sleep (R240). -/
def execMwaitDeadline (key : WKey) (s : State) : Host.Outcome State Fault Refusal :=
  .next (match s.findWave key with
    | some w =>
      if w.mon.trig then s
      else
        match minNat ((w.asleep.filter (fun p => p.2.2 != 0)).map (fun p => p.2.2)) with
        | some dl => { s with gtc := max s.gtc dl }.wakeMwait key (w.asleep.filter (fun p => p.2.2 == dl)) 2
        | none => s
    | none => s)

end Sys2Proof.Machine
end

