-- ==== Sys2Proof/Machine/Functions.lean ====
section
/-! DEFINITION. The function unit (R146 to R151): the paths of the function-table revisions, on exact
numbers. Table entries are computed where they are used, with guard bits far beyond their width. -/

namespace Sys2Proof.Machine

/-- Function-table revision of a contract (R121). -/
def funcRev (contract : Nat) : Nat := contract / 0x100
/-- *N* of R151. -/
def tabN (rev : Nat) : Nat := if rev ≤ 2 then 32 else 64
/-- *W* of R151. -/
def tabW (rev : Nat) : Nat := if rev ≤ 1 then 24 else if rev == 2 then 32 else 40

/-- A binary32 constant as a number. -/
def f32Const (c : Nat) : Dy := (fF32.decode c).dy

def rn32 (d : Dy) : Dy := d.rnW 24

/-- floor of the square root taken `n` times. -/
def isqrtIter (n x : Nat) : Nat := match n with | 0 => x | k + 1 => isqrtIter k (isqrt x)

/-- rnW(2^(j/N)) for N = 2^k (R148): the N-th root of a power of two, with 80 fraction bits. -/
def exp2Tab (w k j : Nat) : Dy :=
  if j == 0 then { m := 1, e := 0 }
  else
    let n := 2 ^ k
    Dy.rnW w { m := ((2 * isqrtIter k (2 ^ (j + 80 * n)) + 1 : Nat) : Int), e := -81 }

/-- Binary digits of log2 of y / 2^256, for y / 2^256 in [1, 2): squares and reads off the carry. -/
def log2Digits (n y acc : Nat) : Nat :=
  match n with
  | 0 => acc
  | k + 1 =>
    let z := y * y / 2 ^ 256
    if 2 ^ 257 ≤ z then log2Digits k (z / 2) (2 * acc + 1) else log2Digits k z (2 * acc)

/-- log2 of a positive number, with 112 fraction bits, the last forced to 1 when the number is no power of
two. -/
def log2Jam (d : Dy) : Dy :=
  let m := d.m.natAbs
  let e := d.expo
  if m == 2 ^ (bitLen m - 1) then { m := e, e := 0 }
  else
    let y := if bitLen m ≤ 257 then m * 2 ^ (257 - bitLen m) else m / 2 ^ (bitLen m - 257)
    ({ m := e, e := 0 } : Dy).add { m := ((2 * log2Digits 111 y 0 + 1 : Nat) : Int), e := -112 }

/-- π with 256 fraction bits. -/
def piFix : Nat := 0x3243F6A8885A308D313198A2E03707344A4093822299F31D0082EFA98EC4E6C89
/-- 2π as a number. -/
def twoPi : Dy := { m := (piFix : Nat), e := -255 }

/-- Terms of the series of sine (from n = 1) or cosine (from n = 0) in fixed point of 200 bits: `t` is the
last term, `x2` the square of the argument. -/
def trigSeries (fuel n : Nat) (x2 t acc : Int) : Int :=
  match fuel with
  | 0 => acc
  | k + 1 =>
    let t' := -(t * x2 / (2 ^ 200 : Nat)) / (((n + 1) * (n + 2) : Nat) : Int)
    trigSeries k (n + 2) x2 t' (acc + t')

/-- sin(2π a / D) and cos(2π a / D) for 0 ≤ a ≤ D/4, in fixed point of 200 bits. -/
def sinFix (a d : Nat) : Int :=
  let x : Int := ((piFix * 2 * a / d / 2 ^ 56 : Nat) : Int)
  trigSeries 32 1 (x * x / (2 ^ 200 : Nat)) x x
def cosFix (a d : Nat) : Int :=
  let x : Int := ((piFix * 2 * a / d / 2 ^ 56 : Nat) : Int)
  trigSeries 32 0 (x * x / (2 ^ 200 : Nat)) (2 ^ 200 : Nat) (2 ^ 200 : Nat)

/-- rnW(sin(2π a / D)) for a below D, D a multiple of 4: exact at multiples of a quarter turn (R150). -/
def sinTab (w a d : Nat) : Dy :=
  let q := d / 4
  let r := a % q
  let fix (i : Int) : Dy := Dy.rnW w { m := i, e := -200 }
  match a / q with
  | 0 => if r == 0 then { m := 0, e := 0 } else fix (sinFix r d)
  | 1 => if r == 0 then { m := 1, e := 0 } else fix (cosFix r d)
  | 2 => if r == 0 then { m := 0, e := 0 } else fix (-(sinFix r d))
  | _ => if r == 0 then { m := -1, e := 0 } else fix (-(cosFix r d))
def cosTab (w a d : Nat) : Dy := sinTab w ((a + d / 4) % d) d

/-- rnW of a rational number p / q. -/
def rnQuot (w p q : Nat) : Dy := let (m, e) := quotJam (w + 8) p q; Dy.rnW w { m := (m : Nat), e := e }

/-- The last rounding of a path, to binary32, binary16 or binary64, with inexact where the result is not the
exact mathematical value (R147). -/
def finish (f : FFmt) (contract : Nat) (exact : Bool) (d : Dy) : Nat × BitVec 6 :=
  let (c, fl, _) := f.roundDy (flushVec contract) .rn false d
  (c, fl ||| flIf (!exact) flInexact)

/-- `fex2` on a finite operand (R148). -/
def fex2Path (f : FFmt) (contract : Nat) (x : Dy) : Nat × BitVec 6 :=
  let rev := funcRev contract
  let nn := tabN rev
  let lg : Nat := if nn == 32 then 5 else 6
  let k := x.floorAt lg
  let r := x.sub { m := k, e := -(lg : Int) }
  let n := k / (nn : Int)
  let j := (k - n * nn).toNat
  let t := exp2Tab (tabW rev) lg j
  let p := rn32 ((f32Const 0x3D635847).mul r)
  let p := rn32 (p.add (f32Const 0x3E75FDF0))
  let p := rn32 (p.mul r)
  let p := rn32 (p.add (f32Const 0x3F317218))
  let p := rn32 (p.mul r)
  let y := t.mul ((Dy.ofNat 1).add p)
  let y := if rev == 4 then y else rn32 y
  finish f contract (r.m == 0 && j == 0) (y.scale n)

/-- `flg2` on a finite operand above 0 (R149). -/
def flg2Path (f : FFmt) (contract : Nat) (x : Dy) : Nat × BitVec 6 :=
  let rev := funcRev contract
  let nn := tabN rev
  let e := x.expo
  let m := x.scale (-e)
  let j := ((m.sub (Dy.ofNat 1)).mul (Dy.ofNat nn)).floorAt 0
  let g := rnQuot 12 nn (nn + j.toNat)
  let l := if j == 0 then { m := 0, e := 0 } else Dy.rnW (tabW rev) (log2Jam g).neg
  let z := rn32 ((m.mul g).sub (Dy.ofNat 1))
  let q := rn32 ((f32Const 0xBEB8AA3B).mul z)
  let q := rn32 (q.add (f32Const 0x3EF6384F))
  let q := rn32 (q.mul z)
  let q := rn32 (q.add (f32Const 0xBF38AA3B))
  let q := rn32 (q.mul z)
  let q := rn32 (q.add (f32Const 0x3FB8AA3B))
  let q := rn32 (q.mul z)
  finish f contract (m.sub (Dy.ofNat 1) |>.m |> (· == 0)) (((Dy.ofInt e).add l).add q)

/-- `fsin2` and `fcos2` on a finite nonzero operand (R150). -/
def trigPath (f : FFmt) (contract : Nat) (isCos : Bool) (x : Dy) : Nat × BitVec 6 :=
  let rev := funcRev contract
  let w := tabW rev
  let d := 4 * tabN rev
  let y := x.mul (Dy.ofNat d)
  let i : Int := if 0 ≤ y.e then shlInt y.m y.e
    else let (q, _) := roundShift .rn (y.m < 0) y.m.natAbs (-y.e); if y.m < 0 then -(q : Int) else q
  let lg : Int := if d == 128 then 7 else 8
  let t := (y.sub (Dy.ofInt i)).scale (-lg)
  let a := (i % (d : Int)).toNat
  let s := sinTab w a d
  let c := cosTab w a d
  let rw' (v : Dy) : Dy := v.rnW w
  let u := rw' (twoPi.mul t)
  let ww := rw' (u.mul u)
  let k := rnQuot w 1 6
  let su := rw' (u.sub (rw' (u.mul (rw' (ww.mul k)))))
  let cu := rw' ((Dy.ofNat 1).sub (ww.scale (-1)))
  let v := if isCos then (rw' (c.mul cu)).sub (rw' (s.mul su)) else (rw' (s.mul cu)).add (rw' (c.mul su))
  finish f contract (t.m == 0 && a % (d / 4) == 0) v

/-- Two Newton steps of `frcp_r12` (R151). -/
def rcpNewton (n : Nat) (m y : Dy) : Dy :=
  match n with
  | 0 => y
  | k + 1 =>
    let d := rn32 ((Dy.ofNat 1).sub (m.mul y))
    rcpNewton k m (rn32 (y.add (y.mul d)))

/-- Two Newton steps of `frsq_r12` (R151). -/
def rsqNewton (n : Nat) (m y : Dy) : Dy :=
  match n with
  | 0 => y
  | k + 1 =>
    let d := rn32 ((Dy.ofNat 1).sub ((m.mul y).mul y))
    rsqNewton k m (rn32 (y.add ((y.mul d).scale (-1))))

/-- A number is a power of two (times its sign). -/
def Dy.isPow2 (d : Dy) : Bool := d.m.natAbs == 2 ^ (bitLen d.m.natAbs - 1)

/-- `frcp` on a finite nonzero operand. -/
def frcpPath (f : FFmt) (contract : Nat) (newton : Bool) (x : Dy) : Nat × BitVec 6 :=
  let neg := decide (x.m < 0)
  if newton && funcRev contract ≤ 2 then
    let e := x.expo
    let m := x.abs.scale (-e)
    let j := ((m.sub (Dy.ofNat 1)).mul (Dy.ofNat 128)).floorAt 0
    let y := rcpNewton 2 m (rnQuot 12 128 (128 + j.toNat))
    let y := y.scale (-e)
    finish f contract x.isPow2 (if neg then y.neg else y)
  else
    let (q, k) := quotJam 128 1 x.m.natAbs
    let (c, fl, _) := f.round (flushVec contract) .rn neg q (k - x.e)
    (c, fl ||| flIf (!x.isPow2) flInexact)

/-- A number is a power of four. -/
def Dy.isPow4 (d : Dy) : Bool := d.isPow2 && d.expo % 2 == 0

/-- `frsq` on a finite operand above 0. -/
def frsqPath (f : FFmt) (contract : Nat) (newton : Bool) (x : Dy) : Nat × BitVec 6 :=
  if newton && funcRev contract ≤ 2 then
    let h := x.expo / 2
    let m := x.scale (-(2 * h))
    let j := ((m.sub (Dy.ofNat 1)).mul (Dy.ofNat 64)).floorAt 0
    let r := rsqrtJam (64 + j.toNat) (-6)
    let y := rsqNewton 2 m (Dy.rnW 12 { m := (r.1 : Nat), e := r.2 })
    finish f contract x.isPow4 (y.scale (-h))
  else
    let (q, k) := rsqrtJam x.m.natAbs x.e
    let (c, fl, _) := f.round (flushVec contract) .rn false q k
    (c, fl ||| flIf (!x.isPow4) flInexact)

/-- The functions of the function unit. -/
inductive Func where
  | ex2 | lg2 | rcp | rsq | sqrt | sin2 | cos2
  deriving DecidableEq, Repr

/-- A function of the function unit on a code (R147): special operands, then the path. `src` is the format
of the operand and `dst` that of the result; they differ for no type, and the `.f16` forms widen. -/
def FFmt.func (f : FFmt) (contract : Nat) (op : Func) (mode : RMode) (a : Nat) : Nat × BitVec 6 :=
  let newton := f.fb != 52
  let one := f.encodeExact (.fin false 1 0)
  let inf (n : Bool) := f.signBit n + f.infCode
  let bad := (f.nanOf contract [], flInvalid)
  match f.read contract a with
  | .nan n s p => (f.nanOf contract [.nan n s p], flIf s flInvalid)
  | .inf n =>
    match op with
    | .ex2 => (if n then 0 else inf false, 0)
    | .lg2 | .sqrt => if n then bad else (inf false, 0)
    | .rcp => (f.signBit n, 0)
    | .rsq => if n then bad else (0, 0)
    | .sin2 | .cos2 => bad
  | .fin n m e =>
    let x := (FVal.fin n m e).dy
    if m == 0 then
      match op with
      | .ex2 | .cos2 => (one, 0)
      | .lg2 => (inf true, flDivzero)
      | .rcp | .rsq => (inf n, flDivzero)
      | .sqrt | .sin2 => (f.signBit n, 0)
    else
      match op with
      | .ex2 => fex2Path f contract x
      | .lg2 => if n then bad else flg2Path f contract x
      | .rcp => frcpPath f contract newton x
      | .rsq => if n then bad else frsqPath f contract newton x
      | .sqrt =>
        if n then bad
        else let (q, k) := sqrtJam m e; let (c, fl, _) := f.round (flushVec contract) mode false q k; (c, fl)
      | .sin2 => trigPath f contract false x
      | .cos2 => trigPath f contract true x

/-- log2 of a draw `u`, correctly rounded to binary32 (R259). -/
def lg2Draw (x0 : Nat) : Nat :=
  let u : Dy := { m := ((2 * (x0 / 512) + 1 : Nat) : Int), e := -24 }
  (fF32.roundDy false .rn false (log2Jam u)).1

end Sys2Proof.Machine
end

