-- ==== Sys2Proof/Machine/FloatArith.lean ====
section
/-! DEFINITION. Floating-point arithmetic, comparison, packed operations and the function unit (R131 to R141, R146
to R153) under the grid's contract. -/

namespace Sys2Proof.Machine

/-- Format of a type in the function unit: `.f16` works on the widened operand (R146). -/
def funcFmt (t : Ty) : FFmt := match t with | .f64 => fF64 | .f16 => fF16 | _ => fF32
/-- Format of a packed type (R141). -/
def halfFmt (t : Ty) : FFmt := if t == .bf16 then fBf16 else fF16
/-- Mode of the rounding field of format A. -/
def modeA (f : FmtA) : RMode := RMode.ofCode f.rnd.toNat
/-- Mode of the rounding field of format B. -/
def modeB (f : FmtB) : RMode := RMode.ofCode f.rnd.toNat

/-! ### Arithmetic (R135, R136) -/

def execFadd (f : FmtA) (s : State) : Host.Outcome State Fault Refusal :=
  issue (.fadd f) s (bodyA3 f ((tyFmt f.ty).fadd s.contract (modeA f)))

def execFsub (f : FmtA) (s : State) : Host.Outcome State Fault Refusal :=
  issue (.fsub f) s (bodyA3 f ((tyFmt f.ty).fsub s.contract (modeA f)))

def execFmul (f : FmtA) (s : State) : Host.Outcome State Fault Refusal :=
  issue (.fmul f) s (bodyA3 f ((tyFmt f.ty).fmul s.contract (modeA f)))

def execFfma (f : FmtB) (s : State) : Host.Outcome State Fault Refusal :=
  issue (.ffma f) s (bodyB f f.ty.wide ((tyFmt f.ty).ffma s.contract (modeB f)))

def execFmin (f : FmtA) (s : State) : Host.Outcome State Fault Refusal :=
  issue (.fmin f) s (bodyA3 f ((tyFmt f.ty).fminmax s.contract false))

def execFmax (f : FmtA) (s : State) : Host.Outcome State Fault Refusal :=
  issue (.fmax f) s (bodyA3 f ((tyFmt f.ty).fminmax s.contract true))

/-! ### Comparison and classes (R137, R138) -/

/-- The body of `fcmp`. -/
def bodyFcmp (f : FmtA) (_ act : List Nat) (s : State) : Res :=
  let w := s.cur
  let r (l : Nat) : Bool × BitVec 6 := (tyFmt f.ty).fcmp s.contract f.minor.toNat
    (w.readX false f.ty.wide l f.va.toNat) (w.readX false f.ty.wide l f.vb.toNat)
  .done { s with cur := (w.writePreds f.vd.toNat act (fun l => (r l).1)).orFlags act (fun l => (r l).2) } []

def execFcmp (f : FmtA) (s : State) : Host.Outcome State Fault Refusal := issue (.fcmp f) s (bodyFcmp f)

def execFclass (f : FmtA) (s : State) : Host.Outcome State Fault Refusal :=
  issue (.fclass f) s (bodyA2 f false f.ty.wide (fun a => plain ((tyFmt f.ty).fclass a)))

/-! ### Taking numbers apart (R139, R140) -/

def execFround (f : FmtA) (s : State) : Host.Outcome State Fault Refusal :=
  issue (.fround f) s (bodyA2 f f.ty.wide f.ty.wide ((tyFmt f.ty).fround s.contract (modeA f)))

def execFscale (f : FmtA) (s : State) : Host.Outcome State Fault Refusal :=
  issue (.fscale f) s (bodyA3n f (fun a b => (tyFmt f.ty).fscale s.contract (modeA f) a (toSigned 32 b)))

def execFexp (f : FmtA) (s : State) : Host.Outcome State Fault Refusal :=
  issue (.fexp f) s (bodyA2 f f.ty.wide f.ty.wide ((tyFmt f.ty).fexp s.contract))

def execFman (f : FmtA) (s : State) : Host.Outcome State Fault Refusal :=
  issue (.fman f) s (bodyA2 f f.ty.wide f.ty.wide ((tyFmt f.ty).fman s.contract))

/-! ### Packed half-width operations (R141) -/

/-- Both halves of a packed value. -/
def packHalf (x y : Nat × BitVec 6) : Nat × BitVec 6 := (x.1 % 2 ^ 16 + y.1 % 2 ^ 16 * 2 ^ 16, x.2 ||| y.2)
/-- Element `e` of a packed value. -/
def halfOf (v e : Nat) : Nat := v / 2 ^ (16 * e) % 2 ^ 16

def execHadd2 (f : FmtA) (s : State) : Host.Outcome State Fault Refusal :=
  issue (.hadd2 f) s (bodyA3 f (fun a b =>
    let op (e : Nat) := (halfFmt f.ty).fadd s.contract (modeA f) (halfOf a e) (halfOf b e)
    packHalf (op 0) (op 1)))

def execHmul2 (f : FmtA) (s : State) : Host.Outcome State Fault Refusal :=
  issue (.hmul2 f) s (bodyA3 f (fun a b =>
    let op (e : Nat) := (halfFmt f.ty).fmul s.contract (modeA f) (halfOf a e) (halfOf b e)
    packHalf (op 0) (op 1)))

def execHfma2 (f : FmtB) (s : State) : Host.Outcome State Fault Refusal :=
  issue (.hfma2 f) s (bodyB f false (fun a b c =>
    let op (e : Nat) := (halfFmt f.ty).ffma s.contract (modeB f) (halfOf a e) (halfOf b e) (halfOf c e)
    packHalf (op 0) (op 1)))

/-- `fdot2`: a.0 × b.0 + a.1 × b.1 + c, rounded once to binary32. A NaN operand is kept with its payload in
the wider format (R132). -/
def dot2 (contract : Nat) (mode : RMode) (h : FFmt) (a b c : Nat) : Nat × BitVec 6 :=
  let a0 := h.read contract (halfOf a 0)
  let b0 := h.read contract (halfOf b 0)
  let a1 := h.read contract (halfOf a 1)
  let b1 := h.read contract (halfOf b 1)
  let z := fF32.read contract c
  let ops := [a0, b0, a1, b1, z]
  match mulVal a0 b0, mulVal a1 b1 with
  | some p, some q => fF32.sum contract mode false ops [p, q, z]
  | _, _ => fF32.sum contract mode true ops []

def execFdot2 (f : FmtB) (s : State) : Host.Outcome State Fault Refusal :=
  issue (.fdot2 f) s (bodyB f false (dot2 s.contract (modeB f) (halfFmt f.ty)))

/-! ### The function unit (R146 to R151) -/

/-- The body of a function instruction; `.f16` values stand in bits [15:0] (R131). -/
def bodyFunc (f : FmtA) (op : Func) (iss act : List Nat) (s : State) : Res :=
  bodyA2 f f.ty.wide f.ty.wide (fun a =>
    (funcFmt f.ty).func s.contract op (modeA f) (if f.ty == .f16 then a % 2 ^ 16 else a)) iss act s

def execFex2 (f : FmtA) (s : State) : Host.Outcome State Fault Refusal := issue (.fex2 f) s (bodyFunc f .ex2)
def execFlg2 (f : FmtA) (s : State) : Host.Outcome State Fault Refusal := issue (.flg2 f) s (bodyFunc f .lg2)
def execFrcp (f : FmtA) (s : State) : Host.Outcome State Fault Refusal := issue (.frcp f) s (bodyFunc f .rcp)
def execFrsq (f : FmtA) (s : State) : Host.Outcome State Fault Refusal := issue (.frsq f) s (bodyFunc f .rsq)
def execFsqrt (f : FmtA) (s : State) : Host.Outcome State Fault Refusal := issue (.fsqrt f) s (bodyFunc f .sqrt)
def execFsin2 (f : FmtA) (s : State) : Host.Outcome State Fault Refusal := issue (.fsin2 f) s (bodyFunc f .sin2)
def execFcos2 (f : FmtA) (s : State) : Host.Outcome State Fault Refusal := issue (.fcos2 f) s (bodyFunc f .cos2)

/-! ### Status (R152) -/

/-- Threads to which an entry of the matrix engine's queue delivers flags (R176). -/
def EngOp.tids : EngOp → List Nat
  | .accst _ _ _ _ tids _ => tids
  | .accstReg _ _ _ _ _ lanes => lanes.map Prod.snd
  | _ => []

/-- A lane of the wave waits for the flags of a drain that its thread has issued (R176). -/
def State.flagsDue (s : State) (w : Wave) (ls : List Nat) : Bool :=
  (s.coreAt (s.teamOf w).core).engine.any (fun e => e.who.grid == w.key.grid && e.who.team == w.key.team &&
    ls.any (fun l => e.op.tids.contains (w.lane l).tid))

/-- The body of `fstat`: the status is read and cleared. It includes the flags of every instruction executed
before, so the wave waits for those of its drains. -/
def bodyFstat (f : FmtA) (_ act : List Nat) (s : State) : Res :=
  if s.flagsDue s.cur act then .wait .engine s
  else
    let w := s.cur
    let w1 := w.writeLanes false false f.vd.toNat act (fun l => (w.lane l).flags.toNat)
    .done { s with cur := w1.modLanes act (fun x => { x with flags := 0 }) } []

def execFstat (f : FmtA) (s : State) : Host.Outcome State Fault Refusal := issue (.fstat f) s (bodyFstat f)

end Sys2Proof.Machine
end

