-- ==== Sys2Proof/Machine/Philox.lean ====
section
/-! DEFINITION. The counter streams (R258): Philox4x32-10 and the draws of a lane. -/

namespace Sys2Proof.Machine

/-- One round of Philox4x32 (R258). -/
def philoxRound (c : Elem × Elem × Elem × Elem) (k0 k1 : Elem) : Elem × Elem × Elem × Elem :=
  let p := 0xD2511F53 * c.1.toNat
  let q := 0xCD9E8D57 * c.2.2.1.toNat
  (BitVec.ofNat 32 (q / 2 ^ 32) ^^^ c.2.1 ^^^ k0, BitVec.ofNat 32 q,
   BitVec.ofNat 32 (p / 2 ^ 32) ^^^ c.2.2.2 ^^^ k1, BitVec.ofNat 32 p)

/-- The remaining `n` rounds: the key is bumped before each but the first. -/
def philoxLoop (n : Nat) (c : Elem × Elem × Elem × Elem) (k0 k1 : Elem) : Elem × Elem × Elem × Elem :=
  match n with
  | 0 => c
  | m + 1 => philoxLoop m (philoxRound c k0 k1) (k0 + 0x9E3779B9) (k1 + 0xBB67AE85)

/-- Philox4x32-10 (R258). -/
def philox (c : Elem × Elem × Elem × Elem) (k0 k1 : Elem) : Elem × Elem × Elem × Elem := philoxLoop 10 c k0 k1

/-- The next draw of a stream in a lane (R258): the first output word. -/
def State.draw (s : State) (l k : Nat) : Elem :=
  let w := s.cur
  let key := w.keys.getD k 0
  (philox ((w.lane l).getDraw k, BitVec.ofNat 32 (w.lane l).tid, BitVec.ofNat 32 w.key.team,
    BitVec.ofNat 32 (s.gridOf w).p.launch) (BitVec.ofNat 32 key.toNat) (BitVec.ofNat 32 (key.toNat / 2 ^ 32))).1

/-- Listed lanes have drawn once from a stream. -/
def Wave.drew (w : Wave) (ls : List Nat) (k : Nat) : Wave := w.modLanes ls (fun x => x.addDraw k)

end Sys2Proof.Machine
end

