-- ==== Sys2Proof/Machine/Convert.lean ====
section
/-! DEFINITION. Conversions (R118, R142 to R145): between float formats, from float to integer and from integer to
float. -/

namespace Sys2Proof.Machine

/-- Bits that a format of R53 occupies in a register or pair (R143). -/
def fmtBits (c : Nat) : Nat :=
  match c with
  | 0x0 | 0xD | 0xE => 64
  | 0xF => 48
  | 0x2 | 0x3 | 0x9 | 0xA => 16
  | 0x4 | 0x5 | 0x6 | 0x7 | 0x8 => 8
  | _ => 32

/-- The integer format of R53 is signed. -/
def fmtSigned (c : Nat) : Bool := c == 7 || c == 9 || c == 0xB || c == 0xD

/-- The value of a source code of a float format or `.dp8`, with the input flush (R132). -/
def readFmt (contract c code : Nat) : FVal :=
  let code := code % 2 ^ fmtBits c
  if c == 6 then dp8Value code else (fmtOf c).read contract code

/-- `sr_round` (R118) of a finite value with the draw `u`: code and flags. A result is tiny where the chosen
value lies below the smallest normal. -/
def srRound (f : FFmt) (flush : Bool) (u : Nat) (neg : Bool) (m : Nat) (e : Int) : Nat × BitVec 6 × Bool :=
  let x : Dy := { m := m, e := e }
  if m == 0 then (f.signBit neg, 0, false)
  else if f.maxDy.lt x then f.round flush .rn neg m e
  else
    let (lo, fl, _) := f.round false .rz false m e
    let chosen (c : Nat) (fl : BitVec 6) : Nat × BitVec 6 × Bool :=
      let tiny := c < 2 ^ f.fb
      if tiny && f.flushes && flush then (f.signBit neg, flUnderflow ||| flInexact, false)
      else (f.signBit neg + c, fl ||| flIf (tiny && fl != 0) flUnderflow, false)
    if fl == 0 then chosen lo 0
    else
      let a := (f.decode lo).dy
      let gap := ((f.decode (lo + 1)).dy).sub a
      let t := ((x.sub a).scale (32 - gap.expo)).floorAt 0
      chosen (if (u : Int) < t then lo + 1 else lo) flInexact

/-- `fcvt` of one element (R143): `rnd` is the rounding field (4 is `.sr`), `u` its draw. -/
def fcvtVal (contract dst src rnd : Nat) (sat : Bool) (u code : Nat) : Nat × BitVec 6 :=
  let x := readFmt contract src code
  let f := fmtOf dst
  if dst == 6 then dp8Quantise x false
  else
    match x with
    | .nan n sg p => (f.nanOf contract [.nan n sg p], flIf sg flInvalid)
    | .inf n =>
      if sat then (f.signBit n + f.maxCode, flSat)
      else if f.hasInf then (f.signBit n + f.infCode, 0) else (f.cnan, flInvalid)
    | .fin n m e =>
      let (c, fl, ov) := if rnd == 4 then srRound f (flushVec contract) u n m e
        else f.roundDy (flushVec contract) (RMode.ofCode rnd) n (FVal.fin n m e).dy
      if sat && ov then (f.signBit n + f.maxCode, flSat) else (c, fl)

/-- The body of `fcvt`: `.sr` draws once in each active lane. -/
def bodyFcvt (f : FmtA) (_ act : List Nat) (s : State) : Res :=
  let sr := f.rnd.toNat == 4
  let w := s.cur
  let op (l : Nat) : Nat × BitVec 6 :=
    fcvtVal s.contract (cvtDst f) (cvtSrc f) f.rnd.toNat f.sat (if sr then (s.draw l 7).toNat else 0)
      (w.readX f.p (fmtWide (cvtSrc f)) l f.va.toNat)
  let w1 := w.writeFlagged f.p (fmtWide (cvtDst f)) f.vd.toNat act op
  .done { s with cur := if sr then w1.drew act 7 else w1 } []

def execFcvt (f : FmtA) (s : State) : Host.Outcome State Fault Refusal := issue (.fcvt f) s (bodyFcvt f)

/-- An integer as a register value: 8 to 32 bits extended to 32, 64 bits in a pair (R144). -/
def intToReg (dst : Nat) (i : Int) : Nat := if fmtBits dst == 64 then wrapTo 64 i else wrapTo 32 i

/-- `fcvti` of one element (R144). -/
def fcvtiVal (contract dst src : Nat) (mode : RMode) (sat : Bool) (code : Nat) : Nat × BitVec 6 :=
  let n := fmtBits dst
  let lo : Int := if fmtSigned dst then -(2 ^ (n - 1) : Nat) else 0
  let hi : Int := if fmtSigned dst then (2 ^ (n - 1) : Nat) - 1 else (2 ^ n : Nat) - 1
  let clamp (neg : Bool) : Nat × BitVec 6 := (intToReg dst (if neg then lo else hi), if sat then flSat else flInvalid)
  match readFmt contract src code with
  | .nan .. => (0, flInvalid)
  | .inf neg => clamp neg
  | .fin neg m e =>
    let (q, ch) := roundShift mode neg m (-e)
    let i : Int := if neg then -(q : Int) else q
    if i < lo || hi < i then clamp neg else (intToReg dst i, flIf ch flInexact)

def execFcvti (f : FmtA) (s : State) : Host.Outcome State Fault Refusal :=
  issue (.fcvti f) s (bodyA2 f (fmtWide (cvtDst f)) (fmtWide (cvtSrc f))
    (fcvtiVal s.contract (cvtDst f) (cvtSrc f) (modeA f) f.sat))

/-- `icvtf` of one element (R145). -/
def icvtfVal (contract dst src : Nat) (mode : RMode) (code : Nat) : Nat × BitVec 6 :=
  let n := fmtBits src
  let i : Int := if fmtSigned src then toSigned n code else ((code % 2 ^ n : Nat) : Int)
  let (c, fl, _) := (fmtOf dst).roundDy (flushVec contract) mode false (Dy.ofInt i)
  (c, fl)

def execIcvtf (f : FmtA) (s : State) : Host.Outcome State Fault Refusal :=
  issue (.icvtf f) s (bodyA2 f (fmtWide (cvtDst f)) (fmtWide (cvtSrc f))
    (icvtfVal s.contract (cvtDst f) (cvtSrc f) (modeA f)))

end Sys2Proof.Machine
end

