-- ==== Sys2Proof/Machine/MatArith.lean ====
section
/-! DEFINITION. The arithmetic of the matrix engine (R117, R121 to R123, R171): operands, exact products, the update
of one accumulator element in k-steps (R178), and drains (R176). -/

namespace Sys2Proof.Machine

/-- An exact sum of two values (R116, `.rn`), with the invalid flag of +∞ and −∞. -/
def addVal (a b : FVal) : FVal × BitVec 6 :=
  match a, b with
  | .nan .., _ => (FVal.cnan, 0)
  | _, .nan .. => (FVal.cnan, 0)
  | .inf n, .inf m => if n == m then (.inf n, 0) else (FVal.cnan, flInvalid)
  | .inf n, _ => (.inf n, 0)
  | _, .inf n => (.inf n, 0)
  | a, b =>
    let d := a.dy.add b.dy
    if d.m == 0 then (.zero (zeroSumNeg .rn [a, b]), 0) else (.ofDy d, 0)

/-- The flags of a rounding of R122, from the value before and after: overflow where it becomes infinite, underflow where it
becomes zero or is flushed, else inexact where it changes (R171). -/
def engineFlags (v r : FVal) : BitVec 6 :=
  match v with
  | .fin _ m _ =>
    if m == 0 then 0
    else if r.isInf then flOverflow ||| flInexact
    else if r.isZero then flUnderflow ||| flInexact
    else flIf ((v.dy.sub r.dy).m != 0) flInexact
  | _ => 0

/-- Round-to-odd into XF48 with the flags of R171. -/
def roundOddFlags (v : FVal) : FVal × BitVec 6 := let r := roundOddXf48 v; (r, engineFlags v r)

/-- An inner node of the XF48 tree. -/
def xfNode (a b : FVal × BitVec 6) : FVal × BitVec 6 :=
  let (s, f) := addVal a.1 b.1
  let (r, g) := roundOddFlags s
  (r, a.2 ||| b.2 ||| f ||| g)

def xfLevel (xs : List (FVal × BitVec 6)) : List (FVal × BitVec 6) :=
  match xs with
  | a :: b :: r => xfNode a b :: xfLevel r
  | r => r

/-- The root over a power of two of leaves. -/
def xfTree (fuel : Nat) (xs : List (FVal × BitVec 6)) : FVal × BitVec 6 :=
  match fuel with
  | 0 => xs.headD (.zero false, 0)
  | n + 1 => xfTree n (xfLevel xs)

/-- Round a value to binary32, flushing subnormal results, with the flags of R171. -/
def round32 (mode : RMode) (v : FVal) : FVal × BitVec 6 :=
  match v with
  | .fin n _ _ => let r := fF32.decode (fF32.roundDy true mode n v.dy).1; (r, engineFlags v r)
  | v => (v, 0)

/-- Round a value to binary64, keeping subnormals; a change is inexact and nothing else (R123, R171). -/
def round64 (v : FVal) : FVal × BitVec 6 :=
  match v with
  | .fin n _ _ => let r := fF64.decode (fF64.roundDy false .rn n v.dy).1; (r, flIf (engineFlags v r != 0) flInexact)
  | v => (v, 0)

/-- Round a value to a format with one rounding: NaN is the canonical NaN. -/
def roundVal (f : FFmt) (flush : Bool) (mode : RMode) (v : FVal) : FVal × BitVec 6 :=
  match v with
  | .fin n _ _ => let (c, fl, _) := f.roundDy flush mode n v.dy; (f.decode c, fl)
  | v => (v, 0)

/-- Truncate towards zero to a multiple of 2^k. -/
def truncTo (d : Dy) (k : Int) : Dy :=
  if k ≤ d.e then d
  else
    let q := d.m.natAbs / 2 ^ (k - d.e).toNat
    { m := if d.m < 0 then -(q : Int) else q, e := k }

/-- The sum of one group of products, truncated and rounded to binary32 (R122). -/
def groupSum (w : Nat) (mode : RMode) (ps : List (FVal × BitVec 6)) : FVal × BitVec 6 :=
  let vs := ps.map Prod.fst
  let fl := ps.foldl (fun f p => f ||| p.2) 0
  if vs.any FVal.isNan then (FVal.cnan, fl)
  else
    match vs.filter FVal.isInf with
    | i :: is => if is.any (fun v => v.neg != i.neg) then (FVal.cnan, fl ||| flInvalid) else (i, fl)
    | [] =>
      let nz := vs.filter (fun v => !v.isZero)
      match nz with
      | [] => (.zero (zeroSumNeg .rn vs), fl)
      | v :: r =>
        let emax := r.foldl (fun e x => max e x.dy.expo) v.dy.expo
        let cut := nz.map (fun x => truncTo x.dy (emax - w))
        let lost := (nz.zip cut).any (fun p => (p.1.dy.sub p.2).m != 0)
        let d := cut.foldl Dy.add { m := 0, e := 0 }
        let s : FVal := if d.m == 0 then .zero false else .ofDy d
        let (r, g) := round32 mode s
        (r, fl ||| flIf lost flInexact ||| g)

/-- acc := rn_b32(acc + s). -/
def acc32 (acc : FVal) (s : FVal × BitVec 6) : FVal × BitVec 6 :=
  let (t, f) := addVal acc s.1
  let (r, g) := round32 .rn t
  (r, s.2 ||| f ||| g)

/-- One binary64 node of the FP64 shapes (R123). -/
def f64Node (a b : FVal × BitVec 6) : FVal × BitVec 6 :=
  let (t, f) := addVal a.1 b.1
  let (r, g) := round64 t
  (r, a.2 ||| b.2 ||| f ||| g)

/-- The k-step of a contract and a number of products (R178). -/
def kStep (contract k : Nat) (int f64 : Bool) : Nat :=
  if f64 then 2 else if int then 8
  else if contract == 0x400 then k / 2 else if contract == 0x300 then 16 else if contract == 0x200 then 8 else 1

/-- An element while it is updated: accumulator code, partial code, flags. -/
structure Elt where
  acc : Nat
  part : Nat
  flags : BitVec 6
  deriving DecidableEq, Repr

/-- One k-step of an XF48 accumulator from product `k0`. -/
def xfStep (contract k k0 : Nat) (ps : List (FVal × BitVec 6)) (x : Elt) : Elt :=
  let acc := fXf48.decode x.acc
  if contract == 0x400 then
    let half := (ps.drop k0).take (k / 2)
    let root := xfTree (if k == 32 then 4 else 3) half
    if k0 == 0 then { x with part := fXf48.encodeExact root.1, flags := x.flags ||| root.2 }
    else
      let whole := xfNode (fXf48.decode x.part, 0) root
      let whole := if k == 32 then whole else xfNode whole (.zero false, 0)
      let r := xfNode (acc, 0) whole
      { acc := fXf48.encodeExact r.1, part := 0, flags := x.flags ||| r.2 }
  else
    let r := if contract == 0x300 then acc32 acc (groupSum 26 .rn ((ps.drop k0).take 16))
      else if contract == 0x200 then acc32 acc (groupSum 23 .rz ((ps.drop k0).take 8))
      else acc32 acc ((ps.drop k0).headD (.zero false, 0))
    { x with acc := fXf48.encodeExact r.1, flags := x.flags ||| r.2 }

/-- One k-step of a binary64 accumulator. -/
def f64Step (k0 : Nat) (ps : List (FVal × BitVec 6)) (x : Elt) : Elt :=
  let p (i : Nat) : FVal × BitVec 6 := ps.getD i (.zero false, 0)
  let pair := f64Node (p k0) (p (k0 + 1))
  if k0 == 0 then { x with part := fF64.encodeExact pair.1, flags := x.flags ||| pair.2 }
  else
    let sum := f64Node (fF64.decode x.part, 0) pair
    let r := f64Node (fF64.decode x.acc, 0) sum
    { acc := fF64.encodeExact r.1, part := 0, flags := x.flags ||| r.2 }

/-- One k-step of an integer accumulator: eight products modulo 2^32. -/
def intStep (k0 : Nat) (ps : List Int) (x : Elt) : Elt :=
  { x with acc := wrapTo 32 (((ps.drop k0).take 8).foldl (· + ·) (x.acc : Int)) }

/-- An A or B element of a format (R121, R167). -/
def matRead (contract fmt code : Nat) : FVal := readFmt contract fmt code
/-- An integer element. -/
def matInt (fmt code : Nat) : Int := if fmt == 7 then toSigned 8 code else ((code % 256 : Nat) : Int)

/-- One exact product with the flags of its operands (R171). -/
def matProd (a b : FVal) : FVal × BitVec 6 :=
  let sg := sigFlag [a, b]
  match mulVal a b with
  | some (.nan ..) => (FVal.cnan, sg)
  | some v => (v, sg)
  | none => (FVal.cnan, sg ||| flInvalid)

/-- A DP8 element with its block scale (R115, R167). -/
def dp8Scaled (code scale : Nat) : FVal :=
  let d := (Dy.mul { m := dp8Units code, e := -6 } (scale8 scale))
  if d.m == 0 then .zero false else .ofDy d

/-! ### Drains (R176) -/

/-- One element of a drain: format, scale, tag, saturation; the code and its flags. A NaN becomes the canonical NaN (R121), and a
signalling one sets invalid (R106). -/
def drainVal (contract fmt : Nat) (scale : Option FVal) (tag : TileTag) (sat : Bool) (code : Nat) : Nat × BitVec 6 :=
  if fmt == 0xB then (code % 2 ^ 32, 0)
  else
    let x := if tag == .f64 then fF64.decode code else fXf48.decode code
    let sg := sigFlag (x :: scale.toList)
    let f := fmtOf fmt
    if fmt == 0xF && tag == .xf48 && scale.isNone then (fXf48.encodeExact x, 0)
    else if fmt == 0 && tag == .f64 && scale.isNone then (if x.isNan then (f.cnan, sg) else (code, 0))
    else
      match (match scale with | none => some x | some k => mulVal x k) with
      | none => (f.cnan, sg ||| flInvalid)
      | some (.nan ..) => (f.cnan, sg)
      | some (.inf n) =>
        if sat then (f.signBit n + f.maxCode, flSat)
        else if f.hasInf then (f.signBit n + f.infCode, 0) else (f.cnan, flInvalid)
      | some (.fin n m e) =>
        let (c, fl, ov) := f.roundDy (flushMat contract) .rn n (FVal.fin n m e).dy
        if sat && ov then (f.signBit n + f.maxCode, flSat) else (c, fl)

end Sys2Proof.Machine
end

