-- ==== Sys2Proof/Machine/Range.lean ====
section
/-! DEFINITION. Accesses of a range of bytes that may cross pages: tile loads and drains, tensor accesses, copies,
reductions and queue records. -/

namespace Sys2Proof.Machine

/-- The pieces of a range within pages of 64 KiB: start and length. -/
def pieces (fuel ea n : Nat) : List (Nat × Nat) :=
  match fuel with
  | 0 => []
  | k + 1 =>
    if n == 0 then []
    else
      let room := 2 ^ 16 - ea % 2 ^ 16
      if n ≤ room then [(ea, n)] else (ea, room) :: pieces k ((ea + room) % 2 ^ 64) (n - room)

/-- The checks of R99 on every piece of a range, in address order. -/
def rangeAcc (s : State) (w : Wave) (now : Bool) (need : AccNeed) (space tid ea n : Nat) : List LaneAcc :=
  (pieces (n / 2 ^ 16 + 2) ea n).map (fun p => checkAccess s w now need space tid p.1 p.2)

/-- The locations and classes of a range that passed. -/
def rangeLocs (as : List LaneAcc) : List (Nat × Nat) :=
  as.flatMap (fun a => a.access.locs.map (fun x => (x, a.access.cls)))

/-- A wave-effect access of a range by the current wave: the result where it does not pass. -/
def rangeFailed (s : State) (act : List Nat) (ea : Nat) (as : List LaneAcc) : Option Res :=
  failed s act (fun _ => ea) (as.map (fun a => (s.cur.lowestTid act, a))) true

/-- Bytes of a range as the wave's plain loads read them (R100). -/
def State.rangeBytes (s : State) (w : Wave) (as : List LaneAcc) : List Byte := as.flatMap (fun a => s.loadBytes w a.access)

/-- Queue the bytes of a range as a store of the wave; class 3 pages apart. -/
def Wave.rangeStore (w : Wave) (locs : List (Nat × Nat)) (bs : List Byte) : Wave :=
  let all := locs.zip bs
  let pick (fb : Bool) : List (Nat × Byte) := (all.filter (fun b => (b.1.2 == 3) == fb)).map (fun b => (b.1.1, b.2))
  (w.queueStore (pick false) false).queueStore (pick true) true

end Sys2Proof.Machine
end

