-- ==== Sys2Proof/Machine/Matrix.lean ====
section
/-! DEFINITION. The matrix engine (R157 to R179): convergence registers and signatures, the engine's queue, the
performance of an operation, fences, and accumulator tiles. -/

namespace Sys2Proof.Machine

/-! ### Convergence registers -/

def Team.cvAt (t : Team) (k : Nat) : Cv := t.cv.getD k Cv.zero
def Team.setCv (t : Team) (k : Nat) (c : Cv) : Team := { t with cv := t.cv.set k c }
def State.cvOf (s : State) (k : Nat) : Cv := (s.teamOf s.cur).cvAt k
def State.putCv (s : State) (k : Nat) (c : Cv) : State := s.setTeam ((s.teamOf s.cur).setCv k c)

def Wave.ownOf (w : Wave) (k : Nat) : Option Nat := w.ownGen.getD k none
/-- The wave's own generation becomes the given one (R158, R159). -/
def Wave.setOwn (w : Wave) (k : Nat) (g : Option Nat) (signs : Bool) : Wave :=
  let kept := w.ownOf k == g && w.signedGen.getD k false
  { w with ownGen := w.ownGen.set k g, signedGen := w.signedGen.set k (signs || kept) }

/-- The signed mask of a generation that timed out, by member. -/
def Cv.timedMask (c : Cv) (g : Nat) : Option (BitVec 64) := mget c.timed g

/-- The convergence-timeout trap that a wave takes on a register (R161), and the state after it. -/
def State.cvTrap (s : State) (k : Nat) (iss : List Nat) : Option Res :=
  match s.cur.ownOf k with
  | none => none
  | some g =>
    match (s.cvOf k).timedMask g with
    | none => none
    | some m => some (.trap { s with cur := s.cur.setOwn k none false } ⟨11, iss, 0, k + g * 2 ^ 16, m.toNat, []⟩)

/-- The timeout check of a barrier instruction or `exit`: generations that some lane of the wave signed. -/
def State.cvTrapAny (s : State) (iss : List Nat) : Option Res :=
  (List.range 8).findSome? (fun k => if s.cur.signedGen.getD k false then s.cvTrap k iss else none)

/-! ### Tiles (R166) -/

def State.tileAt (s : State) (core k : Nat) : Tile := mgetD (s.coreAt core).tiles k Tile.zero
def State.putTile (s : State) (core k : Nat) (t : Tile) : State :=
  let c := s.coreAt core
  s.setCore core { c with tiles := mputD Tile.zero c.tiles k t }

/-- The accumulator code of an element: binary64 lies in two tiles, the low 48 bits in the even one. -/
def tileElem (lo hi : Tile) (f64 : Bool) (n : Nat) : Nat :=
  (mgetD lo.elems n 0).toNat + (if f64 then (mgetD hi.elems n 0).toNat % 2 ^ 16 * 2 ^ 48 else 0)
def tilePut (lo hi : Tile) (f64 : Bool) (n v : Nat) : Tile × Tile :=
  ({ lo with elems := mputD 0 lo.elems n (BitVec.ofNat 48 v), bad := lo.bad.filter (· != n) },
   if f64 then { hi with elems := mputD 0 hi.elems n (BitVec.ofNat 48 (v / 2 ^ 48)) } else hi)

/-- The first `m` rows and columns of a tile, or pair, become unpredictable (R165, R177): values of the kind that
the tag names (R166). -/
def wildTile (ctr m : Nat) (f64 : Bool) (t : Tile × Tile) : Tile × Tile :=
  (List.range (m * m)).foldl (fun t n =>
    let e := 64 * (n / m) + n % m
    tilePut t.1 t.2 f64 e ((Config.free ctr e).toNat % 2 ^ (if t.1.tag == .s32 then 32 else 64))) t

/-- Rows that a degree of `EngEntry.wild` makes unpredictable. -/
def wildRows (wild m : Nat) : Nat := match wild with | 0 => 0 | 1 => m | _ => 64

/-- Elements of a tile of a core become unpredictable. -/
def State.wildElems (s : State) (core k m : Nat) (f64 : Bool) : State :=
  if m == 0 then s
  else
    let r := wildTile s.freeCtr m f64 (s.tileAt core k, s.tileAt core (k + 1))
    let s := s.freeNext.putTile core k r.1
    if f64 then s.putTile core (k + 1) r.2 else s

/-- Tiles that the operation of a register's signatures names. -/
def Cv.tiles (c : Cv) : List Nat :=
  match c.word with
  | some (v, _) =>
    if c.st != .declared then []
    else
      match decode v with
      | some (.mma f) | some (.mmas f) => if f.fc == 0 then [f.acc.toNat, f.acc.toNat + 1] else [f.acc.toNat]
      | _ => []
  | none => []

/-- A generation times out (R161): its signatures are discarded, and waves that wait on a register look again. A tile that another
instruction has named since the first signature is unpredictable all the same (R177). -/
def State.cvTimedOut (s : State) (grid team k : Nat) : State :=
  let t := s.teamAt grid team
  let c := t.cvAt k
  let named := c.tiles
  let spoiled := c.spoiled
  let c := { c with st := .timedOut, signed := [], frags := [], spoiled := 0, timed := mput c.timed c.gen (maskOf c.signed) }
  let s := s.setTeam (t.setCv k c)
  let s := if spoiled == 2 then s.wildElems t.core (t.tileBase + named.headD 0) 64 (named.length == 2) else s
  s.mapWaves (fun w =>
    if w.key.grid == grid && w.key.team == team && w.why == .cv then { w with why := .none } else w)

/-- The elapsed count of a register's generation is running (R157). -/
def Cv.counts (c : Cv) : Bool := c.st == .declared && c.word.isSome

/-- The bound on the elapsed count (R161). -/
def State.cvBound (s : State) (grid : Nat) : Nat := ((s.grids.find? (fun g => g.id == grid)).getD Grid.zero).ctx.cvBound

/-- Generations of the current wave's team whose elapsed count has reached the bound time out (R161). -/
def State.cvTick (s : State) : State :=
  (List.range 8).foldl (fun s k =>
    let c := s.cvOf k
    if c.counts && c.start + s.cvBound s.cur.key.grid ≤ s.gtc then s.cvTimedOut s.cur.key.grid s.cur.key.team k else s) s

/-- CONVERGENCE TIMEOUT (R161): the elapsed count of a register's generation reaches the bound. -/
def execConvergenceTimeout (grid team cv : Nat) (s : State) : Host.Outcome State Fault Refusal :=
  .next (
    let t := s.teamAt grid team
    let c := t.cvAt cv
    if t.saved || !c.counts then s
    else { s with gtc := max s.gtc (c.start + s.cvBound grid) }.cvTimedOut grid team cv)

/-- Threads of the wave's team that have exited, by `$tid`. -/
def State.exitedTids (s : State) (grid team : Nat) : List Nat :=
  (s.teamWaves grid team).flatMap (fun w => (w.lanes.filter (fun x => x.st == .exited)).map (fun x => x.tid))

/-- Members of the set that have exited. -/
def Cv.gone (c : Cv) (tids : List Nat) : List Nat :=
  (tids.filter (fun t => c.b ≤ t && t < c.b + c.s)).map (fun t => t - c.b)

/-- A declared generation whose members have all signed or exited without a signature is done (R160). -/
def Cv.closeEmpty (c : Cv) : Cv :=
  if c.st == .declared && c.word.isNone && (List.range c.s).all c.signed.contains then
    { c with st := .done, done := mput c.done c.gen 0 } else c

/-- `cvdecl` opens a generation. -/
def Cv.opened (c : Cv) (n b : Nat) (exited : List Nat) : Cv :=
  let c := { c with gen := (c.gen + 1) % 2 ^ 16, st := .declared, s := n, b := b, signed := [], word := none, start := 0,
                    frags := [], spoiled := 0, done := mdel c.done ((c.gen + 1) % 2 ^ 16), timed := mdel c.timed ((c.gen + 1) % 2 ^ 16) }
  { c with signed := (c.gone exited).foldl insNat [] }.closeEmpty

/-- The value of `cvdecl` is legal (R158). -/
def declLegal (v threads : Nat) : Bool :=
  let n := nbits v 0 7
  let b := nbits v 16 11
  (n == 8 || n == 16 || n == 32 || n == 64) && v == n + b * 2 ^ 16 && b % n == 0 && b + n ≤ threads

/-- The body of `cvdecl`. -/
def bodyCvdecl (f : FmtKey) (iss _ : List Nat) (s : State) : Res :=
  let s := s.cvTick
  let k := f.k.toNat
  let w := s.cur
  let v := (w.getS f.sa.toNat).toNat
  match s.cvTrap k iss with
  | some r => r
  | none =>
    if !declLegal v (s.gridOf w).threads then .trap s (illegal iss)
    else
      let c := s.cvOf k
      let n := nbits v 0 7
      let b := nbits v 16 11
      let exited := s.exitedTids w.key.grid w.key.team
      let adopt (c : Cv) : Res :=
        let s := s.putCv k c
        .done { s with cur := s.cur.setOwn k (some c.gen) false } []
      match c.st with
      | .idle | .done | .timedOut => adopt (c.opened n b exited)
      | .declared =>
        if c.word.isNone then
          let c := { c with s := n, b := b }
          adopt ({ c with signed := (c.gone exited).foldl insNat [] }.closeEmpty)
        else if c.s == n && c.b == b then adopt c
        else .wait .cv s
      | .issued => .wait .cv s

def execCvdecl (f : FmtKey) (s : State) : Host.Outcome State Fault Refusal := issue (.cvdecl f) s (bodyCvdecl f)

/-! ### Tiles and the engine's queue (R166, R168) -/

/-- Tiles that an entry names, within the team. -/
def EngEntry.tiles (e : EngEntry) : List Nat :=
  let two (p : Bool) : List Nat := if p then [e.tile, e.tile + 1] else [e.tile]
  match e.op with
  | .mma f .. => two (f.fc == 0)
  | .accld fmt .. => two (fmt == 0)
  | .accst fmt .. => two (fmt == 0)
  | .accstReg .. => [e.tile]
  | .acczero fmt => two (fmt == 0)

def tagOfFmt (fmt : Nat) : TileTag := if fmt == 0 then .f64 else if fmt == 0xB then .s32 else .xf48

/-- The tag that an entry gives its tile. -/
def EngEntry.setsTag (e : EngEntry) : Option TileTag :=
  match e.op with
  | .mma f .. => if f.z then some (tagOfFmt f.fc.toNat) else none
  | .accld fmt .. => some (tagOfFmt fmt)
  | .acczero fmt => some (tagOfFmt fmt)
  | _ => none

/-- The tag that a tile of the wave's team will have once the queue is empty. -/
def State.tagAhead (s : State) (k : Nat) : TileTag :=
  let t := s.teamOf s.cur
  let c := s.coreAt t.core
  c.engine.foldl (fun g e =>
    if e.who.grid == t.grid && e.who.team == t.idx && e.tile == k then e.setsTag.getD g else g)
    (s.tileAt t.core (t.tileBase + k)).tag

/-- The engine's queue of the wave's team is full. -/
def State.engineFull (s : State) : Bool := 8 ≤ (s.coreAt (s.teamOf s.cur).core).engine.length

/-- The engine's queue has room for `n` entries more. -/
def State.engineRoom (s : State) (n : Nat) : Bool := (s.coreAt (s.teamOf s.cur).core).engine.length + n ≤ 8

/-- Enter an entry. Where it names a tile of an operation that has been signed and has still to enter, both are spoiled
(R177). -/
def State.enter (s : State) (e : EngEntry) : State :=
  let t := s.teamAt e.who.grid e.who.team
  let names (c : Cv) : Bool := c.tiles.any e.tiles.contains
  let s := if t.cv.any names then s.setTeam { t with cv := t.cv.map (fun c => if names c then { c with spoiled := 2 } else c) } else s
  let c := s.coreAt t.core
  s.setCore t.core { c with engine := c.engine ++ [if t.cv.any names then { e with wild := 2 } else e] }
def State.enqueue (s : State) (who : WKey) (tile : Nat) (op : EngOp) : State := s.enter ⟨who, tile, op, 0⟩

/-! ### Signatures (R159) -/

/-- The recorded word: guard and mode bits cleared. -/
def signWord (v : Word64) : Word64 := v &&& 0xFF07FFFFFFFFFFF3

/-- Bytes of the B operand of `mmas` (R170). -/
def operandBytes (f : FmtX) : Nat := 32 * shapeM f.shape.toNat + (if f.fb == 6 then shapeM f.shape.toNat else 0)

/-- The fragments of a lane now (R163). -/
def Wave.fragA (w : Wave) (f : FmtX) (s l : Nat) : List Elem :=
  (List.range (ra f * rowsEach f s)).map (fun k => (w.lane l).getV (f.va.toNat + k))
def Wave.fragB (w : Wave) (f : FmtX) (s l : Nat) : List Elem :=
  (List.range (8 * rowsEach f s)).map (fun k => (w.lane l).getV (f.vb.toNat + k))

/-- Registers of a signature. -/
def fragRegs (f : FmtX) (scratch : Bool) (s : Nat) : List Nat :=
  (List.range (ra f * rowsEach f s)).map (fun k => f.va.toNat + k) ++
  (if scratch then [] else (List.range (8 * rowsEach f s)).map (fun k => f.vb.toNat + k))

/-- The checks at a signature, in order (R159). -/
def signCheck (f : FmtX) (scratch : Bool) (handle : Nat) (word : Word64) (iss act : List Nat) (s : State) : Option TrapReq :=
  let w := s.cur
  let c := s.cvOf f.cv.toNat
  let g := s.gridOf w
  let acc := f.acc.toNat
  let top := if f.fc == 0 then acc + 1 else acc
  if !suits f.shape.toNat c.s then some (illegal iss)
  else if c.st != .declared then some (illegal iss)
  else if act.any (fun l => let t := (w.lane l).tid; t < c.b || c.b + c.s ≤ t || c.signed.contains (t - c.b)) then
    some (illegal iss)
  else if scratch && (nbits handle 21 11 != 0 || handle / 2 ^ 48 != 0 || nbits handle 0 21 % 64 != 0) then
    some (illegal iss)
  else if (match c.word with | some (v, h) => v != word || h.toNat != handle | none => false) then some (illegal iss)
  else if g.p.acc ≤ top then some { trapOf 3 iss with infoA := regInfo 2 (max acc g.p.acc) }
  else if !f.z && s.tagAhead acc != tagOfFmt f.fc.toNat then some (illegal iss)
  else if scratch && g.p.scratch < nbits handle 0 21 + operandBytes f then
    some (protection iss (0xFFFFFF0000000000 + nbits handle 0 21))
  else none

/-- Mark members signed, with their fragments. -/
def Cv.sign (c : Cv) (now : Nat) (word : Word64) (handle : Nat) (frags : List Frag) : Cv :=
  let c := if c.word.isNone then { c with word := some (word, BitVec.ofNat 64 handle), start := now } else c
  { c with signed := frags.foldl (fun m x => insNat m x.rank) c.signed, frags := c.frags ++ frags }

/-- Every member has signed. -/
def Cv.full (c : Cv) : Bool := (List.range c.s).all c.signed.contains

/-- The operation of the recorded word. -/
def Cv.opOf (c : Cv) (k : Nat) : Option (EngOp × Nat) :=
  match c.word with
  | none => none
  | some (v, h) =>
    match decode v with
    | some (.mma f) => some (.mma f false h k c.gen c.s c.b c.frags 0 [] none, f.acc.toNat)
    | some (.mmas f) => some (.mma f true h k c.gen c.s c.b c.frags 0 [] none, f.acc.toNat)
    | _ => none

/-- Issue the operation of a full generation, by the wave whose lanes made the last signature (R159). -/
def State.cvIssue (s : State) (who : WKey) (k : Nat) : State :=
  let t := s.teamAt who.grid who.team
  let c := t.cvAt k
  match c.opOf k with
  | none => s
  | some (op, tile) => (s.setTeam (t.setCv k { c with st := .issued, frags := [] })).enter ⟨who, tile, op, c.spoiled⟩

/-- What a lane contributes by its signature: its fragments as they stand, with what may stand in their place where the `orf` is
missing (R163, R164). -/
def Wave.frag (w : Wave) (f : FmtX) (scratch : Bool) (c : Cv) (l : Nat) : Frag :=
  let regs := fragRegs f scratch c.s
  { rank := (w.lane l).tid - c.b, tid := (w.lane l).tid, a := w.fragA f c.s l, b := if scratch then [] else w.fragB f c.s l,
    alt := (w.lane l).old.filter (fun e => regs.contains e.1), late := regs.filter w.vEmpty.contains }

/-- The fragment registers of a signature, which must not be written until its wave has observed the completion (R165). -/
def Wave.watch1 (w : Wave) (f : FmtX) (scratch : Bool) (k : Nat) (c : Cv) (act : List Nat) : Watch :=
  { cv := k, gen := c.gen, tile := f.acc.toNat, size := shapeM f.shape.toNat, pair := f.fc == 0,
    tids := act.map (fun l => (w.lane l).tid), regs := fragRegs f scratch c.s, hit := false }

/-- The body of `mma` and `mmas`. -/
def bodySign (f : FmtX) (scratch : Bool) (i : Instr) (iss act : List Nat) (s : State) : Res :=
  let s := s.cvTick
  let w := s.cur
  let k := f.cv.toNat
  let handle := if scratch then (w.getS (baseS f.vb)).toNat else 0
  let word := signWord (encode i)
  match s.cvTrap k iss with
  | some r => r
  | none =>
    match (if act.isEmpty then none else signCheck f scratch handle word iss act s) with
    | some t => .trap s t
    | none =>
      let c := s.cvOf k
      let c := c.sign s.gtc word handle (act.map (w.frag f scratch c))
      if act.isEmpty then .done s []
      else if c.full && s.engineFull then .wait .engine s
      else
        let s := s.putCv k c
        let w := s.cur.setOwn k (some c.gen) true
        let s := { s with cur := { w with watch := w.watch ++ [w.watch1 f scratch k c act] } }
        .done (if c.full then s.cvIssue w.key k else s) []

def execMma (f : FmtX) (s : State) : Host.Outcome State Fault Refusal := issue (.mma f) s (bodySign f false (.mma f))
def execMmas (f : FmtX) (s : State) : Host.Outcome State Fault Refusal := issue (.mmas f) s (bodySign f true (.mmas f))

/-! ### Performing an operation (R169) -/

/-- Bytes of registers, little-endian. -/
def elemBytes (es : List Elem) : List Nat := es.flatMap (fun e => (leBytes 4 e.toNat).map BitVec.toNat)

/-- The `j`-th element of `n` bytes of a row. -/
def rowElem (bs : List Nat) (n j : Nat) : Nat := ((bs.drop (n * j)).take n).foldr (fun b acc => b + 256 * acc) 0

/-- Bytes of an element of a matrix format. -/
def matBytes (fmt : Nat) : Nat := fmtBits fmt / 8

/-- The bytes of row `r` of a fragment set: member r mod S, its part r div S. A member that has exited holds zeros, of which `pad` is
each byte (R160). -/
def rowBytes (frags : List (Nat × List Elem)) (s regs pad r : Nat) : List Nat :=
  match frags.find? (fun x => x.1 == r % s) with
  | some (_, es) => elemBytes ((es.drop (regs * (r / s))).take regs)
  | none => List.replicate (4 * regs) pad

/-- Registers of a fragment with elements of `n` bytes: where two values may be contributed, each element has one of them
(R164). `base` numbers the choices. -/
def eitherRegs (ctr base n : Nat) (xs ys : List Elem) : List Elem :=
  (List.range xs.length).map (fun k =>
    let x := (xs.getD k 0).toNat
    let y := (ys.getD k 0).toNat
    BitVec.ofNat 32 (leNat ((List.range 4).map (fun j =>
      BitVec.ofNat 8 ((if tbit (Config.free ctr (base + (4 * k + j) / n)) 0 then y else x) / 2 ^ (8 * j))))))

/-- THE FRAGMENTS THAT THE ENGINE READS (R164): those of the signatures, and where the `orf` was missing, in each element, the
value before or after the last write, or before or after the write of a producer. -/
def State.readFrag (s : State) (grid team : Nat) (f : FmtX) (x : Frag) : Frag :=
  if x.alt.isEmpty && x.late.isEmpty then x
  else
    let lane := ((s.teamWaves grid team).flatMap (fun w => (w.ck.getD w.toArch).lanes)).find? (fun l => l.tid == x.tid)
    let other (r : Nat) (v : Elem) : Elem :=
      if x.late.contains r then (lane.map (fun l => l.getV r)).getD v else mgetD x.alt r v
    let side (base n first : Nat) (es : List Elem) : List Elem :=
      eitherRegs s.freeCtr base n es ((List.range es.length).map (fun k => other (first + k) (es.getD k 0)))
    { x with a := side (2 ^ 13 * x.tid) (matBytes f.fa.toNat) f.va.toNat x.a,
             b := side (2 ^ 13 * x.tid + 2 ^ 12) (matBytes f.fb.toNat) f.vb.toNat x.b, alt := [], late := [] }

/-- The B operand of `mmas`, through the operand cache: a hit on changed bytes uses either (R170). -/
def State.operand (s : State) (t : Team) (f : FmtX) (handle : Word64) : List Byte × State :=
  let off := nbits handle.toNat 0 21
  let gen := nbits handle.toNat 32 16
  let g := (s.grids.find? (fun g => g.id == t.grid)).getD Grid.zero
  let now := (List.range (operandBytes f)).map (fun k => Memory.read s.mem (teamScr g t (off + k)))
  let c := s.coreAt t.core
  let key (e : OpEntry) : Bool :=
    e.grid == t.grid && e.team == t.idx && e.off == off && e.gen == gen && e.fb == f.fb.toNat && e.shape == f.shape.toNat
  match c.opcache.find? key with
  | some e =>
    if e.bytes == now then (now, s)
    else (if tbit (s.free 0) 0 then e.bytes else now, s.freeNext)
  | none =>
    let e : OpEntry := { grid := t.grid, team := t.idx, off := off, gen := gen, fb := f.fb.toNat, shape := f.shape.toNat, bytes := now }
    (now, s.setCore t.core { c with opcache := (e :: c.opcache).take 64 })

/-- What an operation reads when it begins: its fragments, and the B operand of `mmas`. -/
def State.opInputs (s : State) (t : Team) (f : FmtX) (scratch : Bool) (handle : Word64) (frags : List Frag) (op : Option (List Byte)) :
    State × List Frag × List Byte :=
  let open_ := frags.any (fun x => !(x.alt.isEmpty && x.late.isEmpty))
  let read := if open_ then frags.map (s.readFrag t.grid t.idx f) else frags
  let s := if open_ then s.freeNext else s
  match op with
  | some bs => (s, read, bs)
  | none => if scratch then let r := s.operand t f handle; (r.2, read, r.1) else (s, read, [])

/-- Products of one element, in k-order: row of A, column of B, block code. -/
def elemProducts (contract : Nat) (f : FmtX) (k : Nat) (a b : List Nat) (code : Nat) : List (FVal × BitVec 6) :=
  (List.range k).map (fun j =>
    let x := matRead contract f.fa.toNat (rowElem a (matBytes f.fa.toNat) j)
    let c := rowElem b (matBytes f.fb.toNat) j
    matProd x (if f.fb == 6 then dp8Scaled c code else matRead contract f.fb.toNat c))
def elemInts (f : FmtX) (k : Nat) (a b : List Nat) : List Int :=
  (List.range k).map (fun j => matInt f.fa.toNat (rowElem a 1 j) * matInt f.fb.toNat (rowElem b 1 j))

/-- The steps of an element from `k0` up to `k1`. -/
def stepsFrom (fuel contract : Nat) (f : FmtX) (k k0 k1 : Nat) (ps : List (FVal × BitVec 6)) (is : List Int) (x : Elt) : Elt :=
  match fuel with
  | 0 => x
  | n + 1 =>
    if k1 ≤ k0 then x
    else
      let y := if f.fc == 11 then intStep k0 is x else if f.fc == 0 then f64Step k0 ps x else xfStep contract k k0 ps x
      stepsFrom n contract f k (k0 + kStep contract k (f.fc == 11) (f.fc == 0)) k1 ps is y

/-- The accumulator, partial values and status while an operation runs. -/
structure OpRun where
  lo : Tile
  hi : Tile
  part : Map (BitVec 64)
  flags : BitVec 6
  deriving DecidableEq, Repr

/-- Perform the steps `k0` to `k1` of an operation on every element of its shape. -/
def runSteps (contract : Nat) (f : FmtX) (as bs : Nat → List Nat) (codes : Nat → Nat) (k0 k1 : Nat) (r : OpRun) : OpRun :=
  let m := shapeM f.shape.toNat
  let k := shapeK f.shape.toNat
  let f64 := f.fc == 0
  (List.range (m * m)).foldl (fun (r : OpRun) n =>
    let e := 64 * (n / m) + n % m
    let x := stepsFrom 40 contract f k k0 k1
      (if f.fc == 11 then [] else elemProducts contract f k (as (n / m)) (bs (n % m)) (codes (n % m)))
      (if f.fc == 11 then elemInts f k (as (n / m)) (bs (n % m)) else [])
      { acc := tileElem r.lo r.hi f64 e, part := (mgetD r.part e 0).toNat, flags := 0 }
    let t := tilePut r.lo r.hi f64 e x.acc
    { lo := t.1, hi := t.2, part := mputD 0 r.part e (BitVec.ofNat 64 x.part), flags := r.flags ||| x.flags }) r

/-- A tile set by `.z`, `acczero` or `accld`: +0, tag, status clear. -/
def Tile.cleared (tag : TileTag) : Tile := { elems := [], tag := tag, status := 0, bad := [] }

/-- Carry an operation from its k-progress to `k1` products. -/
def State.runOp (s : State) (e : EngEntry) (f : FmtX) (scratch : Bool) (n : Nat) (frags : List Frag)
    (k0 k1 : Nat) (part : Map (BitVec 64)) (op : List Byte) : State × Map (BitVec 64) :=
  let t := s.teamAt e.who.grid e.who.team
  let g := (s.grids.find? (fun g => g.id == t.grid)).getD Grid.zero
  let fa := frags.map (fun x => (x.rank, x.a))
  let fb := frags.map (fun x => (x.rank, x.b))
  let bytes := op.map BitVec.toNat
  let colsAt (c : Nat) : List Nat := if scratch then (bytes.drop (32 * c)).take 32 else rowBytes fb n 8 (zeroOf f.fb.toNat) c
  let code (c : Nat) : Nat := if scratch then bytes.getD (32 * shapeM f.shape.toNat + c) 0 else 0x78
  let k := t.tileBase + e.tile
  let tag := tagOfFmt f.fc.toNat
  let lo := if f.z && k0 == 0 then Tile.cleared tag else s.tileAt t.core k
  let hi := if f.fc != 0 then Tile.zero else if f.z && k0 == 0 then Tile.cleared .xf48 else s.tileAt t.core (k + 1)
  let r := runSteps g.p.contract f (rowBytes fa n (ra f) (zeroOf f.fa.toNat)) colsAt code k0 k1 { lo := lo, hi := hi, part := part, flags := 0 }
  let s := s.putTile t.core k { r.lo with status := r.lo.status ||| r.flags }
  (if f.fc == 0 then s.putTile t.core (k + 1) r.hi else s, r.part)

/-- An entry may be performed: no earlier entry of the queue names its tiles or has its issuer (R168, R284). -/
def engineReady (q : List EngEntry) (k : Nat) : Bool :=
  match q[k]? with
  | none => false
  | some e =>
    (q.take k).all (fun b => b.who != e.who &&
      !(b.who.grid == e.who.grid && b.who.team == e.who.team && b.tiles.any e.tiles.contains))

/-- Waves of a core that wait for the engine or a convergence register look again. -/
def State.wakeEngine (s : State) (grid team : Nat) : State :=
  s.mapWaves (fun w => if w.key.grid == grid && w.key.team == team && (w.why == .cv || w.why == .engine || w.why == .regs || w.why == .drain)
    then { w with why := .none } else w)

/-- Remove an entry. -/
def State.dequeue (s : State) (core k : Nat) : State :=
  let c := s.coreAt core
  s.setCore core { c with engine := c.engine.take k ++ c.engine.drop (k + 1) }

/-- MMA OPERATION COMPLETE: the engine finishes the `k`-th entry of a core's queue, an operation; the tile's status
is the generation's (R169). -/
def execMmaOperationComplete (core k : Nat) (s : State) : Host.Outcome State Fault Refusal :=
  .next (
    let q := (s.coreAt core).engine
    match q[k]? with
    | some e =>
      match e.op with
      | .mma f scratch handle cv gen n _ frags kp part op =>
        if engineReady q k then
          let t := s.teamAt e.who.grid e.who.team
          let (s, frags, bs) := (s.dequeue core k).opInputs t f scratch handle frags op
          let s := (s.runOp e f scratch n frags kp (shapeK f.shape.toNat) part bs).1
          let s := s.wildElems t.core (t.tileBase + e.tile) (wildRows e.wild (shapeM f.shape.toNat)) (f.fc == 0)
          let c := t.cvAt cv
          let st := (s.tileAt t.core (t.tileBase + e.tile)).status
          let c := { c with st := if c.gen == gen then .done else c.st, done := mput c.done gen st }
          (s.setTeam (t.setCv cv c)).wakeEngine e.who.grid e.who.team
        else s
      | _ => s
    | none => s)

/-- The engine performs one k-step of the `k`-th entry (R178). -/
def State.kstep (s : State) (core k : Nat) : State :=
  let q := (s.coreAt core).engine
  match q[k]? with
  | some e =>
    match e.op with
    | .mma f scratch handle cv gen n b frags kp part op =>
      let g := (s.grids.find? (fun g => g.id == e.who.grid)).getD Grid.zero
      let kk := shapeK f.shape.toNat
      let next := kp + kStep g.p.contract kk (f.fc == 11) (f.fc == 0)
      if engineReady q k && next < kk then
        let (s, frags, bs) := s.opInputs (s.teamAt e.who.grid e.who.team) f scratch handle frags op
        let (s, part) := s.runOp e f scratch n frags kp next part bs
        let c := s.coreAt core
        s.setCore core { c with engine := c.engine.set k { e with op := .mma f scratch handle cv gen n b frags next part (some bs) } }
      else s
    | _ => s
  | none => s

/-! ### Waiting and fences (R172) -/

/-- The wave has observed the completion of a generation: its fragment registers may be written (R165). -/
def Wave.observed (w : Wave) (k g : Nat) : Wave := { w with watch := w.watch.filter (fun x => !(x.cv == k && x.gen == g)) }

/-- A fragment register of a signature has been written: what the operation writes, or has written, is unpredictable (R165). -/
def State.breakOp (s : State) (key : WKey) (x : Watch) : State :=
  let t := s.teamAt key.grid key.team
  let c := t.cvAt x.cv
  let core := s.coreAt t.core
  let mine (e : EngEntry) : Bool := e.who.grid == t.grid && e.who.team == t.idx &&
    (match e.op with | .mma _ _ _ cv gen .. => cv == x.cv && gen == x.gen | _ => false)
  if c.gen == x.gen && c.st == .declared then s.setTeam (t.setCv x.cv { c with spoiled := max c.spoiled 1 })
  else if core.engine.any mine then
    s.setCore t.core { core with engine := core.engine.map (fun e => if mine e then { e with wild := max e.wild 1 } else e) }
  else if (mget c.done x.gen).isSome then s.wildElems t.core (t.tileBase + x.tile) x.size x.pair
  else s

/-- Writes of fragment registers take their effect on the operations, once no speculation can take them back (R165). -/
def State.breaches (s : State) : State :=
  s.waves.foldl (fun s w =>
    let hits := w.watch.filter (fun x => x.hit)
    if hits.isEmpty || w.spec != 0 then s
    else (hits.foldl (fun s x => s.breakOp w.key x) s).onWave w.key (fun w => { w with watch := w.watch.filter (fun x => !x.hit) })) s

/-- The body of `mmaw`. -/
def bodyMmaw (f : FmtCv) (iss act : List Nat) (s : State) : Res :=
  let s := s.cvTick
  let k := f.k.toNat
  match s.cur.ownOf k with
  | none => .done s []
  | some g =>
    match s.cvTrap k iss with
    | some r => r
    | none =>
      let c := s.cvOf k
      match mget c.done g with
      | some st => if act.isEmpty then .done s [] else .done { s with cur := (s.cur.observed k g).orFlags act (fun _ => st) } []
      | none => .wait .cv s

def execMmaw (f : FmtCv) (s : State) : Host.Outcome State Fault Refusal := issue (.mmaw f) s (bodyMmaw f)

/-- The body of `orf`. -/
def bodyOrf (_ _ : List Nat) (s : State) : Res :=
  let w := s.cur
  if !w.vEmpty.isEmpty then .wait (if w.pend.all w.drainOf then .drain else .regs) s
  else if w.pw.any (fun e => e.kind != .drain) then .wait .release s
  else .done { s with cur := { w with lanes := w.lanes.map (fun x => { x with old := [] }) } } []

def execOrf (f : FmtG) (s : State) : Host.Outcome State Fault Refusal := issue (.orf f) s bodyOrf

/-- The wave has drains that have not written all their bytes. -/
def State.drains (s : State) (w : Wave) : Bool :=
  w.pw.any (fun e => e.kind == .drain) ||
  (s.coreAt (s.teamOf w).core).engine.any (fun e => e.who == w.key && (match e.op with | .accst .. => true | _ => false))

/-- The body of `spfence`. -/
def bodySpfence (_ _ : List Nat) (s : State) : Res :=
  let w := s.cur
  if s.drains w then .wait .drain s
  else
    let t := s.teamOf w
    let c := s.coreAt t.core
    let s := s.setCore t.core { c with opcache := c.opcache.filter (fun e => !(e.grid == t.grid && e.team == t.idx)) }
    .done { s with cur := { s.cur with wct := max w.wct w.dct, dct := 0 } } []

def execSpfence (f : FmtG) (s : State) : Host.Outcome State Fault Refusal := issue (.spfence f) s bodySpfence

/-! ### accld, accst, acczero (R173 to R176) -/

/-- The body of `acczero`. -/
def bodyAcczero (f : FmtTile) (_ _ : List Nat) (s : State) : Res :=
  if s.engineFull then .wait .engine s
  else .done (s.enqueue s.cur.key f.acc.toNat (.acczero f.fmt.toNat)) []

def execAcczero (f : FmtTile) (s : State) : Host.Outcome State Fault Refusal := issue (.acczero f) s (bodyAcczero f)

/-- Bytes of an element in memory (R175). -/
def tileBytes (fmt : Nat) : Nat := if fmt == 0xF then 8 else fmtBits fmt / 8

/-- The address of a tile access. -/
def State.tileEa (s : State) (f : FmtTile) : Nat := wrapTo 64 (((s.cur.getS f.reg.toNat).toNat : Int) + 64 * (f.off.toNat : Int))

/-- What `accld` and `accst` need (R175). -/
def needAccld : AccNeed := ⟨true, false, false, false, false, true, false, true⟩
def needAccst : AccNeed := ⟨false, true, false, false, false, false, false, true⟩

/-- A tile access: its pieces, or the trap or fault. -/
def tileRange (s : State) (f : FmtTile) (need : AccNeed) (act : List Nat) : Except Res (List LaneAcc) :=
  let ea := s.tileEa f
  if ea % 64 != 0 then .error (.trap s ⟨5, act, ea, 0, 0, act.map (fun l => (l, 5))⟩)
  else
    let as := rangeAcc s s.cur false need 0 (s.cur.lane (s.cur.lowestTid act)).tid ea (4096 * tileBytes f.fmt.toNat)
    match rangeFailed s act ea as with
    | some r => .error (retiring s (as.map (fun a => (0, a))) r)
    | none => .ok as

/-- One element that `accld` reads: code and status (R175). A binary64 NaN becomes the canonical NaN of its format (log 43). -/
def accldVal (contract fmt v : Nat) : Nat × BitVec 6 :=
  match fmt with
  | 0x1 => let x := fF32.read contract v; (fXf48.encodeExact x, flIf x.isSig flInvalid)
  | 0xF => (fXf48.encodeExact (fXf48.decode (v % 2 ^ 48)), 0)
  | 0x0 => let x := fF64.decode v; (if x.isNan then fF64.cnan else v, flIf x.isSig flInvalid)
  | _ => (v % 2 ^ 32, 0)

/-- A range is read now: what comes before such a read of the wave is done first, on the main path (R227) and on the fall-back
path (R233). -/
def State.readsRange (s : State) (as : List LaneAcc) : State :=
  let late := ((rangeLocs as).filter (fun a => a.2 == 3)).map Prod.fst
  let s := s.beforeRead ((rangeLocs as).any (fun a => a.2 != 3)) true
  { s with cur := s.readLate s.cur (fun _ => true) late }

/-- The body of `accld`. -/
def bodyAccld (f : FmtTile) (_ act : List Nat) (s : State) : Res :=
  match tileRange s f needAccld act with
  | .error r => r
  | .ok as =>
    if s.engineFull then .wait .engine s
    else
      let s := s.readsRange as
      let bs := s.rangeBytes s.cur as
      let n := tileBytes f.fmt.toNat
      let vs := (List.range 4096).map (fun k => accldVal s.contract f.fmt.toNat (leNat ((bs.drop (n * k)).take n)))
      let elems := (List.range 4096).foldl (fun (m : Map (BitVec 64)) k =>
        mputD 0 m k (BitVec.ofNat 64 (vs.getD k (0, 0)).1)) []
      let st := vs.foldl (fun (x : BitVec 6) v => x ||| v.2) 0
      let s := s.countAccess (as.map LaneAcc.access)
      .done (s.enqueue s.cur.key f.acc.toNat (.accld f.fmt.toNat elems st)) []

def execAccld (f : FmtTile) (s : State) : Host.Outcome State Fault Refusal := issue (.accld f) s (bodyAccld f)

/-- The tag that a drain accepts (R176). -/
def drainTag (fmt : Nat) (t : TileTag) : Bool :=
  if fmt == 0xB then t == .s32 else if fmt == 0 then t == .xf48 || t == .f64 else t == .xf48

/-- The scale of a drain: `sc` [31:0]. -/
def State.drainScale (s : State) (f : FmtTile) : Option Elem :=
  if f.scale then some (BitVec.ofNat 32 (s.cur.getS f.sc.toNat).toNat) else none

/-- The body of the memory form of `accst`. -/
def bodyAccst (f : FmtTile) (iss act : List Nat) (s : State) : Res :=
  if !drainTag f.fmt.toNat (s.tagAhead f.acc.toNat) then .trap s (illegal iss)
  else
    match tileRange s f needAccst act with
    | .error r => r
    | .ok as =>
      if s.engineFull then .wait .engine s
      else
        let locs := (rangeLocs as).map Prod.fst
        let fb := as.any (fun a => a.access.cls == 3)
        .done (s.enqueue s.cur.key f.acc.toNat
          (.accst f.fmt.toNat (s.drainScale f) f.sat locs (act.map (fun l => (s.cur.lane l).tid)) fb)) []

def execAccst (f : FmtTile) (s : State) : Host.Outcome State Fault Refusal := issue (.accst f) s (bodyAccst f)

/-- The body of the register form. -/
def bodyAccstReg (f : FmtTile) (iss act : List Nat) (s : State) : Res :=
  let w := s.cur
  let v := (w.getS f.sb.toNat).toNat
  if 64 ≤ v || 64 < v + w.width then .trap s (illegal iss)
  else if !drainTag f.fmt.toNat (s.tagAhead f.acc.toNat) then .trap s (illegal iss)
  else if s.engineFull then .wait .engine s
  else
    let id := w.nextPend
    let regs := (List.range 64).map (fun k => f.reg.toNat + k)
    -- `fabric` marks a producer that no data return completes
    let s := s.addPend { vecPend [] regs true with id := id } act
    .done (s.enqueue w.key f.acc.toNat
      (.accstReg f.fmt.toNat (s.drainScale f) v f.reg.toNat id (act.map (fun l => (l, (w.lane l).tid))))) []

def execAccstReg (f : FmtTile) (s : State) : Host.Outcome State Fault Refusal := issue (.accstReg f) s (bodyAccstReg f)

/-- What a drain gives of a tile: its status, and the value and flags of each element. Of a spoiled drain each is any value of the
drain's format, which raises no flag (R177, R2). -/
def State.drainSource (s : State) (t : Team) (e : EngEntry) (contract fmt : Nat) (scale : Option FVal) (sat : Bool) :
    BitVec 6 × (Nat → Nat × BitVec 6) :=
  let lo := s.tileAt t.core (t.tileBase + e.tile)
  let hi := s.tileAt t.core (t.tileBase + e.tile + 1)
  let pair := fmt == 0 && lo.tag == .f64
  (lo.status, fun n =>
    if e.wild == 0 then drainVal contract fmt scale lo.tag sat (tileElem lo hi pair n)
    else ((s.free n).toNat % 2 ^ (if fmt == 0xF then 48 else fmtBits fmt), 0))

/-- Threads of a team, wherever they are, receive flags (R133, R176), which a speculation does not take back. -/
def State.flagTids (s : State) (grid team : Nat) (tids : List Nat) (f : Nat → BitVec 6) : State :=
  s.mapWaves (fun w =>
    if w.key.grid == grid && w.key.team == team then
      w.both (fun w => w.orFlags (w.liveLanes.filter (fun l => tids.contains (w.lane l).tid)) (fun l => f (w.lane l).tid))
    else w)

/-- A drain into registers writes what is still to be written of its destinations, in the lanes in which its threads are (R31,
R39). -/
def Wave.drainRegs (w : Wave) (vd pend : Nat) (lanes : List (Nat × Nat)) (val : Nat → Nat → Nat) : Wave :=
  let regs := (w.pend.filter (fun p => p.id == pend)).flatMap (fun p => p.regs)
  w.both (fun w =>
    let w := lanes.foldl (fun (w : Wave) p => (w.idx.filter (fun l => (w.lane l).tid == p.2)).foldl (fun (w : Wave) l =>
      regs.foldl (fun (w : Wave) r => w.storeV l r (BitVec.ofNat 32 (val p.1 (r - vd)))) w) w) w
    { w with vEmpty := w.vEmpty.filter (fun r => !regs.contains r) })

/-- A tile, or pair, takes new contents; unpredictable ones for a spoiled entry (R177). -/
def State.newTile (s : State) (core k : Nat) (f64 : Bool) (r : Tile × Tile) (wild : Nat) : State :=
  let s := s.putTile core k r.1
  (if f64 then s.putTile core (k + 1) r.2 else s).wildElems core k (wildRows wild 64) f64

/-- ENGINE ENTRY COMPLETE: the engine performs the `k`-th entry of a core's queue, a tile load, drain or zeroing
(R168, R174 to R176). -/
def execEngineEntryComplete (core k : Nat) (s : State) : Host.Outcome State Fault Refusal :=
  .next (
    let q := (s.coreAt core).engine
    match q[k]? with
    | some e =>
      if !engineReady q k then s
      else
        let t := s.teamAt e.who.grid e.who.team
        let contract := ((s.grids.find? (fun g => g.id == t.grid)).getD Grid.zero).p.contract
        let a := t.tileBase + e.tile
        let s' := (s.dequeue core k)
        let after (s : State) : State := if e.wild == 0 then s else s.freeNext
        let scaleOf (sc : Option Elem) : Option FVal := sc.map (fun x => fF32.read contract x.toNat)
        match e.op with
        | .mma .. => s
        | .acczero fmt =>
          (s'.newTile core a (fmt == 0) (Tile.cleared (tagOfFmt fmt), Tile.cleared .xf48) e.wild).wakeEngine t.grid t.idx
        | .accld fmt elems st =>
          let lo := { Tile.cleared (tagOfFmt fmt) with status := st }
          let r := elems.foldl (fun (p : Tile × Tile) x => tilePut p.1 p.2 (fmt == 0) x.1 x.2.toNat) (lo, Tile.cleared .xf48)
          (s'.newTile core a (fmt == 0) r e.wild).wakeEngine t.grid t.idx
        | .accst fmt sc sat base tids fb =>
          let (st, val) := s.drainSource t e contract fmt (scaleOf sc) sat
          let n := tileBytes fmt
          let vs := (List.range 4096).map val
          let bs := vs.flatMap (fun v => leBytes n v.1)
          let fl := vs.foldl (fun (x : BitVec 6) v => x ||| v.2) st
          let w : PWrite := { bytes := base.zip bs, kind := .drain, fb := fb, part := false }
          (after ((s'.flagTids t.grid t.idx tids (fun _ => fl)).onWave e.who (fun x =>
            { x with pw := x.pw ++ [w] }))).wakeEngine t.grid t.idx
        | .accstReg fmt sc row vd pend lanes =>
          let (st, drained) := s.drainSource t e contract fmt (scaleOf sc) false
          let val (l j : Nat) : Nat × BitVec 6 := drained (64 * (row + l) + j)
          let fl (tid : Nat) : BitVec 6 := match lanes.find? (fun p => p.2 == tid) with
            | some p => (List.range 64).foldl (fun (x : BitVec 6) j => x ||| (val p.1 j).2) st
            | none => 0
          (after ((s'.flagTids t.grid t.idx (lanes.map Prod.snd) fl).onWave e.who (fun w =>
            let w := w.drainRegs vd pend lanes (fun l j => (val l j).1)
            { w with pend := w.pend.filter (fun p => p.id != pend) }))).wakeEngine t.grid t.idx
    | none => s)

/-- Lanes exit: members of declared generations count as signed; a generation that becomes full issues, by the
exiting wave, or is done (R160). -/
def State.cvExit (s : State) (key : WKey) (tids : List Nat) : State :=
  (List.range 8).foldl (fun s k =>
    let t := s.teamAt key.grid key.team
    let c := t.cvAt k
    if c.st != .declared then s
    else
      let c := { c with signed := (c.gone tids).foldl insNat c.signed }
      if c.full && c.word.isSome then (s.setTeam (t.setCv k c)).cvIssue key k
      else (s.setTeam (t.setCv k c.closeEmpty)).wakeEngine key.grid key.team) s

/-- How many operations an exit of these threads would issue. -/
def State.cvExitIssues (s : State) (key : WKey) (tids : List Nat) : Nat :=
  ((List.range 8).filter (fun k =>
    let c := (s.teamAt key.grid key.team).cvAt k
    c.counts && ({ c with signed := (c.gone tids).foldl insNat c.signed } : Cv).full)).length

end Sys2Proof.Machine
end

