-- ==== Sys2Proof/Machine/Copy.lean ====
section
/-! DEFINITION. The copy engine (R199, R200, R215 to R222): issue of transfers, their start and completion, and
`cpyw`. -/

namespace Sys2Proof.Machine

/-! ### The on-chip physical map (R199, R200) -/

/-- Kind of a map address: 8 absolute, 9 relative to the team. -/
def mapKind (a : Nat) : Nat := a / 2 ^ 60
def isMap (a : Nat) : Bool := mapKind a == 8 || mapKind a == 9
/-- Core and window of an absolute address, and the byte within the window. -/
def mapCore (a : Nat) : Nat := nbits a 33 2 * 128 + nbits a 26 7
def mapWindow (a : Nat) : Nat := nbits a 24 2
def mapOff (a : Nat) : Nat := nbits a 0 24

/-- A map address keeps the rules of R199 or R200. -/
def mapValid (a : Nat) : Bool :=
  if mapKind a == 9 then nbits a 23 37 == 0
  else
    nbits a 35 25 == 0 &&
    (match mapWindow a with
     | 0 => true
     | 1 => mapOff a < 0xC0000
     | 2 => mapOff a < 0x180000
     | _ => false)

/-- It names a register. -/
def mapReg (a : Nat) : Bool := mapKind a == 9 || (mapKind a == 8 && mapWindow a == 0)

/-- The wave whose register a map address names: `own` is the wave that issued the transfer. -/
def State.mapWave (s : State) (own : WKey) (a : Nat) : Option Wave :=
  if mapKind a == 9 then
    (s.findWave ⟨own.grid, own.team, nbits a 18 5⟩).filter (fun w => w.lanes.any (fun x => x.st != .exited))
  else (s.coreWaves (mapCore a)).find? (fun w => w.place == nbits a 18 6)

def mapRegNum (a : Nat) : Nat := nbits a 8 10
def mapLane (a : Nat) : Nat := nbits a 2 6

/-- A number with one of its bytes changed. -/
def setByte (v b : Nat) (x : Byte) : Nat := v - nbits v (8 * b) 8 * 2 ^ (8 * b) + x.toNat * 2 ^ (8 * b)

/-- A copy writes a byte of a register: a checkpoint of the wave holds it too. A signature is broken by another wave's copy when it
writes, by the wave's own when it is issued (R165). -/
def Wave.copyPut (w : Wave) (own : Bool) (l r b : Nat) (x : Byte) : Wave :=
  let w := w.both (fun w => w.storeV l r (BitVec.ofNat 32 (setByte ((w.lane l).getV r).toNat b x)))
  if own then w else w.watched l [r]

/-- Registers become full, in the wave and in its checkpoint. -/
def Wave.fill (w : Wave) (regs : List Nat) : Wave :=
  let keep (l : List Nat) : List Nat := l.filter (fun r => !regs.contains r)
  { w with vEmpty := keep w.vEmpty, ck := w.ck.map (fun a => { a with vEmpty := keep a.vEmpty }) }

/-- Write a byte of the on-chip map; `none` where R219 does not let it be written. -/
def State.mapWrite (s : State) (own : WKey) (a : Nat) (x : Byte) : Option State :=
  if mapReg a then
    match s.mapWave own a with
    | none => none
    | some w =>
      if mapLane a < w.width && mapRegNum a < w.alloc then
        let w' := w.copyPut (w.key == own) (mapLane a) (mapRegNum a) (a % 4) x
        some (s.setWave (if w.key == own then w' else w'.fill [mapRegNum a]))
      else none
  else
    let o := mapOff a
    let t := s.tileAt (mapCore a) (o / 24576)
    let n := o % 24576 / 6
    let v := setByte (mgetD t.elems n 0).toNat (o % 24576 % 6) x
    some (s.putTile (mapCore a) (o / 24576) { t with elems := mputD 0 t.elems n (BitVec.ofNat 48 v),
                                                     bad := t.bad.filter (· != n) })

/-- Read a byte of the on-chip map; where there is no wave or register, the byte is unpredictable. -/
def State.mapRead (s : State) (own : WKey) (a k : Nat) : Byte :=
  let any := BitVec.ofNat 8 (s.free k).toNat
  if mapReg a then
    match s.mapWave own a with
    | some w => if mapLane a < w.width && mapRegNum a < w.alloc then
        BitVec.ofNat 8 (((w.lane (mapLane a)).getV (mapRegNum a)).toNat / 2 ^ (8 * (a % 4))) else any
    | none => any
  else
    let o := mapOff a
    BitVec.ofNat 8 ((mgetD (s.tileAt (mapCore a) (o / 24576)).elems (o % 24576 / 6) 0).toNat / 2 ^ (8 * (o % 24576 % 6)))

/-! ### Issue (R215 to R217) -/

/-- The rows of a transfer, and the checks of its shape (R215, R216): `none` where a limit is passed. A transfer of no
bytes has one empty row, whose addresses are checked like any other's. -/
def copyRows (w : Wave) (f : FmtCpy) (strided : Bool) : Option (List CopyRow) :=
  let dst := (w.getS f.sa.toNat).toNat
  let src := (w.getS f.sb.toNat).toNat
  let v := (w.getS f.sc.toNat).toNat
  if strided then
    let len := nbits v 0 32
    let n := nbits v 32 32
    let st := (w.getS (f.sc.toNat + 1)).toNat
    if f.sc.toNat % 2 == 1 || 126 < f.sc.toNat || 2 ^ 32 ≤ len * n then none
    else if len * n == 0 then some [{ dst := dst, src := src, len := 0 }]
    else some ((List.range n).map (fun (r : Nat) =>
      { dst := wrapTo 64 ((dst : Int) + (r : Int) * toSigned 32 (nbits st 32 32)),
        src := wrapTo 64 ((src : Int) + (r : Int) * toSigned 32 (nbits st 0 32)), len := len }))
  else if 2 ^ 32 ≤ v then none
  else some [{ dst := dst, src := src, len := v }]

/-- The range of a row meets the stack aperture. -/
def meetsStack (a n : Nat) : Bool :=
  let lo := 0xFFFFFE0000000000
  let hi := lo + 2 ^ 32
  a < hi && lo < a + n

/-- The trap of R216 that a range takes: cause and address. -/
def copyRangeTrap (priv isSrc : Bool) (a n : Nat) : Option (Nat × Nat) :=
  let n := max n 1
  if meetsStack a n || (isSrc && mapKind a == 9) then some (7, a)
  else if mapKind a == 8 && !priv then some (7, a)
  else if isMap a && !(mapValid a && mapValid (a + n - 1) && (a + n - 1) / 2 ^ 24 == a / 2 ^ 24) then some (7, a)
  else none

/-- The checks of R216 on the ranges, in the order of its table. -/
def copyTrap (priv : Bool) (rows : List CopyRow) : Option (Nat × Nat) :=
  match rows.findSome? (fun r => match copyRangeTrap priv true r.src r.len with
      | some t => some t
      | none => copyRangeTrap priv false r.dst r.len) with
  | some t => some t
  | none => rows.findSome? (fun r => if mapReg r.dst && (r.dst % 4 != 0 || r.len % 4 != 0) then some (5, r.dst) else none)

/-- The promise for a transfer (R217): the smallest value at or after the estimate whose bits [3:0] equal q. -/
def promiseAt (now len q : Nat) : Nat :=
  let e := max now (Config.copyEstimate len now)
  e + (q + 16 - e % 16) % 16

/-- The map addresses of the registers that a row reaches, one for each. -/
def CopyRow.regUnits (r : CopyRow) : List Nat :=
  (List.range ((r.dst % 256 + r.len + 255) / 256)).map (fun k => r.dst / 256 * 256 + 256 * k)

/-- Registers of the issuing wave that the rows write (R219). -/
def State.ownDst (s : State) (rows : List CopyRow) : List Nat :=
  let w := s.cur
  let own (a : Nat) : Bool := mapReg a && mapRegNum a < w.alloc && (s.mapWave w.key a).any (fun x => x.key == w.key)
  (rows.flatMap (fun r => if mapReg r.dst then (r.regUnits.filter own).map mapRegNum else [])).foldl insNat []

/-- A slot is free: none, or a finished copy that a sleeper has still to see. -/
def Copy.isFree : Option Copy → Bool
  | none => true
  | some c => match c.phase with | .complete _ => true | _ => false

/-- The trap that a failed transfer takes at `cpyw` (R220); for an element with an uncorrectable error it is escalated (R211). -/
def Copy.errTrap (c : Copy) (contract : Nat) (lanes : List Nat) : Option TrapReq :=
  match c.phase with
  | .failed cause addr info =>
    some ⟨cause, lanes, addr, if cause == 8 then info else 0, if cause == 8 then contract else if cause == 9 || cause == 6 then info else 0, []⟩
  | _ => none

/-- The body of `cpy` and `cpys`. -/
def bodyCpy (f : FmtCpy) (strided : Bool) (iss act : List Nat) (s : State) : Res :=
  let w := s.cur
  match copyRows w f strided with
  | none => .trap s (illegal iss)
  | some rows =>
    match copyTrap w.privileged rows with
    | some (cause, addr) => .trap s ⟨cause, iss, addr, 0, 0, []⟩
    | none =>
      let len := rows.foldl (fun n r => n + r.len) 0
      match (List.range 16).find? (fun q => Copy.isFree (w.copies.getD q none)) with
      | some q =>
        let p := promiseAt s.gtc len q
        let w := w.setS f.sd.toNat (BitVec.ofNat 64 p)
        let regs := s.ownDst rows
        if regs.any w.vEmpty.contains then .wait .regs s
        else if len == 0 then .done { s with cur := { w with rct := max w.rct s.gtc } } []
        else
          let c : Copy := { ticket := BitVec.ofNat 64 p, promise := p, rows := rows, regDst := regs,
                            before := w.pw.length, dropped := [], priv := w.privileged, counted := false, written := [], torn := [], phase := .waiting }
          let w := if regs.isEmpty then w else w.idx.foldl (fun (w : Wave) l => w.watched l regs) w
          .done { s with cur := { w with copies := w.copies.set q (some c), vEmpty := regs.foldl insNat w.vEmpty } } []
      | none =>
        let errs := (List.range 16).filterMap (fun q =>
          ((w.copies.getD q none).bind (fun c => c.errTrap s.contract act)).map (fun t => (q, t)))
        if errs.length == 16 then
          match errs with
          | (q, t) :: _ => .trap { s with cur := { w with copies := w.copies.set q none } } t
          | [] => .wait .copySlot s
        else .wait .copySlot s

def execCpy (f : FmtCpy) (s : State) : Host.Outcome State Fault Refusal := issue (.cpy f) s (bodyCpy f false)
def execCpys (f : FmtCpy) (s : State) : Host.Outcome State Fault Refusal := issue (.cpys f) s (bodyCpy f true)

/-! ### The engine (R218, R219) -/

/-- What the engine's accesses need: checks 2 to 5 of R99; no stack. -/
def needCopyR : AccNeed := ⟨true, false, false, false, true, false, false, true⟩
def needCopyW : AccNeed := ⟨false, true, false, false, true, false, false, true⟩

/-- The first byte of a piece that fails its checks: of the scratchpad, the first beyond the window (R220). -/
def firstBad (g : Grid) (a : Nat) : Nat := match steer a with | .scratch o => a + (g.p.scratch - o) | _ => a

/-- The places of a range: the first failing address with the outcome, or the bytes and whether a stamp was passed over. -/
def copyPlaces (s : State) (w : Wave) (need : AccNeed) (a n : Nat) : Except (Nat × LaneAcc) (List CopyByte × Bool) :=
  if isMap a then
    .ok ((List.range n).map (fun k =>
      if mapKind a == 8 && mapWindow a == 1 then .mem (scrLoc (mapCore a) (mapOff a + k)) else .map (a + k)), false)
  else
    let ps := pieces (n / 2 ^ 16 + 2) a n
    let as := ps.map (fun p => (p.1, checkAccess s w false need 0 0 p.1 p.2))
    match as.find? (fun x => x.2.order != 100) with
    | some x => .error (firstBad (s.gridOf w) x.1, x.2)
    | none => .ok ((as.flatMap (fun x => x.2.access.locs)).map .mem, as.any (fun x => x.2.access.mix))

/-- The moves of a transfer, row by row. -/
def copyPlan (s : State) (w : Wave) (rows : List CopyRow) : Except (Nat × LaneAcc) (List (CopyByte × CopyByte × Nat) × Bool) :=
  rows.foldl (fun (acc : Except (Nat × LaneAcc) (List (CopyByte × CopyByte × Nat) × Bool)) r =>
    match acc with
    | .error e => .error e
    | .ok (ms, mix) =>
      match copyPlaces s w needCopyR r.src r.len with
      | .error e => .error e
      | .ok (src, m1) =>
        match copyPlaces s w needCopyW r.dst r.len with
        | .error e => .error e
        | .ok (dst, m2) =>
          .ok (ms ++ (dst.zip (src.zip ((List.range r.len).map (fun k => (r.src + k) % 2 ^ 64)))), mix || m1 || m2)) (.ok ([], false))

def Wave.setCopy (w : Wave) (q : Nat) (c : Option Copy) : Wave := { w with copies := w.copies.set q c }

/-- COPY TRANSFER START: the engine begins the transfer of a slot once the earlier writes of the wave are
acknowledged and the GTC has passed its `$wct`, and checks every page (R218). -/
def execCopyTransferStart (key : WKey) (q : Nat) (s : State) : Host.Outcome State Fault Refusal :=
  .next (match s.findWave key with
    | none => s
    | some w =>
      match w.copies.getD q none with
      | none => s
      | some c =>
        if c.phase != .waiting || !((w.pw.take c.before).all (fun e => e.kind == .drain)) || !s.passed w.wct then s
        else
          let ends (cause addr info : Nat) : State :=
            s.setWave ({ w.setCopy q (some { c with phase := .failed cause addr info }) with why := .none }.fill c.regDst)
          match copyPlan s { w with tm := c.priv, priv := c.priv } c.rows with
          | .error (a, .trap _ cause info) => ends cause a (if cause == 8 then info else 0)
          | .error (_, .fault va m) =>
            let s := (s.clearFailed w.core (s.gridOf w).ctx.asid [pageOf va]).setWave (w.setCopy q (some { c with phase := .faulted va m }))
            if tbit s.regs.fmode 1 then { s with outbox := s.outbox ++ [.hostFault key] } else s
          | .error (_, .miss va) => s.postMisses w.core (s.gridOf w).ctx.asid (s.gridOf w).ctx.root [va]
          | .error _ => s
          | .ok (ms, mix) =>
            let s := s.setWave (w.setCopy q (some { c with phase := .started ms, counted := c.counted || mix }))
            s.countUp (s.gridOf w) 0x14 (if mix && !c.counted then 1 else 0))

/-- The locations that a transfer reads, and those it writes. -/
def moveSrcs (ms : List (CopyByte × CopyByte × Nat)) : List CopyByte := ms.map (fun m => m.2.1)
def moveDsts (ms : List (CopyByte × CopyByte × Nat)) : List CopyByte := ms.map (fun m => m.1)

/-- The byte that move `i` writes: unpredictable where source and destination overlap, or where two rows write
it (R218). -/
def State.copyValue (s : State) (own : WKey) (ms : List (CopyByte × CopyByte × Nat)) (i : Nat) (m : CopyByte × CopyByte × Nat) : Byte :=
  if (moveSrcs ms).contains m.1 || 1 < (moveDsts ms).count m.1 then BitVec.ofNat 8 (s.free (2 * i)).toNat
  else match m.2.1 with
    | .mem loc => Memory.read s.mem loc
    | .map a => s.mapRead own a (2 * i + 1)

/-- The source of a move is an element of the on-chip map with an uncorrectable error (R211). -/
def State.moveMarked (s : State) (own : WKey) (m : CopyByte × CopyByte × Nat) : Bool :=
  match m.2.1 with
  | .mem _ => false
  | .map a =>
    if mapReg a then (s.mapWave own a).any (fun w => w.regErr.contains (mapLane a, mapRegNum a))
    else (s.tileAt (mapCore a) (mapOff a / 24576)).bad.contains (mapOff a % 24576 / 6)

/-- The source byte of a move is poisoned (R212), or has an uncorrectable error. -/
def State.movePoison (s : State) (own : WKey) (m : CopyByte × CopyByte × Nat) : Bool :=
  s.moveMarked own m || (match m.2.1 with | .mem loc => s.isPoisoned loc | .map _ => false)

/-- The granule of memory that a move writes. -/
def moveGranule (m : CopyByte × CopyByte × Nat) : Option Nat := match m.1 with | .mem loc => some (granule loc) | .map _ => none

/-- The bytes of a granule that a transfer has written so far, and whether some were poisoned. -/
def Copy.tornAt (c : Copy) (g : Nat) : List Nat × Bool := ((c.torn.find? (fun x => x.1 == g)).map (fun x => x.2)).getD ([], false)

/-- Write the moves of one granule of memory whose locations are listed, with their poison; the source is as it stands in `src`.
A granule that the transfer has then written whole with good data is valid (R212). -/
def State.copyMoves (src : State) (own : WKey) (ms : List (CopyByte × CopyByte × Nat)) (c : Copy) (g : Nat) (locs : List Nat) (s : State) :
    State :=
  let mine := (ms.zip (List.range ms.length)).filter (fun x => moveGranule x.1 == some g)
  let now := mine.filter (fun x => match x.1.1 with | .mem loc => locs.contains loc | .map _ => false)
  let bytes := now.filterMap (fun x => match x.1.1 with
    | .mem loc => some (loc, src.copyValue own ms x.2 x.1)
    | .map _ => none)
  let bad := (c.tornAt g).2 || now.any (fun x => src.movePoison own x.1)
  let s := (if bad then s.addPoison g else s).makeVisible bytes
  let whole := 32 ≤ ((bytes.map Prod.fst ++ (c.tornAt g).1).eraseDups).length
  if bad then { s with poison := insNat s.poison g } else if whole then { s with poison := s.poison.filter (· != g) } else s

/-- The locations of a granule that the moves of a transfer write and it has not written. -/
def Copy.leftOf (c : Copy) (ms : List (CopyByte × CopyByte × Nat)) (g : Nat) : List Nat :=
  (ms.filterMap (fun m => match m.1 with | .mem loc => if granule loc == g && !(c.tornAt g).1.contains loc then some loc else none | .map _ => none)).eraseDups

/-- Change a copy of a wave. -/
def State.onCopy (s : State) (key : WKey) (q : Nat) (f : Copy → Copy) : State :=
  s.onWave key (fun w => { w with copies := w.copies.set q ((w.copies.getD q none).map f) })

/-- A transfer writes what it has still to write of a granule. -/
def State.copyGranule (src : State) (key : WKey) (q g : Nat) (s : State) : State :=
  match (s.findWave key).bind (fun w => w.copies.getD q none) with
  | some c =>
    (match c.phase with
     | .started ms =>
       (src.copyMoves key ms c g (c.leftOf ms g) s).onCopy key q (fun c =>
         { c with written := insNat c.written g, torn := c.torn.filter (fun x => x.1 != g) })
     | _ => s)
  | none => s

/-- Every other transfer that has written part of a granule writes the rest: a granule ends with the bytes of one transfer
(R221). -/
def State.closeGranule (s : State) (key : WKey) (q g : Nat) : State :=
  s.waves.foldl (fun s w => (List.range 16).foldl (fun s k =>
    match w.copies.getD k none with
    | some c => if c.torn.any (fun x => x.1 == g) && !(w.key == key && k == q) then s.copyGranule w.key k g s else s
    | none => s) s) s

/-- The granules of memory that a transfer writes, in order. -/
def copyGranules (ms : List (CopyByte × CopyByte × Nat)) : List Nat := (ms.filterMap moveGranule).foldl insNat []

/-- A move into another granule reads from the granule. -/
def granuleRead (ms : List (CopyByte × CopyByte × Nat)) (g : Nat) : Bool :=
  ms.any (fun m => moveGranule m != some g && (match m.2.1 with | .mem loc => granule loc == g | .map _ => false))

/-- The started transfer of a slot may write a granule early: one that it has still to write, that no other move reads, and whose
source has no uncorrectable error, which ends the transfer (R211). -/
def State.mayWrite (s : State) (key : WKey) (q g : Nat) : Option (Copy × List (CopyByte × CopyByte × Nat)) :=
  match (s.findWave key).bind (fun w => w.copies.getD q none) with
  | some c =>
    (match c.phase with
     | .started ms => if (copyGranules ms).contains g && !c.written.contains g && !granuleRead ms g &&
          !ms.any (fun m => moveGranule m == some g && s.moveMarked key m) then some (c, ms) else none
     | _ => none)
  | none => none

/-- The copy engine writes one granule of a started transfer early (R221). -/
def State.copyPiece (s : State) (key : WKey) (q g : Nat) : State :=
  if (s.mayWrite key q g).isSome then let s := s.closeGranule key q g; (s.copyGranule key q g s).freeNext else s

/-- The copy engine writes some bytes of a granule of a started transfer early, each byte at its own time (R237). -/
def State.copyBytes (s : State) (key : WKey) (q g loc n : Nat) : State :=
  match s.mayWrite key q g with
  | none => s
  | some (c, ms) =>
    let locs := (c.leftOf ms g).filter (fun x => loc ≤ x && x < loc + n)
    let now (m : CopyByte × CopyByte × Nat) : Bool := match m.1 with | .mem x => locs.contains x | .map _ => false
    if locs.isEmpty then s
    else
      let s := s.closeGranule key q g
      let bad := (c.tornAt g).2 || ms.any (fun m => now m && s.movePoison key m)
      (s.copyMoves key ms c g locs s).freeNext.onCopy key q (fun c =>
        { c with torn := (g, locs ++ (c.tornAt g).1, bad) :: c.torn.filter (fun x => x.1 != g) })

/-- Write the bytes of the on-chip map, but for registers of the issuing wave that an exchange of lanes has filled (R39), and give the
first error: its cause and address (R218, R219). DESIGN CHOICE (log 153): they are all written at one instant, at which the transfer
ends. An unordered read may see the old or the new value of each element (R34); here it sees the old ones before that instant. -/
def State.copyMap (src : State) (own : WKey) (ms : List (CopyByte × CopyByte × Nat)) (dropped : List Nat) (s : State) :
    State × Option (Nat × Nat) :=
  (ms.zip (List.range ms.length)).foldl (fun r x =>
    match x.1.1 with
    | .mem _ => r
    | .map a =>
      let first (e : Nat × Nat) : Option (Nat × Nat) := match r.2 with | some y => some y | none => some e
      if mapReg a && dropped.contains (mapRegNum a) && (src.mapWave own a).any (fun w => w.key == own) then r
      else if src.movePoison own x.1 then (r.1, first (9, x.1.2.2))
      else
        match r.1.mapWrite own a (src.copyValue own ms x.2 x.1) with
        | some s' => (s', r.2)
        | none => (r.1, first (7, a))) (s, none)

/-- Waves of a core look again where a copy has ended. -/
def Wave.copyWake (w : Wave) : Wave := if w.why == .copySlot || w.why == .regs then { w with why := .none } else w

/-- Lanes of the wave that sleep in `cpyw`: lane, waiting form, ticket. -/
def Wave.cpySleepers (w : Wave) : List (Nat × Bool × Word64) :=
  w.idx.filterMap (fun l => match (w.lane l).st with | .cpyw waits t => some (l, waits, t) | _ => none)

/-- COPY COMPLETE: the transfer of a slot writes its last byte, or ends with an error (R218). -/
def execCopyComplete (key : WKey) (q : Nat) (s : State) : Host.Outcome State Fault Refusal :=
  .next (match s.findWave key with
    | none => s
    | some w =>
      match w.copies.getD q none with
      | none => s
      | some c =>
        match c.phase with
        | .started ms =>
          let left := (copyGranules ms).filter (fun g => !c.written.contains g)
          let s := left.foldl (fun s g => s.closeGranule key q g) s
          let src := s
          let s := left.foldl (fun s g => src.copyGranule key q g s) s
          let (s, err) := src.copyMap key ms c.dropped s
          let marked := (ms.find? (src.moveMarked key)).map (fun m => (9, m.2.2, 1))
          let err := marked.or (err.map (fun e => (e.1, e.2, 0)))
          let s := { s.freeNext with gtc := s.gtc + 1 }
          s.onWave key (fun w =>
            let seen := w.cpySleepers.any (fun x => x.2.2 == c.ticket)
            let w := match err with
              | some (cause, addr, info) => w.setCopy q (some { c with phase := .failed cause addr info })
              | none => { w.setCopy q (if seen then some { c with phase := .complete s.gtc } else none) with rct := max w.rct s.gtc }
            (w.fill c.regDst).copyWake)
        | _ => s)

/-! ### cpyw (R220) -/

/-- What `cpyw` finds for a ticket. -/
inductive Cpyw where
  /-- passes; the slot to free and its C -/
  | pass (free : Option (Nat × Nat))
  /-- sleeps, at least until a time; or until the copy ends -/
  | sleep (till : Option Nat)
  /-- traps; the slot to free -/
  | trap (t : TrapReq) (free : Option Nat)
  deriving DecidableEq, Repr

/-- The first time at which the GTC has passed `t`. -/
def pastTime (t : Nat) : Nat := t + Config.gtcMargin + 1

/-- The decision of `cpyw` for a ticket in the current wave. -/
def State.cpywDecide (s : State) (waits : Bool) (t : Word64) (lanes : List Nat) : Cpyw :=
  let w := s.cur
  let q := t.toNat % 16
  match (w.copies.getD q none).filter (fun c => c.ticket == t) with
  | none => let u := max t.toNat (pastTime w.rct); if u ≤ s.gtc then .pass none else .sleep (some u)
  | some c =>
    let u := if waits then 0 else max t.toNat c.promise
    match c.phase with
    | .complete d => let v := max u (pastTime d); if v ≤ s.gtc then .pass (some (q, d)) else .sleep (some v)
    | .failed .. =>
      if s.gtc < u then .sleep (some u)
      else match c.errTrap s.contract lanes with
        | some tr => .trap tr (some q)
        | none => .sleep none
    | _ =>
      if waits then .sleep none
      else if s.gtc < u then .sleep (some u)
      else .trap ⟨14, lanes, 0, t.toNat, 0, []⟩ none

/-- Free a slot of the current wave, and fold C into `$wct`. -/
def State.cpywFree (s : State) (free : Option (Nat × Nat)) : State :=
  match free with
  | some (q, c) => { s with cur := ({ s.cur.setCopy q none with wct := max s.cur.wct c }) }
  | none => s

/-- The body of `cpyw` and `cpyw.wait`. -/
def bodyCpyw (f : FmtDstSrc) (waits : Bool) (iss act : List Nat) (s : State) : Res :=
  let t := s.cur.getS f.sa.toNat
  match s.cpywDecide waits t act with
  | .pass free => .done (s.cpywFree free) []
  | .sleep _ => .done { s with cur := s.cur.rest iss act (.cpyw waits t) } act
  | .trap tr free => .trap (match free with | some q => { s with cur := s.cur.setCopy q none } | none => s) tr

def execCpyw (f : FmtDstSrc) (s : State) : Host.Outcome State Fault Refusal := issue (.cpyw f) s (bodyCpyw f false)
def execCpywWait (f : FmtDstSrc) (s : State) : Host.Outcome State Fault Refusal := issue (.cpywWait f) s (bodyCpyw f true)

/-- The body of `cpyw.re`. -/
def bodyCpywRe (f : FmtDstSrc) (_ _ : List Nat) (s : State) : Res :=
  let w := s.cur
  let t := w.getS f.sa.toNat
  let q := t.toNat % 16
  let w1 := match (w.copies.getD q none).filter (fun c => c.ticket == t) with
    | some c =>
      (match c.phase with
       | .complete _ | .failed .. => w
       | _ => w.setCopy q (some { c with promise := promiseAt s.gtc (c.rows.foldl (fun (n : Nat) (r : CopyRow) => n + r.len) 0) q }))
    | none => w
  .done { s with cur := w1.setS f.sd.toNat t } []

def execCpywRe (f : FmtDstSrc) (s : State) : Host.Outcome State Fault Refusal := issue (.cpywRe f) s (bodyCpywRe f)

/-- Lanes of the current wave that sleep at one `cpyw`: its form, ticket and position (R271). -/
def State.cpywLanes (s : State) (waits : Bool) (t : Word64) (v : Nat) : List Nat :=
  (s.cur.cpySleepers.filter (fun x => x.2.1 == waits && x.2.2 == t && (s.cur.lane x.1).vpc == v)).map Prod.fst

/-- The sleepers at one `cpyw` look again: they pass, trap or sleep on. -/
def State.cpywLook (s : State) (waits : Bool) (t : Word64) (v : Nat) : State :=
  let ls := s.cpywLanes waits t v
  match s.cpywDecide waits t ls with
  | .pass free => (s.cpywFree free).lateRetire s.cur.key ls
  | .sleep _ => s
  | .trap tr free =>
    let word := s.wordOf s.cur v
    let s := match free with | some q => { s with cur := s.cur.setCopy q none } | none => s
    s.takeTrap (tr.info v word)

/-- When each waiting `cpyw` of the current wave looks again. -/
def State.copyDue (s : State) : List (Nat × Bool × Word64 × Nat) :=
  if s.cur.spec != 0 then []
  else s.cur.cpySleepers.filterMap (fun x =>
    let at_ := (x.2.1, x.2.2, (s.cur.lane x.1).vpc)
    match s.cpywDecide x.2.1 x.2.2 [] with
    | .sleep (some u) => some (u, at_)
    | .sleep none => none
    | _ => some (s.gtc, at_))

/-- COPY PROMISE WAKE: the GTC reaches the first time for which lanes of the wave sleep in `cpyw`, or the copy has
ended; they look again (R220). -/
def execCopyPromiseWake (key : WKey) (s : State) : Host.Outcome State Fault Refusal :=
  .next (s.withWave key (fun s =>
    match minNat (s.copyDue.map Prod.fst) with
    | none => s
    | some u =>
      let s := { s with gtc := max s.gtc u }
      match s.copyDue.find? (fun x => x.1 ≤ u) with
      | some (_, x) => s.cpywLook x.1 x.2.1 x.2.2
      | none => s))

end Sys2Proof.Machine
end

