-- ==== Sys2Proof/Machine/Collective.lean ====
section
/-! DEFINITION. Membership registers and collective branches (R261 to R270). -/

namespace Sys2Proof.Machine

/-! ### Communicators and membership registers (R261, R331) -/

def State.commAt (s : State) (slot use : Nat) : Option Comm := s.comms.find? (fun c => c.slot == slot && c.use == use)
def State.putComm (s : State) (c : Comm) : State :=
  { s with comms := s.comms.map (fun x => if x.slot = c.slot ∧ x.use = c.use then c else x) }
/-- The communicator of a bound register. -/
def State.commOf (s : State) (m : Memb) : Option Comm := m.comm.bind (fun p => s.commAt p.1 p.2)
/-- The handle (R331). -/
def Comm.handle (c : Comm) : Nat := c.slot + c.use * 256
/-- The communicator that a handle names. -/
def State.commByHandle (s : State) (h : Nat) : Option Comm :=
  if 2 ^ 24 ≤ h then none else s.commAt (h % 256) (h / 256)
/-- The rank of a wave of this device (R330). -/
def State.rankIn (s : State) (c : Comm) (w : WKey) : Option Nat :=
  c.members.findIdx? (fun e => e == ((s.grids.find? (fun g => g.id == w.grid)).getD Grid.zero |>.p.launch, w.team, w.wave, s.config.devNum))

def Wave.membAt (w : Wave) (k : Nat) : Memb := w.memb.getD k Memb.unbound
def Wave.setMemb (w : Wave) (k : Nat) (m : Memb) : Wave := { w with memb := w.memb.set k m }

/-- A member is lost: it contributes identities from now on (R268). -/
def Comm.lose (c : Comm) (rank : Nat) : Comm := { c with lost := insNat c.lost rank }

/-- The stall bound of the wave's context (R269). -/
def State.stallBound (s : State) (w : Wave) : Nat := (s.gridOf w).ctx.stall

/-! ### Outcomes (R264) -/

/-- A generation count is near another, modulo 2^32: what a communicator keeps of its generations (log 139). -/
def nearGen (g h : Nat) : Bool := let d := (g + 2 ^ 32 - h) % 2 ^ 32; d < 2 ^ 16 || 2 ^ 32 - 2 ^ 16 ≤ d

/-- The communicator without what it kept of votes of generations far from one. -/
def Comm.nearVotes (c : Comm) (g : Nat) : Comm :=
  { c with votes := c.votes.filter (fun v => nearGen g v.gen), outcomes := c.outcomes.filter (fun o => nearGen g o.1),
           stalled := c.stalled.filter (nearGen g) }

/-- The vote that a rank has cast in a generation on this device: vote, and whether the operation is `.or`. -/
def Comm.voteOf (c : Comm) (gen rank : Nat) : Option (Bool × Bool) :=
  (c.votes.find? (fun v => v.gen == gen && v.rank == rank)).map (fun v => (v.v, v.or_))

/-- What a rank gives a generation: a vote, the identity, or nothing yet. `foreign` is what other devices send. -/
def Comm.part (c : Comm) (own gen : Nat) (foreign : ForeignVotes) (rank : Nat) : Option (Option (Bool × Bool)) :=
  match c.voteOf gen rank with
  | some p => some (some p)
  | none =>
    let sent := if (c.members.getD rank (0, 0, 0, own)).2.2.2 == own then none
      else (foreign.find? (fun (p : Nat × Option (Bool × Bool)) => p.1 == rank)).map Prod.snd
    match sent with
    | some p => some p
    | none => if c.exited.contains rank || c.lost.contains rank then some none else none

/-- The outcome for `.and` members and for `.or` members: a mixture of operations makes it false and true. -/
def outcomeOf (votes : List (Bool × Bool)) : Bool × Bool :=
  let ands := (votes.filter (fun p => !p.2)).map Prod.fst
  let ors := (votes.filter (fun p => p.2)).map Prod.fst
  if !ands.isEmpty && !ors.isEmpty then (false, true) else (ands.all id, ors.any id)

/-- The outcome that awaits the wave at a register, and whether a loss affected it. -/
def State.outcomeFor (s : State) (w : Wave) (k : Nat) : Option (Bool × Bool) :=
  let m := w.membAt k
  if !m.pending then none
  else
    match s.commOf m with
    | none => none
    | some c =>
      match c.outcomes.find? (fun o => o.1 == m.g) with
      | some (_, a, o, lost) => some (if ((c.voteOf m.g m.rank).getD (false, false)).2 then o else a, lost)
      | none => none

/-- Steps 1 and 2 of R264 at a register; `keep` holds the outcome for the `cbr` that issues again. -/
def Memb.receive (m : Memb) (o lost keep : Bool) : Memb :=
  { m with outcome := o, pending := false, g := (m.g + 1) % 2 ^ 32, vote := none, stalled := false,
           lost := m.lost || lost, arrived := if keep then some o else none }

/-- The held stores are issued in program order (R266, R289). -/
def Wave.issueHeld (w : Wave) : Wave :=
  w.hold.foldl (fun (w : Wave) h => w.queueStore h.bytes h.fb) { w with hold := [], spec := 0 }

/-- CONFIRM a speculation: held stores are issued and held counts are added (R266, R267, R289). -/
def State.confirm (s : State) : State :=
  let w := s.cur
  let g := s.gridOf w
  let w1 := { w.issueHeld with
    ck := none, spec := 0, heldCmix := 0, heldPoison := 0, declined := false, why := .none,
    pend := w.pend.map (fun p => if p.spec then { p with spec := false, moves := false } else p),
    fab := w.fab.map (fun (o : FabOut) =>
      { o with spec := false, req := if o.sent then o.req else { o.req with spec := false } }),
    fabFail := w.fabFail.map (fun x => { x with out := { x.out with spec := false } }) }
  ({ s with cur := w1 }.countUp g 0x14 w.heldCmix).countUp g 0x1C w.heldPoison

/-- Every unexited lane continues at the label of the `cbr` where it stands, or after it. -/
def State.cbrGo (s : State) (tgt len : Nat) (o : Bool) : State :=
  let w := s.cur
  let ls := w.liveLanes
  let v := w.issuePc.getD 0
  let w1 := if o then w.enter ls tgt len else s.advance w ls
  let w2 := (w1.clearGroups true).recount v [v]
  { s with cur := { w2 with why := .none, trapPend := if w.step && !w.tm then some ((trapOf 20 ls).info v (s.wordOf w v)) else none } }

/-- THE OUTCOME ARRIVES at the current wave (R264, R266, R267). -/
def State.deliver (s : State) (k : Nat) : State :=
  match s.outcomeFor s.cur k with
  | none => s
  | some (o, lost) =>
    let w := s.cur
    let m := w.membAt k
    let running := w.spec == 2 && w.specMemb == k
    let w1 := w.setMemb k (m.receive o lost (!running))
    if !running then { s with cur := { w1 with why := if w1.why == .outcome then .none else w1.why } }
    else if m.vote == some o && !w.declined then { s with cur := w1 }.confirm
    else { s with cur := w1.rollback }.cbrGo m.tgt m.tgtLen o

/-- Deliver an outcome to every resident member of a communicator. -/
def State.deliverAll (s : State) (c : Comm) : State :=
  s.waves.foldl (fun s w => (below 8 (fun k => (w.membAt k).comm == some (c.slot, c.use))).foldl
    (fun s k => s.withWave w.key (fun s => s.deliver k)) s) s

/-- CBR OUTCOME: the outcome of a generation, once every member has voted or counts as the identity, reaches the
members on this device. `foreign` holds what the other devices send. A vote cast after `cbrj` in a generation that has its
outcome already receives that outcome (log 139). -/
def execCbrOutcome (slot gen : Nat) (foreign : ForeignVotes) (s : State) : Host.Outcome State Fault Refusal :=
  .next (match s.comms.find? (fun c => c.slot == slot) with
    | none => s
    | some c =>
      let ranks := List.range c.members.length
      let parts := ranks.map (c.part s.config.devNum gen foreign)
      let votes := parts.filterMap (fun p => p.getD none)
      if c.outcomes.any (fun o => o.1 == gen) then s.deliverAll c
      else if parts.any Option.isNone || votes.isEmpty then s
      else
        let (a, o) := outcomeOf votes
        let lost := (ranks.zip parts).any (fun p => c.lost.contains p.1 && p.2 == some none)
        let c := c.nearVotes gen
        let c := { c with outcomes := c.outcomes ++ [(gen, a, o, lost)] }
        (s.putComm c).deliverAll c)

/-! ### cbrj (R262) -/

/-- The body of `cbrj`. -/
def bodyCbrj (f : FmtKey) (iss _ : List Nat) (s : State) : Res :=
  let w := s.cur
  let k := f.k.toNat
  match s.commByHandle (w.getS f.sa.toNat).toNat with
  | none => .trap s (trapOf 7 iss)
  | some c =>
    match s.rankIn c w.key with
    | none => .trap s (trapOf 7 iss)
    | some r =>
      if (w.membAt k).pending && (s.outcomeFor w k).isNone then .wait .outcome s
      else .done { s with cur := w.setMemb k { Memb.unbound with comm := some (c.slot, c.use), rank := r } } []

def execCbrj (f : FmtKey) (s : State) : Host.Outcome State Fault Refusal := issue (.cbrj f) s (bodyCbrj f)

/-! ### cbr (R263 to R265, R269) -/

/-- The collective-stall trap at a register (R269, R273). -/
def stallTrap (k gen handle : Nat) (lanes : List Nat) : TrapReq := ⟨16, lanes, 0, k + gen * 2 ^ 32, handle, []⟩

/-- The register has taken the stall trap, and its generation knows. -/
def State.markStalled (s : State) (k : Nat) (c : Comm) : State :=
  let m := s.cur.membAt k
  { s with cur := s.cur.setMemb k { m with stalled := true } }.putComm { c with stalled := insNat c.stalled m.g }

/-- Producers of the wave that have still to write: a checkpoint waits for them, so that it holds their results. -/
def State.producing (s : State) : Bool :=
  let w := s.cur
  !w.pend.isEmpty || s.flagsDue w w.idx || w.copies.any (fun c => match c with | some x => !x.regDst.isEmpty | none => false)

/-- Open a speculation at the instruction where the wave stands. -/
def Wave.speculate (w : Wave) (kind k : Nat) : Wave :=
  { w with ck := some w.toArch, spec := kind, specMemb := k, hold := [], heldCmix := 0, heldPoison := 0, declined := false }

/-- Cast the vote of the issuing set (R263). -/
def State.castVote (s : State) (f : FmtCbr) (c : Comm) (iss : List Nat) : State × Comm :=
  let w := s.cur
  let m := w.membAt f.k.toNat
  let pn (l : Nat) : Bool := predOf (w.lane l) f.pn.toNat
  let v := if f.or_ then iss.any pn else iss.all pn
  let c := { c with votes := c.votes ++ [{ gen := m.g, rank := m.rank, v := v, or_ := f.or_ }] }
  ({ s with cur := w.setMemb f.k.toNat { m with pending := true, votedAt := s.gtc } }.putComm c, c)

/-- Run ahead from the hinted direction (R265). -/
def State.cbrAhead (s : State) (f : FmtCbr) (tgt len : Nat) (iss : List Nat) : Res :=
  let k := f.k.toNat
  let m := s.cur.membAt k
  let w := s.cur.setMemb k { m with vote := some f.t, tgt := tgt, tgtLen := len, stalled := false,
                                    votedAt := if m.stalled then s.gtc else m.votedAt }
  let w := w.speculate 2 k
  if f.t then .jump { s with cur := w.enter iss tgt len } iss else .done { s with cur := w } []

/-- Take an outcome that has arrived (R270). -/
def State.cbrTake (s : State) (k tgt len : Nat) (o : Bool) (iss : List Nat) : Res :=
  let w := s.cur.setMemb k { s.cur.membAt k with arrived := none }
  if o then .jump { s with cur := w.enter iss tgt len } iss else .done { s with cur := w } []

/-- The body of `cbr` once its target has passed: check 4, and then the vote or the wait. -/
def State.cbrVote (s : State) (f : FmtCbr) (c : Comm) (tgt len : Nat) (iss : List Nat) : Res :=
  let k := f.k.toNat
  let m := s.cur.membAt k
  match m.arrived with
  | some o => s.cbrTake k tgt len o iss
  | none =>
    match s.outcomeFor s.cur k with
    | some (o, lost) => { s with cur := s.cur.setMemb k (m.receive o lost false) }.cbrTake k tgt len o iss
    | none =>
      if m.pending && !m.stalled && m.votedAt + s.stallBound s.cur ≤ s.gtc then
        .trap (s.markStalled k c) (stallTrap k m.g c.handle iss)
      else
        let s := { s with cur := s.returnAll s.cur }
        if s.producing then .wait (if s.cur.pend.all s.cur.drainOf then .drain else .regs) s
        else if m.pending then s.cbrAhead f tgt len iss
        else
          let (s, c) := s.castVote f c iss
          if c.stalled.contains m.g then .trap (s.markStalled k c) (stallTrap k m.g c.handle iss)
          else s.cbrAhead f tgt len iss

/-- The body of `cbr`: the checks of R263. -/
def bodyCbr (f : FmtCbr) (iss _ : List Nat) (s : State) : Res :=
  let w := s.cur
  let t : Int := (s.at_ : Int) + f.off.toInt
  match s.commOf (w.membAt f.k.toNat) with
  | none => .trap s (illegal iss)
  | some c =>
    if w.liveLanes.any (fun l => !iss.contains l) then .trap s (illegal iss)
    else
      match s.target t with
      | .no a => (failed s iss (fun _ => wrapTo 64 t) [(w.lowestTid iss, a)] true).getD (.done s [])
      | .ok h len => s.cbrVote f c h len iss

def execCbr (f : FmtCbr) (s : State) : Host.Outcome State Fault Refusal := issue (.cbr f) s (bodyCbr f)

/-- COLLECTIVE STALL: the bound of a wave that runs ahead passes without an outcome: it rolls back, and traps in
every unexited lane at its `cbr` (R269). -/
def execCollectiveStall (key : WKey) (k : Nat) (s : State) : Host.Outcome State Fault Refusal :=
  .next (s.withWave key (fun s =>
    let w := s.cur
    let m := w.membAt k
    match s.commOf m with
    | none => s
    | some c =>
      if w.spec != 2 || w.specMemb != k || !m.pending || (s.outcomeFor w k).isSome then s
      else
        let s := { s with gtc := max s.gtc (m.votedAt + s.stallBound w), cur := w.rollback }
        let s := s.markStalled k c
        let v := s.at_
        ({ s with cur := { s.cur with why := .none } }).takeTrap
          ((stallTrap k m.g c.handle s.cur.liveLanes).info v (s.wordOf s.cur v))))

/-- MEMBER LOST: a member on another device is lost (R268); a member on this one is lost with its grid. -/
def execMemberLost (slot rank : Nat) (s : State) : Host.Outcome State Fault Refusal :=
  .next (match s.comms.find? (fun c => c.slot == slot) with
    | none => s
    | some c =>
      match c.members[rank]? with
      | some (_, _, _, dev) => if dev != s.config.devNum then s.putComm (c.lose rank) else s
      | none => s)

/-- A member on another device has taken the collective-stall trap on a generation of votes, or of reductions (R269, R341). -/
def State.foreignStall (s : State) (slot gen : Nat) (red : Bool) : State :=
  match s.comms.find? (fun c => c.slot == slot) with
  | some c => s.putComm (if red then { c with stalledRed := insNat c.stalledRed gen } else { c with stalled := insNat c.stalled gen })
  | none => s

/-- A wave of this device has exited: it counts as the identity (R264, R340), in communicators set up later too. -/
def State.commExit (s : State) (key : WKey) : State :=
  let s := match s.grids.find? (fun g => g.id == key.grid) with
    | some g => s.setGrid { g with exits := if g.exits.contains (key.team, key.wave) then g.exits else g.exits ++ [(key.team, key.wave)] }
    | none => s
  { s with comms := s.comms.map (fun (c : Comm) => match s.rankIn c key with
      | some r => { c with exited := insNat c.exited r }
      | none => c) }

end Sys2Proof.Machine
end

