-- ==== Sys2Proof/Machine/Packets.lean ====
section
/-! DEFINITION. Queues, packets and tokens (R346 to R352), and feed queues (R364), as they lie in memory. -/

namespace Sys2Proof.Machine

/-! ### Queues (R346) -/

/-- A queue descriptor. -/
structure QDesc where
  ring : Nat
  entries : Nat
  prio : Nat
  dies : Nat
  valid : Bool
  pclass : Nat
  wr : Nat
  done : Nat
  det : Nat
  tokens : Nat
  deriving DecidableEq, Repr

def isPow2 (n lo hi : Nat) : Bool := lo ≤ n && n ≤ hi && n == 2 ^ (bitLen n - 1)

/-- Address of a queue's descriptor. -/
def State.qdAddr (s : State) (q : Nat) : Nat := s.regs.qtbase.toNat + 64 * q

/-- The descriptor of a queue; one that breaks R346 is not valid. -/
def State.qdesc (s : State) (q : Nat) : QDesc :=
  let a := s.qdAddr q
  let num (off n : Nat) : Nat := s.readNat (a + off) n
  let entries := num 8 4
  let ok := q < 1024 && num 0xE 1 == 1 && num 0xC 1 < 8 && num 0xD 1 < 16 && num 0xD 1 != 0 && num 0xF 1 < 8 && num 0x18 1 < 4 &&
    num 0x19 7 == 0 && num 0x28 24 == 0 && isPow2 entries 2 65536
  { ring := num 0 8, entries := entries, prio := nbits (num 0xC 1) 0 3, dies := nbits (num 0xD 1) 0 4, valid := ok,
    pclass := nbits (num 0xF 1) 0 3, wr := num 0x10 4, done := num 0x14 4, det := nbits (num 0x18 1) 0 2, tokens := num 0x20 8 }

/-- Address of a packet (R346). -/
def QDesc.pktAddr (d : QDesc) (i : Nat) : Nat := d.ring + 128 * (i % d.entries)

/-- Packets from `done` to an index, modulo 2^32. -/
def QDesc.ahead (d : QDesc) (i : Nat) : Nat := (i + 2 ^ 32 - d.done) % 2 ^ 32

/-- The packet lies in the window, as far as the write index has been read (R347). -/
def State.inWindow (s : State) (q i : Nat) : Bool :=
  let d := s.qdesc q
  d.valid && i < 2 ^ 32 && d.ahead i < min 32 (d.ahead (mgetD s.noticed q d.done))

/-- Bytes of packets as the window reads them: a free value (R2). -/
def State.lostByte (s : State) (q i k : Nat) : Byte := (Config.free s.freeCtr (2 ^ 80 + (q * 2 ^ 32 + i) * 128 + k)).setWidth 8

/-- A byte of a packet. It was read when the packet entered the window (R347). Unpredictable: a byte that has been written since,
the status word apart, and every byte while the window holds more packets than the ring. -/
def State.pktByte (s : State) (q i k : Nat) : Byte :=
  let d := s.qdesc q
  let now := Memory.read s.mem (d.pktAddr i + k)
  match s.window.find? (fun p => p.1 == q && p.2.1 == i) with
  | none => now
  | some (_, _, bs) =>
    let kept := bs.getD k 0
    if d.entries < d.ahead (mgetD s.noticed q d.done) || (kept != now && !(4 ≤ k && k < 8)) then s.lostByte q i k else kept

/-- A field of a packet. -/
def State.pkt (s : State) (q i off n : Nat) : Nat := leNat ((List.range n).map (fun k => s.pktByte q i (off + k)))
def State.pktKind (s : State) (q i : Nat) : Nat := s.pkt q i 0 1

/-- The packet has completed, or has started. -/
def State.pktDone (s : State) (q i : Nat) : Bool := s.started.any (fun p => p.1 == q && p.2.1 == i && p.2.2)
def State.pktStarted (s : State) (q i : Nat) : Bool := s.started.any (fun p => p.1 == q && p.2.1 == i)

/-- The packets of the window before one. -/
def State.earlier (s : State) (q i : Nat) : List Nat :=
  let d := s.qdesc q
  (List.range (d.ahead i)).map (fun k => (d.done + k) % 2 ^ 32)

/-- The packet may start (R351). -/
def State.eligible (s : State) (q i : Nat) : Bool :=
  let d := s.qdesc q
  let before := s.earlier q i
  s.inWindow q i && !s.pktStarted q i && Nat.land (s.pkt q i 8 8) d.tokens == s.pkt q i 8 8 &&
  (!(tbit (BitVec.ofNat 8 (s.pkt q i 1 1)) 0 || s.pktKind q i == 4) || before.all (s.pktDone q)) &&
  before.all (fun j => s.pktKind q j != 4 || s.pktDone q j)

/-- A queue is resident on a die that it names (R368). -/
def State.isResident (s : State) (q : Nat) : Bool :=
  (List.range Config.dies).any (fun d => nbits (s.qdesc q).dies d 1 == 1 && (mgetD s.resident d []).contains q)

/-- The packet is the first eligible one of its window (R351). -/
def State.firstEligible (s : State) (q i : Nat) : Bool := s.eligible q i && !(s.earlier q i).any (s.eligible q)

/-- Some packet of the window may start. -/
def State.anyEligible (s : State) (q : Nat) : Bool :=
  let d := s.qdesc q
  (List.range (min 32 (d.ahead (mgetD s.noticed q d.done)))).any (fun k => s.eligible q ((d.done + k) % 2 ^ 32))

/-- The header of a packet has no reserved bit set (R348). -/
def State.headerOk (s : State) (q i : Nat) : Bool := s.pkt q i 1 1 < 2 && s.pkt q i 2 2 == 0

/-- Write the token state of a queue. -/
def State.putTokens (s : State) (q v : Nat) : State := s.agentWrite (s.qdAddr q + 0x20) (leBytes 8 v)

/-- START a packet: its clear mask applies (R351). -/
def State.startPkt (s : State) (q i : Nat) : State :=
  let clear := s.pkt q i 0x18 8
  let t := (s.qdesc q).tokens
  let s := { s with started := s.started ++ [(q, i, false)] }
  if Nat.land t clear == 0 then s else s.putTokens q (t - Nat.land t clear)

/-- Packets that have come into the window are read (R347). -/
def State.readWindow (s : State) (q : Nat) : State :=
  let d := s.qdesc q
  let is := (List.range (min 32 (d.ahead (mgetD s.noticed q d.done)))).map (fun k => (d.done + k) % 2 ^ 32)
  let new := is.filter (fun i => !s.window.any (fun p => p.1 == q && p.2.1 == i))
  { s with window := s.window ++ new.map (fun i => (q, i, s.readN (d.pktAddr i) 128)) }

/-- What the device knew of a queue is forgotten: it is not valid (R347, log 138). Launch packets that still have to complete after
a loss of power stay started (R388). -/
def State.dropQueue (s : State) (q : Nat) : State :=
  { s with noticed := mdel s.noticed q, queuesOn := s.queuesOn.filter (· != q), window := s.window.filter (fun p => p.1 != q),
           started := s.started.filter (fun p => p.1 != q || s.grids.any (fun g => g.orphan && g.queue == q && g.pkt == p.2.1)) }

/-- A queue that is valid is found to be so: one that was not before starts with an empty window, and its tokens clear (R351,
log 78). -/
def State.foundValid (s : State) (q : Nat) : State :=
  if !(s.qdesc q).valid || s.queuesOn.contains q then s
  else { s.dropQueue q with queuesOn := insNat s.queuesOn q }.putTokens q 0

/-- The V4 reads the write index of a queue. -/
def State.notice (s : State) (q : Nat) : State :=
  let d := s.qdesc q
  if !d.valid then s.dropQueue q
  else
    { s.foundValid q with noticed := mput (s.foundValid q).noticed q d.wr }.readWindow q

/-- `done` passes over each run of completed packets (R347). -/
def State.advanceDone (s : State) (fuel q : Nat) : State :=
  match fuel with
  | 0 => s
  | n + 1 =>
    let d := (s.qdesc q).done
    if s.pktDone q d then
      let s := s.agentWrite (s.qdAddr q + 0x14) (leBytes 4 (d + 1))
      let here (r i : Nat) : Bool := r == q && i == d
      { s with started := s.started.filter (fun p => !here p.1 p.2.1),
               window := s.window.filter (fun p => !here p.1 p.2.1) }.advanceDone n q
    else s

/-- After `done` has moved, the window of a valid queue takes in more packets. -/
def State.windowMoves (s : State) (q : Nat) : State := if s.queuesOn.contains q then s.readWindow q else s

/-- The tokens of a mask are set in a queue, which is found valid first where it is another's (R351, R352). -/
def State.setTokens (s : State) (q target mask : Nat) : State :=
  if mask == 0 then s
  else
    let s := if target == q then s else s.foundValid target
    s.putTokens target (Nat.lor (s.qdesc target).tokens mask)

/-- COMPLETE a packet with a code: status, then tokens of a queue, then `done` (R350, R352). -/
def State.completeTo (s : State) (q i code target : Nat) (setTokens : Bool) : State :=
  let mask := s.pkt q i 0x10 8
  let s := s.agentWrite ((s.qdesc q).pktAddr i + 4) (leBytes 4 (2 ^ 31 + code))
  let s := if setTokens then s.setTokens q target mask else s
  ({ s with started := s.started.map (fun (p : Nat × Nat × Bool) =>
       if p.1 == q && p.2.1 == i then (q, i, true) else p) }.advanceDone 33 q).windowMoves q

def State.completePkt (s : State) (q i code : Nat) : State := s.completeTo q i code q true

/-! ### Feeds (R364) -/

/-- A feed descriptor. -/
structure FDesc where
  ring : Nat
  entries : Nat
  rsize : Nat
  valid : Bool
  ordered : Bool
  tail : Nat
  head : Nat
  free : Nat
  deriving DecidableEq, Repr

def State.fdAddr (s : State) (f : Nat) : Nat := s.regs.ftbase.toNat + 32 * f

/-- The descriptor of a feed; one that breaks R364 is not valid. -/
def State.fdesc (s : State) (f : Nat) : FDesc :=
  let a := s.fdAddr f
  let num (off n : Nat) : Nat := s.readNat (a + off) n
  let rsize := num 0xC 2
  let ok := f < 256 && num 0xE 1 < 4 && num 0xE 1 % 2 == 1 && num 0xF 1 == 0 && num 0x1C 4 == 0 && isPow2 (num 8 4) 2 (2 ^ 20) &&
    16 ≤ rsize && rsize ≤ 256 && rsize % 16 == 0
  { ring := num 0 8, entries := num 8 4, rsize := rsize, valid := ok, ordered := nbits (num 0xE 1) 1 1 == 1,
    tail := num 0x10 4, head := num 0x14 4, free := num 0x18 4 }

/-- Records between two indices, modulo 2^32. -/
def span32 (a b : Nat) : Nat := (b + 2 ^ 32 - a) % 2 ^ 32

def FDesc.room (d : FDesc) : Nat := d.entries - span32 d.free d.tail
def FDesc.unclaimed (d : FDesc) : Nat := span32 d.head d.tail
def FDesc.recAddr (d : FDesc) (i : Nat) : Nat := d.ring + d.rsize * (i % d.entries)

/-- A record of a feed. -/
def State.feedRec (s : State) (f i : Nat) : List Byte :=
  let d := s.fdesc f
  s.readN (d.recAddr i) d.rsize

/-- Timestamp of a record. -/
def recTime (r : List Byte) : Nat := leNat (r.take 8)

/-- The timestamps of an append to an ordered feed keep the order (R364). -/
def State.timesOk (s : State) (f : Nat) (recs : List (List Byte)) : Bool :=
  let d := s.fdesc f
  if !d.ordered then true
  else
    let last := match (mget s.feedLast f).filter (fun x => x.1 == d.tail) with
      | some x => x.2
      | none => if d.tail == 0 then 0 else recTime (s.feedRec f (d.tail + 2 ^ 32 - 1))
    (recs.foldl (fun (r : Bool × Nat) x => (r.1 && r.2 ≤ recTime x, recTime x)) (true, last)).1

/-- Waves that wait on a feed. -/
def State.feedWaiters (s : State) (f : Nat) : List WKey :=
  (s.popQ.filter (fun p => p.1 == f)).map Prod.snd ++
    s.pushQ.filterMap (fun p => match p.2 with | .wave w => if p.1 == f then some w else none | _ => none)

/-- Waves that wait in `qpop` or `qpush` on a feed look again. -/
def State.wakeFeed (s : State) (f : Nat) : State :=
  let ks := s.feedWaiters f
  s.mapWaves (fun w => if ks.contains w.key && (w.why == .room || w.why == .record) then { w with why := .none } else w)

/-- APPEND whole records at the tail, and wake poppers (R359, R364, R365). -/
def State.feedWrite (s : State) (f : Nat) (recs : List (List Byte)) : State :=
  let d := s.fdesc f
  let s := (recs.zip (List.range recs.length)).foldl (fun (s : State) (r : List Byte × Nat) => s.agentWrite (d.recAddr (d.tail + r.2)) (r.1.take d.rsize)) s
  let tail := (d.tail + recs.length) % 2 ^ 32
  let s := match recs.getLast? with
    | some r => { s with feedLast := mput s.feedLast f (tail, recTime r) }
    | none => s
  (s.agentWrite (s.fdAddr f + 0x10) (leBytes 4 tail)).wakeFeed f

/-- Queues and feeds that are no longer valid are forgotten (R347, R364). -/
def State.dropInvalid (s : State) : State :=
  let s := (s.queuesOn.filter (fun q => !(s.qdesc q).valid)).foldl State.dropQueue s
  { s with feedLast := s.feedLast.filter (fun p => (s.fdesc p.1).valid) }

/-- A record is freed: `free` passes over each run of freed records (R364). -/
def State.advanceFree (s : State) (fuel f : Nat) : State :=
  match fuel with
  | 0 => s
  | n + 1 =>
    let i := (s.fdesc f).free
    if s.freed.contains (f, i) then
      let s := s.agentWrite (s.fdAddr f + 0x18) (leBytes 4 (i + 1))
      { s with freed := s.freed.filter (· != (f, i)) }.advanceFree n f
    else s
def State.freeRec (s : State) (f i : Nat) : State :=
  ({ s with freed := if s.freed.contains (f, i) then s.freed else s.freed ++ [(f, i)] }.advanceFree (2 ^ 20) f).wakeFeed f

end Sys2Proof.Machine
end

