-- ==== Sys2Proof/Machine/Tlb.lean ====
section
/-! DEFINITION. Translation caches (R205 to R208), page-fault service (R209), uncorrectable errors (R211) and the
host's accesses to memory (R223). -/

namespace Sys2Proof.Machine

/-- The core that serves a miss: the function-mode register selects the host (R374). -/
def State.hostService (s : State) : Bool := tbit s.regs.fmode 1
def State.hostWalks (s : State) : Bool := tbit s.regs.fmode 0

/-- Waves of a core that wait for a translation look again. -/
def State.wakeTlb (s : State) (core : Nat) : State :=
  s.mapWaves (fun w => if w.core == core && w.why == .tlb then { w with why := .none } else w)

/-- Fields of the first operand of `tlbw` (R206): page address, ASID, size. DESIGN CHOICE (log 150): bits 63:57 of the operand that do
not repeat bit 56 are dropped. -/
def tlbwVa (a : Nat) : Nat := a / 2 ^ 16 * 2 ^ 16 % 2 ^ 57
def tlbwAsid (a : Nat) : Nat := nbits a 4 12
def tlbwSize (a : Nat) : Nat := nbits a 0 2
/-- The first operand is legal. -/
def tlbwLegal (a : Nat) : Bool :=
  tlbwSize a != 3 && nbits a 2 2 == 0 && a / 2 ^ 16 * 2 ^ 16 % 2 ^ pageBits (tlbwSize a) == 0

/-- Two pages overlap. -/
def TlbEntry.overlaps (e : TlbEntry) (asid size va : Nat) : Bool :=
  let b := max (pageBits e.size) (pageBits size)
  e.asid == asid && e.va / 2 ^ b == va / 2 ^ b

/-- Write one entry of a core's TLB, or make the miss a page fault where the entry breaks R203. -/
def State.tlbFill (s : State) (core : Nat) (a w0 w1 : Word64) : State :=
  let asid := tlbwAsid a.toNat
  let size := tlbwSize a.toNat
  let va := tlbwVa a.toNat
  let c := s.coreAt core
  let mine (m : Miss) : Bool := m.asid == asid && m.va / 2 ^ pageBits size == va / 2 ^ pageBits size
  if leafValid size w0 w1 then
    let kept := c.tlb.filter (fun e => !e.overlaps asid size va)
    (s.setCore core { c with tlb := { asid := asid, size := size, va := va, w0 := w0, w1 := w1 } :: kept,
                             misses := c.misses.filter (fun m => !mine m) }).wakeTlb core
  else
    (s.setCore core { c with misses := c.misses.map (fun m => if mine m then { m with failed := some (w0.toNat % 2 == 1) } else m) }).wakeTlb core

/-- The body of `tlbw`. -/
def bodyTlbw (f : FmtCpy) (_ act : List Nat) (s : State) : Res :=
  let w := s.cur
  if !w.privileged then .trap s (trapOf 7 act)
  else if !tlbwLegal (w.getS f.sa.toNat).toNat then .trap s (illegal act)
  else .done (s.tlbFill w.core (w.getS f.sa.toNat) (w.getS f.sb.toNat) (w.getS f.sc.toNat)) []

def execTlbw (f : FmtCpy) (s : State) : Host.Outcome State Fault Refusal := issue (.tlbw f) s (bodyTlbw f)

/-- Remove entries from every TLB of the device. -/
def State.tlbDrop (s : State) (gone : TlbEntry → Bool) : State :=
  { s with cores := s.cores.map (fun p => (p.1, { p.2 with tlb := p.2.tlb.filter (fun e => !gone e) })) }

/-- A copy is being written. -/
def Copy.writing : Option Copy → Bool
  | some c => (match c.phase with | .started _ => true | _ => false)
  | none => false

/-- An instruction performed in part keeps locations at which it is still to be performed: statistics of a `qblk` (R187), the lanes
left of an atomic (R236). -/
def Progress.locates (p : Progress) : Bool := p.lanes.any (fun x => 64 ≤ x.1)

/-- A wave's accesses have finished: loads have returned, writes, those that a speculation holds among them, have times that the
GTC has passed, no copy writes, and no instruction is performed in part at a location, but for one that the handler which asks has
interrupted (log 147). -/
def State.waveDone (s : State) (w : Wave) : Bool :=
  w.pend.all (fun p => p.fabric) && w.pw.isEmpty && w.hold.isEmpty && s.passed (max (max w.wct w.dct) w.rct) &&
  !w.copies.any Copy.writing && !w.prog.any (fun p => p.locates && !(w.key == s.cur.key && w.tm && !p.tm))

/-- An entry of an engine's queue, or one saved with a team, that drains to memory. -/
def EngEntry.drains (e : EngEntry) : Bool := match e.op with | .accst .. => true | _ => false

/-- Every access that used an entry has finished (R207), those of drains and of contributions to a reduction among them. -/
def State.accessesDone (s : State) : Bool :=
  s.waves.all s.waveDone &&
  s.cores.all (fun c => !c.2.engine.any EngEntry.drains) && s.teams.all (fun t => !t.savedEngine.any EngEntry.drains) &&
  s.comms.all (fun c => c.contribs.all (fun x => x.src.isEmpty && x.dst.isEmpty))

/-- The body of `tlbi`: the entries go at once, and the wave waits until their last use is over. -/
def tlbiBody (legal : Bool) (gone : TlbEntry → Bool) (_ act : List Nat) (s : State) : Res :=
  if !s.cur.privileged then .trap s (trapOf 7 act)
  else if !legal then .trap s (illegal act)
  else
    let s := s.tlbDrop gone
    if s.accessesDone then .done s [] else .wait .release s

/-- The body of `tlbi.va`. -/
def bodyTlbiVa (f : FmtSrc) (iss act : List Nat) (s : State) : Res :=
  let a := (s.cur.getS f.sa.toNat).toNat
  tlbiBody (a % 16 == 0) (fun e => e.covers (nbits a 4 12) (tlbwVa a)) iss act s
/-- The body of `tlbi.asid`. -/
def bodyTlbiAsid (f : FmtSrc) (iss act : List Nat) (s : State) : Res :=
  let a := (s.cur.getS f.sa.toNat).toNat
  tlbiBody (a % 16 == 0) (fun e => e.asid == nbits a 4 12) iss act s

def execTlbiVa (f : FmtSrc) (s : State) : Host.Outcome State Fault Refusal := issue (.tlbiVa f) s (bodyTlbiVa f)
def execTlbiAsid (f : FmtSrc) (s : State) : Host.Outcome State Fault Refusal := issue (.tlbiAsid f) s (bodyTlbiAsid f)
def execTlbiAll (f : FmtSrc) (s : State) : Host.Outcome State Fault Refusal := issue (.tlbiAll f) s (tlbiBody true (fun _ => true))

/-- The canonical generic address of a 57-bit virtual address (R195). -/
def canonical (va : Nat) : Nat := if va < 2 ^ 56 then va else va + (2 ^ 64 - 2 ^ 57)

/-- TLB MISS WALK: the walker of a core serves its oldest miss that is not with the host: it walks the tables and fills the TLB,
or, in host-assisted mode, posts the miss to the host, which serves it whatever the mode is then (R205, R374). -/
def execTlbMissWalk (core : Nat) (s : State) : Host.Outcome State Fault Refusal :=
  .next (
    let c := s.coreAt core
    match c.misses.find? (fun m => m.failed.isNone && !m.host) with
    | none => s
    | some m =>
      if s.hostWalks then
        { s.setCore core { c with misses := c.misses.map (fun x => if x == m then { m with host := true } else x) } with
          outbox := s.outbox ++ [.hostMiss core m.asid (canonical m.va)] }
      else
        let op (size : Nat) : Word64 := BitVec.ofNat 64 (m.va / 2 ^ pageBits size * 2 ^ pageBits size + m.asid * 16 + size)
        match s.walk m.root m.va with
        | .leaf size w0 w1 => s.tlbFill core (op size) w0 w1
        | .absent => s.tlbFill core (op 0) 0 0
        | .malformed => s.tlbFill core (op 0) 1 0)

/-- The device is in recovery: it serves the host BOOTST and the recovery window only (R391). -/
def State.inRecovery (s : State) : Bool := tbit s.regs.bootst 5

/-- HOST TLB FILL: the host writes a fill through the host interface, with the effect of `tlbw` (R205, R391). -/
def execHostTlbFill (core : Nat) (a w0 w1 : Word64) (s : State) : Host.Outcome State Fault Refusal :=
  .next (
    if s.hostLink && !s.inRecovery && tlbwLegal a.toNat then
      { s with outbox := s.outbox.filter (fun o => match o with
          | .hostMiss c asid va => !(c == core && asid == tlbwAsid a.toNat &&
              va % 2 ^ 57 / 2 ^ pageBits (tlbwSize a.toNat) == tlbwVa a.toNat / 2 ^ pageBits (tlbwSize a.toNat))
          | _ => true) }.tlbFill core a w0 w1
    else s)

/-! ### Page faults -/

/-- The page-fault trap of a batch that the service declines (R209, R273). -/
def State.batchTrap (s : State) (b : Batch) : State :=
  let bad := if b.pages.any (fun p => p.2) then 1 else 0
  s.takeTrap (mkTrap 6 b.lanes b.first b.pages.length bad b.laneCause b.offset (s.wordOf s.cur b.offset) (b.pages.map Prod.fst))

/-- PAGE FAULT BATCH RESOLVED: the wave issues its instruction again, or takes the page-fault trap (R209). -/
def execPageFaultBatchResolved (key : WKey) (ok : Bool) (s : State) : Host.Outcome State Fault Refusal :=
  .next (s.withWave key (fun s =>
    match s.cur.batch with
    | none => s
    | some b =>
      if b.running then s
      else
        let g := s.gridOf s.cur
        let s := s.clearFailed s.cur.core g.ctx.asid (b.pages.map Prod.fst)
        let s := { s with cur := { s.cur with batch := none, why := .none } }
        if ok then s else s.batchTrap b))

/-! ### Errors and the host -/

/-- Poison the granule of a location. -/
def State.poisonAt (s : State) (loc : Nat) : State := s.addPoison (granule loc)

/-- UNCORRECTABLE ERROR: it poisons a granule, or marks an element of a register file or accumulator store
(R211). -/
def execUncorrectableError (site : ErrSite) (s : State) : Host.Outcome State Fault Refusal :=
  .next (match site with
    | .mem a => if physValid a then s.poisonAt a else s
    | .scr core off => if off < Config.scratchBytes then s.poisonAt (scrLoc core off) else s
    | .reg key l r => s.onWave key (fun w =>
        if l < w.lanes.length && r < w.alloc && !w.regErr.contains (l, r) then { w with regErr := w.regErr ++ [(l, r)] } else w)
    | .tile core k e =>
      if k < Config.tilesPerCore && e < 4096 then
        let t := s.tileAt core k
        s.putTile core k { t with bad := insNat t.bad e }
      else s)

/-- A wave runs firmware (R205, R284). -/
def State.setFirmware (s : State) (key : WKey) (walker : Bool) : State :=
  s.onWave key (fun w => { w with priv := true, walker := walker })

/-- HOST MEMORY ACCESS: the host reads bytes, or writes them, at the home of the memory (R223), or in the on-chip
map (R199). DESIGN CHOICE (log 113): a reserved range of R197 and, in the map, a reserved field that is not zero, a reserved window
and an offset beyond the window end in a fault, since the spec does not say what the host meets there. -/
def execHostMemoryAccess (addr len : Nat) (data : Option (List Byte)) (s : State) : Host.Outcome State Fault Refusal :=
  let n := match data with | some bs => bs.length | none => len
  let at_ := List.range n
  if !s.hostLink || s.inRecovery then .next s
  else if mapKind addr == 8 then
    if at_.all (fun k => mapValid (addr + k)) then
      match data with
      | some bs => .next (at_.foldl (fun s k =>
          if mapWindow addr == 1 then s.agentWrite (scrLoc (mapCore addr) (mapOff addr + k)) [bs.getD k 0]
          else (s.mapWrite ⟨0, 0, 0⟩ (addr + k) (bs.getD k 0)).getD s) s)
      | none => .next { s.freeNext with outbox := s.outbox ++ [.hostData (at_.map (fun k =>
          if mapWindow addr == 1 then Memory.read s.mem (scrLoc (mapCore addr) (mapOff addr + k))
          else s.mapRead ⟨0, 0, 0⟩ (addr + k) k))] }
    else .fault .reservedPhysical
  else if !at_.all (fun k => physValid (addr + k)) then .fault .reservedPhysical
  else
    match data with
    | some bs => .next (s.agentWrite addr bs)
    | none => .next { s with outbox := s.outbox ++ [.hostData (s.readN addr n)] }

end Sys2Proof.Machine
end

