-- ==== Sys2Proof/Machine/Fabric.lean ====
section
/-! DEFINITION. The scale-up fabric (R303 to R326): the fabric instructions at their source, the requests at their
target, responses, timeouts and fences. -/

namespace Sys2Proof.Machine

/-! ### Issue (R311 to R314) -/

/-- Target device and address at the target (R309). -/
def fabDev (ea : Nat) : Nat := nbits ea 52 4
def fabVa (ea : Nat) : Nat := ea % 2 ^ 52

/-- The checks at issue (R311): size, address of each lane. -/
def State.fabCheck (s : State) (size : Nat) (act : List Nat) (ea : Nat → Nat) : Option TrapReq :=
  let low := ea (s.cur.lowestTid act)
  let mis (l : Nat) : Bool := ea l % size != 0
  let bad (l : Nat) : Bool := ea l / 2 ^ 56 != 0 || !s.config.present.contains (fabDev (ea l))
  let lc := act.map (fun l => (l, if mis l then 5 else if bad l then 7 else 0))
  if act.any mis then some ⟨5, act, low, 0, 0, lc⟩
  else if act.any bad then some ⟨7, act, low, 0, 0, lc⟩
  else none

/-- Lanes grouped by a key, in the order of their first lanes. -/
def groupLanes (ls : List Nat) (key : Nat → Nat) : List (List Nat) :=
  ls.foldl (fun (gs : List (List Nat)) l =>
    if gs.any (fun g => g.any (fun x => key x == key l)) then
      gs.map (fun g => if g.any (fun x => key x == key l) then g ++ [l] else g)
    else gs ++ [[l]]) []

/-- A request of the wave that issues now, before it is sent. -/
def State.newOut (s : State) (i : Instr) (ea : Nat) (kind : FabKind) (uses : List FabUse) (pend : Option Nat) : FabOut :=
  let w := s.cur
  let g := s.gridOf w
  let req : FabReq :=
    { src := s.config.devNum, dst := fabDev ea, core := w.core, from_ := w.key, tag := 0, inc := 0, key := g.ctx.fkey,
      contract := g.p.contract, cmix := tbit g.trapen 8, deadline := 0, interval := 0, replay := false,
      spec := w.spec != 0, kind := kind }
  { req := req, sent := false, uses := uses, pend := pend, offset := s.at_, word := encode i, seq := w.fabSeq, before := w.pw.length, loads := w.nextPend, held := false,
    resent := false, spec := w.spec != 0, tm := w.tm }

/-- Send the requests of an instruction, or wait at it until slots allow (R307). -/
def State.fabSend (s : State) (iss : List Nat) (outs : List FabOut) : Res :=
  let w := s.cur
  let seq := w.fabSeq
  let s := { s with cur := { w with fab := w.fab ++ outs, fabSeq := seq + 1 } }.fabPump w.key
  if s.cur.fab.any (fun o => o.seq == seq && !o.sent) then
    .wait .slots { s with cur := { s.cur with fabAt := s.cur.fabAt ++ [{ offset := s.at_, tm := w.tm, iss := iss, seq := seq }] } }
  else .done s []

/-- A fabric instruction that issues again while it waits for slots. -/
def State.fabAgain (s : State) (iss : List Nat) : Option Res :=
  (s.cur.fabAt.find? (fun a => a.offset == s.at_ && a.tm == s.cur.tm && a.iss == iss)).map (fun a =>
    if s.cur.fab.any (fun o => o.seq == a.seq && !o.sent) then .wait .slots s
    else .done { s with cur := { s.cur with fabAt := s.cur.fabAt.filter (· != a) } } [])

/-- A use of a request by a lane. -/
def State.useOf (s : State) (l ea reg size : Nat) : FabUse :=
  { lane := l, tid := (s.cur.lane l).tid, ea := ea, reg := reg, size := size, fold := [] }

/-- Bytes of a line on the link to a device (R312, R326). -/
def State.lineOf (s : State) (ea : Nat) : Nat :=
  fabDev ea * 2 ^ 52 + fabVa ea / (if s.onV3 (fabDev ea) then 64 else 128)

/-- The body of `fld`. -/
def bodyFld (f : FmtM) (iss act : List Nat) (s : State) : Res :=
  match s.fabAgain iss with
  | some r => r
  | none =>
    let w := s.cur
    let n := accBytes f
    let ea := w.effAddr f
    match s.fabCheck n act ea with
    | some t => .trap s t
    | none =>
      let outs := (groupLanes (w.byTid act) (fun l => s.lineOf (ea l))).map (fun g =>
        let addrs := (g.flatMap (fun l => (List.range n).map (fun k => fabVa (ea l) + k))).foldl insNat []
        s.newOut (.fld f) (ea (g.headD 0)) (.load addrs) (g.map (fun l => s.useOf l (ea l) f.rd.toNat n)) (some w.nextPend))
      let s := s.addPend (vecPend [] ((List.range (dataRegs f)).map (fun k => f.rd.toNat + k)) true) act
      s.fabSend iss outs

def execFld (f : FmtM) (s : State) : Host.Outcome State Fault Refusal := issue (.fld f) s (bodyFld f)

/-- The body of `fst`. -/
def bodyFst (f : FmtM) (iss act : List Nat) (s : State) : Res :=
  match s.fabAgain iss with
  | some r => r
  | none =>
    let w := s.cur
    let n := accBytes f
    let ea := w.effAddr f
    match s.fabCheck n act ea with
    | some t => .trap s t
    | none =>
      let outs := (groupLanes (w.byTid act) (fun l => s.lineOf (ea l))).map (fun g =>
        let bytes := lastBytes (g.flatMap (fun l => ((List.range n).map (fun k => fabVa (ea l) + k)).zip (storeBytes w f l)))
        s.newOut (.fst f) (ea (g.headD 0)) (.store bytes) (g.map (fun l => s.useOf l (ea l) f.rd.toNat n)) none)
      s.fabSend iss outs

def execFst (f : FmtM) (s : State) : Host.Outcome State Fault Refusal := issue (.fst f) s (bodyFst f)

/-- The requests of `fatom` for one group of lanes that name one location (R314). -/
def State.atomGroup (s : State) (f : FmtAtom) (g : List Nat) : List FabOut :=
  let w := s.cur
  let ea := w.atomAddr f
  let op := f.op.toNat
  let one (ls : List Nat) (v v2 : Nat) : FabOut :=
    let uses := (g.zip (List.range g.length)).filterMap (fun (x : Nat × Nat) =>
      if ls.contains x.1 then
        some { s.useOf x.1 (ea x.1) f.vd.toNat (atomSize f) with
               fold := if op == 9 then [] else (g.take x.2).map (fun m => BitVec.ofNat 64 (w.atomVal f m)) }
      else none)
    s.newOut (.fatom f) (ea (g.headD 0)) (.atomic op f.wide (fabVa (ea (g.headD 0))) (BitVec.ofNat 64 v) (BitVec.ofNat 64 v2))
      uses (some w.nextPend)
  if op == 9 then g.map (fun l => one [l] (w.atomVal f l) (w.atomVal2 f l))
  else
    let vals := g.map (w.atomVal f)
    let c := if op == 8 then vals.getLastD 0
      else (tree (fun a b => (atomicNew s.contract op f.wide a b 0, 0)) vals.length vals).1
    [one g c 0]

/-- The body of `fatom`. -/
def bodyFatom (f : FmtAtom) (iss act : List Nat) (s : State) : Res :=
  match s.fabAgain iss with
  | some r => r
  | none =>
    let w := s.cur
    if nonDet s f true then .trap s ⟨18, act, 0, 0xC2, f.op.toNat, []⟩
    else
      match s.fabCheck (atomSize f) act (w.atomAddr f) with
      | some t => .trap s t
      | none =>
        let outs := (groupLanes (w.byTid act) (w.atomAddr f)).flatMap (s.atomGroup f)
        let s := s.addPend (vecPend [] ((List.range (two f.wide)).map (fun k => f.vd.toNat + k)) true) act
        s.fabSend iss outs

def execFatom (f : FmtAtom) (s : State) : Host.Outcome State Fault Refusal := issue (.fatom f) s (bodyFatom f)

def execFfence (f : FmtG) (s : State) : Host.Outcome State Fault Refusal :=
  issue (.ffence f) s (fun _ act s => ordered s false 5 act (fun s => .done s []))

/-! ### The target (R310, R317, R318, R322) -/

/-- What the target does with a request: the response, or a fault of its translation. -/
inductive Serve where
  | answer (s : State) (r : FabResult)
  | fault (s : State) (malformed : Bool)
  deriving DecidableEq, Repr

def FabReqReads (r : FabReq) : Bool := match r.kind with | .store _ => false | _ => true
def FabReqWrites (r : FabReq) : Bool := match r.kind with | .load _ => false | _ => true
def FabReqAtomic (r : FabReq) : Bool := match r.kind with | .atomic .. => true | _ => false

/-- Perform a request at its locations. -/
def State.fabPerform (s : State) (r : FabReq) (phys : Nat → Nat) (mix zero : Bool) : State × FabResult :=
  match r.kind with
  | .load as =>
    (s, .data (as.map (fun a => (a, if zero && s.isPoisoned (phys a) then 0 else Memory.read s.mem (phys a))))
      (zero && as.any (fun a => s.isPoisoned (phys a))) mix)
  | .store bs => (s.makeVisible (bs.map (fun b => (phys b.1, b.2))), .ack mix)
  | .atomic op wide a v v2 =>
    let locs := (List.range (if wide then 8 else 4)).map (fun k => phys (a + k))
    let old := leNat (locs.map (fun l => Memory.read s.mem l))
    let new := atomicNew r.contract op wide old v.toNat v2.toNat
    (s.makeVisible (locs.zip (leBytes locs.length new)), .old (BitVec.ofNat 64 old) mix)

/-- WHAT COMES BEFORE a request of a wave of this device at the locations: the wave's earlier writes and reads of class 3 there
(R233). -/
def State.landClass3 (s : State) (r : FabReq) (locs : List Nat) : State :=
  if r.src != s.config.devNum then s
  else
    match s.waves.findSome? (fun w => (w.fab.find? (fun o => o.req == r)).map (fun o => (w, o))) with
    | none => s
    | some (w, o) =>
      let s := s.setWave (s.readLate w (fun p => p.id < o.loads) locs)
      let s := (List.range (min o.before w.pw.length)).foldl (fun s k =>
        match w.pw[k]? with
        | some e => if e.fb then s.landEntry w.key k ((e.bytes.map Prod.fst).filter locs.contains) else s
        | none => s) s
      s.onWave w.key Wave.prunePw

/-- CHECK AND PERFORM a request at its target (R310). -/
def State.fabServe (s : State) (r : FabReq) : Serve :=
  let err (s : State) (cause stamp : Nat) : Serve := if r.spec then .answer s .declined else .answer s (.error cause stamp)
  match mget s.exports r.key with
  | none => err s 7 0
  | some e =>
    if (FabReqReads r && !e.r) || (FabReqWrites r && !e.w) then err s 7 0
    else
      match s.walk e.root ((FabReqAddrs r).headD 0) with
      | .absent => if r.spec then .answer s .declined else .fault s false
      | .malformed => if r.spec then .answer s .declined else .fault s true
      | .leaf size w0 w1 =>
        let n := w0.toNat
        let phys (a : Nat) : Nat := leafPhys size w0 a
        let locs := (FabReqAddrs r).map phys
        if (FabReqReads r && nbits n 2 1 == 0) || (FabReqWrites r && nbits n 3 1 == 0) || nbits n 5 1 == 1 ||
           (FabReqAtomic r && nbits n 6 2 == 3) || !locs.all physValid then err s 7 0
        else
          let stamp := w1.toNat % 2 ^ 16
          let mix := stamp != 0 && stamp != r.contract
          let pol := nbits n 8 2
          let bad := FabReqReads r && locs.any s.isPoisoned
          if mix && r.cmix then err s 8 stamp
          else if r.spec && (mix || bad) then .answer s .declined
          else if bad && (FabReqAtomic r || pol != 2) then
            let s := if pol == 1 then
              { s with outbox := s.outbox ++ [.retireFrame (frameOf (leafPhys size w0 ((FabReqAddrs r).headD 0)))] } else s
            if FabReqAtomic r then err s 9 0
            else .answer s (.partly ((FabReqAddrs r).map (fun a => (a, Memory.read s.mem (phys a))))
              ((FabReqAddrs r).filter (fun a => s.isPoisoned (phys a))) mix)
          else
            let (s, res) := (s.landClass3 r locs).fabPerform r phys mix (pol == 2)
            .answer s res

/-- The count of an interval of a source wave. -/
def State.fabCount (s : State) (src : Nat) (w : WKey) (interval : Nat) : FabCount :=
  (s.fabCounts.find? (fun c => c.src == src && c.w == w && c.interval == interval)).getD
    { src := src, w := w, interval := interval, count := 0, reported := false, fresh := true }

/-- Keep a count; intervals half a turn away are forgotten. -/
def State.putFabCount (s : State) (c : FabCount) : State :=
  let keep (x : FabCount) : Bool :=
    !(x.src == c.src && x.w == c.w && (x.interval == c.interval || 2 ^ 15 ≤ (c.interval + 2 ^ 16 - x.interval) % 2 ^ 16))
  { s with fabCounts := c :: s.fabCounts.filter keep }

/-- A performed store or atomic is counted (R317); replays make the count anew (R318). -/
def State.countServed (s : State) (r : FabReq) (res : FabResult) : State :=
  let performed := match res with | .ack _ | .old .. => true | _ => false
  if !performed then s
  else
    let c := s.fabCount r.src r.from_ r.interval
    s.putFabCount (if r.replay && c.fresh then { c with count := 1, fresh := false } else { c with count := c.count + 1 })

/-- Count queries whose stores have all been performed are answered (R318). -/
def State.answerQueries (s : State) : State :=
  s.fabQueries.foldl (fun s q =>
    let (src, w, interval, sent, replayed) := q
    if s.fabWaiting.any (fun r => r.src == src && r.from_ == w && r.interval == interval && FabReqWrites r) then s
    else
      let c := s.fabCount src w interval
      let n := if replayed && c.fresh then 0 else c.count
      { (s.putFabCount { c with count := n, reported := true, fresh := true }) with
        fabQueries := s.fabQueries.filter (· != q), outbox := s.outbox ++ [.countReply src w interval sent n] }) s

/-- Requests of one wave that name a byte in common: they are performed in their order (R312, R233). -/
def FabReq.meets (r q : FabReq) : Bool :=
  r.src == q.src && r.from_ == q.from_ && (FabReqAddrs r).any (FabReqAddrs q).contains

/-- A request waits for the fault service, and its source is told (R310, R322). -/
def State.fabHold (s : State) (r : FabReq) : State :=
  { s with fabWaiting := s.fabWaiting ++ [r],
           outbox := s.outbox ++ [.fabWait r.src r.core r.tag r.inc] ++ (if s.hostService then [.hostFault r.from_] else []) }

/-- A request has been served: its count, and its response. -/
def State.fabAnswer (s : State) (r : FabReq) (res : FabResult) : State :=
  let s := s.countServed r res
  { s with outbox := s.outbox ++ [Out.fabResp r.src r.core r.tag r.inc res] }.answerQueries

/-- Serve a request that has arrived, answer it, or let it wait for the fault service, as it does behind an earlier request for
the same bytes that waits there; a speculative one is declined instead (R267). -/
def State.fabTake (s : State) (r : FabReq) : State :=
  if s.fabWaiting.any (FabReq.meets r) then (if r.spec then s.fabAnswer r .declined else s.fabHold r)
  else
    match s.fabServe r with
    | .answer s res => s.fabAnswer r res
    | .fault s _ => s.fabHold r

/-- The first of the requests that wait, of those that the `k`-th one comes behind (R233). -/
def State.waitFirst (s : State) (k : Nat) (last : FabReq) : FabReq :=
  ((s.fabWaiting.take k).foldr (fun q (l : List FabReq) => if l.any (FabReq.meets q) then q :: l else l) [last]).headD last

/-- After a request has left those that wait: the requests behind it that wait for nothing else are served, in their order. -/
def State.fabBehind (s : State) (r : FabReq) : State :=
  s.fabWaiting.foldl (fun s q =>
    if !FabReq.meets r q || ((s.fabWaiting.takeWhile (· != q)).any (FabReq.meets q)) then s
    else
      match s.fabServe q with
      | .answer t res => { t with fabWaiting := t.fabWaiting.erase q }.fabAnswer q res
      | .fault .. => s) s

/-- The fault service answers for a request that waits: it is served, and goes on waiting where it faults anew, or fails. -/
def State.fabResolve (s : State) (r : FabReq) (ok : Bool) (malformed : Nat) : State :=
  let gone (s : State) : State := { s with fabWaiting := s.fabWaiting.erase r }
  if ok then
    match s.fabServe r with
    | .answer s res => ((gone s).fabAnswer r res).fabBehind r
    | .fault s _ => { s with outbox := s.outbox ++ (if s.hostService then [.hostFault r.from_] else []) }
  else ((gone s).fabAnswer r (.error 6 malformed)).fabBehind r

/-- The info word of the page fault of a request: the entry is malformed (R273). -/
def State.fabMalformed (s : State) (r : FabReq) : Nat := match s.fabServe r with | .fault _ true => 1 | _ => 0

/-- A message between this device and itself must have been sent. -/
def State.consume (s : State) (own : Bool) (m : Out) : Option State :=
  if own then (if s.outbox.contains m then some { s with outbox := s.outbox.erase m } else none) else some s

/-- A request that has reached this target: in time, it is taken, else dropped. The deadline is compared in the target's own
time (R322). -/
def State.fabArrive (s : State) (r : FabReq) : State :=
  if (r.deadline : Int) + mgetD s.clockOff r.src 0 < (s.gtc : Int) then s
  else if FabReqWrites r && !r.replay && (s.fabCount r.src r.from_ r.interval).reported then s
  else s.fabTake r

/-- Requests to this device itself that are on their way before one of the same wave and name bytes in common with it, or with one
that does, in order. -/
def fabEarlier (out : List Out) (r : FabReq) : List FabReq :=
  ((out.takeWhile (fun m => m != .fabReq r)).foldr (fun m (l : List FabReq) =>
    match m with
    | .fabReq q => if q.dst == r.dst && l.any (FabReq.meets q) then q :: l else l
    | _ => l) [r]).dropLast

/-- FABRIC REQUEST ARRIVAL: a request reaches this target in time, or is dropped (R310, R322). A wave's requests to its own device
arrive in order at each location (R312). -/
def execFabricRequestArrival (r : FabReq) (s : State) : Host.Outcome State Fault Refusal :=
  .next (
    let own := r.src == s.config.devNum
    if r.dst != s.config.devNum || !s.reaches r.src then s
    else
      let first := if own && s.outbox.contains (.fabReq r) then fabEarlier s.outbox r else []
      (first ++ [r]).foldl (fun s q =>
        match s.consume own (.fabReq q) with
        | none => s
        | some s => s.fabArrive q) s)

/-- FABRIC COUNT QUERY (R318): answered once every store of the interval that reached this target is performed. -/
def execFabricCountQuery (src : Nat) (from_ : WKey) (interval sent : Nat) (replayed : Bool) (s : State) :
    Host.Outcome State Fault Refusal :=
  .next (
    match (if s.reaches src then s.consume (src == s.config.devNum) (.countQuery s.config.devNum from_ interval sent replayed) else none) with
    | none => s
    | some s => { s with fabQueries := s.fabQueries ++ [(src, from_, interval, sent, replayed)] }.answerQueries)

/-! ### Responses at the source (R312 to R318, R323) -/

/-- The request of some wave of a core that a response answers. -/
def State.outOf (s : State) (core tag inc : Nat) : Option (Wave × FabOut) :=
  s.waves.findSome? (fun w =>
    if w.core == core then (w.fab.find? (fun o => o.sent && o.req.tag == tag && o.req.inc == inc)).map (fun o => (w, o)) else none)

/-- Count a masked stamp mismatch (`false`) or poisoned bytes read as zero (`true`), once per instruction. -/
def State.countFab (s : State) (key : WKey) (o : FabOut) (what seen : Bool) : State :=
  match s.findWave key with
  | none => s
  | some w =>
    if !seen || w.fabCounted.contains (o.seq, what) || o.uses.isEmpty then s
    else
      let s := s.setWave { w with fabCounted := w.fabCounted ++ [(o.seq, what)] }
      if o.spec && w.spec != 0 then
        s.onWave key (fun w => if what then { w with heldPoison := w.heldPoison + 1 } else { w with heldCmix := w.heldCmix + 1 })
      else s.countUp (s.gridOf w) (if what then 0x1C else 0x14) 1

/-- The request is finished: its slot returns. -/
def Wave.fabDone (w : Wave) (o : FabOut) : Wave :=
  let fab := w.fab.erase o
  let live (q : Nat) : Bool := fab.any (fun x => x.seq == q) || w.fabFail.any (fun x => x.out.seq == q) ||
    w.ivals.any (fun i => i.2.replay.any (fun x => x.seq == q))
  { w with fab := fab, fabCounted := w.fabCounted.filter (fun c => live c.1),
           why := if w.why == .slots || w.why == .reply || w.why == .regs then .none else w.why }

/-- Write the elements that a use receives. -/
def Wave.putUse (w : Wave) (spec : Bool) (u : FabUse) (bs : List Byte) : Wave :=
  (partsOf u.size).foldl (fun w p => w.putBoth spec u.lane (u.reg + p.1) (BitVec.ofNat 32 (leNat ((bs.drop p.2.1).take p.2.2)))) w

/-- Bytes of a response at an address. -/
def respByte (bytes : List (Nat × Byte)) (a : Nat) : Byte := (lastByte bytes a).getD 0

/-- The result of a lane of an atomic: the old value combined with the lanes before it (R314). -/
def atomFold (contract op : Nat) (wide : Bool) (old : Word64) (vs : List Word64) : Nat :=
  vs.foldl (fun a v => atomicNew contract op wide a v.toNat 0) old.toNat

/-- The request fails: its lanes wait to be reported (R315). -/
def Wave.fabFails (w : Wave) (o : FabOut) (cause stamp : Nat) : Wave :=
  if o.uses.isEmpty then w
  else { w with fabFail := w.fabFail ++ [{ out := o, cause := cause, stamp := stamp, reported := false }] }

/-- A failed store leaves its interval's sent count, and its entry of the replay buffer is free; so does one whose replay has
failed (R317). -/
def Wave.uncount (w : Wave) (o : FabOut) : Wave :=
  let i := w.ival o.req.dst
  if o.isStore && o.req.interval == i.num then
    w.setIval o.req.dst { i with count := i.count - 1, query := none, replay := i.replay.filter (fun e => !o.replays e) }
  else w

/-- What a response does to the wave that waits for it. -/
def State.fabLand (s : State) (key : WKey) (o : FabOut) (res : FabResult) : State :=
  let ids := match o.pend with | some p => [p] | none => []
  match res with
  | .data bytes poisoned mix =>
    let s := s.onWave key (fun w =>
      if o.pend.isNone then w
      else o.uses.foldl (fun w u => w.putUse o.spec u ((List.range u.size).map (fun k => respByte bytes (fabVa u.ea + k)))) w)
    let s := (s.countFab key o false mix).countFab key o true poisoned
    s.onWave key (fun w => (w.fabDone o).settleFab ids)
  | .partly bytes bad mix =>
    -- the lanes that read a poisoned granule fail; the others have their data (R325)
    let fails (u : FabUse) : Bool := (List.range u.size).any (fun k => bad.contains (fabVa u.ea + k))
    let s := s.onWave key (fun w => (if o.pend.isNone then [] else o.uses.filter (fun u => !fails u)).foldl (fun w u =>
      w.putUse o.spec u ((List.range u.size).map (fun k => respByte bytes (fabVa u.ea + k)))) w)
    (s.countFab key o false mix).onWave key (fun w =>
      ((w.fabFails { o with uses := o.uses.filter fails } 9 0).fabDone o).settleFab ids)
  | .ack mix => (s.countFab key o false mix).onWave key (fun w => w.fabDone o)
  | .old v mix =>
    let (op, wide) := match o.req.kind with | .atomic op wide .. => (op, wide) | _ => (0, false)
    let s := s.onWave key (fun w =>
      if o.pend.isNone then w
      else o.uses.foldl (fun w u => w.putUse o.spec u (leBytes u.size (atomFold o.req.contract op wide v u.fold))) w)
    (s.countFab key o false mix).onWave key (fun w => (w.fabDone o).settleFab ids)
  | .error cause stamp => s.onWave key (fun w => (((w.fabFails o cause stamp).uncount o).fabDone o).settleFab ids)
  | .declined =>
    if !o.spec && !o.uses.isEmpty then
      -- the outcome that matched the hint came first: the load is performed as one of no run-ahead (R267)
      (s.onWave key (fun w => { w with fab := w.fab.map (fun x =>
        if x == o then { x with sent := false, req := { x.req with spec := false } } else x) })).fabPump key
    else
      s.onWave key (fun w =>
        let w := o.uses.foldl (fun (w : Wave) u => w.modLane u.lane (fun x => { x with unk := u.regs.foldl insNat x.unk })) w
        ({ w with declined := w.declined || !o.uses.isEmpty }.fabDone o).settleFab ids)
  | .count .. => s

/-- The answer to a count query (R318). -/
def State.countLand (s : State) (dev : Nat) (key : WKey) (interval sent received : Nat) : State :=
  s.onWave key (fun w =>
    let i := w.ival dev
    if i.num == interval && i.count == sent && i.query == some none then
      { w.setIval dev { i with query := some (some received) } with why := if w.why == .reply then .none else w.why }
    else w)

/-- A request ends without a response: as on a second timeout for a load (R323). -/
def State.fabGiveUp (s : State) (key : WKey) (o : FabOut) : State :=
  let ids := match o.pend with | some p => [p] | none => []
  match o.req.kind with
  | .store _ => s.onWave key (fun w => w.fabDone o)
  | _ => s.onWave key (fun w => ((w.fabFails o 9 0).fabDone o).settleFab ids)

/-- THE DEADLINE OF A REQUEST HAS PASSED (R323). On a V3 link its tag stays out of use towards the peer for 16 times the bound
(R326). -/
def State.fabExpire (s : State) (key : WKey) (o : FabOut) : State :=
  let s := match s.findWave key with
    | some w =>
      let c := s.coreAt w.core
      if s.onV3 o.req.dst then
        s.setCore w.core { c with tagHeld := mput c.tagHeld (4096 * o.req.dst + o.req.tag) (s.gtc + 16 * (s.gridOf w).ctx.ftime) }
      else s
    | none => s
  match o.req.kind with
  | .load _ =>
    if o.resent then s.fabGiveUp key o
    else
      (s.onWave key (fun w => { w with fab := w.fab.map (fun x =>
        if x == o then { x with sent := false, resent := true } else x) })).fabPump key
  | _ => s.fabGiveUp key o

/-- FABRIC RESPONSE: a response packet or a count reply reaches the issuing core (R307, R318). One that arrives after the
deadline, or that no outstanding request matches, is dropped and counted (R323). -/
def execFabricResponse (core tag inc : Nat) (res : FabResult) (s : State) : Host.Outcome State Fault Refusal :=
  .next (
    let own := s.config.devNum
    match res with
    | .count dev w interval sent received =>
      (match (if s.reaches dev then s.consume (dev == own) (.countReply own w interval sent received) else none) with
       | some s => s.countLand dev w interval sent received
       | none => s)
    | res =>
      let m : Out := .fabResp own core tag inc res
      match s.outOf core tag inc with
      | some (w, o) =>
        (match (if s.reaches o.req.dst then s.consume (o.req.dst == own) m else none) with
         | some s =>
           if !o.held && o.req.deadline < s.gtc then { s.fabExpire w.key o with fabErrors := s.fabErrors + 1 }
           else s.fabLand w.key o res
         | none => s)
      | none => { s with outbox := s.outbox.erase m, fabErrors := s.fabErrors + 1 })

/-- FABRIC WAIT NOTICE: the deadline of a request is held (R322). -/
def execFabricWaitNotice (core tag inc : Nat) (s : State) : Host.Outcome State Fault Refusal :=
  .next (
    let own := s.config.devNum
    match s.outOf core tag inc with
    | some (w, o) =>
      (match (if s.reaches o.req.dst then s.consume (o.req.dst == own) (.fabWait own core tag inc) else none) with
       | some s =>
         if o.req.deadline < s.gtc then s
         else s.onWave w.key (fun w => { w with fab := w.fab.map (fun x => if x == o then { x with held := true } else x) })
       | none => s)
    | none => { s with outbox := s.outbox.erase (.fabWait own core tag inc) })

/-- FABRIC REQUEST TIMEOUT: the deadline of a request passes (R323). -/
def execFabricRequestTimeout (core tag : Nat) (s : State) : Host.Outcome State Fault Refusal :=
  .next (
    let mine := s.waves.findSome? (fun w =>
      if w.core == core then (w.fab.find? (fun o => o.sent && o.req.tag == tag && !o.held)).map (fun o => (w, o)) else none)
    match mine with
    | none => s
    | some (w, o) => { s with gtc := max s.gtc (o.req.deadline + 1) }.fabExpire w.key o)

/-- LINK FAILURE: packets to and from the device may be lost; a relay carries later ones (R305). -/
def execLinkFailure (dev : Nat) (s : State) : Host.Outcome State Fault Refusal :=
  .next { s with linkDown := insNat s.linkDown dev }

/-- FABRIC LINK RESTORED: the link is up again, in the protocol that it trained (R326). -/
def execFabricLinkRestored (dev : Nat) (v3 : Bool) (s : State) : Host.Outcome State Fault Refusal :=
  .next { s with linkDown := s.linkDown.filter (· != dev),
                 config := { s.config with v3 := if v3 then insNat s.config.v3 dev else s.config.v3.filter (· != dev) } }

/-- PAGE FAULT RESOLVED: the fault service answers a fault outside a batch: of a copy (R218), of a request at this
target (R310), of the write of a trap record (R275). -/
def execPageFaultResolved (site : FaultSite) (ok : Bool) (s : State) : Host.Outcome State Fault Refusal :=
  .next (match site with
    | .copy key q =>
      (match s.findWave key with
       | none => s
       | some w =>
         match w.copies.getD q none with
         | none => s
         | some c =>
           match c.phase with
           | .faulted va malformed =>
             if ok then s.setWave (w.setCopy q (some { c with phase := .waiting }))
             else s.setWave ((w.setCopy q (some { c with phase := .failed 6 va (if malformed then 1 else 0) })).fill c.regDst).copyWake
           | _ => s)
    | .fabric k =>
      (match s.fabWaiting[k]? with
       | none => s
       | some last =>
         let r := s.waitFirst k last
         s.fabResolve r ok (s.fabMalformed r))
    | .record key =>
      s.withWave key (fun s =>
        match s.cur.trapPend with
        | none => s
        | some t =>
          if s.cur.why != .trapRecord then s
          else
            let g := s.gridOf s.cur
            let s := s.clearFailed s.cur.core g.ctx.asid [recordAddr g s.cur, g.ctx.trapSeg]
            let s := { s with cur := { s.cur with why := .none, trapPend := none } }
            if ok then s.takeTrap t else s.declined t))

end Sys2Proof.Machine
end

