-- ==== Sys2Proof/Machine/Tensor.lean ====
section
/-! DEFINITION. Tensor records (R180 to R187), the record cache, quantisation (R188 to R193) and tile loads and
stores (R194). -/

namespace Sys2Proof.Machine

/-! ### Records -/

/-- The fields of a tensor record (R180, R181). -/
structure Rec where
  base : Nat
  desc : Nat
  dims : List Nat
  strides : List Int
  sbase : Nat
  sstride : Nat
  s2off : Nat
  s2 : Nat
  thresh : Nat
  hseed : Nat
  hsize : Nat
  stats : Nat
  reserved : List Byte
  deriving DecidableEq, Repr

/-- Read a record from its 192 bytes. -/
def recOf (bs : List Byte) : Rec :=
  let num (off n : Nat) : Nat := leNat ((bs.drop off).take n)
  { base := num 0 8, desc := num 8 8, dims := (List.range 6).map (fun k => num (0x10 + 4 * k) 4),
    strides := (List.range 6).map (fun k => toSigned 64 (num (0x28 + 8 * k) 8)),
    sbase := num 0x58 8, sstride := num 0x60 4, s2off := num 0x64 4, s2 := num 0x68 4, thresh := num 0x6C 4,
    hseed := num 0x70 8, hsize := num 0x78 8, stats := num 0x80 8, reserved := (bs.drop 0x88).take 56 }

def Rec.fmt (r : Rec) : Nat := nbits r.desc 0 4
def Rec.rank (r : Rec) : Nat := nbits r.desc 4 3
def Rec.ro (r : Rec) : Bool := nbits r.desc 8 1 == 1
def Rec.stamp (r : Rec) : Nat := nbits r.desc 16 16
def Rec.e0 (r : Rec) : Nat := nbits r.desc 32 8
def Rec.e1 (r : Rec) : Nat := nbits r.desc 40 8
/-- Element size in bytes (R181). -/
def Rec.size (r : Rec) : Nat := fmtBits r.fmt / 8
/-- Extent of a dimension: 1 at or above the rank. -/
def Rec.dim (r : Rec) (i : Nat) : Nat := if i < r.rank then r.dims.getD i 0 else 1
/-- Side of the Hadamard block, 0 for none. -/
def Rec.had (r : Rec) : Nat := if r.hsize == 1 then 16 else if r.hsize == 2 then 64 else 0

/-- The record is valid (R184). -/
def Rec.valid (r : Rec) : Bool :=
  nbits r.desc 7 1 == 0 && nbits r.desc 9 7 == 0 && r.desc / 2 ^ 48 == 0 && r.hsize < 3 &&
  r.reserved.all (fun b => b == 0) && r.fmt != 0xF && 1 ≤ r.rank && r.rank ≤ 6 &&
  1 ≤ r.e0 && r.e0 ≤ 64 && 1 ≤ r.e1 && r.e1 ≤ 64 &&
  (List.range r.rank).all (fun i => r.dims.getD i 0 != 0 && (r.strides.getD i 0) % (r.size : Int) == 0) &&
  r.base % r.size == 0 && r.stats % 32 == 0

/-- The origin of a tile from its two registers (R183). -/
def originOf (a b : Nat) : List Nat :=
  [nbits a 0 32, nbits a 32 32, nbits b 0 16, nbits b 16 16, nbits b 32 16, nbits b 48 16]

/-- Origin coordinates at or above the rank are 0 (R183, R184). -/
def Rec.originOk (r : Rec) (o : List Nat) : Bool := (List.range 6).all (fun i => i < r.rank || o.getD i 0 == 0)

/-- Coordinates of element (i, j) of the tile. -/
def coordsAt (o : List Nat) (i j : Nat) : List Nat := (o.set 0 (o.getD 0 0 + i)).set 1 (o.getD 1 0 + j)

/-- The element is inside the tensor (R183). -/
def Rec.inside (r : Rec) (c : List Nat) : Bool := (List.range r.rank).all (fun i => c.getD i 0 < r.dim i)

/-- The address of an element (R182). -/
def Rec.addr (r : Rec) (c : List Nat) : Nat :=
  wrapTo 64 ((List.range r.rank).foldl (fun (a : Int) i => a + (c.getD i 0 : Int) * r.strides.getD i 0) (r.base : Int))

/-- A coordinate, 0 at or above the rank. -/
def Rec.coord (r : Rec) (c : List Nat) (i : Nat) : Nat := if i < r.rank then c.getD i 0 else 0

/-- The row-major index of λ: dimensions 1 to 5 (R182). -/
def Rec.rowIndex (r : Rec) (c : List Nat) : Nat :=
  [1, 2, 3, 4, 5].foldl (fun n i => n * r.dim i + r.coord c i) 0

/-- The address of the block scale code of an element (R182). -/
def Rec.scaleAddr (r : Rec) (c : List Nat) : Nat :=
  (r.sbase + r.coord c 0 / 32 + r.sstride * r.rowIndex c) % 2 ^ 64

/-- The address of the second-level scale of an element, where there is an array (R182). -/
def Rec.s2Addr (r : Rec) (c : List Nat) : Option Nat :=
  if r.s2off == 0 then none
  else
    let up (n : Nat) : Nat := (n + 127) / 128
    let head := r.coord c 0 / 128 * up (r.dim 1) + r.coord c 1 / 128
    some ((r.sbase + r.s2off + 4 * [2, 3, 4, 5].foldl (fun n i => n * r.dim i + r.coord c i) head) % 2 ^ 64)

/-! ### Record names and the record cache (R185, R186) -/

/-- Check needs: the record; a read and a read and write of a tile; the scale bytes; the statistics. -/
def needRec : AccNeed := ⟨true, false, false, false, false, true, false, false⟩
def needTileR : AccNeed := ⟨true, false, false, true, false, false, false, false⟩
def needTileW : AccNeed := ⟨true, true, false, true, false, false, false, false⟩
def needStats : AccNeed := ⟨true, true, false, true, false, true, true, false⟩

/-- The tag of a record in the cache: its address and the grid. -/
def recTag (grid ea : Nat) : Nat := ea + grid * 2 ^ 64

/-- Place a record in the cache of the wave's core. -/
def State.cacheRec (s : State) (tag : Nat) (bs : List Byte) : State :=
  let c := s.coreAt s.cur.core
  s.setCore s.cur.core { c with rcache := ((tag, bs) :: c.rcache.filter (fun e => e.1 != tag)).take 32 }

/-- Bytes at locations as they stand once every write that has landed in part has landed whole, of a store, a copy, a reduction or an
RMA request: a record is read whole, old or new (R186). -/
def State.versionBytes (s : State) (locs : List Nat) : List Byte :=
  let copies := s.waves.flatMap (fun w => w.copies.filterMap (fun c => c.bind (fun c =>
    match c.phase with
    | .started ms => if c.written.isEmpty && c.torn.isEmpty then none else some (w.key, c, ms)
    | _ => none)))
  let rest := copies.flatMap (fun x => (x.2.2.zip (List.range x.2.2.length)).filterMap (fun m =>
    match m.1.1 with
    | .mem loc =>
      if locs.contains loc && !x.2.1.written.contains (granule loc) && !(x.2.1.tornAt (granule loc)).1.contains loc then
        some (loc, s.copyValue x.1 x.2.2 m.2 m.1)
      else none
    | .map _ => none))
  let reduced := s.comms.flatMap (fun c => c.running.flatMap (fun r =>
    if r.times.isEmpty then [] else r.pieces.flatMap (fun p => p.2.filter (fun b => locs.contains b.1))))
  let bulk := s.rma.flatMap (fun x => x.2.filter (fun b => locs.contains b.1))
  (locs.zip (s.wholeBytes locs)).map (fun p => (lastByte (rest ++ reduced ++ bulk) p.1).getD p.2)

/-- The instruction has counted a poisoned granule already (R214). -/
def State.poisonSeen (s : State) : Bool := s.progress.any (fun p => p.1 == 11)
/-- What the accesses count (R129, R214): the poison of an instruction once, however often it issues. -/
def State.countOnce (s : State) (as : List Access) : State :=
  s.countAccess (if s.poisonSeen then as.map (fun a => { a with zero := false }) else as)

/-- Read a record of 192 bytes from memory, with the checks of R99 that a record takes. -/
def State.loadRec (s : State) (act : List Nat) (ea : Nat) : Except Res (List Byte × State) :=
  let as := rangeAcc s s.cur false needRec 3 0 ea 192
  match rangeFailed s act ea as with
  | some r => .error (retiring s (as.map (fun a => (0, a))) r)
  | none =>
    let acc := as.map LaneAcc.access
    let s := (s.readsRange as).countOnce acc
    let s := if acc.any Access.zero then s.progressed ((11, 1) :: s.progress) else s
    let bs := acc.flatMap (fun a => (a.locs.zip (s.versionBytes a.locs)).map (fun p =>
      if a.zero && s.poisonedFor s.cur p.1 then 0 else (s.cur.ownByte p.1).getD p.2))
    .ok (bs, s.cacheRec (recTag s.cur.key.grid ea) bs)

/-- The illegal-instruction trap of a record, whose name stands in info A (log 130). -/
def badRec (s : State) (iss : List Nat) (k : Nat) : Res := .trap s { illegal iss with infoA := k }

/-- USE a record name: the record as the cache or memory gives it, valid for the origin (R184, R186). -/
def State.useRec (s : State) (iss act : List Nat) (k : Nat) (o : List Nat) : Except Res (Rec × State) :=
  match (s.teamOf s.cur).recs.getD k none with
  | none => .error (badRec s iss k)
  | some ea =>
    let got : Except Res (List Byte × State) := match (s.coreAt s.cur.core).rcache.find? (fun e => e.1 == recTag s.cur.key.grid ea.toNat) with
      | some e => .ok (e.2, s)
      | none => s.loadRec act ea.toNat
    match got with
    | .error r => .error r
    | .ok (bs, s) =>
      let r := recOf bs
      if r.valid && r.originOk o then .ok (r, s) else .error (badRec s iss k)

/-- The body of `trec`. -/
def bodyTrec (f : FmtTrec) (_ act : List Nat) (s : State) : Res :=
  let ea := wrapTo 64 (((s.cur.getS f.sa.toNat).toNat : Int) + f.off.toInt)
  if ea % 64 != 0 then .trap s ⟨5, act, ea, 0, 0, []⟩
  else
    match s.loadRec act ea with
    | .error r => r
    | .ok (_, s) =>
      let t := s.teamOf s.cur
      .done (s.setTeam { t with recs := t.recs.set f.rec_.toNat (some (BitVec.ofNat 64 ea)) }) []

def execTrec (f : FmtTrec) (s : State) : Host.Outcome State Fault Refusal := issue (.trec f) s (bodyTrec f)

/-- The body of `rfence`. -/
def bodyRfence (_ _ : List Nat) (s : State) : Res :=
  let w := s.cur
  if !s.passed w.wct then .wait .release s
  else
    let tags := (s.teamOf w).recs.filterMap (fun r => r.map (fun a => recTag w.key.grid a.toNat))
    let c := s.coreAt w.core
    .done (s.setCore w.core { c with rcache := c.rcache.filter (fun e => !tags.contains e.1) }) []

def execRfence (f : FmtG) (s : State) : Host.Outcome State Fault Refusal := issue (.rfence f) s bodyRfence

/-! ### Quantisation (R188 to R191) -/

/-- fmax of a format (R188). -/
def fmaxOf (fmt : Nat) : Nat := if fmt == 4 then 448 else if fmt == 5 then 57344 else 2

/-- The body of `sclq`. -/
def bodySclq (f : FmtSclq) (_ act : List Nat) (s : State) : Res :=
  let c := s.contract
  let op (l : Nat) : Nat × BitVec 6 :=
    let a := (fF32.read c (s.cur.readX false false l f.va.toNat)).setNeg false
    scaleCode a (fF32.read c (s.cur.readX false false l f.vb.toNat)) (fmaxOf f.fmt.toNat)
  .done { s with cur := s.cur.writeFlagged false false f.vd.toNat act op } []

def execSclq (f : FmtSclq) (s : State) : Host.Outcome State Fault Refusal := issue (.sclq f) s (bodySclq f)

/-- A second-level scale that makes every element invalid. -/
def badS2 (v : FVal) : Bool := v.isNan || v.isInf || v.neg || v.isZero

/-- The exact quotient of a value by a positive number, with its last bit forced where it goes on. -/
def quotVal (x : FVal) (q : Dy) : FVal :=
  match x with
  | .fin n m e => let (k, ke) := quotJam 64 m q.m.natAbs; .fin n k (ke + e - q.e)
  | v => v

/-- A code of a destination format holds zero. -/
def zeroCode (fmt c : Nat) : Bool := if fmt == 6 then dp8Units c == 0 else c % 128 == 0

/-- One element of `qblk`: code, flags, saturated, underflowed (R190). -/
def quantOne (contract fmt : Nat) (bad : Bool) (q : Dy) (x : FVal) : Nat × BitVec 6 × Bool × Bool :=
  let (y, fl) :=
    if bad || x.isNan then (if fmt == 6 then 0x77 else (fmtOf fmt).cnan, flInvalid)
    else if q.m == 0 then (if fmt == 6 then 0x77 else 0, 0)
    else
      let f := fmtOf fmt
      match quotVal x q with
      | .fin n m e =>
        if fmt == 6 then dp8Quantise (.fin n m e) false
        else
          let (c, fl, ov) := f.roundDy (flushVec contract) .rn n (FVal.fin n m e).dy
          if ov then (f.signBit n + f.maxCode, flSat) else (c, fl)
      | v => if fmt == 6 then dp8Quantise v false else (f.signBit v.neg + f.maxCode, flSat)
  let under := !x.isZero && zeroCode fmt y
  (y, fl ||| flIf under (flUnderflow ||| flInexact), fl &&& flSat != 0, under)

/-- What a quantisation instruction is about to write, and what it counted. -/
structure QOut where
  writes : List (Nat × Byte)
  n : Nat
  sat : Nat
  under : Nat
  amax : Nat
  flags : BitVec 6
  deriving DecidableEq, Repr

def QOut.empty : QOut := ⟨[], 0, 0, 0, 0, 0⟩

/-- An access of a tensor instruction by its wave, as its thread with the lowest `$tid`. -/
def State.tileAcc (s : State) (act : List Nat) (need : AccNeed) (ea n : Nat) : LaneAcc :=
  checkAccess s s.cur false need 0 (s.cur.lane (s.cur.lowestTid act)).tid ea n

/-- The locations of a checked access. -/
def State.tileLocs (s : State) (act : List Nat) (need : AccNeed) (ea n : Nat) : List Nat :=
  (s.tileAcc act need ea n).access.locs

/-- A number at an address, as the wave's plain loads read it. -/
def State.tileNum (s : State) (act : List Nat) (ea n : Nat) : Nat :=
  leNat ((s.tileLocs act needTileR ea n).map (s.loadByte s.cur))

/-- An element as a value; +0 outside the tensor. -/
def State.tileVal (s : State) (act : List Nat) (r : Rec) (c : List Nat) : FVal :=
  if r.inside c then readFmt s.contract r.fmt (s.tileNum act (r.addr c) r.size) else .zero false

/-- The second-level scale of an element. -/
def State.s2Val (s : State) (act : List Nat) (r : Rec) (c : List Nat) : FVal :=
  fF32.read s.contract (match r.s2Addr c with | some a => s.tileNum act a 4 | none => r.s2)

/-- Locations and bytes of an element's new code. -/
def State.tilePutNum (s : State) (act : List Nat) (ea n v : Nat) : List (Nat × Byte) :=
  (s.tileLocs act needTileR ea n).zip (leBytes n v)

/-- The larger of two magnitudes. -/
def magMax (a b : FVal) : FVal := if a.lt b then b else a

/-- One block of 32 elements of `qblk` at coordinates `c` (R190). -/
def State.qblkBlock (s : State) (act : List Nat) (stored : Bool) (dst src : Rec) (c : List Nat) (q : QOut) : QOut :=
  let at_ (j : Nat) : List Nat := c.set 0 (c.getD 0 0 + j)
  let xs := (List.range 32).map (fun j => s.tileVal act src (at_ j))
  let s2 := s.s2Val act dst c
  let amax := (xs.filter (fun x => !x.isNan)).foldl (fun m x => magMax m (x.setNeg false)) (.zero false)
  let ca := dst.scaleAddr c
  let (code, fl) := if stored then (s.tileNum act ca 1, 0) else scaleCode amax s2 (fmaxOf dst.fmt)
  let k := (scale8 code).mul s2.dy
  let q := { q with flags := q.flags ||| fl,
                    writes := if stored then q.writes else q.writes ++ s.tilePutNum act ca 1 code }
  (List.range 32).foldl (fun (q : QOut) j =>
    if dst.inside (at_ j) then
      let x := xs.getD j (.zero false)
      let (y, fl, sat, under) := quantOne s.contract dst.fmt (badS2 s2) k x
      { writes := q.writes ++ s.tilePutNum act (dst.addr (at_ j)) dst.size y, n := q.n + 1,
        sat := q.sat + (if sat then 1 else 0), under := q.under + (if under then 1 else 0),
        amax := if x.isNan || x.isInf then q.amax else max q.amax (fF32.encodeExact (x.setNeg false)),
        flags := q.flags ||| fl }
    else q) q

/-- One element of `dqblk` (R192). DESIGN CHOICE (log 162): the flush of subnormal results is that of R121's vector column, here, in
`hadm` and in `qblk`; the spec does not say which column the instructions on tensors take. -/
def dequantOne (contract fmt : Nat) (s2 : FVal) (code : Nat) (x : FVal) : Nat × BitVec 6 :=
  let f := fmtOf fmt
  if badS2 s2 then (f.cnan, flInvalid)
  else
    match mulVal x (.ofDy ((scale8 code).mul s2.dy)) with
    | none => (f.cnan, flInvalid)
    | some (.nan ..) => (f.cnan, 0)
    | some (.inf n) => (f.signBit n + f.infCode, 0)
    | some (.fin n m e) => let (c, fl, _) := f.roundDy (flushVec contract) .rn n (FVal.fin n m e).dy; (c, fl)

/-- Sign bits of a Hadamard block: bit j of the Philox output for the block's index (R193). -/
def hadSigns (r : Rec) (c : List Nat) : Nat :=
  let lin := [1, 2, 3, 4, 5].foldl (fun n i => n * r.dim i + r.coord c i) (r.coord c 0 / r.had)
  let o := philox (BitVec.ofNat 32 lin, BitVec.ofNat 32 (lin / 2 ^ 32), 0, 0) (BitVec.ofNat 32 r.hseed)
    (BitVec.ofNat 32 (r.hseed / 2 ^ 32))
  o.1.toNat + o.2.1.toNat * 2 ^ 32 + o.2.2.1.toNat * 2 ^ 64 + o.2.2.2.toNat * 2 ^ 96

/-- h(i, j) is −1: popcount(i AND j) is odd. -/
def hadNeg (i j : Nat) : Bool := ((List.range 6).filter (fun b => nbits i b 1 == 1 && nbits j b 1 == 1)).length % 2 == 1

/-- One output of the transform: terms summed exactly, the sign changed where asked, and rounded once (R193). `lg` is
log2 √H. -/
def hadSum (contract : Nat) (f : FFmt) (lg : Nat) (neg : Bool) (ts : List FVal) : Nat × BitVec 6 :=
  if ts.any FVal.isNan then (f.cnan, flInvalid)
  else
    match ts.filter FVal.isInf with
    | v :: vs => if vs.all (fun w => w.neg == v.neg) then (f.signBit (v.neg != neg) + f.infCode, 0) else (f.cnan, flInvalid)
    | [] =>
      let d := ts.foldl (fun acc v => acc.add v.dy) ({ m := 0, e := 0 } : Dy)
      let d := if neg then { d with m := -d.m } else d
      let (c, fl, _) := f.roundDy (flushVec contract) .rn (zeroSumNeg .rn ts != neg) (d.scale (-(lg : Int)))
      (c, fl)

/-- A value with its sign changed where asked. -/
def flipIf (b : Bool) (v : FVal) : FVal := if b then v.negate else v

/-- One block of `hadm`: H new elements. -/
def State.hadBlock (s : State) (act : List Nat) (inv : Bool) (dst src : Rec) (c : List Nat) (q : QOut) : QOut :=
  let h := dst.had
  let at_ (j : Nat) : List Nat := c.set 0 (c.getD 0 0 + j)
  if !dst.inside (at_ (h - 1)) then q
  else
    let xs := (List.range h).map (fun j => s.tileVal act src (at_ j))
    let sg := hadSigns dst c
    (List.range h).foldl (fun (q : QOut) o =>
      let sigma (t : Nat) : Bool := nbits sg t 1 == 1
      let ts := (List.range h).map (fun t => flipIf (hadNeg o t != (!inv && sigma t)) (xs.getD t (.zero false)))
      let (y, fl) := hadSum s.contract (fmtOf dst.fmt) (if h == 16 then 2 else 3) (inv && sigma o) ts
      { q with writes := q.writes ++ s.tilePutNum act (dst.addr (at_ o)) dst.size y, flags := q.flags ||| fl }) q

/-- The three instructions. -/
inductive QKind where
  | quant (stored : Bool) | dequant | had (inv : Bool)
  deriving DecidableEq, Repr

def floatSrc (fmt : Nat) : Bool := fmt == 1 || fmt == 2 || fmt == 3
def narrow (fmt : Nat) : Bool := fmt == 4 || fmt == 5 || fmt == 6

/-- The first condition of an instruction's table, and of R124, that does not hold, by the record that breaks it: `true` for the
source (R184, R190, R192, R193). A record's format counts as named by the instruction (log 129). DESIGN CHOICE (log 161): the dimension 0 that
H must divide is the destination's alone; R193 does not say whose. -/
def QKind.misfit (k : QKind) (contract : Nat) (dst src : Rec) (o : List Nat) : Option Bool :=
  let first (cs : List (Bool × Bool)) : Option Bool := (cs.find? (fun c => !c.1)).map Prod.snd
  let named := [(formatUnder contract dst.fmt, false), (formatUnder contract src.fmt, true)]
  let at32 := [(dst.e0 % 32 == 0 && o.getD 0 0 % 32 == 0, false), (dst.hsize == 0, false)]
  match k with
  | .quant _ => first (named ++ [(floatSrc src.fmt, true), (narrow dst.fmt && dst.sbase != 0, false)] ++ at32)
  | .dequant => first (named ++ [(narrow src.fmt && src.sbase != 0, true), (floatSrc dst.fmt, false)] ++ at32)
  | .had _ => first (named ++ [(floatSrc src.fmt, true), (floatSrc dst.fmt && dst.had != 0 && dst.dim 0 % dst.had == 0 &&
      dst.e0 % dst.had == 0 && o.getD 0 0 % dst.had == 0, false)])
def QKind.legal (k : QKind) (contract : Nat) (dst src : Rec) (o : List Nat) : Bool := (k.misfit contract dst src o).isNone

/-- Coordinates of the tile's elements. -/
def tileCoords (dst : Rec) (o : List Nat) : List (List Nat) :=
  (List.range dst.e1).flatMap (fun j => (List.range dst.e0).map (fun i => coordsAt o i j))
/-- Coordinates of the first elements of the tile's blocks of `n` that begin inside the tensor. -/
def tileBlocks (dst : Rec) (o : List Nat) (n : Nat) : List (List Nat) :=
  (List.range dst.e1).flatMap (fun j =>
    ((List.range (dst.e0 / n)).map (fun b => coordsAt o (n * b) j)).filter dst.inside)

/-- The fields of a statistics block: offset and size (R187). -/
def statFields : List (Nat × Nat) := [(0, 8), (8, 8), (16, 8), (24, 4), (28, 4)]

/-- The reads of an instruction: address, size; then its other checked accesses. DESIGN CHOICE (log 160): the stored scale codes of the
destination of `qblk.d`, and the second-level scales, are read, and are checked for R and not for W; R189 step 3 speaks of the reads
and writes for the destination as a whole. -/
def QKind.reads (k : QKind) (dst src : Rec) (o : List Nat) : List (Nat × Nat) :=
  let elems := ((tileCoords dst o).filter src.inside).map (fun c => (src.addr c, src.size))
  let scales (r : Rec) (codes : Bool) : List (Nat × Nat) :=
    (tileBlocks dst o 32).flatMap (fun c =>
      (if codes then [(r.scaleAddr c, 1)] else []) ++ (match r.s2Addr c with | some a => [(a, 4)] | none => []))
  match k with
  | .quant stored => elems ++ scales dst stored
  | .dequant => elems ++ scales src true
  | .had _ => elems
def QKind.others (k : QKind) (dst : Rec) (o : List Nat) : List (AccNeed × Nat × Nat) :=
  ((tileCoords dst o).filter dst.inside).map (fun c => (needTileW, dst.addr c, dst.size)) ++
  (match k with
   | .quant stored =>
     (if stored then [] else (tileBlocks dst o 32).map (fun c => (needTileW, dst.scaleAddr c, 1))) ++
     (if dst.stats == 0 || (tileCoords dst o).all (fun c => !dst.inside c) then [] else statFields.map (fun f => (needStats, dst.stats + f.1, f.2)))
   | _ => [])

/-- The tile in the staging buffer. -/
def QKind.stage (k : QKind) (s : State) (act : List Nat) (dst src : Rec) (o : List Nat) : QOut :=
  match k with
  | .quant stored => (tileBlocks dst o 32).foldl (fun q c => s.qblkBlock act stored dst src c q) QOut.empty
  | .dequant =>
    ((tileCoords dst o).filter dst.inside).foldl (fun (q : QOut) c =>
      let x := s.tileVal act src c
      let code := s.tileNum act (src.scaleAddr c) 1
      let (y, fl) := dequantOne s.contract dst.fmt (s.s2Val act src c) code x
      { q with writes := q.writes ++ s.tilePutNum act (dst.addr c) dst.size y, n := q.n + 1, flags := q.flags ||| fl }) QOut.empty
  | .had inv => (tileBlocks dst o dst.had).foldl (fun q c => s.hadBlock act inv dst src c q) QOut.empty

/-- The tile passes the saturation threshold (R191). -/
def QOut.passes (q : QOut) (thresh : FVal) : Bool :=
  q.n != 0 && !thresh.isNan &&
  (match thresh with
   | .inf n => n
   | t => t.dy.lt (Dy.ofNat 1) && ((Dy.ofNat q.n).mul t.dy).lt (Dy.ofNat (q.sat + q.under)))

/-- A stamp of a record differs from the contract (R189, R194). -/
def Rec.mixes (r : Rec) (contract : Nat) : Bool := r.stamp != 0 && r.stamp != contract

/-- Device-scope atomic additions and a maximum on the fields of a statistics block that change (R187): locations of its 32 bytes, and
what is added or compared. They are reductions of the wave, unordered among themselves. -/
def Wave.statistics (w : Wave) (contract : Nat) (locs : List Nat) (n sat under amax event : Nat) : Wave :=
  let ins := (w.pw.map (fun e => e.kind.ins)).foldl max 0 + 1
  let e (off size op v : Nat) : PWrite :=
    { bytes := ((locs.drop off).take size).map (fun l => (l, 0)), fb := false, part := false,
      kind := .rmw op (size == 8) (BitVec.ofNat 64 v) contract ins }
  let all := [(n, e 0 8 0 n), (sat, e 8 8 0 sat), (under, e 16 8 0 under), (amax, e 24 4 2 amax), (event, e 28 4 0 event)]
  { w with pw := w.pw ++ (all.filter (fun x => x.1 != 0)).map Prod.snd }

/-- What a tensor instruction keeps while its writes are awaited, beside their locations: elements, saturated, underflowed, amax,
flags, scale-range event, and the locations of the statistics block that it will update. -/
def QOut.keep (q : QOut) (event : Bool) (stats : List Nat) : List (Nat × Nat) :=
  [(0, q.n), (1, q.sat), (2, q.under), (3, q.amax), (4, q.flags.toNat), (5, if event then 1 else 0)] ++ stats.map (fun l => (256, l))

/-- Locations whose writes the instruction awaits. -/
def awaited (p : List (Nat × Nat)) : List Nat := (p.filter (fun x => x.1 == 10)).map Prod.snd
/-- A value that the instruction has kept. -/
def keptVal (p : List (Nat × Nat)) (k : Nat) : Nat := ((p.find? (fun x => x.1 == k)).map Prod.snd).getD 0

/-- A write of the wave to an awaited location is still pending. -/
def Wave.awaits (w : Wave) (locs : List Nat) : Bool := w.pw.any (fun e => e.bytes.any (fun b => locs.contains b.1))

/-- A tensor instruction whose tile has left the staging buffer: it waits for its writes, then for the updates of the statistics,
and then retires with its flags (R187, R189). -/
def quantEnd (act : List Nat) (p : List (Nat × Nat)) (s : State) : Res :=
  let locs := awaited p
  if s.cur.awaits locs then .wait .staging s
  else if p.any (fun x => x.1 == 256) then
    let stats := (p.filter (fun x => x.1 == 256)).map Prod.snd
    let w := s.cur.statistics s.contract stats (keptVal p 0) (keptVal p 1) (keptVal p 2) (keptVal p 3) (keptVal p 5)
    let s := { s with cur := w }
    let s := s.progressed ((4, keptVal p 4) :: stats.map (fun l => (10, l)))
    .wait .staging s
  else
    let s := s.leaveStage s.cur.key
    .done { s with cur := s.cur.orFlags act (fun _ => BitVec.ofNat 6 (keptVal p 4)) } []

/-- THE STAGING BUFFER of the wave's core serves the core's waves in the order of issue (R189): the wave joins, and is told whether
another is before it. -/
def State.joinStage (s : State) : State × Bool :=
  let c := s.coreAt s.cur.core
  if c.stageQ.contains s.cur.key then (s, c.stageQ.head? != some s.cur.key)
  else (s.setCore s.cur.core { c with stageQ := c.stageQ ++ [s.cur.key] }, !c.stageQ.isEmpty)

/-- Quantise, dequantise or transform, after the records are read (R189 to R193). -/
def quantBody (k : QKind) (f : FmtQblk) (dst src : Rec) (o : List Nat) (a b : Nat) (iss act : List Nat) (s : State) : Res :=
  let g := s.gridOf s.cur
  match k.misfit s.contract dst src o with
  | some isSrc => badRec s iss (if isSrc then f.src.toNat else f.dst.toNat)
  | none =>
    let mix := [dst, src].find? (fun r => r.mixes s.contract)
    let enabled := tbit g.trapen 8
    match (if enabled then mix else none) with
    | some r => .trap s ⟨8, act, r.base, r.stamp, s.contract, []⟩
    | none =>
      let reads := (k.reads dst src o).map (fun x => (x.1, s.tileAcc act needTileR x.1 x.2))
      let rs := reads ++ (k.others dst o).map (fun x => (x.2.1, s.tileAcc act x.1 x.2.1 x.2.2))
      let low := s.cur.lowestTid act
      let bad := sortBy (fun p q => p.2.order ≤ q.2.order) (rs.filter (fun r => r.2.order < 7))
      match failed s act (fun _ => (bad.headD (0, .miss 0)).1) (bad.map (fun r => (low, r.2))) true with
      | some r => r
      | none =>
        if dst.ro then .trap s (protection act dst.base)
        else if (s.joinStage).2 then .wait .staging s.joinStage.1
        else
          let s := s.joinStage.1
          let poisoned := reads.find? (fun r => r.2.access.locs.any (s.poisonedFor s.cur))
          match poisoned, rs.find? (fun r => r.2.order == 7) with
          | some (ea, acc), _ =>
            let at_ := (acc.access.locs.find? (s.poisonedFor s.cur)).getD 0
            .trap (if acc.access.pol == 1 then { s with outbox := s.outbox ++ [.retireFrame (frameOf at_)] } else s) ⟨9, act, ea, 0, 0, []⟩
          | none, some (ea, acc) => .trap (s.askRetire [(low, acc)]) ⟨9, act, ea, 0, 0, []⟩
          | none, none =>
            let s := s.readsRange (reads.map Prod.snd)
            let q := k.stage s act dst src o
            let hit := k == .quant true && q.passes (fF32.decode dst.thresh)
            if hit && tbit g.trapen 9 then
              .trap s ⟨17, act, a, b, f.dst.toNat + q.sat * 2 ^ 16 + q.under * 2 ^ 32, []⟩
            else
              let stats := match k with
                | .quant _ => if dst.stats == 0 || q.n == 0 then [] else statFields.flatMap (fun f => s.tileLocs act needStats (dst.stats + f.1) f.2)
                | _ => []
              let s := (s.countUp g 0x14 (if mix.isSome then 1 else 0)).countUp g 0x18 (if hit then 1 else 0)
              let fbLocs := ((rangeLocs (rs.map Prod.snd)).filter (fun x => x.2 == 3)).map Prod.fst
              let part (fb : Bool) : List (Nat × Byte) := q.writes.filter (fun x => fbLocs.contains x.1 == fb)
              let s := { s with cur := (s.cur.queueStore (part false) false).queueStore (part true) true }
              let p := q.keep hit stats ++ q.writes.map (fun x => (10, x.1))
              quantEnd act p (s.progressed p)

/-- The body of `qblk`, `dqblk` and `hadm` (R189). -/
def bodyQ (k : QKind) (f : FmtQblk) (iss act : List Nat) (s : State) : Res :=
  let a := (s.cur.getS f.sa.toNat).toNat
  let b := (s.cur.getS f.sb.toNat).toNat
  let o := originOf a b
  if s.progress.any (fun p => p.1 == 4) then quantEnd act s.progress s
  else match s.useRec iss act f.dst.toNat o with
  | .error r => r
  | .ok (dst, s) =>
    match s.useRec iss act f.src.toNat o with
    | .error r => r
    | .ok (src, s) => quantBody k f dst src o a b iss act s

def execQblk (f : FmtQblk) (s : State) : Host.Outcome State Fault Refusal := issue (.qblk f) s (bodyQ (.quant f.flag) f)
def execDqblk (f : FmtQblk) (s : State) : Host.Outcome State Fault Refusal := issue (.dqblk f) s (bodyQ .dequant f)
def execHadm (f : FmtQblk) (s : State) : Host.Outcome State Fault Refusal := issue (.hadm f) s (bodyQ (.had f.flag) f)

/-! ### Tile loads and stores (R194) -/

/-- Registers of a tile row, and register rows of a wave. -/
def tileRt (r : Rec) : Nat := r.e0 * r.size / 4
def tileQ (r : Rec) (width : Nat) : Nat := (r.e1 + width - 1) / width

/-- One element of a lane's part of a tile: row part, byte offset in the row, coordinates. -/
structure TileEl where
  part : Nat
  byte : Nat
  at_ : List Nat
  deriving DecidableEq, Repr

/-- The elements of a lane that are inside the tensor. -/
def tileEls (r : Rec) (o : List Nat) (width l : Nat) : List TileEl :=
  (List.range (tileQ r width)).flatMap (fun i =>
    if width * i + l < r.e1 then
      (List.range r.e0).filterMap (fun e =>
        let c := coordsAt o e (width * i + l)
        if r.inside c then some ⟨i, e * r.size, c⟩ else none)
    else [])

/-- The condition of R124 on the format that the record names, those of R194, the allotment and the waits; `data` is the first data register. -/
def tileGate (r : Rec) (k data : Nat) (iss : List Nat) (s : State) : Option Res :=
  let w := s.cur
  let n := tileRt r * tileQ r w.width
  if !formatUnder s.contract r.fmt then some (badRec s iss k)
  else if r.e0 * r.size % 4 != 0 || 128 < tileRt r || (r.size == 8 && data % 2 == 1) then some (badRec s iss k)
  else if w.alloc < data + n then some (.trap s { trapOf 3 iss with infoA := regInfo 0 (max data w.alloc) })
  else if (List.range n).any (fun j => w.vEmpty.contains (data + j)) then some (.wait .regs s)
  else none

/-- The checked accesses of every lane, in the order of the checks: lane, address, outcome, element. -/
def tileAccs (s : State) (r : Rec) (o : List Nat) (need : AccNeed) (act : List Nat) : List (Nat × Nat × LaneAcc × TileEl) :=
  act.flatMap (fun l => (tileEls r o s.cur.width l).map (fun e =>
    (l, r.addr e.at_, checkAccess s s.cur false need 0 (s.cur.lane l).tid (r.addr e.at_) r.size, e)))

/-- The result where some access does not pass; a record stamp counts as the stamp of a page (R194). -/
def tileFailed (s : State) (r : Rec) (act : List Nat) (xs : List (Nat × Nat × LaneAcc × TileEl)) : Option Res :=
  let trapMix := r.mixes s.contract && tbit (s.gridOf s.cur).trapen 8
  let seen (a : LaneAcc) : LaneAcc := if trapMix && 5 < a.order then .trap 5 8 r.stamp else a
  let rs := sortBy (fun p q => p.2.2.order ≤ q.2.2.order) (xs.map (fun x => (x.1, x.2.1, seen x.2.2.1)))
  let ea (l : Nat) : Nat := match rs.find? (fun x => x.1 == l) with | some x => x.2.1 | none => r.base
  match failed s act ea (rs.map (fun x => (x.1, x.2.2))) false with
  | some x => some (retiring s (rs.map (fun x => (x.1, x.2.2))) x)
  | none => if trapMix then some (.trap s ⟨8, act, r.base, r.stamp, s.contract, []⟩) else none

/-- Count what the accesses and the record's stamp count, once. -/
def State.countTile (s : State) (r : Rec) (as : List Access) : State :=
  s.countOnce (⟨[], 0, r.mixes s.contract, false, 0⟩ :: as)

/-- The access and the location of byte `b` of the `i`-th row of a lane; none outside the tensor. -/
def tileByte (r : Rec) (xs : List (Nat × Nat × LaneAcc × TileEl)) (l i b : Nat) : Option (Access × Nat) :=
  (xs.find? (fun x => x.1 == l && x.2.2.2.part == i && x.2.2.2.byte ≤ b && b < x.2.2.2.byte + r.size)).map
    (fun x => (x.2.2.1.access, x.2.2.1.access.locs.getD (b - x.2.2.2.byte) 0))

/-- A byte as a tile load reads it: 0 outside the tensor. -/
def State.tileLoad (s : State) (b : Option (Access × Nat)) : Byte :=
  match b with
  | some (a, loc) => (s.loadBytes s.cur { a with locs := [loc] }).headD 0
  | none => 0

/-- Where the bytes of a register of a tile load are read: those of class 3 by the return, as those of a plain load are. -/
def State.tileSrc (s : State) (bs : List (Access × Nat)) : PSrc :=
  let late := bs.any (fun b => b.1.cls == 3)
  { locs := bs.map Prod.snd, late := late, zero := bs.all (fun b => b.1.pol == 2),
    got := if late then bs.filterMap (fun b =>
      if b.1.cls == 3 then (s.cur.ownByte b.2).map (fun x => (b.2, x)) else some (b.2, s.tileLoad (some b))) else [] }

/-- The body of `vldt`. Bytes of elements outside the tensor are 0. -/
def bodyVldt (f : FmtVldt) (iss act : List Nat) (s : State) : Res :=
  let o := originOf (s.cur.getS f.sa.toNat).toNat (s.cur.getS f.sb.toNat).toNat
  match s.useRec iss act f.rec_.toNat o with
  | .error r => r
  | .ok (r, s) =>
    match tileGate r f.rec_.toNat f.reg.toNat iss s with
    | some x => x
    | none =>
      let xs := tileAccs s r o needLoad act
      match tileFailed s r act xs with
      | some x => x
      | none =>
        let as := xs.map (fun x => x.2.2.1.access)
        let s := s.beforeRead (as.any (fun a => a.cls != 3)) false
        let rt := tileRt r
        let elem (l i j : Nat) : PElem :=
          let bs := (List.range 4).map (fun k => tileByte r xs l i (4 * j + k))
          { lane := l, reg := f.reg.toNat + rt * i + j, val := BitVec.ofNat 32 (leNat (bs.map s.tileLoad)),
            src := s.tileSrc (bs.filterMap id) }
        let elems := act.flatMap (fun l => (List.range (tileQ r s.cur.width)).flatMap (fun i =>
          (List.range rt).map (fun j => elem l i j)))
        let read := as.map Access.atIssue
        let s := s.countTile r read
        .done (s.addPend { vecPend elems ((List.range (rt * tileQ r s.cur.width)).map (fun k => f.reg.toNat + k)) false with
                           counted := read.any Access.zero } act) []

def execVldt (f : FmtVldt) (s : State) : Host.Outcome State Fault Refusal := issue (.vldt f) s (bodyVldt f)

/-- The body of `vstt`. -/
def bodyVstt (f : FmtVldt) (iss act : List Nat) (s : State) : Res :=
  let o := originOf (s.cur.getS f.sa.toNat).toNat (s.cur.getS f.sb.toNat).toNat
  match s.useRec iss act f.rec_.toNat o with
  | .error r => r
  | .ok (r, s) =>
    match tileGate r f.rec_.toNat f.reg.toNat iss s with
    | some x => x
    | none =>
      if r.ro then .trap s (protection act r.base)
      else
        let xs := tileAccs s r o needStore (s.cur.byTid act)
        match tileFailed s r act xs with
        | some x => x
        | none =>
          let as := xs.map (fun x => x.2.2.1.access)
          let rt := tileRt r
          let row (l i : Nat) : List Byte :=
            (List.range rt).flatMap (fun j => leBytes 4 (s.cur.readV false l (f.reg.toNat + rt * i + j)).toNat)
          let part (fb : Bool) : List (Nat × Byte) :=
            lastBytes ((xs.filter (fun x => (x.2.2.1.access.cls == 3) == fb)).flatMap (fun x =>
              x.2.2.1.access.locs.zip (((row x.1 x.2.2.2.part).drop x.2.2.2.byte).take r.size)))
          let s := s.countTile r as
          .done { s with cur := (s.cur.queueStore (part false) false).queueStore (part true) true } []

def execVstt (f : FmtVldt) (s : State) : Host.Outcome State Fault Refusal := issue (.vstt f) s (bodyVstt f)

end Sys2Proof.Machine
end

