-- ==== Sys2Proof/Machine/Team.lean ====
section
/-! DEFINITION. Teams on cores (R27, R36, R42, R43, R166) and teams taken and resumed (R179, R222, R241, R247, R270,
R292 to R294). -/

namespace Sys2Proof.Machine

/-! ### Room on a core (R24, R26, R27, R36) -/

/-- Teams that are placed on a core or its pair. -/
def State.teamsOn (s : State) (core : Nat) : List Team :=
  s.teams.filter (fun t => !t.saved && (t.core == core ||
    (t.core + 1 == core && ((s.grids.find? (fun g => g.id == t.grid)).getD Grid.zero).p.pair)))

/-- Ranges of a core's scratchpad and of its tiles that teams hold: first and one past the last. -/
def State.scrUsed (s : State) (core : Nat) : List (Nat × Nat) :=
  (s.teamsOn core).filterMap (fun t =>
    let n := ((s.grids.find? (fun g => g.id == t.grid)).getD Grid.zero).p.scratch
    if t.core == core then (if n == 0 then none else some (t.scrBase, t.scrBase + min n 0xC0000))
    else if 0xC0000 < n then some (0, n - 0xC0000) else none)
def State.tilesUsed (s : State) (core : Nat) : List (Nat × Nat) :=
  (s.teamsOn core).filterMap (fun t =>
    let n := ((s.grids.find? (fun g => g.id == t.grid)).getD Grid.zero).p.acc
    if t.core == core && n != 0 then some (t.tileBase, t.tileBase + n) else none)

/-- The lowest place for `n` units in a space of `size` beside the used ranges: a team's tiles and scratchpad are one range each (log
133). -/
def firstFit (used : List (Nat × Nat)) (size n : Nat) : Option Nat :=
  if n == 0 then some 0
  else
    minNat ((0 :: used.map Prod.snd).filter (fun a => a + n ≤ size && used.all (fun u => a + n ≤ u.1 || u.2 ≤ a)))

/-- Free wave slots of a core, in order. -/
def State.placesFree (s : State) (core : Nat) : List Nat :=
  let used := (s.coreWaves core).map (fun w => w.place)
  below 64 (fun k => !used.contains k)

/-- Where a team would stand: its ranges, and core and slot of each wave. -/
structure Room where
  scrBase : Nat
  tileBase : Nat
  at_ : List (Nat × Nat)
  deriving DecidableEq, Repr

/-- The core of a wave of a team. -/
def waveCore (pair : Bool) (core k : Nat) : Nat := if pair && k % 2 == 1 then core + 1 else core

/-- ROOM for a team on a core or pair; `ws` gives each wave's allotment, 0 for a wave that has exited, and `eng` the entries that
it brings to the engine's queue (R168). -/
def State.roomOn (s : State) (p : LaunchPkt) (core : Nat) (ws : List Nat) (eng : Nat) : Option Room :=
  let need (c : Nat) : Nat := ((List.range ws.length).map (fun k =>
    if waveCore p.pair core k == c then ws.getD k 0 / 64 * unitsPerGroup p.width else 0)).sum
  let cs := if p.pair then [core, core + 1] else [core]
  let takes (k : Nat) : Bool := ws.getD k 0 != 0
  let order (c k : Nat) : Nat := ((List.range k).filter (fun j => takes j && waveCore p.pair core j == c)).length
  let slots (k : Nat) : Option (Nat × Nat) :=
    let c := waveCore p.pair core k
    if takes k then (s.placesFree c)[order c k]?.map (fun x => (c, x)) else some (c, 64)
  let places := (List.range ws.length).filterMap slots
  if !(cs.all (fun c => need c ≤ s.unitsFree c)) || places.length != ws.length || 8 < (s.coreAt core).engine.length + eng then none
  else if 0xC0000 < p.scratch && !((s.scrUsed core).isEmpty && (s.scrUsed (core + 1)).all (fun u => p.scratch - 0xC0000 ≤ u.1)) then none
  else
    match firstFit (s.scrUsed core) 0xC0000 (min p.scratch 0xC0000), firstFit (s.tilesUsed core) Config.tilesPerCore p.acc with
    | some a, some b => some { scrBase := a, tileBase := b, at_ := places }
    | _, _ => none

/-- A core on which user teams may run: no Ringmaster core; in pair mode an even core whose partner is none either
(R36, R371). -/
def State.userCore (s : State) (pair : Bool) (core : Nat) : Bool :=
  core < Config.cores && !s.config.ringmaster.contains core &&
  (!pair || (core % 2 == 0 && !s.config.ringmaster.contains (core + 1)))

/-! ### Taking a team (R293) -/

/-- Waves leave the resident set. -/
def State.dropWaves (s : State) (p : Wave → Bool) : State :=
  match s.waves.filter (fun w => !p w && !w.lanes.isEmpty) with
  | [] => { s with cur := Wave.nobody, rest := [] }
  | w :: r => { s with cur := w, rest := r }
/-- Waves join the resident set. -/
def State.addWaves (s : State) (ws : List Wave) : State :=
  match s.waves.filter (fun w => !w.lanes.isEmpty) ++ ws with
  | [] => s
  | w :: r => { s with cur := w, rest := r }

/-- Every pending write of a wave lands, in order; but one of class 3 that comes after an unanswered request to the wave's own device
does not yet, unless it must (R233, log 152). -/
def State.landAll (s : State) (key : WKey) (must : Bool) : State :=
  match s.findWave key with
  | none => s
  | some w =>
    let s := (List.range w.pw.length).foldl (fun s k =>
      match w.pw[k]? with
      | some e =>
        let locs := e.bytes.map Prod.fst
        if !must && e.fb && s.behindOwn w locs (fun o => o.before ≤ k) then s else s.landEntry key k locs
      | none => s) s
    s.onWave key (fun w => { w.prunePw with why := if w.why == .release || w.why == .staging then .none else w.why })

/-- The effect of `ffence` for a resident wave, as far as it goes; a mismatch is replayed at the next try (R321). -/
def State.fenceWave (s : State) (key : WKey) : State × Bool :=
  let k0 := s.cur.key
  match (s.focus key).fenceStep none with
  | .ready s => (s.focus k0, true)
  | .waiting s => (s.focus k0, false)
  | .mismatch s .. => (s.focus k0, false)

/-- An entry of the engine drains into registers. -/
def EngEntry.toRegs (e : EngEntry) : Bool := match e.op with | .accstReg .. => true | _ => false
def EngEntry.ofTeam (e : EngEntry) (grid team : Nat) : Bool := e.who.grid == grid && e.who.team == team

/-- The wave stands between two instructions: none that it has performed in part (R293, R43). -/
def Wave.between (w : Wave) : Bool := w.prog.all (fun p => p.tm != w.tm)

/-- READY TO BE TAKEN: loads return, writes land, drains into registers, fabric accesses and instructions that have been performed
in part have finished (R293, R321, R189). -/
def State.teamQuiet (s : State) (grid team : Nat) : State × Bool :=
  let keys := (s.teamWaves grid team).map (fun w => w.key)
  let s := keys.foldl (fun s k => (s.onWave k (fun w => s.returnAll w)).landAll k false) s
  let t := s.teamAt grid team
  if (s.coreAt t.core).engine.any (fun e => e.ofTeam grid team && e.toRegs) ||
     !(s.teamWaves grid team).all (fun w => w.between && w.pw.isEmpty) then (s, false)
  else keys.foldl (fun r k => let (s, ok) := r.1.fenceWave k; (s, r.2 && ok)) (s, true)

/-- A copy that has not ended is abandoned (R222). -/
def Copy.abandon (c : Copy) : Copy :=
  match c.phase with
  | .complete _ | .failed .. => { c with before := 0 }
  | _ => { c with phase := .waiting, written := [], torn := [], before := 0 }

/-- One wave between two instructions, as it is saved (R293): run-ahead is abandoned, a speculative task held for
re-delivery, lanes asleep in `mwait` resume with 4, an armed monitor is lost, and a wait in `creduce` counts its bound afresh
(R342). -/
def State.settleWave (s : State) (key : WKey) : State :=
  match s.findWave key with
  | none => s
  | some w =>
    let task := if w.spec == 3 then none else w.task
    let again := if w.spec == 3 then w.task.map (fun t => (t.feed, t.idx)) else w.redeliver
    let w := if w.spec != 0 then { w.rollback with task := task, redeliver := again } else w
    let w := { w with batch := none, why := .none, slot := false, loose := false, copies := w.copies.map (fun c => c.map Copy.abandon),
                      memb := w.memb.map (fun m => if m.red then { m with redStalled := true } else m) }
    let s := s.setWave w
    if w.asleep.isEmpty then
      s.setWave { w with mon := if w.mon.armed then { Monitor.off with lost := true } else w.mon }
    else (s.wakeMwait key w.asleep 4).onWave key (fun w => { w with mon := Monitor.off })

/-- A scratchpad location of a team, as an offset in its window, and back. -/
def relLoc (t : Team) (loc : Nat) : Nat :=
  if loc < 2 ^ 56 then loc
  else if loc < scrLoc (t.core + 1) 0 then 2 ^ 57 + (loc - scrLoc t.core t.scrBase) else 2 ^ 57 + 0xC0000 + (loc - scrLoc (t.core + 1) 0)
def absLoc (g : Grid) (t : Team) (loc : Nat) : Nat := if loc < 2 ^ 57 then loc else teamScr g t (loc - 2 ^ 57)

/-- An engine entry with its destination locations changed. -/
def EngEntry.relocate (e : EngEntry) (f : Nat → Nat) : EngEntry :=
  match e.op with
  | .accst fmt sc sat base lanes fb => { e with op := .accst fmt sc sat (base.map f) lanes fb }
  | _ => e

/-- A wave with the locations changed that instructions performed in part have kept. -/
def Wave.relocate (f : Nat → Nat) (w : Wave) : Wave :=
  { w with prog := w.prog.map (fun p => { p with lanes := p.lanes.map (fun x => if 64 ≤ x.1 then (x.1, f x.2) else x) }) }

/-- Elapsed time of a convergence register in place of its start, and back (R157). -/
def Cv.elapse (now : Nat) (c : Cv) : Cv := { c with start := now - c.start }

/-- THE SAVED STATE of a team (R294), in logical form; the team stays where it is. -/
def State.imageOf (s : State) (grid team : Nat) : Team :=
  let t := s.teamAt grid team
  let g := (s.grids.find? (fun g => g.id == grid)).getD Grid.zero
  let c := s.coreAt t.core
  let offs := List.range g.p.scratch
  { t with saved := true, savedWaves := (s.teamWaves grid team).map (Wave.relocate (relLoc t)), cv := t.cv.map (Cv.elapse s.gtc),
           savedTiles := (List.range g.p.acc).foldl (fun m k => mputD Tile.zero m k (s.tileAt t.core (t.tileBase + k))) [],
           savedScr := offs.foldl (fun m o => Memory.write m o (Memory.read s.mem (teamScr g t o))) [],
           savedPoison := (List.range (g.p.scratch / 32)).filter (fun k => s.isPoisoned (teamScr g t (32 * k))),
           savedEngine := (c.engine.filter (fun e => e.ofTeam grid team)).map (fun e => e.relocate (relLoc t)) }

/-- Groups of registers that are saved (R51): live-in masks of the blocks of unexited lanes, written groups, pending
producers, fragments of operations that have not completed (R179). -/
def State.savedGroups (s : State) (t : Team) (w : Wave) : Nat :=
  let live := w.liveLanes.foldl (fun m l => match s.fetchNow w (w.lane l).blk with
    | .word v => Nat.lor m (headerLive v)
    | _ => 0xFFFF) 0
  let regs := w.vEmpty ++ t.savedEngine.flatMap (fun e => match e.op with
    | .mma f scratch _ _ _ n _ frags _ _ _ => if frags.any (fun x => w.lanes.any (fun l => l.tid == x.tid)) then fragRegs f scratch n else []
    | _ => [])
  regs.foldl (fun m r => Nat.lor m (2 ^ (r / 64))) (Nat.lor live w.wgrp.toNat)

/-- The registers outside the saved groups are full and unpredictable when the wave runs again (R51). -/
def State.strip (s : State) (t : Team) (w : Wave) : Wave :=
  let m := s.savedGroups t w
  let lost := (List.range w.alloc).filter (fun r => nbits m (r / 64) 1 == 0)
  { w with lanes := (w.lanes.zip (List.range w.lanes.length)).map (fun p =>
             { p.1 with v := lost.foldl (fun v r => mputD 0 v r (BitVec.ofNat 32 (s.free (65536 * w.key.wave + 1024 * p.2 + r)).toNat)) p.1.v }),
           vEmpty := w.vEmpty.filter (fun r => !lost.contains r), regErr := w.regErr.filter (fun e => !lost.contains e.2) }

/-- An image whose unsaved registers are lost. -/
def State.stripTeam (s : State) (t : Team) : Team := { t with savedWaves := t.savedWaves.map (s.strip t) }

/-- Forget a team on its core: its engine entries, cached operands and places in queues. -/
def State.vacate (s : State) (grid team : Nat) : State :=
  let mine (k : WKey) : Bool := k.grid == grid && k.team == team
  let core (c : Core) : Core :=
    { c with engine := c.engine.filter (fun e => !e.ofTeam grid team),
             opcache := c.opcache.filter (fun e => !(e.grid == grid && e.team == team)),
             growQ := c.growQ.filter (fun k => !mine k), ableQ := c.ableQ.filter (fun k => !mine k) }
  let s := ((s.teamWaves grid team).map (fun w => w.key)).foldl State.leaveQueues s
  { s with cores := s.cores.map (fun (p : Nat × Core) => (p.1, core p.2)) : State }.dropWaves (fun w => mine w.key)

/-- TAKE A TEAM off its core (R293, R294): `none` while it is not ready, with what has been done so far. -/
def State.takeTeam (s : State) (grid team : Nat) : State × Bool :=
  let (s, ok) := s.teamQuiet grid team
  if !ok then (s, false)
  else
    let s := ((s.teamWaves grid team).map (fun w => w.key)).foldl State.settleWave s
    let img := s.stripTeam (s.imageOf grid team)
    ((s.freeNext.vacate grid team).setTeam img, true)

/-! ### Resuming a team (R294) -/

/-- A wave of a saved team on its new core: abandoned copies are issued again with a fresh promise (R222). -/
def Wave.resume (w : Wave) (now : Nat) (place : Nat × Nat) : Wave :=
  let again (x : Option Copy × Nat) : Option Copy :=
    x.1.map (fun c => if c.phase == .waiting then
      { c with promise := promiseAt now (c.rows.foldl (fun (n : Nat) (r : CopyRow) => n + r.len) 0) x.2 } else c)
  { w with core := place.1, place := place.2, copies := (w.copies.zip (List.range 16)).map again }

/-- PUT A SAVED TEAM ON A CORE. No record that it has bound is left in the record caches of its new cores (R186). -/
def State.putTeam (s : State) (t : Team) (core : Nat) (r : Room) : State :=
  let g := (s.grids.find? (fun g => g.id == t.grid)).getD Grid.zero
  let new := { t with core := core, scrBase := r.scrBase, tileBase := r.tileBase, saved := false,
                      cv := t.cv.map (Cv.elapse s.gtc), savedWaves := [], savedTiles := [], savedScr := [], savedPoison := [],
                      savedEngine := [] }
  let ws := t.savedWaves.map (fun w => (w.resume s.gtc (r.at_.getD w.key.wave (core, 64))).relocate (absLoc g new))
  let tags := t.recs.filterMap (fun x => x.map (fun a => recTag t.grid a.toNat))
  let s := { s with cores := s.cores.map (fun (c : Nat × Core) =>
    if r.at_.any (fun x => x.1 == c.1) then (c.1, { c.2 with rcache := c.2.rcache.filter (fun e => !tags.contains e.1) }) else c) }
  let s := s.setTeam new
  let s := (List.range g.p.acc).foldl (fun s k => s.putTile core (r.tileBase + k) (mgetD t.savedTiles k Tile.zero)) s
  let offs := List.range g.p.scratch
  let s := { s with mem := offs.foldl (fun m o => Memory.write m (teamScr g new o) (Memory.read t.savedScr o)) s.mem,
                    poison := (List.range (g.p.scratch / 32)).foldl (fun p k =>
                      let gr := granule (teamScr g new (32 * k))
                      if t.savedPoison.contains k then insNat p gr else p.filter (· != gr)) s.poison }
  let c := s.coreAt core
  (s.setCore core { c with engine := c.engine ++ t.savedEngine.map (fun (e : EngEntry) => e.relocate (absLoc g new)) }).addWaves ws

/-- The allotments that a saved team needs. -/
def Team.allots (t : Team) : List Nat :=
  (List.range t.waves).map (fun k => match t.savedWaves.find? (fun w => w.key.wave == k) with
    | some w => if w.liveLanes.isEmpty then 0 else w.alloc
    | none => 0)

end Sys2Proof.Machine
end

