-- ==== Sys2Proof/Machine/Turnstile.lean ====
section
/-! DEFINITION. The Turnstile (R242 to R247, R405), and the grid checkpoint that the completion of a grid-scope
generation takes (R296). -/

namespace Sys2Proof.Machine

/-! ### Names -/

/-- Grid-scope names (R242). -/
def gridName (n : Nat) : Bool := 48 ≤ n

/-- The scope at which the members of a name synchronise (R242). -/
def nameScope (g : Grid) (n : Nat) : Nat := if gridName n then 4 else if g.p.pair then 2 else 1

def State.gridAt (s : State) (grid : Nat) : Grid := (s.grids.find? (fun g => g.id == grid)).getD Grid.zero

/-- Teams of a grid. -/
def Grid.total (g : Grid) : Nat := g.p.ext.1 * g.p.ext.2.1 * g.p.ext.2.2

def Team.name (t : Team) (n : Nat) : BarName := t.bar.getD n { gen := 0, mask := 0 }

/-- The current generation of a name. -/
def State.barGen (s : State) (grid team n : Nat) : Nat :=
  if gridName n then mgetD (s.gridAt grid).barGen n 0 else ((s.teamAt grid team).name n).gen

/-- The wave is a member of a name of its team. -/
def Team.hasMember (t : Team) (n k : Nat) : Bool := tbit (t.name n).mask k

/-- The waves of a team, on a core or saved. -/
def State.wavesOf (s : State) (t : Team) : List Wave := s.teamWaves t.grid t.idx ++ t.savedWaves

/-- Teams in the scope of a name. -/
def State.scopeTeams (s : State) (grid team n : Nat) : List Team :=
  s.teams.filter (fun t => t.grid == grid && (gridName n || t.idx == team))

/-- Every unexited lane of the wave has arrived. -/
def Wave.hasArrived (w : Wave) (n : Nat) : Bool := w.lanes.all (fun x => !x.live || x.arr.contains n)

/-- Every member wave of the team has arrived. -/
def State.teamArrived (s : State) (t : Team) (n : Nat) : Bool :=
  (s.wavesOf t).all (fun w => !t.hasMember n w.key.wave || w.hasArrived n)

/-- Some lane has arrived by an instruction. -/
def State.someArrived (s : State) (grid team n : Nat) : Bool :=
  (s.scopeTeams grid team n).any (fun t => (s.wavesOf t).any (fun w => w.lanes.any (fun x => x.arr.contains n)))

/-- The generation may complete (R244): every member has arrived; teams that have finished count, teams not yet
placed do not. -/
def State.barFull (s : State) (grid team n : Nat) : Bool :=
  s.someArrived grid team n && (s.scopeTeams grid team n).all (fun t => s.teamArrived t n) &&
  (!gridName n || (s.gridAt grid).nextTeam == (s.gridAt grid).total)

/-! ### Completion -/

/-- Lanes of a wave whose wait at a name for a generation is over: they retire, or arrive in the current generation
and go on waiting there as `bara` does (R244, R405). -/
def State.barFinish (s : State) (key : WKey) (n g : Nat) : State :=
  match s.findWave key with
  | none => s
  | some w =>
    let here := w.idx.filter (fun l => match (w.lane l).st with | .bar m h _ _ => m == n && h == g | _ => false)
    if here.isEmpty then s
    else
      let cur := s.barGen key.grid key.team n
      let again := here.filter (fun l => match (w.lane l).st with | .bar _ _ a _ => a | _ => false)
      let both := here.filter (fun l => match (w.lane l).st with | .bar _ _ a b => a && b | _ => false)
      let w := w.modLanes again (fun x => { x with arr := insNat x.arr n })
      let w := w.modLanes both (fun x => { x with st := .bar n cur false false })
      let ls := here.filter (fun l => !both.contains l)
      if ls.isEmpty then s.setWave w else (s.setWave w).lateRetire key ls

/-- Arrivals at a name are cleared. -/
def Wave.clearArr (w : Wave) (n : Nat) : Wave :=
  { w with lanes := w.lanes.map (fun x => { x with arr := x.arr.filter (· != n) }) }

/-- THE GENERATION COMPLETES (R244): what its members wrote before releases that they have passed is then visible (R228). -/
def State.barComplete (s : State) (grid team n : Nat) : State :=
  let s := s.closeAll
  let g := s.barGen grid team n
  let next := (g + 1) % 2 ^ 32
  let mine (k : WKey) : Bool := k.grid == grid && (gridName n || k.team == team)
  let s := if gridName n then let x := s.gridAt grid; s.setGrid { x with barGen := mput x.barGen n next }
    else
      let t := s.teamAt grid team
      s.setTeam { t with bar := t.bar.set n { t.name n with gen := next } }
  let s := s.mapWaves (fun w => if mine w.key then w.clearArr n else w)
  let cleared (t : Team) : Team :=
    if t.grid == grid && (gridName n || t.idx == team) then { t with savedWaves := t.savedWaves.map (fun w => w.clearArr n) } else t
  let s := { s with teams := s.teams.map cleared }
  ((s.waves.filter (fun w => mine w.key && !w.lanes.isEmpty)).map (fun w => w.key)).foldl (fun s k => s.barFinish k n g) s

/-! ### Grid checkpoints (R296, R297) -/

/-- A wait of `barw` or `bara` on the name; that of a `barr` that has still to arrive is none. -/
def LaneSt.waitsOn (n : Nat) : LaneSt → Bool
  | .bar m _ again both => m == n && (!again || both)
  | _ => false

/-- Every unexited lane of the grid stands waiting in `barw` or `bara` on the name; a lane of a wave in trap mode stands where its
wait was interrupted (R276, R405). -/
def State.gridWaits (s : State) (grid n : Nat) : Bool :=
  (s.scopeTeams grid 0 48).all (fun t => (s.wavesOf t).all (fun w =>
    w.lanes.all (fun x => !x.live || x.st.waitsOn n || (w.tm && (x.bankBar.getD .run).waitsOn n))))

/-- Every placed team of the grid is ready to be saved, and its writes have times that the GTC has passed. -/
def State.gridQuiet (s : State) (grid : Nat) : State × Bool :=
  (s.scopeTeams grid 0 48).foldl (fun r t =>
    if t.saved then r
    else
      let (s, ok) := r.1.teamQuiet grid t.idx
      (s, r.2 && ok && (s.teamWaves grid t.idx).all (fun w => s.passed (max w.wct w.dct)))) (s, true)

/-- TAKE A CHECKPOINT into a buffer; the grid runs on. -/
def State.takeCheckpoint (s : State) (grid n buf : Nat) : State :=
  let placed := (s.scopeTeams grid 0 48).filter (fun t => !t.saved)
  let s := (placed.flatMap (fun t => (s.teamWaves grid t.idx).map (fun w => w.key))).foldl State.settleWave s
  let imgs := (s.scopeTeams grid 0 48).map (fun t => if t.saved then t else s.stripTeam (s.imageOf grid t.idx))
  let id := ((s.ckpts.getLast?).map Prod.fst).getD 0 + 1
  let g := s.gridAt grid
  let s := { s.freeNext with ckpts := mput s.ckpts id { grid := { g with ckpt := [] }, name := n, teams := imgs, comms := s.comms } }
  let s := s.agentWrite buf (leBytes 8 id)
  (s.countUp g 0x28 1).agentWrite (g.ctx.status + 0x30) (leBytes 8 buf)

/-- Serve one request for a checkpoint: a buffer that is too small takes nothing (R363). -/
def State.serveCkpt (s : State) (grid : Nat) (r : Nat × Nat × Nat × Nat × Nat) : State :=
  let (q, i, n, buf, len) := r
  let need := Config.checkpointBytes (s.scopeTeams grid 0 48).length
  if len < need then (s.agentWrite ((s.qdesc q).pktAddr i + 0x30) (leBytes 8 need)).completePkt q i 8
  else (s.takeCheckpoint grid n buf).completePkt q i 0

/-- The checkpoints that are asked for at the completion of a name (R296, R363): the state in which the generation
completes, and whether it may: not while the grid is not yet quiet. -/
def State.checkpointAt (s : State) (grid n : Nat) : State × Bool :=
  let g := s.gridAt grid
  let mine := g.ckpt.filter (fun r => r.2.2.1 == n)
  if mine.isEmpty || !gridName n || !s.gridWaits grid n then (s, true)
  else
    let (s, ok) := s.gridQuiet grid
    if !ok then (s, false)
    else
      let s := s.setGrid { s.gridAt grid with ckpt := g.ckpt.filter (fun r => r.2.2.1 != n) }
      (mine.foldl (fun s r => s.serveCkpt grid r) s, true)

/-- Complete generations of a name while they are full. -/
def State.barCheck (s : State) (fuel grid team n : Nat) : State :=
  match fuel with
  | 0 => s
  | k + 1 =>
    if s.barFull grid team n then
      let (s, ok) := s.checkpointAt grid n
      if ok then (s.barComplete grid team n).barCheck k grid team n else s
    else s

/-- Lanes of a wave that wait for a generation which has completed while they were away: they go on (R405). -/
def State.barSettle (s : State) (key : WKey) : State :=
  match s.findWave key with
  | none => s
  | some w =>
    let late := (w.lanes.filterMap (fun x => match x.st with
      | .bar n g _ _ => if s.barGen key.grid key.team n == g then none else some (n, g)
      | _ => none)).eraseDups
    late.foldl (fun s p => (s.barFinish key p.1 p.2).barCheck 8 key.grid key.team p.1) s

/-- Names of a wave's team at which some lane of the wave has arrived. -/
def Wave.arrivals (w : Wave) : List (Nat × Nat × Nat) :=
  ((w.lanes.flatMap (fun x => x.arr)).eraseDups).map (fun n => (w.key.grid, w.key.team, n))

/-- Waits that are over, generations that an exchange of lanes has completed (R39), and checkpoints that waited for the grid to be
quiet. -/
def State.barTidy (s : State) : State :=
  let s := (s.waves.filter (fun w => w.lanes.any (fun x => match x.st with | .bar .. => true | _ => false))).foldl
    (fun s w => s.barSettle w.key) s
  let s := (s.waves.flatMap Wave.arrivals).eraseDups.foldl (fun s x => s.barCheck 8 x.1 x.2.1 x.2.2) s
  s.grids.foldl (fun s g => g.ckpt.foldl (fun s r => s.barCheck 8 g.id 0 r.2.2.1) s) s

/-- After lanes of a team have exited: every name at which some lane has arrived may be complete (R244). -/
def State.barExit (s : State) (key : WKey) : State :=
  (List.range 64).foldl (fun s n => s.barCheck 8 key.grid key.team n) s

/-! ### The instructions -/

/-- The arithmetic (sticky) check of R153: `none` where it passes. The lanes that trap are those of R153 and R96, active and flagged,
though R243 speaks of every lane of the issuing set (log 154). -/
def State.stickyCheck (s : State) (act : List Nat) : Option Res :=
  let en := !s.cur.tm && nbits (s.gridOf s.cur).trapen.toNat 0 6 != 0
  if en && s.flagsDue s.cur act then some (.wait .engine s)
  else
    match s.stickyLanes act with
    | [] => none
    | ls => some (.trap s ⟨19, ls, 0, 0, 0, ls.map (fun l => (l, (s.cur.lane l).flags.toNat))⟩)

/-- The barrier-membership trap (R246). -/
def membership (iss : List Nat) (n : Nat) : TrapReq := { trapOf 12 iss with infoA := n }

/-- Arrivals of lanes (R244): those that have not arrived arrive; the others wait and arrive again. `waits` is
`bara`. -/
def Wave.arrive (w : Wave) (n g : Nat) (waits : Bool) (act : List Nat) : Wave :=
  w.modLanes act (fun x =>
    if x.arr.contains n then { x with st := .bar n g true waits }
    else { x with arr := insNat x.arr n, st := if waits then .bar n g false false else x.st })

/-- The body of `barr` and `bara`. -/
def bodyArrive (f : FmtBar) (waits : Bool) (iss act : List Nat) (s : State) : Res :=
  let n := f.n.toNat
  let key := s.cur.key
  match s.stickyCheck act with
  | some r => r
  | none =>
    let s := s.cvTick
    match s.cvTrapAny iss with
    | some r => r
    | none =>
      if !(s.teamOf s.cur).hasMember n key.wave then .trap s (membership iss n)
      else
        ordered s true (nameScope (s.gridOf s.cur) n) act (fun s =>
          let w := s.cur.arrive n (s.barGen key.grid key.team n) waits act
          let held := act.filter (fun l => match (w.lane l).st with | .bar .. => true | _ => false)
          let w := w.modLanes held (fun x => { x with iss := maskOf iss })
          .done ({ s with cur := w }.barCheck 8 key.grid key.team n) held)

def execBarr (f : FmtBar) (s : State) : Host.Outcome State Fault Refusal := issue (.barr f) s (bodyArrive f false)
def execBara (f : FmtBar) (s : State) : Host.Outcome State Fault Refusal := issue (.bara f) s (bodyArrive f true)

/-- The body of `barw`. -/
def bodyBarw (f : FmtBar) (iss act : List Nat) (s : State) : Res :=
  let n := f.n.toNat
  match s.stickyCheck act with
  | some r => r
  | none =>
    let s := s.cvTick
    match s.cvTrapAny iss with
    | some r => r
    | none =>
      let w := s.cur
      let held := if (s.teamOf w).hasMember n w.key.wave then act.filter (fun l => (w.lane l).arr.contains n) else []
      let g := s.barGen w.key.grid w.key.team n
      .done { s with cur := w.rest iss held (.bar n g false false) } held

def execBarw (f : FmtBar) (s : State) : Host.Outcome State Fault Refusal := issue (.barw f) s (bodyBarw f)

/-- The body of `bmask`: the check at issue of R243 comes before that of the mask (R246, log 70). With the new mask the members of a
name may all have arrived (R244). -/
def bodyBmask (f : FmtBar) (iss _ : List Nat) (s : State) : Res :=
  let n := f.n.toNat
  let key := s.cur.key
  let t := s.teamOf s.cur
  let mask : BitVec 32 := BitVec.ofNat 32 (nbits (s.cur.getS f.sa.toNat).toNat 0 t.waves)
  let open_ := (s.wavesOf t).any (fun w => t.hasMember n w.key.wave && w.lanes.any (fun x => x.arr.contains n))
  if open_ then .trap s (membership iss n)
  else if mask == 0 then .trap s (illegal iss)
  else
    let s := s.setTeam { t with bar := t.bar.set n { t.name n with mask := mask } }
    .done (s.barCheck 8 key.grid key.team n) []

def execBmask (f : FmtBar) (s : State) : Host.Outcome State Fault Refusal := issue (.bmask f) s (bodyBmask f)

end Sys2Proof.Machine
end

