-- ==== Sys2Proof/Machine/Grids.lean ====
section
/-! DEFINITION. The end of teams and grids (R279, R352, R357, R363). -/

namespace Sys2Proof.Machine

/-- The latest visibility time of a wave's writes. -/
def Wave.lastWrite (w : Wave) : Nat := max (max w.wct w.dct) w.rct

/-- Nothing of an exited wave is in flight. -/
def Wave.finished (w : Wave) : Bool :=
  w.lanes.all (fun x => !x.live) && w.pw.isEmpty && w.pend.isEmpty && w.fab.isEmpty &&
  w.copies.all (fun c => match c with
    | some x => (match x.phase with | .complete _ | .failed .. => true | _ => false)
    | none => true)

/-- Remember the writes of the waves of a team at its grid. -/
def State.noteWrites (s : State) (grid team : Nat) : State :=
  let g := s.gridAt grid
  s.setGrid { g with wct := (s.teamWaves grid team).foldl (fun m w => max m w.lastWrite) g.wct }

/-- Remove a team. -/
def State.removeTeam (s : State) (grid team : Nat) : State :=
  let s := (s.noteWrites grid team).vacate grid team
  { s with teams := s.teams.filter (fun t => !(t.grid == grid && t.idx == team)) }

/-- Teams whose waves have all exited, and whose writes have all landed, are gone. -/
def State.reap (s : State) : State :=
  s.teams.foldl (fun s t =>
    let ws := s.teamWaves t.grid t.idx
    if !t.saved && !ws.isEmpty && ws.all Wave.finished && !(s.coreAt t.core).engine.any (fun e => e.ofTeam t.grid t.idx) then
      s.removeTeam t.grid t.idx
    else s) s

/-- Members of a grid that have not exited are lost (R268). -/
def State.loseGrid (s : State) (g : Grid) : State :=
  { s with comms := s.comms.map (fun (c : Comm) =>
      (below c.members.length (fun r =>
        match c.members[r]? with
        | some (launch, _, _, dev) => launch == g.p.launch && dev == s.config.devNum && !c.exited.contains r
        | none => false)).foldl Comm.lose c) }

/-- A wave stops: its speculation is discarded, and its earlier writes land. -/
def State.stopWave (s : State) (key : WKey) : State :=
  (s.onWave key (fun w => if w.spec != 0 then w.rollback else w)).landAll key true

/-- Teams of a grid, placed or saved. -/
def State.teamIdxs (s : State) (grid : Nat) : List Nat := (s.teams.filter (fun t => t.grid == grid)).map (fun t => t.idx)

/-- END A GRID with a completion code and a status (R279, R363): every wave stops. -/
def State.endGrid (s : State) (grid code status : Nat) : State :=
  match s.grids.find? (fun g => g.id == grid) with
  | none => s
  | some g =>
    if g.ended.isSome then s
    else
      let keys := (s.waves.filter (fun w => w.key.grid == grid && !w.lanes.isEmpty)).map (fun w => w.key)
      let s := (keys.foldl State.stopWave s).loseGrid g
      let s := (s.teamIdxs grid).foldl (fun s t => s.removeTeam grid t) s
      s.setGrid { s.gridAt grid with ended := some (code, status) }

/-! ### Headroom (R372, R373) -/

/-- A bound whose 0 stands for a default. -/
def orDefault (v d : Nat) : Nat := if v == 0 then d else v

/-- Headroom of a core, with the reduction for package power (R372). -/
def State.headroom (s : State) (core : Nat) : Nat :=
  (s.coreAt core).headroom - (if 2800 < s.watts then 2 else if 2660 < s.watts then 1 else 0)

/-- Power class of a grid's teams (R373). -/
def State.classOf (s : State) (g : Grid) : Nat := orDefault (orDefault g.p.pclass (s.qdesc g.queue).pclass) 4

/-- The core, or pair, has the headroom for teams of the grid. -/
def State.cool (s : State) (g : Grid) (core : Nat) : Bool :=
  s.classOf g ≤ s.headroom core && (!g.p.pair || s.classOf g ≤ s.headroom (core + 1))

/-! ### Escalated waves -/

/-- The fields of the context status block that name an escalated wave (R300). -/
def State.recordFault (s : State) (g : Grid) (cause team wave offset : Nat) : State :=
  s.agentWrite (g.ctx.status + 4) (leBytes 4 cause ++ leBytes 4 team ++ leBytes 4 wave ++ leBytes 4 offset)

/-- Offset of the trapping instruction of an escalated wave: from its record. -/
def State.escOffset (s : State) (w : Wave) : Nat :=
  match w.directRecord with
  | some t => t.offset
  | none => s.readRecord w 4 4

/-- The fault service ends the grid of an escalated wave (R279). -/
def State.endEscalated (s : State) (w : Wave) : State :=
  ((s.recordFault (s.gridOf w) w.cause w.key.team w.key.wave (s.escOffset w)).endGrid w.key.grid 5 2)

/-- Nothing of the grid is left to run. -/
def State.gridOver (s : State) (g : Grid) : Bool :=
  g.ended.isSome || (g.nextTeam == g.total && !s.teams.any (fun t => t.grid == g.id))

/-- The packet of a grid can be completed: after a loss of power, once the host is there and its queue is valid again (R388). -/
def State.mayComplete (s : State) (g : Grid) : Bool :=
  s.power == .p0 && (!g.orphan || (s.hostLink && s.queuesOn.contains g.queue))

/-- GRID COMPLETION: the status, then the launch packet with its tokens, and then the packets that wait for it (R352,
R357, R363). A checkpoint that was asked for finds its grid gone. -/
def execGridCompletion (grid : Nat) (s : State) : Host.Outcome State Fault Refusal :=
  .next (match s.grids.find? (fun g => g.id == grid) with
    | none => s
    | some g =>
      if !s.gridOver g || !s.mayComplete g then s
      else
        let (code, status) := g.ended.getD (0, 1)
        let s := { s with gtc := max s.gtc (g.wct + Config.gtcMargin + 1), grids := s.grids.filter (fun x => x.id != grid),
                          stale := s.stale.filter (fun x => x.1 != grid) }
        let s := (s.agentWrite g.ctx.status (leBytes 4 status)).completePkt g.queue g.pkt code
        let s := g.ckpt.foldl (fun (s : State) r => s.completePkt r.1 r.2.1 8) s
        g.endPkts.foldl (fun (s : State) p => s.completePkt p.1 p.2 0) s)

end Sys2Proof.Machine
end

