-- ==== Sys2Proof/Machine/Launch.lean ====
section
/-! DEFINITION. Launches (R353 to R357), the start of a wave (R15), and the placing and resuming of teams (R356, R368,
R370, R373). -/

namespace Sys2Proof.Machine

/-! ### The settings block (R354) -/

/-- Every field of a settings block is in range and aligned, every reserved field is zero, and it reads without
poison (R355). -/
def State.settingsOk (s : State) (a : Nat) : Bool :=
  let num (off n : Nat) : Nat := s.readNat (a + off) n
  a % 64 == 0 && physValid a && physValid (a + 255) && !(List.range 8).any (fun k => s.isPoisoned (a + 32 * k)) &&
  num 0 8 != 0 && num 0 8 % 2048 == 0 && physValid (num 0 8) && num 8 8 != 0 && num 8 8 % 2 ^ 22 == 0 && physValid (num 8 8) &&
  num 0x10 2 < 4096 && num 0x14 4 % 16 == 0 && num 0x14 4 ≤ 65536 && num 0x18 8 % 2 ^ 16 == 0 &&
  (num 0x14 4 == 0 || physValid (num 0x18 8)) && num 0x20 8 % 8 == 0 &&
  (num 0x28 4 == 0 || (2 ≤ num 0x28 4 && num 0x28 4 ≤ 2 ^ 24)) && num 0x2C 4 < 2 ^ 10 && nbits (num 0x2C 4) 6 2 == 0 &&
  num 0x30 8 % 2048 == 0 && num 0x4C 4 < 256 && nbits (num 0x4C 4) 3 1 == 0 && num 0x60 160 == 0

/-- The context of a settings block. -/
def State.readCtx (s : State) (a : Nat) : Ctx :=
  let num (off n : Nat) : Nat := s.readNat (a + off) n
  { status := num 0 8, root := num 8 8, asid := num 0x10 2, fkey := num 0x12 2, stack := num 0x14 4, stackBase := num 0x18 8,
    trapSeg := num 0x20 8, trapLen := num 0x28 4, trapArea := num 0x30 8, netArea := num 0x38 8,
    cvBound := orDefault (num 0x40 4) 1048576, stall := orDefault (num 0x44 4) 2000000, ftime := orDefault (num 0x48 4) 100000,
    debug := num 0x4C 4, bps := (List.range 4).map (fun k => num (0x50 + 4 * k) 4) }

/-- `$trapen` as a context starts it (R354, R299). -/
def trapenOf (traps : Nat) : Word64 :=
  BitVec.ofNat 64 (nbits traps 0 6 + (1 - nbits traps 8 1) * 2 ^ 8 + (1 - nbits traps 9 1) * 2 ^ 9)

/-! ### The launch packet (R353) -/

def State.launchPkt (s : State) (q i : Nat) : LaunchPkt :=
  let p := s.pkt q i
  { code := p 0x20 8, codeLen := p 0x28 4, tabLen := p 0x2C 4, table := p 0x30 8, args := p 0x38 8,
    seed := BitVec.ofNat 64 (p 0x48 8), launch := p 0x50 4, contract := p 0x54 2, width := p 0x56 1, pair := p 0x57 1 == 1,
    ext := (p 0x58 4, p 0x5C 4, p 0x60 4), waves := p 0x64 2, vregs := p 0x66 2, scratch := p 0x68 4, acc := p 0x6C 1,
    pclass := p 0x6D 1, take := p 0x6E 1, detmin := p 0x6F 1 }

def extOk (n : Nat) : Bool := 1 ≤ n && n ≤ 2 ^ 24

/-- The fields of a launch are in range and aligned (R355 step 1). -/
def LaunchPkt.ok (p : LaunchPkt) : Bool :=
  p.code % 8 == 0 && 2 ≤ p.codeLen && p.codeLen ≤ 2 ^ 24 && p.tabLen ≤ 65536 && p.table % 4 == 0 &&
  (p.tabLen != 0 || p.table == 0) && (p.width == 16 || p.width == 32 || p.width == 64) &&
  extOk p.ext.1 && extOk p.ext.2.1 && extOk p.ext.2.2 && p.ext.1 * p.ext.2.1 * p.ext.2.2 < 2 ^ 32 &&
  1 ≤ p.waves && p.waves ≤ 32 && p.waves * p.width ≤ 2048 && 64 ≤ p.vregs && p.vregs ≤ 1024 && p.vregs % 64 == 0 &&
  p.scratch % 64 == 0 && p.scratch ≤ 1572864 && p.acc ≤ 64 && p.pclass < 8 && p.detmin ≤ 2

/-- Step 1 of R355. -/
def State.launchOk (s : State) (q i : Nat) : Bool :=
  s.headerOk q i && (s.launchPkt q i).ok && s.pkt q i 0x57 1 < 2 && s.pkt q i 0x70 16 == 0 && s.settingsOk (s.pkt q i 0x40 8)

/-- The contracts that the V4 holds (R119). -/
def holdsContract (c : Nat) : Bool := c == 0x100 || c == 0x200 || c == 0x300 || c == 0x400

/-- Units that the waves of a new team need on one of its cores (R26, R37). -/
def LaunchPkt.unitsOn (p : LaunchPkt) (odd : Bool) : Nat :=
  (below p.waves (fun k => !p.pair || (k % 2 == 1) == odd)).length * (p.vregs / 64 * unitsPerGroup p.width)

/-- A team fits on an empty core, or on an empty pair (R27, R36). -/
def LaunchPkt.fits (p : LaunchPkt) : Bool :=
  p.unitsOn false ≤ Config.unitsPerCore && p.unitsOn true ≤ Config.unitsPerCore && (p.scratch ≤ 0xC0000 || p.pair)

/-- The checks of R355 from a step on: the code of the first that fails. -/
def State.checkFrom3 (s : State) (q : Nat) (p : LaunchPkt) : Option Nat :=
  if (s.qdesc q).det < p.detmin then some 4 else if !p.fits then some 2 else none
def State.launchCheck (s : State) (q i : Nat) : Option Nat :=
  let p := s.launchPkt q i
  if !s.launchOk q i then some 3 else if !holdsContract p.contract then some 1 else s.checkFrom3 q p

/-! ### Cores for a team (R368, R373) -/

/-- The core may admit teams of the grid: a user core of a die that its queue names, with headroom. -/
def State.admits (s : State) (g : Grid) (core : Nat) : Bool :=
  s.userCore g.p.pair core && nbits (s.qdesc g.queue).dies (core / Config.coresPerDie) 1 == 1 && s.cool g core

/-- Room for a team of a grid with the given allotments. -/
def State.teamRoom (s : State) (g : Grid) (core : Nat) (allots : List Nat) (eng : Nat) : Option Room :=
  if s.admits g core then s.roomOn g.p core allots eng else none
/-- Room for the next team of a grid: no saved team of it waits (R356). -/
def State.newRoom (s : State) (g : Grid) (core : Nat) : Option Room :=
  if g.ended.isNone && g.nextTeam < g.total && !s.teams.any (fun t => t.grid == g.id && t.saved) then
    s.teamRoom g core (List.replicate g.p.waves g.p.vregs) 0
  else none
/-- Room for a saved team. -/
def State.savedRoom (s : State) (t : Team) (core : Nat) : Option Room :=
  let g := s.gridAt t.grid
  if t.saved && g.ended.isNone then s.teamRoom g core t.allots t.savedEngine.length else none

/-- The earliest-started grid of a queue that has teams left. -/
def State.nextGridOf (s : State) (q : Nat) : Option Grid :=
  s.grids.find? (fun g => g.queue == q && g.ended.isNone && g.nextTeam < g.total)

/-- The queue can resume or place a team on the core. -/
def State.queueCan (s : State) (q core : Nat) : Bool :=
  s.teams.any (fun t => (s.gridAt t.grid).queue == q && (s.savedRoom t core).isSome) ||
  (match s.nextGridOf q with | some g => (s.newRoom g core).isSome | none => false)

/-- Queues resident on the die of a core. -/
def State.residentAt (s : State) (core : Nat) : List Nat := mgetD s.resident (core / Config.coresPerDie) []

/-! ### Grids that fit whole (R356) -/

/-- Places of a size in a space beside the used ranges. -/
def countFits (fuel : Nat) (used : List (Nat × Nat)) (size n : Nat) : Nat :=
  match fuel with
  | 0 => 0
  | k + 1 =>
    match firstFit used size n with
    | none => 0
    | some a => if n == 0 then k + 1 else countFits k (used ++ [(a, a + n)]) size n + 1

/-- New teams of a grid that one core, or the pair that it begins, could take now. -/
def State.capacity (s : State) (g : Grid) (core : Nat) : Nat :=
  let p := g.p
  if !s.admits g core then 0
  else
    let units (odd : Bool) (c : Nat) : Nat := if p.unitsOn odd == 0 then 64 else s.unitsFree c / p.unitsOn odd
    let slots (odd : Bool) (c : Nat) : Nat :=
      let n := (below p.waves (fun k => !p.pair || (k % 2 == 1) == odd)).length
      if n == 0 then 64 else (s.placesFree c).length / n
    let base := min (min (units false core) (slots false core)) (countFits 64 (s.tilesUsed core) Config.tilesPerCore p.acc)
    let base := if p.pair then min base (min (units true (core + 1)) (slots true (core + 1))) else base
    if 0xC0000 < p.scratch then min base (if (s.newRoom g core).isSome then 1 else 0)
    else min base (countFits 64 (s.scrUsed core) 0xC0000 p.scratch)

/-- All the teams that a grid has left fit on the cores available to it. -/
def State.fitsWhole (s : State) (g : Grid) : Bool :=
  g.total - g.nextTeam ≤ ((List.range Config.cores).map (s.capacity g)).sum

/-- A grid that started earlier, that fits whole and that can use the core, is placed first (R356). -/
def State.wholeBefore (s : State) (g : Grid) (core : Nat) : Bool :=
  (s.grids.takeWhile (fun x => x.id != g.id)).any (fun x =>
    (s.residentAt core).contains x.queue && (s.newRoom x core).isSome && s.fitsWhole x)

/-- Teams that wait: saved ones, and the next team of the earliest grid of each queue. -/
def State.waiting (s : State) : List (Grid × Option Team) :=
  (s.teams.filter (fun t => t.saved)).map (fun t => (s.gridAt t.grid, some t)) ++
    (s.grids.map (fun g => g.queue)).eraseDups.filterMap (fun q => (s.nextGridOf q).map (fun g => (g, none)))

/-- A core could take a waiting team now. -/
def State.couldTake (s : State) (x : Grid × Option Team) (core : Nat) : Bool :=
  (s.residentAt core).contains x.1.queue &&
  (match x.2 with
   | some t => (s.savedRoom t core).isSome
   | none => (s.newRoom x.1 core).isSome && !s.wholeBefore x.1 core)

/-- A core that has more headroom than another could take a waiting team. -/
def State.coolerCan (s : State) (x : Grid × Option Team) (core : Nat) : Bool :=
  (List.range Config.cores).any (fun k => s.headroom core < s.headroom k && s.couldTake x k)

/-- WHERE A TEAM GOES when several wait (R373): the highest classes to the cores with the greatest headroom. A team leaves a
core to a waiting team of a higher class, whose queue has no lower priority and which no cooler core could take; and it leaves
a core for a cooler one that no team of a higher class could take. -/
def State.mayGo (s : State) (x : Grid × Option Team) (core : Nat) : Bool :=
  let above := s.waiting.filter (fun y => s.classOf x.1 < s.classOf y.1)
  let mixed := s.waiting.any (fun y => s.classOf y.1 != s.classOf x.1)
  s.couldTake x core &&
  (!mixed ||
    (!(above.any (fun y => (s.qdesc x.1.queue).prio ≤ (s.qdesc y.1.queue).prio && s.couldTake y core && !s.coolerCan y core)) &&
     !(List.range Config.cores).any (fun k =>
       s.headroom core < s.headroom k && s.couldTake x k && !above.any (fun y => s.couldTake y k))))

/-- The queue can resume a saved team on the core. -/
def State.queueResumes (s : State) (q core : Nat) : Bool :=
  s.teams.any (fun t => t.saved && (s.gridAt t.grid).queue == q && s.mayGo (s.gridAt t.grid, some t) core)
/-- The queue can place the next team of its earliest-started grid on the core. -/
def State.queuePlaces (s : State) (q core : Nat) : Bool :=
  match s.nextGridOf q with | some g => s.mayGo (g, none) core | none => false
/-- The queue can proceed on the core: it resumes, places, or starts a packet (R368). -/
def State.queueProceeds (s : State) (q core : Nat) : Bool :=
  s.queueResumes q core || s.queuePlaces q core || s.anyEligible q

/-- A resident queue that the arbiter of a die serves before another: one of higher priority, or of the same and next in turn
(R368). -/
def State.servedBefore (s : State) (die r q : Nat) : Bool :=
  let turn (x : Nat) : Nat := (x + 1023 - mgetD s.lastServed die 1023) % 1024
  (s.qdesc q).prio < (s.qdesc r).prio || ((s.qdesc q).prio == (s.qdesc r).prio && turn r < turn q)

/-- The queue may be served on the core now: it is resident there, and no queue that is served before it can proceed there. -/
def State.served (s : State) (q core : Nat) : Bool :=
  (s.residentAt core).contains q &&
  !(s.residentAt core).any (fun r => s.servedBefore (core / Config.coresPerDie) r q && s.queueProceeds r core)

/-- The arbiter of a die has served a queue. -/
def State.serve (s : State) (die q : Nat) : State := { s with lastServed := mput s.lastServed die q }

/-- Cores of a die. -/
def dieCores (die : Nat) : List Nat := (List.range Config.coresPerDie).map (fun k => Config.coresPerDie * die + k)

/-- The arbiter of a die may start a packet of a queue: the queue has no team to resume or to place there, and no queue that is
served before it can proceed (R368). -/
def State.diesStarting (s : State) (q : Nat) : List Nat :=
  below Config.dies (fun d =>
    let here := mgetD s.resident d []
    nbits (s.qdesc q).dies d 1 == 1 && here.contains q && !(dieCores d).any (fun c => s.queueResumes q c || s.queuePlaces q c) &&
    !here.any (fun r => s.servedBefore d r q && (s.anyEligible r || (dieCores d).any (s.queueProceeds r))))

/-- The packet starts next: it is the first eligible one of its window, and a die's arbiter comes to it (R351, R368). -/
def State.startable (s : State) (q i : Nat) : Bool :=
  s.power == .p0 && s.firstEligible q i && !(s.diesStarting q).isEmpty

/-- A packet starts, served by a die's arbiter. -/
def State.startServed (s : State) (q i : Nat) : State :=
  match s.diesStarting q with
  | d :: _ => (s.startPkt q i).serve d q
  | [] => s.startPkt q i

/-! ### Vacating cores (R292, R370) -/

/-- The core is eligible to be taken for a launch: every team on it is of a grid of a lower-priority queue. -/
def State.takeable (s : State) (g : Grid) (core : Nat) : Bool :=
  s.userCore false core &&
  (s.teamsOn core).all (fun t => (s.qdesc (s.gridAt t.grid).queue).prio < (s.qdesc g.queue).prio)

/-- The cores that a launch takes: of the lowest die of its queue, free ones first. -/
def State.takeCores (s : State) (g : Grid) : Option (List Nat) :=
  match below Config.dies (fun d => nbits (s.qdesc g.queue).dies d 1 == 1) with
  | [] => none
  | d :: _ =>
    let cs := ((List.range Config.coresPerDie).map (fun k => Config.coresPerDie * d + k)).filter (s.takeable g)
    let order := cs.filter (fun c => (s.teamsOn c).isEmpty) ++ cs.filter (fun c => !(s.teamsOn c).isEmpty)
    if order.length < g.take then none else some (order.take g.take)

/-- PRE-EMPT a team: it is saved, and its context counts it (R292). -/
def State.preempt (s : State) (t : Team) : State × Bool :=
  let (s, ok) := s.takeTeam t.grid t.idx
  if ok then (s.countUp (s.gridAt t.grid) 0x20 1, true) else (s, false)

/-- Vacate cores for a launch, where as many as it asks for can be taken. -/
def State.vacateFor (s : State) (g : Grid) : State :=
  if g.take == 0 then s
  else
    match s.takeCores g with
    | none => s
    | some cs =>
      let (s, ok) := (cs.flatMap s.teamsOn).eraseDups.foldl (fun r t =>
        let (s, ok) := r.1.preempt t
        (s, r.2 && ok)) (s, true)
      if ok then s.setGrid { s.gridAt g.id with take := 0 } else s

/-- The first team of a launch does not fit on any core. -/
def State.firstFails (s : State) (g : Grid) : Bool :=
  g.nextTeam == 0 && !(List.range Config.cores).any (fun c => (s.newRoom g c).isSome)

/-- A launch whose first team fits takes no core; else its request is tried. -/
def State.tryTake (s : State) (g : Grid) : State :=
  if g.take == 0 then s
  else if s.firstFails g then s.vacateFor g
  else s.setGrid { g with take := 0 }

/-! ### Launch -/

/-- A context status block at its start: status 0 and every count 0 (R355). -/
def State.clearStatus (s : State) (a : Nat) : State := s.agentWrite a (List.replicate 0x400 0)

/-- LAUNCH: the checks of R355, and then a grid whose teams are still to be placed. A launch that waits for cores tries
again (R370). -/
def State.startLaunch (s : State) (q i : Nat) : State :=
  let s := s.startServed q i
  match s.launchCheck q i with
  | some code => s.completePkt q i code
  | none =>
    let p := s.launchPkt q i
    let set := s.pkt q i 0x40 8
    let g := { Grid.zero with id := s.nextGrid, queue := q, pkt := i, p := p, ctx := s.readCtx set, det := (s.qdesc q).det,
                              trapen := trapenOf (s.readNat (set + 0x2C) 4), take := p.take }
    let s := { s with grids := s.grids ++ [g], nextGrid := s.nextGrid + 1 }
    (s.clearStatus g.ctx.status).tryTake g

def execLaunch (q i : Nat) (s : State) : Host.Outcome State Fault Refusal :=
  .next (
    if s.startable q i && s.pktKind q i == 1 then s.startLaunch q i
    else
      match s.grids.find? (fun g => g.queue == q && g.pkt == i && g.ended.isNone) with
      | some g => if s.power == .p0 && s.isResident q then s.tryTake g else s
      | none => s)

/-! ### Teams -/

/-- THE START OF A WAVE (R15). -/
def State.newWave (s : State) (g : Grid) (team k : Nat) (at_ : Nat × Nat) : Wave :=
  let bp (n : Nat) : BitVec 33 := BitVec.ofNat 33 (g.ctx.bps.getD n 0 + nbits g.ctx.debug (4 + n) 1 * 2 ^ 32)
  let lanes := (List.range g.p.width).map (fun l =>
    let tid := k * g.p.width + l
    { Lane.zero with tid := tid, st := .run, v := mputD 0 [] 0 (BitVec.ofNat 32 tid) })
  let w : Wave := { Wave.nobody with
    key := ⟨g.id, team, k⟩, core := at_.1, place := at_.2, width := g.p.width, lanes := lanes, alloc := g.p.vregs,
    keys := List.replicate 8 g.p.seed, step := nbits g.ctx.debug 0 1 == 1, dbg := nbits g.ctx.debug 1 1 == 1,
    bp := (List.range 4).map bp }
  let w := (((w.setS 0 (BitVec.ofNat 64 g.p.args)).setS 1 (BitVec.ofNat 64 team)).setS 2 (BitVec.ofNat 64 g.total)).setS 3 (BitVec.ofNat 64 k)
  s.passInto w w.idx 0

/-- A new team, without its waves (R157, R166, R185, R242). -/
def newTeam (g : Grid) (core : Nat) (r : Room) : Team :=
  { Team.zero with grid := g.id, idx := g.nextTeam, core := core, waves := g.p.waves, scrBase := r.scrBase, tileBase := r.tileBase }

/-- PLACE the next team of a grid on a core. -/
def State.placeTeam (s : State) (g : Grid) (core : Nat) (r : Room) : State :=
  let s := { s.setGrid { g with nextTeam := g.nextTeam + 1, take := 0 } with teams := s.teams ++ [newTeam g core r] }
  let s := (List.range g.p.acc).foldl (fun (s : State) k => s.putTile core (r.tileBase + k) Tile.zero) s
  s.addWaves ((List.range g.p.waves).map (fun k => s.newWave g g.nextTeam k (r.at_.getD k (core, 64))))

/-- The grid whose next team the core takes: that of the queue that is served there, unless it has a team to resume. -/
def State.placeNext (s : State) (core : Nat) : Option Grid :=
  ((s.residentAt core).filter (fun q => s.served q core && s.queueProceeds q core)).findSome? (fun q =>
    if s.queueResumes q core || !s.queuePlaces q core then none else s.nextGridOf q)

/-- TEAM PLACEMENT: a core takes the next team of a grid. Where none fits, launches that wait for cores try again. -/
def execTeamPlacement (core : Nat) (s : State) : Host.Outcome State Fault Refusal :=
  .next (
    if s.power != .p0 then s
    else
      match s.placeNext core with
      | some g =>
        (match s.newRoom g core with
         | some r => (s.placeTeam g core r).serve (core / Config.coresPerDie) g.queue
         | none => s)
      | none => s.grids.foldl (fun (s : State) g => if s.isResident g.queue then s.tryTake g else s) s)

/-- TEAM RESUME: a saved team goes on, on a core that can take it. -/
def execTeamResume (grid team core : Nat) (s : State) : Host.Outcome State Fault Refusal :=
  .next (
    match s.teams.find? (fun t => t.grid == grid && t.idx == team) with
    | none => s
    | some t =>
      if s.power == .p0 && s.served (s.gridAt grid).queue core then
        match s.savedRoom t core with
        | some r =>
          if s.mayGo (s.gridAt grid, some t) core then (s.putTeam t core r).serve (core / Config.coresPerDie) (s.gridAt grid).queue
          else s
        | none => s
      else s)

end Sys2Proof.Machine
end

