-- ==== Sys2Proof/Machine/Queues.lean ====
section
/-! DEFINITION. Feed queues and ordered tasks in a wave (R287 to R291, R364 to R367). -/

namespace Sys2Proof.Machine

/-! ### qpush (R365) -/

/-- Records of a byte string. -/
def splitRecs (fuel size : Nat) (bs : List Byte) : List (List Byte) :=
  match fuel with
  | 0 => []
  | n + 1 => bs.take size :: splitRecs n size (bs.drop size)

/-- The first append that waits on a feed. -/
def State.firstAppender (s : State) (f : Nat) : Option Appender :=
  (s.pushQ.find? (fun p => p.1 == f)).map Prod.snd
/-- An append may go ahead: it is new, or the first of those that wait, and there is room. -/
def State.mayAppend (s : State) (f n : Nat) (a : Appender) : Bool :=
  n ≤ (s.fdesc f).room && (!s.pushQ.contains (f, a) || s.firstAppender f == some a)
def State.leavePushQ (s : State) (f : Nat) (a : Appender) : State := { s with pushQ := s.pushQ.erase (f, a) }
def State.joinPushQ (s : State) (f : Nat) (a : Appender) : State :=
  { s with pushQ := if s.pushQ.contains (f, a) then s.pushQ else s.pushQ ++ [(f, a)] }

/-- What `qpush` needs of its source: the checks of a plain load, without stamps; the alignment is its own. -/
def needPush : AccNeed := ⟨true, false, false, false, false, true, false, false⟩

/-- Write the predicate of a `.try` form. -/
def tryPred (try_ : Bool) (p : BitVec 4) (act : List Nat) (b : Bool) (s : State) : State :=
  if try_ then { s with cur := s.cur.writePreds p.toNat act (fun _ => b) } else s

/-- The body of `qpush`. -/
def bodyQpush (f : FmtQpush) (_ act : List Nat) (s : State) : Res :=
  let w := s.cur
  let feed := (w.getS f.sa.toNat).toNat
  let n := (w.getS f.sc.toNat).toNat
  let src := (w.getS f.sb.toNat).toNat
  let d := s.fdesc feed
  if 256 ≤ feed || !d.valid then .trap s (trapOf 7 act)
  else if n == 0 then .done (tryPred f.try_ f.pd act true s) []
  else if d.entries < n then .trap s (illegal act)
  else if src % 16 != 0 then .trap s ⟨5, act, src, 0, 0, []⟩
  else
    let tid := (w.lane (w.lowestTid act)).tid
    let rs := rangeAcc s w false needPush 0 tid src (n * d.rsize)
    match rangeFailed s act src rs with
    | some r => retiring s (rs.map (fun a => (0, a))) r
    | none =>
      let s := s.readsRange rs
      let recs := splitRecs n d.rsize (s.rangeBytes s.cur rs)
      if !s.timesOk feed recs then .trap s (illegal act)
      else if f.try_ && d.room < n then .done (tryPred true f.pd act false s) []
      else if !s.mayAppend feed n (.wave w.key) then .wait .room (s.joinPushQ feed (.wave w.key))
      else
        ordered s true 4 act (fun s =>
          let s := s.countAccess (rs.map LaneAcc.access)
          .done (tryPred f.try_ f.pd act true ((s.leavePushQ feed (.wave w.key)).feedWrite feed recs)) [])

def execQpush (f : FmtQpush) (s : State) : Host.Outcome State Fault Refusal := issue (.qpush f) s (bodyQpush f)

/-! ### qpop (R366, R287, R288) -/

/-- The wave may claim from a feed: it is the first that waits, or none waits. -/
def State.popTurn (s : State) (feed : Nat) : Bool :=
  match s.popQ.find? (fun p => p.1 == feed) with
  | some p => p.2 == s.cur.key
  | none => true
def State.leavePopQ (s : State) (feed : Nat) : State := { s with popQ := s.popQ.erase (feed, s.cur.key) }

/-- Records go to lanes: the registers from `vd` on become empty, and full once the words are written (R31, R366). -/
def State.putRecords (s : State) (vd n : Nat) (given : List (Nat × List Byte)) : State :=
  let elems := given.flatMap (fun p => (List.range n).map (fun k =>
    (⟨p.1, vd + k, BitVec.ofNat 32 (leNat ((p.2.drop (4 * k)).take 4)), ⟨[], false, false, []⟩⟩ : PElem)))
  if given.isEmpty then s else s.addPend (vecPend elems ((List.range n).map (fun k => vd + k)) false) (given.map Prod.fst)

/-- The checks of `qpop` and `qpop.o`. -/
def State.popCheck (s : State) (f : FmtQpop) (ord : Bool) (iss act : List Nat) : Option Res :=
  let w := s.cur
  let feed := (w.getS f.sa.toNat).toNat
  let d := s.fdesc feed
  let regs := d.rsize / 4
  if 256 ≤ feed || !d.valid then some (.trap s (trapOf 7 act))
  else if w.alloc < f.vd.toNat + regs then
    some (.trap s { trapOf 3 iss with infoA := regInfo 0 (max f.vd.toNat w.alloc) })
  else if ord && (!d.ordered || (s.gridOf w).det < 2 || w.task.isSome) then some (.trap s (illegal act))
  else if (List.range regs).any (fun i => w.vEmpty.contains (f.vd.toNat + i)) then some (.wait .regs s)
  else none

/-- The deadline of a waiting form has come. -/
def State.popDue (s : State) (f : FmtQpop) : Bool :=
  let sb := (s.cur.getS f.sb.toNat).toNat
  f.pd != 15 && sb != 0 && sb ≤ s.gtc

/-- Claim records at head. -/
def State.claim (s : State) (feed n : Nat) : State :=
  s.agentWrite (s.fdAddr feed + 0x14) (leBytes 4 ((s.fdesc feed).head + n))

/-- The claimed records go to the active lanes in ascending `$tid`. Where the feed is unordered, each is freed once it has been
written to the lane's registers (R364). -/
def State.popTake (s : State) (f : FmtQpop) (feed n : Nat) (act : List Nat) : State :=
  let d := s.fdesc feed
  let s := if n == 0 then s else s.claim feed n
  let given := ((s.cur.byTid act).take n).zip (List.range n)
  let id := (s.cur.key, s.cur.nextPend)
  let s := s.putRecords f.vd.toNat (d.rsize / 4) (given.map (fun p => (p.1, s.feedRec feed ((d.head + p.2) % 2 ^ 32))))
  let s := if f.pd == 15 then s
    else { s with cur := s.cur.writePreds f.pd.toNat act (fun l => given.any (fun p => p.1 == l)) }
  if d.ordered then s
  else { s with popping := s.popping ++ (List.range n).map (fun k => (id, feed, (d.head + k) % 2 ^ 32)) }

/-- Records that have been written to registers are freed. -/
def State.popsDone (s : State) : State :=
  let waits (x : (WKey × Nat) × Nat × Nat) : Bool :=
    match s.findWave x.1.1 with
    | some w => w.pend.any (fun p => p.id == x.1.2)
    | none => false
  (s.popping.filter (fun x => !waits x)).foldl (fun s x => s.freeRec x.2.1 x.2.2) { s with popping := s.popping.filter waits }

/-- The body of `qpop`. -/
def bodyQpop (f : FmtQpop) (iss act : List Nat) (s : State) : Res :=
  match s.popCheck f false iss act with
  | some r => r
  | none =>
    let feed := (s.cur.getS f.sa.toNat).toNat
    let k := act.length
    let have_ := (s.fdesc feed).unclaimed
    if (s.popTurn feed && k ≤ have_) || s.popDue f then
      .done ((s.leavePopQ feed).popTake f feed (min k have_) act) []
    else .wait .record { s with popQ := if s.popQ.contains (feed, s.cur.key) then s.popQ else s.popQ ++ [(feed, s.cur.key)] }

def execQpop (f : FmtQpop) (s : State) : Host.Outcome State Fault Refusal := issue (.qpop f) s (bodyQpop f)

/-- Open a task on a record: the checkpoint stands at the `qpop.o`, and every active lane receives the record. -/
def State.openTask (s : State) (f : FmtQpop) (feed idx : Nat) (act : List Nat) : State :=
  let w := { s.cur.speculate 3 0 with
    task := some { feed := feed, idx := idx, sig := [], wrote := [], wide := false }, nonspec := false, redeliver := none }
  let r := s.feedRec feed idx
  let s := { s with cur := w }.putRecords f.vd.toNat ((s.fdesc feed).rsize / 4) (act.map (fun l => (l, r)))
  { s with cur := if f.pd == 15 then s.cur else s.cur.writePreds f.pd.toNat act (fun _ => true) }

/-- The body of `qpop.o`. A record held for re-delivery is returned again (R290). -/
def bodyQpopO (f : FmtQpop) (iss act : List Nat) (s : State) : Res :=
  match s.popCheck f true iss act with
  | some r => r
  | none =>
    let feed := (s.cur.getS f.sa.toNat).toNat
    let d := s.fdesc feed
    let s := { s with cur := s.returnAll s.cur }
    if s.producing then .wait (if s.cur.pend.all s.cur.drainOf then .drain else .regs) s
    else
      match s.cur.redeliver with
      | some (g, idx) =>
        if g == feed then .done (s.openTask f feed idx act) [] else .trap s (illegal act)
      | none =>
        if s.popTurn feed && 1 ≤ d.unclaimed then
          .done (((s.leavePopQ feed).claim feed 1).openTask f feed d.head act) []
        else if s.popDue f then
          if 1 ≤ d.unclaimed then .done (((s.leavePopQ feed).claim feed 1).openTask f feed d.head act) []
          else .done { s.leavePopQ feed with cur := s.cur.writePreds f.pd.toNat act (fun _ => false) } []
        else .wait .record { s with popQ := if s.popQ.contains (feed, s.cur.key) then s.popQ else s.popQ ++ [(feed, s.cur.key)] }

def execQpopO (f : FmtQpop) (s : State) : Host.Outcome State Fault Refusal := issue (.qpopO f) s (bodyQpopO f)

/-- QPOP DEADLINE: the deadline of a waiting `qpop` comes: it issues again, and claims what is unclaimed (R366). -/
def execQpopDeadline (key : WKey) (s : State) : Host.Outcome State Fault Refusal :=
  .next (match s.findWave key with
    | none => s
    | some w =>
      if w.why != .record then s
      else
        let v := w.issuePc.getD 0
        match s.fetchNow w v with
        | .word x =>
          (match decode x with
           | some (.qpop f) | some (.qpopO f) =>
             let sb := (w.getS f.sb.toNat).toNat
             if f.pd == 15 || sb == 0 then s else { s with gtc := max s.gtc sb }.setWave { w with why := .none }
           | _ => s)
        | _ => s)

/-! ### Ordered tasks (R288 to R290) -/

/-- The task of the wave is the oldest uncommitted task of its queue. -/
def State.taskOldest (s : State) (w : Wave) : Bool :=
  match w.task with
  | some t => (s.fdesc t.feed).free == t.idx
  | none => false

/-- The wave's task turns non-speculative (R289). -/
def State.turnNonspec (s : State) : State :=
  let s := s.confirm
  { s with cur := { s.cur with nonspec := true, task := s.cur.task.map (fun t => { t with sig := [] }) } }

/-- TASK TURNS NONSPECULATIVE: a waiting speculative task becomes the oldest; the wave goes on, or takes the trap that
it held back (R288, R289). -/
def execTaskTurnsNonspeculative (key : WKey) (s : State) : Host.Outcome State Fault Refusal :=
  .next (s.withWave key (fun s => if s.cur.spec == 3 && s.taskOldest s.cur then s.turnNonspec else s))

/-- ABORT a later task: it runs again from its `qpop.o`, which returns the same record (R290). -/
def State.abortTask (s : State) (key : WKey) : State :=
  match s.findWave key with
  | none => s
  | some w =>
    let again := w.task.map (fun t => (t.feed, t.idx))
    (s.setWave { w.rollback with task := none, nonspec := false, redeliver := again, why := .none }).countUp (s.gridOf w) 0x2C 1

/-- Waves whose speculative task is later than a task and has read what it wrote. -/
def State.conflicts (s : State) (me : WKey) (t : Task) : List WKey :=
  (s.waves.filter (fun w => w.key != me && w.spec == 3 && (match w.task with
    | some u => u.feed == t.feed && u.idx != t.idx && !u.sig.isEmpty && (t.wide || u.sig.any t.wrote.contains)
    | none => false))).map (fun w => w.key)

/-- Commit the open task of the current wave, once it has been released (R290): the next task becomes the oldest. -/
def State.commitTask (s : State) : State :=
  match s.cur.task with
  | none => s
  | some t =>
    let s := (s.conflicts s.cur.key t).foldl State.abortTask s
    let s := { s with cur := { s.cur with task := none, nonspec := false, spec := 0 } }.freeRec t.feed t.idx
    s.mapWaves (fun w => if w.why == .oldest && w.spec != 3 then { w with why := .none } else w)

/-- The commit as far as it goes: wait to be the oldest, turn non-speculative, release, commit. -/
def State.tryCommit (s : State) (act : List Nat) (k : State → Res) : Res :=
  if !s.taskOldest s.cur then .wait .oldest s
  else
    let s := if s.cur.spec == 3 then s.turnNonspec else s
    ordered s true 6 act (fun s => k s.commitTask)

/-- The body of `qdone`. -/
def bodyQdone (_ : FmtG) (_ act : List Nat) (s : State) : Res :=
  if s.cur.task.isNone then .trap s (illegal act) else s.tryCommit act (fun s => .done s [])

def execQdone (f : FmtG) (s : State) : Host.Outcome State Fault Refusal := issue (.qdone f) s (bodyQdone f)

end Sys2Proof.Machine
end

