-- ==== Sys2Proof/Machine/Requests.lean ====
section
/-! DEFINITION. The packets that launch nothing (R349, R359, R361, R362), and grid control (R297, R363). -/

namespace Sys2Proof.Machine

/-- The packet starts now, and is of a kind. -/
def State.startsAs (s : State) (q i kind : Nat) : Bool := s.startable q i && s.pktKind q i == kind

/-! ### Feed append (R359) -/

/-- The fields of a feed append are in range. -/
def State.appendOk (s : State) (q i : Nat) : Bool :=
  let src := s.pkt q i 0x28 8
  s.headerOk q i && s.pkt q i 0x20 2 < 256 && s.pkt q i 0x22 2 == 0 && 1 ≤ s.pkt q i 0x24 4 && s.pkt q i 0x24 4 ≤ 65536 &&
  src % 16 == 0 && physValid src && s.pkt q i 0x30 80 == 0

/-- Append, or wait for room behind the appends that wait. -/
def State.tryFeedAppend (s : State) (q i : Nat) : State :=
  let f := s.pkt q i 0x20 2
  let n := s.pkt q i 0x24 4
  let d := s.fdesc f
  let me := Appender.packet q i
  if !s.appendOk q i then s.completePkt q i 3
  else if !d.valid then (s.leavePushQ f me).completePkt q i 7
  else
    let recs := splitRecs n d.rsize (s.readN (s.pkt q i 0x28 8) (n * d.rsize))
    if !s.timesOk f recs then (s.leavePushQ f me).completePkt q i 7
    else if s.mayAppend f n me then ((s.leavePushQ f me).feedWrite f recs).completePkt q i 0
    else s.joinPushQ f me

/-- FEED APPEND: it starts, or tries again. -/
def execFeedAppend (q i : Nat) (s : State) : Host.Outcome State Fault Refusal :=
  .next (
    if s.startsAs q i 2 then (s.startServed q i).tryFeedAppend q i
    else if s.power == .p0 && s.pushQ.any (fun p => p.2 == .packet q i) then s.tryFeedAppend q i
    else s)

/-! ### Determinism level, token, power class (R361, R362) -/

def execDeterminismLevel (q i : Nat) (s : State) : Host.Outcome State Fault Refusal :=
  .next (
    if !s.startsAs q i 4 then s
    else
      let s := s.startServed q i
      let v := s.pkt q i 0x20 1
      if !s.headerOk q i || 2 < v || s.pkt q i 0x21 95 != 0 then s.completePkt q i 3
      else (s.agentWrite (s.qdAddr q + 0x18) (leBytes 1 v)).completePkt q i 0)

def execToken (q i : Nat) (s : State) : Host.Outcome State Fault Refusal :=
  .next (
    if !s.startsAs q i 5 then s
    else
      let s := s.startServed q i
      let named := nbits (s.pkt q i 0x22 1) 0 1 == 1
      let t := if named then s.pkt q i 0x20 2 else q
      if !(s.qdesc t).valid then s.completeTo q i 3 q false
      else
        let ok := s.headerOk q i && s.pkt q i 0x20 2 < 1024 && s.pkt q i 0x22 1 < 2 && s.pkt q i 0x23 93 == 0
        s.completeTo q i (if ok then 0 else 3) t true)

def execPowerClass (q i : Nat) (s : State) : Host.Outcome State Fault Refusal :=
  .next (
    if !s.startsAs q i 6 then s
    else
      let s := s.startServed q i
      let v := s.pkt q i 0x20 1
      if !s.headerOk q i || 8 ≤ v || s.pkt q i 0x21 95 != 0 then s.completePkt q i 3
      else (s.agentWrite (s.qdAddr q + 0xF) (leBytes 1 v)).completePkt q i 0)

/-- UNKNOWN PACKET KIND: a packet of the window completes at once with code 3 and no other effect (R349). -/
def execUnknownPacketKind (q i : Nat) (s : State) : Host.Outcome State Fault Refusal :=
  .next (
    let kind := s.pktKind q i
    if s.power == .p0 && s.isResident q && s.inWindow q i && !s.pktStarted q i && (kind == 0 || 7 < kind) then
      { s with started := s.started ++ [(q, i, false)] }.completeTo q i 3 q false
    else s)

/-! ### Grid control (R363) -/

/-- The packet is a grid-control packet of an operation that starts now. -/
def State.startsGrid (s : State) (q i op : Nat) : Bool := s.startsAs q i 7 && s.pkt q i 0x20 1 == op

/-- The fields that every operation has. -/
def State.gridOk (s : State) (q i : Nat) : Bool :=
  s.headerOk q i && s.pkt q i 0x22 2 == 0 && s.pkt q i 0x40 64 == 0
/-- The buffer of a checkpoint. -/
def State.bufOk (s : State) (q i : Nat) : Bool := s.pkt q i 0x28 8 % 4096 == 0 && physValid (s.pkt q i 0x28 8)

/-- The running grid of a queue that a packet names. -/
def State.target_ (s : State) (q i : Nat) : Option Grid :=
  s.grids.find? (fun g => g.queue == q && g.p.launch == s.pkt q i 0x24 4 && g.ended.isNone)

/-- GRID CHECKPOINT: it is asked for; the completion of the name takes it (R296). An operation that is none of the three
is malformed. -/
def execGridCheckpoint (q i : Nat) (s : State) : Host.Outcome State Fault Refusal :=
  .next (
    let op := s.pkt q i 0x20 1
    if !s.startsAs q i 7 || op == 2 || op == 3 then s
    else
      let s := s.startServed q i
      let name := s.pkt q i 0x21 1
      if op != 1 || !s.gridOk q i || !s.bufOk q i || name < 48 || 63 < name then s.completePkt q i 3
      else
        match s.target_ q i with
        | none => s.completePkt q i 8
        | some g => s.setGrid { g with ckpt := g.ckpt ++ [(q, i, name, s.pkt q i 0x28 8, s.pkt q i 0x30 8)] })

/-- GRID END. -/
def execGridEnd (q i : Nat) (s : State) : Host.Outcome State Fault Refusal :=
  .next (
    if !s.startsGrid q i 3 then s
    else
      let s := s.startServed q i
      if !s.gridOk q i then s.completePkt q i 3
      else
        match s.target_ q i with
        | none => s.completePkt q i 8
        | some g =>
          let s := s.endGrid g.id 6 3
          let g := s.gridAt g.id
          s.setGrid { g with endPkts := g.endPkts ++ [(q, i)] })

/-- Two communicators have the same members, on whatever devices, and the same ranks, contract and scope. -/
def Comm.alike (a b : Comm) : Bool :=
  let names (c : Comm) := c.members.map (fun m => (m.1, m.2.1, m.2.2.1))
  names a == names b && a.contract == b.contract && a.scope == b.scope

/-- A MEMBERSHIP REGISTER of a restored wave names the communicator that has been set up again with the same members and ranks, this
one on this device (R297, R342); the first of several alike for the first of those that the checkpoint knew, and so on (log 155). -/
def State.rebind (s : State) (old : List Comm) (m : Memb) : Memb :=
  let again := m.comm.bind (fun p => (old.find? (fun c => c.slot == p.1 && c.use == p.2)).bind (fun c =>
    let before := ((old.takeWhile (fun x => x != c)).filter c.alike).length
    let here (x : Comm) : Bool := (x.members[m.rank]?).any (fun e => e.2.2.2 == s.config.devNum)
    (s.comms.filter (fun x => c.alike x && here x))[before]?))
  { m with comm := again.map (fun c => (c.slot, c.use)) }

/-- A team of a checkpoint as a saved team of the restored grid. -/
def State.restoreTeam (s : State) (k : Ckpt) (id : Nat) (t : Team) : Team :=
  { t with grid := id, saved := true,
           savedWaves := t.savedWaves.map (fun w => { w with key := { w.key with grid := id }, memb := w.memb.map (s.rebind k.comms) }),
           savedEngine := t.savedEngine.map (fun e => { e with who := { e.who with grid := id } }) }

/-- A checkpoint is moved here whole, under a number that its buffer names (R297). -/
def State.importCkpt (s : State) (id : Nat) (k : Ckpt) : State :=
  if id == 0 || (mget s.ckpts id).isSome then s else { s with ckpts := mput s.ckpts id k }

/-- Waves of a grid that have exited count as exited in every communicator that names them (R340, R342). -/
def State.applyExits (s : State) (g : Grid) : State :=
  let gone (m : Nat × Nat × Nat × Nat) : Bool :=
    m.1 == g.p.launch && m.2.2.2 == s.config.devNum && g.exits.contains (m.2.1, m.2.2.1)
  let apply (c : Comm) : Comm :=
    { c with exited := (below c.members.length (fun r => gone (c.members.getD r (0, 0, 0, 16)))).foldl insNat c.exited }
  { s with comms := s.comms.map apply }

/-- GRID RESTORE: the grid of a checkpoint becomes a grid of this queue, all of whose teams are saved; it completes the
pending generation (R297). -/
def execGridRestore (q i : Nat) (s : State) : Host.Outcome State Fault Refusal :=
  .next (
    if !s.startsGrid q i 2 then s
    else
      let s := s.startServed q i
      let set := s.pkt q i 0x38 8
      if !s.gridOk q i || !s.bufOk q i || !s.settingsOk set then s.completePkt q i 3
      else
        match mget s.ckpts (s.readNat (s.pkt q i 0x28 8) 8) with
        | none => s.completePkt q i 3
        | some k =>
          match s.checkFrom3 q k.grid.p with
          | some code => s.completePkt q i code
          | none =>
            let id := s.nextGrid
            let g := { k.grid with id := id, queue := q, pkt := i, ctx := s.readCtx set, det := (s.qdesc q).det,
                                   trapen := trapenOf (s.readNat (set + 0x2C) 4), ended := none, ckpt := [], wct := 0,
                                   endPkts := [], take := 0, orphan := false }
            let s := { s with grids := s.grids ++ [g], nextGrid := id + 1, teams := s.teams ++ k.teams.map (s.restoreTeam k id) }
            ((s.clearStatus g.ctx.status).applyExits g).barCheck 8 id 0 k.name)

end Sys2Proof.Machine
end

