-- ==== Sys2Proof/Machine/Comms.lean ====
section
/-! DEFINITION. Communicators: set-up and release (R329 to R334, R360), and a device that leaves the pod (R268, R304). -/

namespace Sys2Proof.Machine

/-! ### The member table (R330) -/

/-- An entry of the member table: launch, team, wave, device. -/
abbrev Member := Nat × Nat × Nat × Nat

def State.memberAt (s : State) (table k : Nat) : Member :=
  let a := table + 16 * k
  (s.readNat a 4, s.readNat (a + 4) 4, s.readNat (a + 8) 1, s.readNat (a + 9) 1)

/-- Entry `k` of a table keeps the rules of R330. -/
def State.memberOk (s : State) (table : Nat) (ms : List Member) (k : Nat) : Bool :=
  match ms[k]? with
  | some m => m.2.2.1 < 32 && m.2.2.2 < 16 && s.readNat (table + 16 * k + 10) 6 == 0 && !(ms.take k).contains m
  | none => false

/-- The members lie within one agent group of a scope, as far as the table states it (R331). -/
def inScope (scope : Nat) (a b : Member) : Bool :=
  if scope == 1 then a.1 == b.1 && a.2.1 == b.2.1
  else if scope == 5 then true
  else a.2.2.2 == b.2.2.2

/-! ### What other devices report -/

/-- A report of another member device: the contracts it holds, by bit (R332), whether it acknowledges the installation,
a slot that it has in use, and the use number that it gives the slot that is chosen. -/
abbrev Reports := List (Nat × Word64)

/-- The contracts that a device holds: the V4 holds all four. -/
def heldBy (own : Nat) (rs : Reports) (dev : Nat) : Nat :=
  if dev == own then 15 else ((rs.find? (fun (r : Nat × Word64) => r.1 == dev)).map (fun r => nbits r.2.toNat 0 4)).getD 0
/-- A member device is present and reachable. -/
def State.reachable (s : State) (rs : Reports) (dev : Nat) : Bool :=
  dev == s.config.devNum || (s.config.present.contains dev && rs.any (fun (r : Nat × Word64) => r.1 == dev))
def acknowledges (own : Nat) (rs : Reports) (dev : Nat) : Bool :=
  dev == own || rs.any (fun (r : Nat × Word64) => r.1 == dev && tbit r.2 4)
/-- A slot is free on a member device. -/
def State.slotFree (s : State) (rs : Reports) (slot dev : Nat) : Bool :=
  if dev == s.config.devNum then !s.comms.any (fun c => c.slot == slot)
  else !rs.any (fun (r : Nat × Word64) => r.1 == dev && nbits r.2.toNat 8 8 == slot)

/-- The contract of a communicator (R332): the highest that every member device holds, or the one that is wanted. -/
def negotiate (own : Nat) (rs : Reports) (devs : List Nat) (want : Nat) : Option Nat :=
  let all (c : Nat) : Bool := devs.all (fun d => nbits (heldBy own rs d) c 1 == 1)
  if want == 0 then ([3, 2, 1, 0].find? all).map (fun c => 0x100 * (c + 1))
  else ([3, 2, 1, 0].find? (fun c => 0x100 * (c + 1) == want && all c)).map (fun c => 0x100 * (c + 1))

/-! ### Set-up (R331) -/

/-- The fields of a set-up packet, its table apart. -/
def State.setUpOk (s : State) (q i : Nat) : Bool :=
  let p := s.pkt q i
  s.headerOk q i && 1 ≤ p 0x28 4 && p 0x28 4 ≤ 4096 && 1 ≤ p 0x2C 1 && p 0x2C 1 ≤ 5 && p 0x2D 1 < 2 && p 0x38 72 == 0 &&
  p 0x20 8 % 64 == 0 && physValid (p 0x20 8) && physValid (p 0x30 8)

/-- Write the set-up record. -/
def State.putRecord (s : State) (a handle contract count status scope entry : Nat) : State :=
  s.agentWrite a (leBytes 8 handle ++ leBytes 4 contract ++ leBytes 4 count ++ leBytes 4 status ++ leBytes 4 scope ++
    leBytes 4 entry ++ leBytes 4 0)

/-- The steps of R331 up to the installation: status and failing entry, or slot and contract. Which of the slots that are
free on every member device is chosen is a free value. -/
def State.setUpCheck (s : State) (q i : Nat) (rs : Reports) (ms : List Member) : Except (Nat × Nat) (Nat × Nat) :=
  let p := s.pkt q i
  let own := s.config.devNum
  let ks := List.range ms.length
  let dev (k : Nat) : Nat := (ms.getD k (0, 0, 0, 0)).2.2.2
  let devs := (ms.map (fun m => m.2.2.2)).eraseDups
  if !s.setUpOk q i then .error (4, 0)
  else
    match ks.find? (fun k => !s.memberOk (p 0x20 8) ms k) with
    | some k => .error (4, k)
    | none =>
      match ks.find? (fun k => !s.reachable rs (dev k)) with
      | some k => .error (1, k)
      | none =>
        match ks.find? (fun k => !inScope (p 0x2C 1) (ms.getD 0 (0, 0, 0, 0)) (ms.getD k (0, 0, 0, 0))) with
        | some k => .error (5, k)
        | none =>
          match (List.range 255).filter (fun n => devs.all (s.slotFree rs (n + 1))) with
          | [] => .error (3, 0)
          | n :: ns =>
            match negotiate own rs devs (p 0x2E 2) with
            | none => .error (2, 0)
            | some c =>
              match ks.find? (fun k => !acknowledges own rs (dev k)) with
              | some k => .error (1, k)
              | none => .ok ((n :: ns).getD ((s.free 0).toNat % (ns.length + 1)) n + 1, c)

/-- A communicator as it is installed: waves of this device that have exited count as exited (R340). -/
def State.newComm (s : State) (slot use : Nat) (ms : List Member) (contract scope : Nat) : Comm :=
  let gone (m : Member) : Bool :=
    m.2.2.2 == s.config.devNum && s.grids.any (fun g => g.p.launch == m.1 && g.exits.contains (m.2.1, m.2.2.1))
  { slot := slot, use := use, members := ms, contract := contract, scope := scope, votes := [], outcomes := [], contribs := [],
    reduced := [], running := [], exited := below ms.length (fun r => gone (ms.getD r (0, 0, 0, 16))), lost := [], stalled := [],
    stalledRed := [] }

/-- The use number of a slot (R331). -/
def State.useOfSlot (s : State) (slot : Nat) : Nat :=
  (mgetD s.commUse slot 0 + (s.comms.filter (fun c => c.slot == slot)).length) % 2 ^ 16

/-- The use number of a new communicator: that of the slot here, or, where this device is no member, on the device of rank 0. -/
def State.useFor (s : State) (rs : Reports) (slot : Nat) (ms : List Member) : Nat :=
  let dev := (ms.getD 0 (0, 0, 0, 0)).2.2.2
  if ms.any (fun m => m.2.2.2 == s.config.devNum) then s.useOfSlot slot
  else ((rs.find? (fun (r : Nat × Word64) => r.1 == dev)).map (fun r => nbits r.2.toNat 16 16)).getD 0

/-- A communicator is installed. Where no member is on this device it takes no slot here, and is kept for its release (R331,
R334). -/
def State.install (s : State) (c : Comm) : State :=
  if c.members.any (fun m => m.2.2.2 == s.config.devNum) then { s with comms := s.comms ++ [c] }
  else { s with awayComms := s.awayComms ++ [c] }

/-- A set-up packet that has started completes: `foreign` is what the other member devices report. -/
def State.setUpFinish (s : State) (q i : Nat) (foreign : Reports) : State :=
  let p := s.pkt q i
  let s := { s with hostComms := s.hostComms.filter (· != (q, i)) }
  let rec_ := p 0x30 8
  let count := p 0x28 4
  let ms := if s.setUpOk q i then (List.range count).map (s.memberAt (p 0x20 8)) else []
  if rec_ % 32 != 0 then s.completePkt q i 4
  else
    match s.setUpCheck q i foreign ms with
    | .error (st, e) => (if physValid rec_ then s.putRecord rec_ 0 0 count st (p 0x2C 1) e else s).completePkt q i st
    | .ok (slot, c) =>
      let s := s.freeNext
      let use := s.useFor foreign slot ms
      let s := s.install (s.newComm slot use ms c (p 0x2C 1))
      (s.putRecord rec_ (slot + use * 256) c count 0 (p 0x2C 1) 0).completePkt q i 0

/-- COMMUNICATOR SET UP: a packet starts, and completes; in host-assisted mode the host is asked, and its answer completes it
(R331, R374). -/
def execCommunicatorSetUp (q i : Nat) (foreign : Reports) (s : State) : Host.Outcome State Fault Refusal :=
  .next (
    if s.hostComms.contains (q, i) then s.setUpFinish q i foreign
    else if !s.startsAs q i 3 || nbits (s.pkt q i 0x2D 1) 0 1 == 1 then s
    else
      let s := s.startServed q i
      if tbit s.regs.fmode 3 then { s with hostComms := s.hostComms ++ [(q, i)], outbox := s.outbox ++ [.hostComm q i] }
      else s.setUpFinish q i foreign)

/-- A communicator set up from a queue of another device is installed here, where the slot is free (R331). -/
def State.commInstall (s : State) (slot use : Nat) (ms : List Member) (contract scope : Nat) : State :=
  if slot == 0 || 255 < slot || 2 ^ 16 ≤ use || s.comms.any (fun c => c.slot == slot) || !ms.any (fun m => m.2.2.2 == s.config.devNum) then s
  else { s with comms := s.comms ++ [s.newComm slot use ms contract scope] }

/-- A communicator goes: released, or its installation withdrawn. -/
def State.commRemove (s : State) (slot use : Nat) (withdrawn : Bool) : State :=
  { s with comms := s.comms.filter (fun (x : Comm) => !(x.slot == slot && x.use == use)),
           commUse := if withdrawn then s.commUse else mputD 0 s.commUse slot ((use + 1) % 2 ^ 16) }

/-- A grid of another device starts, or has completed (R334). -/
def State.foreignGrid (s : State) (dev launch : Nat) (runs : Bool) : State :=
  let rest := s.awayGrids.filter (· != (dev, launch))
  { s with awayGrids := if runs then rest ++ [(dev, launch)] else rest }

/-! ### Release (R334) -/

/-- Some grid that has a member has started and has not completed, here or on another device. -/
def State.commBusy (s : State) (c : Comm) : Bool :=
  c.members.any (fun m =>
    if m.2.2.2 == s.config.devNum then s.grids.any (fun g => m.1 == g.p.launch) else s.awayGrids.contains (m.2.2.2, m.1))

/-- The communicator that the handle of a record names: of those that have a member here, or, with the contract and the count that the
record gives, of those that have none. -/
def State.recordComm (s : State) (rec_ : Nat) : Option Comm :=
  let h := s.readNat rec_ 8
  let fits (c : Comm) : Bool := c.handle == h && c.contract == s.readNat (rec_ + 8) 4 && c.members.length == s.readNat (rec_ + 12) 4
  match s.commByHandle h with
  | some c => if fits c then some c else ((s.awayComms.find? fits).or (some c))
  | none => s.awayComms.find? (fun c => c.handle == h)

/-- A communicator is released: it goes from where it was kept. -/
def State.release (s : State) (c : Comm) : State :=
  if s.commAt c.slot c.use == some c then s.commRemove c.slot c.use false else { s with awayComms := s.awayComms.erase c }

/-- Release, or wait for the grids of the members. -/
def State.tryRelease (s : State) (q i : Nat) : State :=
  let p := s.pkt q i
  let rec_ := p 0x30 8
  let ok := s.headerOk q i && p 0x2D 1 == 1 && p 0x20 8 == 0 && p 0x38 72 == 0 && rec_ % 32 == 0 && physValid rec_
  match if ok then s.recordComm rec_ else none with
  | none => s.completePkt q i 4
  | some c =>
    if s.commBusy c then s else (s.release c).completePkt q i 0

/-- COMMUNICATOR RELEASE: it starts, or tries again. -/
def execCommunicatorRelease (q i : Nat) (s : State) : Host.Outcome State Fault Refusal :=
  .next (
    if nbits (s.pkt q i 0x2D 1) 0 1 == 0 then s
    else if s.startsAs q i 3 then (s.startServed q i).tryRelease q i
    else if s.power == .p0 && s.pktKind q i == 3 && s.started.contains (q, i, false) then s.tryRelease q i
    else s)

/-! ### A device leaves the pod (R268, R304, R322) -/

/-- Ranks on a device whose waves have not exited. -/
def Comm.ranksOn (c : Comm) (dev : Nat) : List Nat :=
  below c.members.length (fun r => (c.members.getD r (0, 0, 0, 0)).2.2.2 == dev && !c.exited.contains r)

/-- DEVICE LEAVES POD: it is absent from now on, its members are lost, and requests towards it whose deadline is held
fail. -/
def execDeviceLeavesPod (dev : Nat) (s : State) : Host.Outcome State Fault Refusal :=
  .next (
    if dev == s.config.devNum || !s.config.present.contains dev then s
    else
      let s := { s with config := { s.config with present := s.config.present.filter (· != dev) },
                        awayGrids := s.awayGrids.filter (fun g => g.1 != dev),
                        comms := s.comms.map (fun (c : Comm) => (c.ranksOn dev).foldl Comm.lose c) }
      s.waves.foldl (fun (s : State) w => (w.fab.filter (fun o => o.held && o.req.dst == dev)).foldl
        (fun (s : State) o => s.fabGiveUp w.key o) s) s)

end Sys2Proof.Machine
end

