-- ==== Sys2Proof/Machine/Unicode.lean ====
section
/-! DEFINITION. The General_Category classes of R381 for the characters that Unicode 14.0 assigns, as runs of code
points (PRESUMED: the specification names the Unicode 15.1 database and does not print it). Each number is sixteen times
the first code point of a run, plus its class; class 8 marks code points that 14.0 leaves unassigned, of which 15.1 assigns those of
`unicodeLater`. -/

namespace Sys2Proof.Machine

def unicodeRuns0 : List Nat :=
  [7, 147, 164, 183, 212, 231, 515, 533, 582, 597, 694, 709, 769, 933, 966, 1013, 1040, 1461, 1510, 1525, 1542, 1552,
   1973, 1990, 2005, 2022, 2039, 2563, 2581, 2598, 2677, 2694, 2720, 2741, 2758, 2775, 2790, 2850, 2886, 2896, 2917,
   2950, 2962, 2976, 2997, 3010, 3061, 3072, 3446, 3456, 3958, 3968, 11302, 11360, 11558, 11776, 11862, 11968, 11990,
   12000, 12022, 12288, 14166, 14176, 14216, 14240, 14309, 14320, 14344, 14406, 14432, 14453, 14464, 14520, 14528,
   14552, 14560, 14888, 14896, 16230, 16240, 18470, 18480, 21256, 21264, 21880, 21904, 21925, 22016, 22677, 22712,
   22742, 22792, 22800, 23525, 23536, 23557, 23568, 23605, 23616]

def unicodeRuns1 : List Nat :=
  [23653, 23664, 23688, 23808, 24248, 24304, 24373, 24408, 24583, 24678, 24725, 24758, 24773, 24806, 24832, 25013,
   25031, 25045, 25088, 26113, 26277, 26336, 27973, 27984, 28119, 28134, 28144, 28310, 28320, 28417, 28576, 28630,
   28656, 28677, 28904, 28919, 28928, 29880, 29904, 31528, 31745, 31904, 32614, 32629, 32672, 32696, 32720, 32742,
   32768, 33512, 33541, 33784, 33792, 34248, 34277, 34296, 34304, 34488, 34560, 34950, 34960, 35064, 35079, 35112,
   35200, 36391, 36400, 38469, 38497, 38661, 38672, 38984, 38992, 39128, 39152, 39192, 39216, 39576, 39584, 39704,
   39712, 39736, 39776, 39848, 39872, 40024, 40048, 40088, 40112, 40184, 40304, 40328, 40384, 40424, 40432, 40520,
   40545, 40704, 40742, 40770]

def unicodeRuns2 : List Nat :=
  [40870, 40896, 40917, 40928, 40952, 40976, 41032, 41040, 41144, 41200, 41240, 41264, 41624, 41632, 41752, 41760,
   41800, 41808, 41848, 41856, 41896, 41920, 41944, 41952, 42040, 42096, 42136, 42160, 42216, 42256, 42280, 42384,
   42456, 42464, 42488, 42593, 42752, 42853, 42872, 43024, 43080, 43088, 43240, 43248, 43304, 43312, 43672, 43680,
   43800, 43808, 43848, 43856, 43944, 43968, 44136, 44144, 44200, 44208, 44264, 44288, 44312, 44544, 44616, 44641,
   44805, 44822, 44840, 44944, 45064, 45072, 45128, 45136, 45272, 45296, 45336, 45360, 45720, 45728, 45848, 45856,
   45896, 45904, 45992, 46016, 46168, 46192, 46232, 46256, 46312, 46416, 46472, 46528, 46568, 46576, 46664, 46689,
   46854, 46864, 46882, 46984]

def unicodeRuns3 : List Nat :=
  [47136, 47176, 47184, 47288, 47328, 47384, 47392, 47464, 47504, 47544, 47552, 47576, 47584, 47624, 47664, 47704,
   47744, 47800, 47840, 48040, 48096, 48184, 48224, 48280, 48288, 48360, 48384, 48408, 48496, 48520, 48737, 48898,
   48950, 49080, 49152, 49368, 49376, 49432, 49440, 49816, 49824, 50088, 50112, 50264, 50272, 50328, 50336, 50408,
   50512, 50552, 50560, 50616, 50640, 50664, 50688, 50760, 50785, 50952, 51061, 51074, 51190, 51200, 51269, 51280,
   51416, 51424, 51480, 51488, 51864, 51872, 52040, 52048, 52136, 52160, 52312, 52320, 52376, 52384, 52456, 52560,
   52600, 52688, 52728, 52736, 52808, 52833, 53000, 53008, 53048, 53248, 53464, 53472, 53528, 53536, 54360, 54368,
   54424, 54432, 54518, 54536]

def unicodeRuns4 : List Nat :=
  [54592, 54658, 54768, 54856, 54881, 55042, 55190, 55200, 55304, 55312, 55368, 55376, 55672, 55712, 56104, 56112,
   56264, 56272, 56296, 56320, 56440, 56480, 56504, 56560, 56664, 56672, 56696, 56704, 56840, 56929, 57096, 57120,
   57157, 57176, 57360, 58296, 58358, 58368, 58613, 58625, 58789, 58824, 59408, 59448, 59456, 59480, 59488, 59576,
   59584, 59976, 59984, 60008, 60016, 60392, 60416, 60504, 60512, 60536, 60544, 60648, 60673, 60840, 60864, 60936,
   61440, 61462, 61509, 61750, 61765, 61782, 61824, 61862, 61953, 62114, 62278, 62288, 62310, 62320, 62342, 62352,
   62373, 62432, 62600, 62608, 63192, 63248, 63573, 63584, 63880, 63888, 64472, 64486, 64608, 64630, 64728, 64742,
   64773, 64854, 64917, 64952]

def unicodeRuns5 : List Nat :=
  [65536, 66561, 66725, 66816, 67841, 68000, 68070, 68096, 68712, 68720, 68744, 68816, 68840, 68864, 69557, 69568,
   74904, 74912, 74984, 75008, 75128, 75136, 75160, 75168, 75240, 75264, 75928, 75936, 76008, 76032, 76568, 76576,
   76648, 76672, 76792, 76800, 76824, 76832, 76904, 76928, 77176, 77184, 78104, 78112, 78184, 78208, 79288, 79312,
   79365, 79506, 79832, 79872, 80134, 80296, 80384, 81768, 81792, 81896, 81925, 81936, 91862, 91877, 91888, 92163,
   92176, 92597, 92632, 92672, 93877, 93922, 93968, 94104, 94208, 94568, 94704, 95061, 95096, 95232, 95560, 95744,
   95960, 95968, 96024, 96032, 96072, 96256, 97605, 97648, 97669, 97718, 97728, 97768, 97793, 97960, 98050, 98216,
   98309, 98480, 98535, 98544]

def unicodeRuns6 : List Nat :=
  [98561, 98728, 98816, 100248, 100352, 101048, 101120, 102248, 102400, 102904, 102912, 103112, 103168, 103368,
   103430, 103448, 103493, 103521, 103680, 104168, 104192, 104280, 104448, 105160, 105216, 105640, 105729, 105890,
   105912, 105958, 106496, 106952, 106981, 107008, 108024, 108032, 108504, 108528, 108545, 108712, 108801, 108968,
   109061, 109168, 109189, 109288, 109312, 109816, 110592, 111832, 111873, 112037, 112150, 112304, 112454, 112597,
   112632, 112640, 113409, 113568, 114504, 114629, 114688, 115592, 115637, 115713, 115880, 115920, 115969, 116128,
   116709, 116736, 116888, 116992, 117688, 117712, 117765, 117896, 118016, 118069, 118080, 118712, 118784, 127336,
   127360, 127464, 127488, 128104, 128128, 128232, 128256, 128392, 128400, 128424, 128432, 128456, 128464, 128488,
   128496, 129000]

def unicodeRuns7 : List Nat :=
  [129024, 129880, 129888, 130006, 130016, 130038, 130080, 130136, 130144, 130262, 130304, 130376, 130400, 130504,
   130518, 130560, 130774, 130824, 130848, 130904, 130912, 131030, 131064, 131075, 131255, 131333, 131719, 131827,
   131845, 132166, 132181, 132390, 132405, 132595, 132615, 132696, 132711, 132866, 132880, 132904, 132930, 133030,
   133077, 133104, 133122, 133286, 133333, 133368, 133376, 133592, 133638, 134168, 134400, 134936, 135174, 135200,
   135222, 135280, 135302, 135328, 135494, 135504, 135526, 135568, 135654, 135744, 135766, 135776, 135798, 135808,
   135830, 135840, 135910, 135920, 136102, 136128, 136198, 136272, 136358, 136416, 136438, 136450, 137264, 137298,
   137382, 137416, 137478, 143493, 143558, 144021, 144054, 148088, 148486, 148664, 148994, 149958, 151202, 151558,
   161413, 161634]

def unicodeRuns8 : List Nat :=
  [162118, 162901, 162934, 163429, 163590, 170037, 170390, 171397, 171462, 171973, 172006, 177992, 178022, 178536,
   178550, 180224, 183894, 183984, 184136, 184213, 184274, 184293, 184320, 184936, 184944, 184968, 185040, 185064,
   185088, 185992, 186096, 186117, 186136, 186352, 186744, 186880, 187000, 187008, 187128, 187136, 187256, 187264,
   187384, 187392, 187512, 187520, 187640, 187648, 187768, 187776, 187896, 187904, 188421, 189168, 189189, 189702,
   189733, 189928, 190470, 190888, 190902, 192328, 192518, 195944, 196358, 196552, 196611, 196629, 196678, 196688,
   196722, 196741, 196902, 196933, 197126, 197138, 197280, 197381, 197392, 197478, 197506, 197552, 197589, 197606,
   197640, 197648, 199032, 199056, 199094, 199120, 199173, 199184, 200629, 200640, 200712, 200784, 201480, 201488,
   203000, 203014]

def unicodeRuns9 : List Nat :=
  [203042, 203110, 203264, 203782, 204360, 204544, 204806, 205304, 205314, 205478, 205954, 206086, 206098, 206342,
   206850, 207014, 207634, 207878, 212992, 318470, 319488, 674008, 674054, 674936, 675072, 675813, 675840, 680149,
   680192, 680449, 680608, 680648, 680960, 681781, 681792, 681957, 681968, 683618, 683776, 683813, 683912, 684038,
   684400, 684550, 684576, 686230, 686256, 687288, 687360, 687400, 687408, 687432, 687440, 687528, 687904, 688774,
   688832, 688856, 688898, 688998, 689064, 689152, 689989, 690056, 690176, 691304, 691429, 691457, 691624, 691712,
   692101, 692144, 692165, 692176, 692225, 692384, 692965, 692992, 693576, 693749, 693760, 694232, 694272, 695317,
   695528, 695536, 695553, 695720, 695781, 695808, 696065, 696224, 696312, 696320, 697208, 697344, 697576, 697601,
   697768, 697797]

def unicodeRuns10 : List Nat :=
  [697856, 698230, 698272, 699448, 699824, 699877, 699904, 700165, 700192, 700280, 700432, 700536, 700560, 700664,
   700688, 700792, 700928, 701048, 701056, 701176, 701184, 701878, 701888, 702118, 702152, 702208, 704181, 704192,
   704232, 704257, 704424, 704512, 883272, 883456, 883832, 883888, 884680, 884743, 1019904, 1025768, 1025792,
   1027496, 1028096, 1028216, 1028400, 1028488, 1028560, 1028758, 1028768, 1028984, 1028992, 1029080, 1029088,
   1029112, 1029120, 1029160, 1029168, 1029208, 1029216, 1030950, 1031224, 1031472, 1037285, 1037318, 1037568,
   1038600, 1038624, 1039496, 1039606, 1039624, 1040128, 1040326, 1040384, 1040645, 1040808, 1040896, 1041157,
   1041720, 1041733, 1041958, 1041973, 1041990, 1042040, 1042053, 1042070, 1042085, 1042120, 1042176, 1042264,
   1042272, 1044440, 1044471, 1044488, 1044501, 1044550, 1044565, 1044662, 1044677, 1044737, 1044901]

def unicodeRuns11 : List Nat :=
  [1044934, 1044981, 1045008, 1045429, 1045478, 1045493, 1045510, 1045520, 1045941, 1045958, 1045973, 1045990,
   1046005, 1046112, 1047544, 1047584, 1047688, 1047712, 1047816, 1047840, 1047944, 1047968, 1048024, 1048070,
   1048184, 1048198, 1048312, 1048471, 1048518, 1048552, 1048576, 1048776, 1048784, 1049208, 1049216, 1049528,
   1049536, 1049576, 1049584, 1049832, 1049856, 1050088, 1050624, 1052600, 1052677, 1052728, 1052786, 1053512,
   1053558, 1053698, 1054614, 1054882, 1054918, 1054968, 1054982, 1055192, 1055238, 1055256, 1056006, 1056720,
   1056744, 1058816, 1059288, 1059328, 1060120, 1060352, 1060370, 1060808, 1060864, 1061378, 1061448, 1061584,
   1061906, 1061920, 1062050, 1062072, 1062144, 1062840, 1062912, 1063400, 1063413, 1063424, 1064008, 1064064,
   1064197, 1064210, 1064296, 1064960, 1067496, 1067521, 1067688, 1067776, 1068360, 1068416, 1069000, 1069056,
   1069704, 1069824, 1070664, 1070837]

def unicodeRuns12 : List Nat :=
  [1070848, 1071032, 1071040, 1071288, 1071296, 1071416, 1071424, 1071464, 1071472, 1071656, 1071664, 1071912,
   1071920, 1072040, 1072048, 1072088, 1073152, 1078136, 1078272, 1078632, 1078784, 1078920, 1079296, 1079400,
   1079408, 1080088, 1080096, 1080248, 1081344, 1081448, 1081472, 1081496, 1081504, 1082216, 1082224, 1082264,
   1082304, 1082328, 1082352, 1082728, 1082741, 1082754, 1082880, 1083254, 1083282, 1083392, 1083896, 1084018,
   1084168, 1084928, 1085240, 1085248, 1085288, 1085362, 1085440, 1085794, 1085896, 1085941, 1085952, 1086376,
   1086453, 1086472, 1087488, 1088392, 1088450, 1088480, 1088514, 1088776, 1088802, 1089536, 1089608, 1089616,
   1089656, 1089728, 1089864, 1089872, 1089928, 1089936, 1090408, 1090432, 1090488, 1090544, 1090562, 1090712,
   1090821, 1090968, 1091072, 1091538, 1091573, 1091584, 1092050, 1092104, 1092608, 1092742, 1092752, 1093240,
   1093298, 1093381, 1093496, 1093632]

def unicodeRuns13 : List Nat :=
  [1094504, 1094549, 1094656, 1095016, 1095042, 1095168, 1095480, 1095554, 1095680, 1095976, 1096085, 1096152,
   1096338, 1096456, 1097728, 1098904, 1099776, 1100600, 1100800, 1101624, 1101730, 1101824, 1102472, 1102593,
   1102760, 1107458, 1107960, 1107968, 1108648, 1108656, 1108693, 1108712, 1108736, 1108776, 1110016, 1110482,
   1110640, 1110664, 1110784, 1111314, 1111381, 1111464, 1111808, 1112165, 1112232, 1112832, 1113170, 1113288,
   1113600, 1113976, 1114112, 1115253, 1115368, 1115426, 1115745, 1115904, 1116008, 1116144, 1117109, 1117143,
   1117157, 1117216, 1117240, 1117399, 1117416, 1117440, 1117848, 1117953, 1118120, 1118208, 1119064, 1119073,
   1119237, 1119296, 1119368, 1119488, 1120069, 1120096, 1120120, 1120256, 1121365, 1121424, 1121493, 1121504,
   1121537, 1121696, 1121717, 1121728, 1121749, 1121800, 1121810, 1122136, 1122304, 1122600, 1122608, 1123205,
   1123296, 1123320, 1124352, 1124472]

def unicodeRuns14 : List Nat :=
  [1124480, 1124504, 1124512, 1124584, 1124592, 1124840, 1124848, 1125013, 1125032, 1125120, 1126072, 1126145,
   1126312, 1126400, 1126472, 1126480, 1126616, 1126640, 1126680, 1126704, 1127064, 1127072, 1127192, 1127200,
   1127240, 1127248, 1127336, 1127344, 1127512, 1127536, 1127576, 1127600, 1127656, 1127680, 1127704, 1127792,
   1127816, 1127888, 1128008, 1128032, 1128152, 1128192, 1128280, 1130496, 1131701, 1131777, 1131941, 1131976,
   1131989, 1132000, 1132072, 1132544, 1133669, 1133680, 1133704, 1133825, 1133992, 1136640, 1137512, 1137536,
   1137685, 1138048, 1138152, 1138688, 1139733, 1139776, 1139800, 1139969, 1140136, 1140229, 1140440, 1140736,
   1141653, 1141672, 1141761, 1141928, 1142784, 1143224, 1143248, 1143496, 1143553, 1143714, 1143749, 1143798,
   1143808, 1143928, 1146880, 1147829, 1147848, 1149440, 1150465, 1150626, 1150776, 1150960, 1151096, 1151120,
   1151144, 1151168, 1151304, 1151312]

def unicodeRuns15 : List Nat :=
  [1151352, 1151360, 1151848, 1151856, 1151896, 1151920, 1152069, 1152120, 1152257, 1152424, 1153536, 1153672,
   1153696, 1154440, 1154464, 1154597, 1154608, 1154648, 1155072, 1156085, 1156208, 1156232, 1156352, 1157541,
   1157584, 1157605, 1157688, 1157888, 1159064, 1163264, 1163416, 1163424, 1164152, 1164160, 1164309, 1164392,
   1164545, 1164706, 1165016, 1165061, 1165088, 1165576, 1165600, 1165960, 1165968, 1166200, 1167360, 1167480,
   1167488, 1167528, 1167536, 1168248, 1168288, 1168312, 1168320, 1168360, 1168368, 1168520, 1168641, 1168808,
   1168896, 1169000, 1169008, 1169048, 1169056, 1169656, 1169664, 1169704, 1169712, 1169816, 1169921, 1170088,
   1175040, 1175413, 1175448, 1178368, 1178392, 1178626, 1178966, 1179432, 1179637, 1179648, 1194408, 1196034,
   1197816, 1197829, 1197912, 1198080, 1201224, 1243392, 1244949, 1244984, 1245184, 1262328, 1262343, 1262488,
   1327104, 1336440, 1474560, 1483672]

def unicodeRuns16 : List Nat :=
  [1483776, 1484280, 1484289, 1484456, 1484517, 1484544, 1485816, 1485825, 1485992, 1486080, 1486568, 1486592,
   1486677, 1486696, 1486848, 1487733, 1487814, 1487872, 1487941, 1487958, 1487976, 1488129, 1488296, 1488306,
   1488424, 1488432, 1488776, 1488848, 1489160, 1500160, 1501186, 1501557, 1501624, 1503232, 1504440, 1504496,
   1505416, 1505520, 1505800, 1506816, 1506853, 1506864, 1506904, 1507072, 1507112, 1507328, 1605512, 1605632,
   1625448, 1626112, 1626264, 1769216, 1769288, 1769296, 1769416, 1769424, 1769464, 1769472, 1774136, 1774848,
   1774904, 1775168, 1775240, 1775360, 1781704, 1818624, 1820344, 1820416, 1820632, 1820672, 1820824, 1820928,
   1821096, 1821126, 1821136, 1821173, 1821191, 1821256, 1896448, 1897192, 1897216, 1897592, 1897734, 1899592,
   1900550, 1904488, 1904646, 1905272, 1905302, 1906256, 1906342, 1906384, 1906487, 1906608, 1906742, 1906768,
   1906886, 1907360, 1907430, 1908408]

def unicodeRuns17 : List Nat :=
  [1908742, 1909792, 1909846, 1909864, 1912322, 1912648, 1912838, 1914232, 1914370, 1914776, 1916928, 1918296,
   1918304, 1919448, 1919456, 1919496, 1919520, 1919544, 1919568, 1919608, 1919632, 1919704, 1919712, 1919912,
   1919920, 1919944, 1919952, 1920072, 1920080, 1921128, 1921136, 1921208, 1921232, 1921368, 1921376, 1921496,
   1921504, 1921960, 1921968, 1922040, 1922048, 1922136, 1922144, 1922168, 1922208, 1922328, 1922336, 1927784,
   1927808, 1928214, 1928224, 1928630, 1928640, 1929142, 1929152, 1929558, 1929568, 1930070, 1930080, 1930486,
   1930496, 1930998, 1931008, 1931414, 1931424, 1931926, 1931936, 1932342, 1932352, 1932488, 1932513, 1933318,
   1941504, 1942390, 1942448, 1943254, 1943376, 1943398, 1943616, 1943638, 1943669, 1943752, 1943984, 1944072,
   1944080, 1944328, 1961984, 1962488, 1966080, 1966200, 1966208, 1966488, 1966512, 1966632, 1966640, 1966680,
   1966688, 1966776, 1970176, 1970904]

def unicodeRuns18 : List Nat :=
  [1970944, 1971176, 1971201, 1971368, 1971424, 1971446, 1971464, 1976576, 1977080, 1977344, 1978113, 1978280,
   1978358, 1978376, 1998336, 1998456, 1998464, 1998536, 1998544, 1998584, 1998592, 1998840, 1998848, 2002008,
   2002034, 2002176, 2002296, 2002944, 2004168, 2004225, 2004392, 2004453, 2004488, 2017042, 2017990, 2018002,
   2018054, 2018066, 2018136, 2019346, 2020070, 2020082, 2020328, 2023424, 2023496, 2023504, 2023944, 2023952,
   2023992, 2024000, 2024024, 2024048, 2024072, 2024080, 2024248, 2024256, 2024328, 2024336, 2024360, 2024368,
   2024392, 2024480, 2024504, 2024560, 2024584, 2024592, 2024616, 2024624, 2024648, 2024656, 2024712, 2024720,
   2024760, 2024768, 2024792, 2024816, 2024840, 2024848, 2024872, 2024880, 2024904, 2024912, 2024936, 2024944,
   2024968, 2024976, 2025016, 2025024, 2025048, 2025072, 2025144, 2025152, 2025272, 2025280, 2025352, 2025360,
   2025432, 2025440, 2025464, 2025472]

def unicodeRuns19 : List Nat :=
  [2025640, 2025648, 2025928, 2026000, 2026056, 2026064, 2026152, 2026160, 2026440, 2027270, 2027304, 2031622,
   2032328, 2032390, 2033992, 2034182, 2034424, 2034454, 2034696, 2034710, 2034952, 2034966, 2035560, 2035714,
   2035926, 2038504, 2039398, 2039864, 2040070, 2040776, 2040838, 2040984, 2041094, 2041128, 2041350, 2041448,
   2043910, 2059656, 2059734, 2059992, 2060038, 2060248, 2060294, 2062152, 2062342, 2063768, 2063878, 2064072,
   2064134, 2064152, 2064390, 2064584, 2064646, 2065544, 2065670, 2065832, 2065926, 2066568, 2066694, 2067176,
   2067206, 2067240, 2068486, 2073928, 2074118, 2074344, 2074374, 2074456, 2074502, 2074584, 2074630, 2074744,
   2074886, 2075352, 2075398, 2075576, 2075654, 2075752, 2075910, 2076072, 2076166, 2076296, 2076422, 2076536,
   2076678, 2079032, 2079046, 2079928, 2080513, 2080680, 2097152, 2780680, 2781184, 2847640, 2847744, 2851304,
   2851328, 2943528, 2943744, 3063320]

def unicodeRuns20 : List Nat :=
  [3112960, 3121640, 3145728, 3224760, 14680087, 14680104, 14680583, 14682120, 14684160, 14688008, 15728647, 16777192,
   16777223, 17825768]

/-- All runs. -/
def unicodeRuns : List Nat :=
  unicodeRuns0 ++ unicodeRuns1 ++ unicodeRuns2 ++ unicodeRuns3 ++ unicodeRuns4 ++ unicodeRuns5 ++ unicodeRuns6
  ++ unicodeRuns7 ++ unicodeRuns8 ++ unicodeRuns9 ++ unicodeRuns10 ++ unicodeRuns11 ++ unicodeRuns12 ++
  unicodeRuns13 ++ unicodeRuns14 ++ unicodeRuns15 ++ unicodeRuns16 ++ unicodeRuns17 ++ unicodeRuns18 ++
  unicodeRuns19 ++ unicodeRuns20

/-- Code points that Unicode 15.0 and 15.1 assign: first, last, class. -/
def unicodeLater : List (Nat × Nat × Nat) :=
  [(0xCF3, 0xCF3, 0), (0xECE, 0xECE, 0), (0x2FFC, 0x2FFF, 6), (0x31EF, 0x31EF, 6), (0x10EFD, 0x10EFF, 0),
   (0x1123F, 0x11241, 0), (0x11B00, 0x11B09, 5), (0x11F00, 0x11F10, 0), (0x11F12, 0x11F3A, 0), (0x11F3E, 0x11F42, 0),
   (0x11F43, 0x11F4F, 5), (0x11F50, 0x11F59, 1), (0x1342F, 0x1342F, 0), (0x13440, 0x13455, 0), (0x1B132, 0x1B132, 0),
   (0x1B155, 0x1B155, 0), (0x1D2C0, 0x1D2D3, 2), (0x1DF25, 0x1DF2A, 0), (0x1E030, 0x1E06D, 0), (0x1E08F, 0x1E08F, 0),
   (0x1E4D0, 0x1E4EF, 0), (0x1E4F0, 0x1E4F9, 1), (0x1F6DC, 0x1F6DC, 6), (0x1F774, 0x1F776, 6), (0x1F77B, 0x1F77F, 6),
   (0x1F7D9, 0x1F7D9, 6), (0x1FA75, 0x1FA77, 6), (0x1FA87, 0x1FA88, 6), (0x1FAAD, 0x1FAAF, 6), (0x1FABB, 0x1FABD, 6),
   (0x1FABF, 0x1FABF, 6), (0x1FACE, 0x1FACF, 6), (0x1FADA, 0x1FADB, 6), (0x1FAE8, 0x1FAE8, 6), (0x1FAF7, 0x1FAF8, 6),
   (0x2B739, 0x2B739, 0), (0x2EBF0, 0x2EE5D, 0), (0x31350, 0x323AF, 0)]

end Sys2Proof.Machine
end

