-- ==== Sys2Proof/Machine/Tokens.lean ====
section
/-! DEFINITION. Text and tokens: UTF-8, classes, pieces and merges (R381), and vocabulary images (R382). -/

namespace Sys2Proof.Machine

/-! ### UTF-8 (R381 stage 1) -/

/-- The ranges of the bytes that follow a lead byte in a well-formed sequence. -/
def utf8Follow (b : Nat) : Option (List (Nat × Nat)) :=
  let c := (0x80, 0xBF)
  if b < 0x80 then some []
  else if b < 0xC2 then none
  else if b < 0xE0 then some [c]
  else if b == 0xE0 then some [(0xA0, 0xBF), c]
  else if b == 0xED then some [(0x80, 0x9F), c]
  else if b < 0xF0 then some [c, c]
  else if b == 0xF0 then some [(0x90, 0xBF), c, c]
  else if b < 0xF4 then some [c, c, c]
  else if b == 0xF4 then some [(0x80, 0x8F), c, c]
  else none

/-- How many of the following bytes keep to the ranges, from the first. -/
def matchCount (rs : List (Nat × Nat)) (bs : List Byte) : Nat :=
  match rs, bs with
  | r :: rs, b :: bs => if r.1 ≤ b.toNat && b.toNat ≤ r.2 then matchCount rs bs + 1 else 0
  | _, _ => 0

/-- What stands at the start of some bytes. -/
inductive Utf8 where
  /-- a well-formed sequence of this length -/
  | good (n : Nat)
  /-- an ill-formed prefix of this length -/
  | bad (n : Nat)
  /-- the bytes end inside a sequence that is well formed so far -/
  | partial_
  deriving DecidableEq, Repr

def utf8Next (bs : List Byte) : Utf8 :=
  match bs with
  | [] => .partial_
  | b :: r =>
    match utf8Follow b.toNat with
    | none => .bad 1
    | some rs =>
      let n := matchCount rs r
      if n == rs.length then .good (n + 1) else if n == r.length then .partial_ else .bad (n + 1)

/-- U+FFFD. -/
def replacement : List Byte := [0xEF, 0xBF, 0xBD]

/-- The scalar value of a well-formed sequence. -/
def codePoint (bs : List Byte) : Nat :=
  match bs with
  | [] => 0
  | b :: r =>
    let top := match r.length with | 0 => b.toNat | 1 => b.toNat % 32 | 2 => b.toNat % 16 | _ => b.toNat % 8
    r.foldl (fun n x => n * 64 + x.toNat % 64) top

/-- Characters of a text, with the number of substitutions, and the bytes of an incomplete sequence at its end. -/
def utf8Scan (fuel : Nat) (bs : List Byte) : List (List Byte) × Nat × List Byte :=
  match fuel with
  | 0 => ([], 0, [])
  | k + 1 =>
    match bs with
    | [] => ([], 0, [])
    | _ =>
      match utf8Next bs with
      | .good n => let (cs, m, h) := utf8Scan k (bs.drop n); (bs.take n :: cs, m, h)
      | .bad n => let (cs, m, h) := utf8Scan k (bs.drop n); (replacement :: cs, m + 1, h)
      | .partial_ => ([], 0, bs)

/-- STAGE 1 on a whole text: an incomplete sequence at the end is replaced too. -/
def validate (bs : List Byte) : List (List Byte) × Nat :=
  let (cs, n, h) := utf8Scan bs.length bs
  if h.isEmpty then (cs, n) else (cs ++ [replacement], n + 1)

/-! ### Classes and pieces (R381 stages 2 and 3) -/

/-- STAGE 2: the class of a scalar value. -/
def classOf (c : Nat) : Nat :=
  let k := unicodeRuns.foldl (fun k r => if r / 16 ≤ c then r % 16 else k) 7
  if k == 8 then ((unicodeLater.find? (fun r => r.1 ≤ c && c ≤ r.2.1)).map (fun r => r.2.2)).getD 7 else k

/-- Pieces under construction: complete ones, the last one, the class of its last character, and the length of the run
of digits that ends the text so far. -/
structure Pieces where
  done : List (List Byte)
  cur : List Byte
  cls : Nat
  run : Nat
  deriving DecidableEq, Repr

/-- STAGE 3, one character. -/
def Pieces.add (matrix : List Byte) (maxdigits : Nat) (p : Pieces) (ch : List Byte) : Pieces :=
  let c := classOf (codePoint ch)
  let full := maxdigits != 0 && p.run == maxdigits
  let run := if c == 1 then (if full then 1 else p.run + 1) else 0
  if p.cur.isEmpty then { p with cur := ch, cls := c, run := run }
  else if tbit (matrix.getD p.cls 0) c || full || 256 < p.cur.length + ch.length then
    { done := p.done ++ [p.cur], cur := ch, cls := c, run := run }
  else { p with cur := p.cur ++ ch, cls := c, run := run }

/-- The pieces of a text. -/
def piecesOf (matrix : List Byte) (maxdigits : Nat) (chars : List (List Byte)) : List (List Byte) :=
  let p : Pieces := chars.foldl (fun (p : Pieces) ch => p.add matrix maxdigits ch) { done := [], cur := [], cls := 0, run := 0 }
  if p.cur.isEmpty then p.done else p.done ++ [p.cur]

/-! ### Merging (R381 stage 4) -/

/-- Rank of a pair in a merge table: left, right, result. -/
def pairRank (merges : List (Nat × Nat × Nat)) (a b : Nat) : Option Nat :=
  merges.findIdx? (fun m => m.1 == a && m.2.1 == b)

/-- The lowest rank of an adjacent pair. -/
def bestRank (merges : List (Nat × Nat × Nat)) (seq : List Nat) : Option Nat :=
  minNat ((seq.zip (seq.drop 1)).filterMap (fun p => pairRank merges p.1 p.2))

/-- Replace each non-overlapping occurrence of a pair, from the left. -/
def replacePair (a b r : Nat) (fuel : Nat) (seq : List Nat) : List Nat :=
  match fuel with
  | 0 => seq
  | k + 1 =>
    match seq with
    | x :: y :: rest => if x == a && y == b then r :: replacePair a b r k rest else x :: replacePair a b r k (y :: rest)
    | _ => seq

/-- Merge a piece. -/
def mergeSeq (merges : List (Nat × Nat × Nat)) (fuel : Nat) (seq : List Nat) : List Nat :=
  match fuel with
  | 0 => seq
  | k + 1 =>
    match bestRank merges seq with
    | none => seq
    | some r =>
      match merges[r]? with
      | some (a, b, c) => mergeSeq merges k (replacePair a b c seq.length seq)
      | none => seq

/-! ### Vocabulary images (R382) -/

/-- A field of an image. -/
def imgNat (img : List Byte) (off n : Nat) : Nat := leNat ((img.drop off).take n)

/-- An image, read. -/
structure VocTab where
  ntokens : Nat
  bytetab : List Nat
  merges : List (Nat × Nat × Nat)
  matrix : List Byte
  maxdigits : Nat
  deriving DecidableEq, Repr

/-- Entries of 32-bit words. -/
def words32 (n : Nat) (bs : List Byte) : List Nat :=
  match n with
  | 0 => []
  | k + 1 => leNat (bs.take 4) :: words32 k (bs.drop 4)

/-- Triples of a list. -/
def triples (n : Nat) (ws : List Nat) : List (Nat × Nat × Nat) :=
  match n with
  | 0 => []
  | k + 1 => (ws.getD 0 0, ws.getD 1 0, ws.getD 2 0) :: triples k (ws.drop 3)

def vocTab (img : List Byte) : VocTab :=
  let f (off : Nat) : Nat := imgNat img off 4
  let n := f 0xC
  { ntokens := f 8, bytetab := words32 256 (img.drop (f 0x10)), merges := triples n (words32 (3 * n) (img.drop (f 0x14))),
    matrix := (img.drop (f 0x20)).take 8, maxdigits := imgNat img (f 0x20 + 8) 1 }

/-- The string of a token. -/
def vocString (img : List Byte) (id : Nat) : List Byte :=
  let e := imgNat img 0x18 4 + 8 * id
  (img.drop (imgNat img 0x1C 4 + imgNat img e 4)).take (imgNat img (e + 4) 4)

/-- THE IMAGE IS ACCEPTED (R382). -/
def vocOk (img : List Byte) : Bool :=
  let f (off : Nat) : Nat := imgNat img off 4
  let n := f 8
  let m := f 0xC
  let len := f 0x24
  let inside (off size : Nat) : Bool := off + size ≤ len
  let aligned (off size : Nat) : Bool := off % 8 == 0 && inside off size
  let t := vocTab img
  f 0 == 0x5643424A && imgNat img 4 2 == 1 && imgNat img 6 2 == 0 && 256 ≤ n && n ≤ 262144 && m + 256 ≤ n &&
  len ≤ 2 ^ 26 && len ≤ img.length && imgNat img 0x28 24 == 0 &&
  aligned (f 0x10) 1024 && aligned (f 0x14) (12 * m) && aligned (f 0x18) (8 * n) && aligned (f 0x20) 16 && inside (f 0x1C) 0 &&
  imgNat img (f 0x20 + 9) 7 == 0 &&
  (List.range n).all (fun id =>
    let e := f 0x18 + 8 * id
    1 ≤ imgNat img (e + 4) 4 && imgNat img (e + 4) 4 ≤ 256 && inside (f 0x1C) (imgNat img e 4 + imgNat img (e + 4) 4)) &&
  t.bytetab.all (· < n) && (List.range 256).all (fun b => vocString img (t.bytetab.getD b 0) == [BitVec.ofNat 8 b]) &&
  t.merges.all (fun x => x.1 < n && x.2.1 < n && x.2.2 < n && 256 ≤ x.2.2 &&
    vocString img x.2.2 == vocString img x.1 ++ vocString img x.2.1) &&
  (t.merges.map (fun x => (x.1, x.2.1))).eraseDups.length == m && (t.merges.map (fun x => x.2.2)).eraseDups.length == m

/-- THE TOKENISER: ids of a text, and the number of substitutions. -/
def tokenise (img text : List Byte) : List Nat × Nat :=
  let t := vocTab img
  let (chars, subs) := validate text
  let ids := (piecesOf t.matrix t.maxdigits chars).flatMap (fun p =>
    mergeSeq t.merges p.length (p.map (fun b => t.bytetab.getD b.toNat 0)))
  (ids, subs)

end Sys2Proof.Machine
end

