-- ==== Sys2Proof/Machine/Barker.lean ====
section
/-! DEFINITION. Barker: vocabularies, requests, streams and replies (R375 to R385). -/

namespace Sys2Proof.Machine

/-! ### Counters and vocabularies (R377) -/

/-- Add to a counter. -/
def State.bkCount (s : State) (k n : Nat) : State :=
  { s with regs := { s.regs with bkcnt := s.regs.bkcnt.set k (s.regs.bkcnt.getD k 0 + BitVec.ofNat 64 n) } }

/-- The device runs: booted, with its main rails up. -/
def State.running_ (s : State) : Bool := (s.power == .p0 || s.power == .p1) && tbit s.regs.bootst 4
/-- The host reaches BAR 0, beyond the recovery window (R391). -/
def State.hostReaches (s : State) : Bool := s.hostLink && (s.power == .p0 || s.power == .p1) && !tbit s.regs.bootst 5

/-- Slot state of a vocabulary. -/
def State.vocState (s : State) (v : Nat) : Nat := nbits (s.regs.bkvoc.getD v 0).toNat 0 2
def State.setVoc (s : State) (v addr st : Nat) : State :=
  { s with regs := { s.regs with bkvoc := s.regs.bkvoc.set v (BitVec.ofNat 64 (addr + st)) } }
/-- Address of a slot's image. -/
def State.vocAddr (s : State) (v : Nat) : Nat := nbits (s.regs.bkvoc.getD v 0).toNat 6 46 * 64

/-- Some open stream is bound to the slot. -/
def State.vocBound (s : State) (v : Nat) : Bool := s.streams.any (fun p => p.2.isOpen && p.2.slot == v)

/-- A host write of a slot's address: the load begins. -/
def State.vocLoad (s : State) (v : Nat) (addr : Word64) : State :=
  if v < 4 && s.hostReaches then s.setVoc v (nbits addr.toNat 6 46 * 64) 1 else s

/-- BKVOC LOAD. -/
def execBkvocLoad (slot : Nat) (addr : Word64) (s : State) : Host.Outcome State Fault Refusal := .next (s.vocLoad slot addr)

/-- VOCABULARY LOAD COMPLETE: the image has been read and validated. -/
def execVocabularyLoadComplete (slot : Nat) (s : State) : Host.Outcome State Fault Refusal :=
  .next (
    if s.vocState slot != 1 || 4 ≤ slot then s
    else
      let a := s.vocAddr slot
      let len := s.readNat (a + 0x24) 4
      let img := s.readN a len
      let clean := !(List.range ((len + 31) / 32)).any (fun k => s.isPoisoned (a + 32 * k))
      if physValid a && physValid (a + max len 0x40 - 1) && len ≤ 2 ^ 26 && clean && vocOk img then
        let before := if s.vocBound slot then (mget s.vocs slot).map Voc.image else none
        { s with vocs := mput s.vocs slot { image := img, old := before } }.setVoc slot a 2
      else s.setVoc slot a 3)

/-- BKCNT READ: the host reads a counter, which clears it; the count of open streams is only read. -/
def execBkcntRead (k : Nat) (s : State) : Host.Outcome State Fault Refusal :=
  .next (
    if !s.hostReaches || 5 < k then s
    else
      let v := if k == 5 then (s.streams.filter (fun p => p.2.isOpen)).length else (s.regs.bkcnt.getD k 0).toNat
      { s with outbox := s.outbox ++ [Out.hostData (leBytes 8 v)],
               regs := { s.regs with bkcnt := if k == 5 then s.regs.bkcnt else s.regs.bkcnt.set k 0 } })

/-! ### Streams (R379) -/

def Stream.closed (use : Nat) : Stream :=
  { isOpen := false, use := use, conn := 0, port := 0, tag := 0, slot := 0, feed := 0, reqs := [], held := [], ready := [],
    readyAt := 0, seq := 0, inBuf := 0 }
def State.streamAt (s : State) (k : Nat) : Stream := mgetD s.streams k (Stream.closed 0)
def State.putStream (s : State) (k : Nat) (x : Stream) : State := { s with streams := mputD (Stream.closed 0) s.streams k x }
/-- The open stream of a connection and a tag. -/
def State.findStream (s : State) (conn tag : Nat) : Option Nat :=
  (s.streams.find? (fun p => p.2.isOpen && p.2.conn == conn && p.2.tag == tag)).map Prod.fst
/-- The open stream that a handle names. -/
def State.byHandle (s : State) (h : Nat) : Option Nat :=
  let x := s.streamAt (h % 4096)
  if h < 2 ^ 28 && x.isOpen && x.use == h / 4096 then some (h % 4096) else none
/-- Waves that wait at `dtk` look again. -/
def State.wakeReply (s : State) : State :=
  s.mapWaves (fun w => if w.why == .reply then { w with why := .none } else w)
/-- CLOSE a stream. -/
def State.closeStream (s : State) (k : Nat) : State :=
  (s.putStream k (Stream.closed (((s.streamAt k).use + 1) % 2 ^ 16))).wakeReply

/-! ### Replies (R385) -/

def replyBytes (tag seq status flags : Nat) (text : List Byte) : List Byte :=
  leBytes 4 tag ++ leBytes 4 seq ++ leBytes 2 status ++ leBytes 2 flags ++ leBytes 4 text.length ++ text

/-- SEND what a stream has ready, as one reply. -/
def State.sendReply (s : State) (k flags : Nat) : State :=
  let x := s.streamAt k
  { s with outbox := s.outbox ++ [Out.reply x.conn x.port (replyBytes x.tag x.seq 0 flags x.ready)] }.putStream k
    { x with ready := [], seq := (x.seq + 1) % 2 ^ 32, inBuf := x.inBuf + x.ready.length }

/-- Append bytes to a stream: complete sequences become ready; a reply goes once 4096 bytes are. -/
def State.appendStream (s : State) (k : Nat) (bs : List Byte) : State :=
  let x := s.streamAt k
  let all := x.held ++ bs
  let (cs, subs, held) := utf8Scan (all.length + 1) all
  let more := cs.flatMap id
  let x := { x with held := held, ready := x.ready ++ more, readyAt := if x.ready.isEmpty then s.gtc else x.readyAt }
  let s := (s.bkCount 1 subs).putStream k x
  if 4096 ≤ x.ready.length then s.sendReply k 0 else s

/-- Bytes that the reply buffer of a stream holds. -/
def Stream.occupied (x : Stream) : Nat := x.held.length + x.ready.length + x.inBuf

/-- The bytes of a token in a stream's vocabulary: after a reload under open streams, under the old image or the new
one (R377). -/
def State.tokenBytes (s : State) (x : Stream) (l id : Nat) : List Byte :=
  let v := mgetD s.vocs x.slot { image := [], old := none }
  let img := match v.old with
    | some o => if tbit (s.free l) 0 then o else v.image
    | none => v.image
  if (vocTab img).ntokens ≤ id then replacement else vocString img id

/-- End the reply to a stream's oldest unended request. -/
def State.endReply (s : State) (k : Nat) : State :=
  let x := s.streamAt k
  match x.reqs with
  | [] => s.bkCount 4 1
  | close :: r =>
    let flush := if x.held.isEmpty then [] else replacement
    let s := (if x.held.isEmpty then s else s.bkCount 1 1).putStream k
      { x with reqs := r, held := [], ready := x.ready ++ flush }
    let s := s.sendReply k (if close then 3 else 2)
    if close then s.closeStream k else s

/-- One lane's token: `none` while the stream's reply buffer has no room for it. The time at which the detokeniser accepts it folds
into `$wct`. -/
def State.tokenLane (s : State) (end_ : Bool) (l h id : Nat) : Option State :=
  match s.byHandle h with
  | none => some (s.bkCount 4 1)
  | some k =>
    let x := s.streamAt k
    let bs := s.tokenBytes x l id
    if 65536 < x.occupied + bs.length then none
    else
      let s := { s with gtc := s.gtc + 1, cur := { s.cur with wct := max s.cur.wct (s.gtc + 1) } }.appendStream k bs
      some (if end_ then s.endReply k else s)

/-- Lanes hand over their tokens in order, up to one whose stream has no room: the state, the lanes that have, and whether all
have. -/
def State.handOver (s : State) (end_ : Bool) (h id : Nat → Nat) (ls : List Nat) : State × List Nat × Bool :=
  match ls with
  | [] => (s, [], true)
  | l :: r =>
    match s.tokenLane end_ l (h l) (id l) with
    | none => (s, [], false)
    | some t => let (t, done, all) := t.handOver end_ h id r; (t, l :: done, all)

/-- The body of `dtk` and `dtk.end` (R384): lanes that have handed over their token do not do so again. -/
def bodyDtk (f : FmtDtk) (end_ : Bool) (_ act : List Nat) (s : State) : Res :=
  let w := s.cur
  let before := s.progress
  let left := (w.byTid act).filter (fun l => before.all (fun p => p.1 != l))
  let now := left.take (s.nowOf left).length
  let (t, done, all) := s.handOver end_ (fun l => w.readX false false l f.vb.toNat) (fun l => w.readX false false l f.va.toNat) now
  let t := t.freeNext.progressed (before ++ done.map (fun l => (l, 0)))
  if !all then .wait .reply t else if now.length < left.length then .wait .none t else .done t []

def execDtk (f : FmtDtk) (s : State) : Host.Outcome State Fault Refusal := issue (.dtk f) s (bodyDtk f false)
def execDtkEnd (f : FmtDtk) (s : State) : Host.Outcome State Fault Refusal := issue (.dtkEnd f) s (bodyDtk f true)

/-- REPLY BUFFER FREED: bytes of sent replies leave a stream's buffer. -/
def execReplyBufferFreed (stream n : Nat) (s : State) : Host.Outcome State Fault Refusal :=
  .next (
    let x := s.streamAt stream
    if x.isOpen then (s.putStream stream { x with inBuf := x.inBuf - n }).wakeReply else s)

/-- REPLY FLUSH TIMER: replies whose oldest ready byte is 10,000 ticks old are sent. -/
def execReplyFlushTimer (s : State) : Host.Outcome State Fault Refusal :=
  .next (
    let waiting := s.streams.filter (fun p => p.2.isOpen && !p.2.ready.isEmpty)
    match minNat (waiting.map (fun p => p.2.readyAt + 10000)) with
    | none => s
    | some t =>
      let s := { s with gtc := max s.gtc t }
      (waiting.filter (fun p => p.2.readyAt + 10000 ≤ s.gtc)).foldl (fun (s : State) p => s.sendReply p.1 0) s)

/-! ### Requests (R378, R380, R383) -/

/-- A request's header (R378). -/
structure ReqHdr where
  ok : Bool
  slot : Nat
  feed : Nat
  close : Bool
  tag : Nat
  deriving DecidableEq, Repr

def reqHdr (rud : Bool) (msg : List Byte) : ReqHdr :=
  let f (off n : Nat) : Nat := imgNat msg off n
  { ok := !rud && 16 ≤ msg.length && f 0 2 == 0x4B42 && f 2 1 == 1 && f 3 1 < 4 && f 6 2 < 2 &&
      f 0xC 4 ≤ 1048576 && f 0xC 4 + 16 == msg.length,
    slot := f 3 1, feed := f 4 2, close := f 6 2 == 1, tag := f 8 4 }

/-- REFUSE a request: a reply of zero bytes, the count, and the event for the firmware function (R380, R374). -/
def State.refuseReq (s : State) (conn port tag status : Nat) : State :=
  let s := s.bkCount 2 1
  let seq := match s.findStream conn tag with | some k => (s.streamAt k).seq | none => 0
  let s := match s.findStream conn tag with
    | some k => s.putStream k { s.streamAt k with seq := (seq + 1) % 2 ^ 32 }
    | none => s
  { s with outbox := s.outbox ++ [Out.reply conn port (replyBytes tag seq status 2 []), Out.refusal (tbit s.regs.fmode 4) status] }

/-- The stream that a request belongs to, or the entry that it opens. -/
def State.streamFor (s : State) (conn tag : Nat) : Option Nat :=
  match s.findStream conn tag with
  | some k => some k
  | none => (List.range 4096).find? (fun k => !(s.streamAt k).isOpen)

/-- Records that a number of ids takes. -/
def recordCount (t n : Nat) : Nat := max 1 ((n + t - 1) / t)

/-- The records of a request (R383). -/
def workRecords (rsize stamp handle slot : Nat) (ids : List Nat) : List (List Byte) :=
  let t := (rsize - 16) / 4
  let n := recordCount t ids.length
  (List.range n).map (fun k =>
    let part := (ids.drop (k * t)).take t
    leBytes 8 stamp ++ leBytes 4 handle ++ leBytes 2 part.length ++
    leBytes 1 ((if k == 0 then 1 else 0) + (if k + 1 == n then 2 else 0)) ++ leBytes 1 slot ++
    part.flatMap (leBytes 4) ++ List.replicate (4 * (t - part.length)) 0)

/-- Why a request with a well-formed header is refused, before it is tokenised. -/
def State.reqStatus (s : State) (conn : Nat) (h : ReqHdr) (len : Nat) : Option Nat :=
  let d := s.fdesc h.feed
  let other := match s.findStream conn h.tag with
    | some k => (s.streamAt k).slot != h.slot || (s.streamAt k).feed != h.feed
    | none => false
  if other then some 1
  else if s.vocState h.slot != 2 then some 2
  else if !d.valid || d.rsize < 32 then some 3
  else if (s.streamFor conn h.tag).isNone || 2 ^ 26 < s.bkHeld + len then some 4
  else none

/-- The records of a request join their feed, or wait for room behind the feed's earlier requests. -/
def State.barkerAppend (s : State) (feed held : Nat) (recs : List (List Byte)) : State :=
  let ahead := s.pushQ.any (fun p => p.1 == feed && (match p.2 with | .barker .. => true | _ => false))
  if !ahead && recs.length ≤ (s.fdesc feed).room then
    (if s.timesOk feed recs then s.feedWrite feed recs else s)
  else { s with pushQ := s.pushQ ++ [(feed, .barker recs held)], bkHeld := s.bkHeld + held }

/-- BARKER REQUEST: a text request arrives at a port. -/
def execBarkerRequest (conn port : Nat) (rud : Bool) (msg : List Byte) (s : State) : Host.Outcome State Fault Refusal :=
  .next (
    let up := if port == 0 then s.portLink.1 else s.portLink.2
    if !s.running_ || !up || 2 ≤ port then s
    else
      let s := (s.bkCount 0 1).bkCount 3 (if rud then 1 else 0)
      let h := reqHdr rud msg
      if !tbit s.regs.bkctl 0 then s.refuseReq conn port h.tag 5
      else if !h.ok then s.refuseReq conn port h.tag 1
      else
        match s.reqStatus conn h msg.length with
        | some st => s.refuseReq conn port h.tag st
        | none =>
          let (ids, subs) := tokenise (mgetD s.vocs h.slot { image := [], old := none }).image (msg.drop 16)
          let s := s.bkCount 1 subs
          let d := s.fdesc h.feed
          if d.entries < recordCount ((d.rsize - 16) / 4) ids.length then s.refuseReq conn port h.tag 3
          else
            match s.streamFor conn h.tag with
            | none => s
            | some k =>
              let x := s.streamAt k
              let x := if x.isOpen then x
                else { Stream.closed x.use with isOpen := true, conn := conn, port := port, tag := h.tag, slot := h.slot, feed := h.feed }
              let s := s.putStream k { x with reqs := x.reqs ++ [h.close] }
              s.barkerAppend h.feed msg.length (workRecords d.rsize s.gtc (k + x.use * 4096) h.slot ids))

/-- The records fit the feed as it is now (R383, log 79): it is valid, and its records are of their size. -/
def FDesc.takes (d : FDesc) (recs : List (List Byte)) : Bool := d.valid && recs.all (fun r => r.length == d.rsize)

/-- BARKER FEED APPEND: a held request is appended once its feed has room and its turn has come. Where the feed is not valid any more,
or has records of another size, nothing is appended. -/
def execBarkerFeedAppend (feed : Nat) (s : State) : Host.Outcome State Fault Refusal :=
  .next (
    match s.firstAppender feed with
    | some (.barker recs held) =>
      let d := s.fdesc feed
      if !d.takes recs || recs.length ≤ d.room then
        let s := { s.leavePushQ feed (.barker recs held) with bkHeld := s.bkHeld - held }
        if d.takes recs && s.timesOk feed recs then s.feedWrite feed recs else s
      else s
    | _ => s)

/-! ### Transport (R375, R376, R379) -/

/-- RUD RMA WRITE: its bytes are to land in the bulk window, or it is refused (R376). -/
def execRudRmaWrite (conn addr : Nat) (bytes : List Byte) (s : State) : Host.Outcome State Fault Refusal :=
  .next (
    let base := s.regs.bkwin.toNat
    if !s.running_ || bytes.isEmpty then s
    else if base ≤ addr && addr + bytes.length ≤ base + s.regs.bkwlen.toNat && physValid addr && physValid (addr + bytes.length - 1) then
      { s with rma := s.rma ++ [(conn, (List.range bytes.length).map (fun k => (addr + k, bytes.getD k 0)))] }
    else { s with outbox := s.outbox ++ [.rmaDone conn false] })

/-- Bytes of a pending RMA write land, each as a write of its own; once none is left the write is complete. -/
def State.rmaLand (s : State) (k j n : Nat) : State :=
  match s.rma[k]? with
  | none => s
  | some (conn, bs) =>
    let left := bs.take j ++ (bs.drop j).drop n
    let s := ((bs.drop j).take n).foldl (fun (s : State) b => s.makeVisible [b]) s
    if left.isEmpty then { s with rma := s.rma.eraseIdx k, outbox := s.outbox ++ [.rmaDone conn true] }
    else { s with rma := s.rma.set k (conn, left) }

/-- A packet of a service that is not supported is dropped and counted (R375). -/
def State.barkerDrop (s : State) : State :=
  if s.running_ && (s.portLink.1 || s.portLink.2) then s.bkCount 3 1 else s

/-- CONNECTION END: its streams close. -/
def execConnectionEnd (conn : Nat) (s : State) : Host.Outcome State Fault Refusal :=
  .next ((s.streams.filter (fun p => p.2.isOpen && p.2.conn == conn)).foldl (fun (s : State) p => s.closeStream p.1) s)

/-- PORT LINK CHANGE. -/
def execPortLinkChange (port : Nat) (up : Bool) (s : State) : Host.Outcome State Fault Refusal :=
  .next (
    let l := if port == 0 then (up, s.portLink.2) else if port == 1 then (s.portLink.1, up) else s.portLink
    let v := nbits s.regs.bkctl.toNat 0 1 + (if l.1 then 2 else 0) + (if l.2 then 4 else 0)
    { s with portLink := l, regs := { s.regs with bkctl := BitVec.ofNat 64 v } })

end Sys2Proof.Machine
end

