-- ==== Sys2Proof/Machine/Exit.lean ====
section
/-! DEFINITION. `exit` (R96): the last thing that a thread does. -/

namespace Sys2Proof.Machine

/-- Lanes exit: their bits leave every armed mask, which may complete (R21). -/
def State.exitLanes (s : State) (act : List Nat) : State :=
  let w := s.cur.modLanes act (fun x => { x with st := .exited })
  let w := { w with rejoin := w.rejoin.map (fun j => if j.armed then { j with e := j.e &&& ~~~maskOf act } else j) }
  (List.range 8).foldl (fun s k => s.rejoinCheck k) { s with cur := w }

/-- What follows from the exit elsewhere: barriers (R244), convergence registers (R160), communicators (R264), `sortk`
(R40). -/
def State.exitEffects (s : State) (tids : List Nat) : State :=
  let key := s.cur.key
  let s := (s.barExit key).cvExit key tids
  let s := if s.cur.liveLanes.isEmpty then s.commExit key else s
  s.sortCheck key.grid key.team

/-- The rejoin deadlock (R22) that an exit brings about, and the return of a handler (R277). -/
def State.exitLast (s : State) : State :=
  if s.cur.deadlocked then
    let v := (minNat (s.cur.liveLanes.map (fun l => (s.cur.lane l).vpc))).getD 0
    s.takeTrap (s.cur.deadlockTrap.info v (s.wordOf s.cur v))
  else s.sretCheck

/-- The exit itself, once the engine's queue has room for every operation that it issues (R160, R168). -/
def State.exitNow (s : State) (act : List Nat) : Res :=
  let tids := act.map (fun l => (s.cur.lane l).tid)
  if !s.engineRoom (s.cvExitIssues s.cur.key tids) then .wait .engine s
  else .done ((s.exitLanes act).exitEffects tids).exitLast act

/-- What the last lanes of a wave wait for before they exit: the count check of `ffence`, an open task, and pending
producers. -/
def State.exitWhole (s : State) (act : List Nat) : Res :=
  ordered s false 5 act (fun s =>
    let go (s : State) : Res :=
      let s := { s with cur := s.returnAll s.cur }
      if s.producing then .wait .regs s else s.exitNow act
    if s.cur.task.isSome then s.tryCommit act go else go s)

/-- The body of `exit`. -/
def bodyExit (_ : FmtJ) (iss act : List Nat) (s : State) : Res :=
  match s.stickyCheck act with
  | some r => r
  | none =>
    let s := s.cvTick
    match s.cvTrapAny iss with
    | some r => r
    | none => if s.cur.liveLanes.all act.contains then s.exitWhole act else s.exitNow act

def execExit (f : FmtJ) (s : State) : Host.Outcome State Fault Refusal := issue (.exit f) s (bodyExit f)

end Sys2Proof.Machine
end

