-- ==== Sys2Proof/Machine/Power.lean ====
section
/-! DEFINITION. Host registers and the resident set (R344, R345, R347, R369, R374), headroom and thermal trips (R372,
R388), power states, boot and side-band management (R386 to R395). -/

namespace Sys2Proof.Machine

/-! ### Device registers (R344, R345) -/

/-- DOORBELL. -/
def execDoorbell (v : Word64) (s : State) : Host.Outcome State Fault Refusal :=
  .next (if s.hostReaches then s.notice (v.toNat % 1024) else s)

/-- WRITE INDEX NOTICE. -/
def execWriteIndexNotice (q : Nat) (s : State) : Host.Outcome State Fault Refusal :=
  .next (if s.running_ then s.notice q else s)

/-- FMODE after a write: reserved bits read zero, and a quantum of 0 leaves the field (R374). -/
def fmodeWrite (old v : Nat) : Nat :=
  nbits v 0 5 + (if nbits v 8 16 == 0 then nbits old 8 16 else nbits v 8 16) * 256

/-- REGISTER WRITE: the defined fields are stored; a read-only register, and an offset that names none, stays (R345). -/
def execRegisterWrite (off : Nat) (v : Word64) (s : State) : Host.Outcome State Fault Refusal :=
  .next (
    let n := v.toNat
    let r := s.regs
    if !s.hostReaches then s
    else if off == 0 then { s with regs := { r with fmode := BitVec.ofNat 64 (fmodeWrite r.fmode.toNat n) } }
    else if off == 8 then { s with regs := { r with qtbase := BitVec.ofNat 64 (nbits n 6 46 * 64) } }
    else if off == 0x10 then { s with regs := { r with ftbase := BitVec.ofNat 64 (nbits n 5 47 * 32) } }
    else if off == 0x18 then s.notice (n % 1024)
    else if off == 0x1000 then
      { s with regs := { r with bkctl := BitVec.ofNat 64 (nbits n 0 1 + nbits r.bkctl.toNat 1 2 * 2) } }
    else if 0x1008 ≤ off && off < 0x1028 && off % 8 == 0 then s.vocLoad ((off - 0x1008) / 8) v
    else if off == 0x1028 then { s with regs := { r with bkwin := BitVec.ofNat 64 (nbits n 12 40 * 4096) } }
    else if off == 0x1030 then { s with regs := { r with bkwlen := BitVec.ofNat 64 (n % 2 ^ 32) } }
    else s)

/-! ### The resident set (R368, R369) -/

/-- A queue has work: a team to resume or place, or a packet that may start. -/
def State.hasWork (s : State) (q : Nat) : Bool :=
  s.grids.any (fun g => g.queue == q && g.ended.isNone && (g.nextTeam < g.total || s.teams.any (fun t => t.grid == g.id && t.saved))) ||
  s.anyEligible q

/-- The queue may be resident on a die. -/
def State.mayReside (s : State) (die q : Nat) : Bool := let d := s.qdesc q; d.valid && nbits d.dies die 1 == 1

/-- Quanta within which a queue with work is to be resident (R369), of which some have passed. -/
def State.quantaLeft (s : State) (die : Nat) (qs : List Nat) (q : Nat) : Nat :=
  let above := (qs.filter (fun r => (s.qdesc q).prio ≤ (s.qdesc r).prio)).length
  (above + 63) / 64 - mgetD s.waited (1024 * die + q) 0

/-- The set that the Ringmaster's rotation makes resident: queues with work that have waited, the most urgent first and
then by priority; then those that were resident, by priority; then the others. -/
def State.rotation (s : State) (die : Nat) : List Nat :=
  let qs := below 1024 (s.mayReside die)
  let now := mgetD s.resident die []
  let urgent (a b : Nat) : Bool :=
    let x := s.quantaLeft die qs a
    let y := s.quantaLeft die qs b
    x < y || (x == y && (s.qdesc b).prio ≤ (s.qdesc a).prio)
  let waiting := sortBy urgent (qs.filter (fun q => !now.contains q && s.hasWork q))
  let stay := sortBy (fun a b => (s.qdesc b).prio ≤ (s.qdesc a).prio) (qs.filter (fun q => now.contains q && s.hasWork q))
  (waiting ++ stay ++ qs.filter (fun q => !s.hasWork q)).take 64

/-- Teams of a queue that wait for a core. -/
def State.demand (s : State) (q : Nat) : Nat :=
  (s.grids.filter (fun g => g.queue == q && g.ended.isNone)).foldl (fun n g =>
    n + (g.total - g.nextTeam) + (s.teams.filter (fun t => t.grid == g.id && t.saved)).length) 0

/-- What would be if the launches of a queue that may start had started. -/
def State.launched (s : State) (q : Nat) : State :=
  (List.range 32).foldl (fun (s : State) k =>
    let i := ((s.qdesc q).done + k) % 2 ^ 32
    if s.firstEligible q i && s.pktKind q i == 1 then s.startLaunch q i else s) s

/-- What would be if the waiting teams of a queue took a core as far as they go. -/
def State.filled (fuel : Nat) (s : State) (q core : Nat) : State :=
  match fuel with
  | 0 => s
  | n + 1 =>
    match (s.teams.filter (fun t => (s.gridAt t.grid).queue == q)).findSome? (fun t => (s.savedRoom t core).map (fun r => (t, r))) with
    | some (t, r) => (s.putTeam t core r).filled n q core
    | none =>
      match s.nextGridOf q with
      | some g => (match s.newRoom g core with | some r => (s.placeTeam g core r).filled n q core | none => s)
      | none => s

/-- Teams on a core, or on the pair that it begins where the queue has teams in pair mode, of queues outside the set and of no
higher priority. -/
def State.victims (s : State) (set : List Nat) (q core : Nat) : List Team :=
  let pair := core % 2 == 0 && s.grids.any (fun g => g.queue == q && g.p.pair)
  ((s.teamsOn core ++ (if pair then s.teamsOn (core + 1) else [])).eraseDups).filter (fun t =>
    let o := (s.gridAt t.grid).queue
    !set.contains o && (s.qdesc o).prio ≤ (s.qdesc q).prio)

/-- Save teams, as far as they are ready to be taken. -/
def State.saveTeams (s : State) (ts : List Team) : State × Bool :=
  ts.foldl (fun r t => let (s, ok) := r.1.preempt t; (s, r.2 && ok)) (s, true)

/-- One core for a queue: `u` is what would be if the queue had taken what it is given so far. Where the queue still has teams that
wait, and would have room for one once the core's teams of queues that have left are saved, it needs the core. -/
def State.claimCore (set : List Nat) (q : Nat) (r : State × State) (core : Nat) : State × State :=
  let (s, u) := r
  let vs := u.victims set q core
  if u.demand q == 0 || vs.isEmpty then (s, u)
  else
    let (v, ok) := u.saveTeams vs
    let v := v.filled 64 q core
    if ok then (if v.demand q < u.demand q then ((s.saveTeams vs).1, v) else (s, u)) else ((s.saveTeams vs).1, u)

/-- CORES FOR THE INCOMING QUEUES: first what is free, then every core of the die that the queue needs, from queues that have left
(R369, log 103). -/
def State.claimCores (s : State) (die : Nat) (set incoming : List Nat) : State :=
  let cores := dieCores die
  (incoming.foldl (fun (r : State × State) q =>
    let u := cores.foldl (fun u core => u.filled 64 q core) (r.2.launched q)
    cores.foldl (State.claimCore set q) (r.1, u)) (s, s)).1

/-- Nothing is left to do: the device may go idle. -/
def State.idle (s : State) : Bool := s.grids.isEmpty && s.started.all (fun p => p.2.2) && !(s.noticed.any (fun p => s.hasWork p.1))

/-- QUANTUM SWAP: the resident set of a die changes. In host-assisted mode the host writes it (`set`, R374). With no
work anywhere the device goes to P1 (R386). -/
def execQuantumSwap (die : Nat) (set : List Nat) (s : State) : Host.Outcome State Fault Refusal :=
  .next (
    if s.power != .p0 || Config.dies ≤ die then s
    else
      let new := if tbit s.regs.fmode 2 then ((set.filter (s.mayReside die)).eraseDups).take 64 else s.rotation die
      let runs (q : Nat) : Bool := s.teams.any (fun t => !t.saved && (s.gridAt t.grid).queue == q)
      let incoming := new.filter (fun q => !((mgetD s.resident die []).contains q && runs q))
      let out := below 1024 (fun q => s.mayReside die q && !new.contains q)
      let waited := (s.waited.filter (fun p => p.1 / 1024 != die)) ++ []
      let waited := (out.filter s.hasWork).foldl (fun m q => mput m (1024 * die + q) (mgetD s.waited (1024 * die + q) 0 + 1)) waited
      let s := { s with resident := mputD [] s.resident die new, waited := waited }
      let s := s.claimCores die new incoming
      if s.idle then { s with power := .p1 } else s)

/-! ### The event log (R394) -/

/-- Log a trip or refusal: 0 core at 105 °C, 1 DRAM at 95 °C, 2 trip at 115 °C, 3 power-down refused, 4 update refused. -/
def State.logEvent (s : State) (sensor kind : Nat) : State :=
  let l := s.eventLog ++ [(s.gtc, sensor, kind)]
  { s with eventLog := l.drop (l.length - 64) }

/-! ### Leaving P0 and P1 (R386, R388, R392) -/

/-- Sensors of the rails (R394): units 540 to 547 are VCORE0 to VCORE3, VIO, VDDQ, VAUX and VSTBY, each with its voltage and its
current. -/
def isRail (unit : Nat) : Bool := 540 ≤ unit && unit < 548
def isStandbyRail (sensor : Nat) : Bool := sensor / 4 == 547

/-- End every grid as a grid-control end does, and complete what can be completed now. -/
def State.endAll (s : State) : State :=
  let s := s.grids.foldl (fun (s : State) g => s.endGrid g.id 6 3) s
  if !s.hostLink then s
  else s.grids.foldl (fun (s : State) g => match execGridCompletion g.id { s with power := .p0 } with
    | .next t => t
    | _ => s) s

/-- Registers of BAR 0 at reset (R344, R374, R377, R391). -/
def DevRegs.reset : DevRegs := State.reset.regs

/-- STANDBY: the main rails are down. Memory and everything on the dies is lost; host memory, flash and the controller
remain, and launch packets that could not complete (R388). -/
def State.standby (s : State) : State :=
  let left := (s.grids.filter (fun g => g.ended.isSome)).map (fun g => { g with orphan := true })
  let kept (q i : Nat) : Bool := left.any (fun g => g.queue == q && g.pkt == i)
  { State.reset with
    power := .standby, mem := s.mem.filter (fun c => 2 ^ 51 ≤ c.1 && c.1 < 2 ^ 56), flash := s.flash, running := s.running,
    writer := s.writer, newPart := s.newPart, newImage := s.newImage, selfTestFailed := s.selfTestFailed, config := s.config,
    eventLog := s.eventLog, sensors := s.sensors.filter (fun p => isStandbyRail p.1), outbox := s.outbox,
    effecters := s.effecters,
    gtc := s.gtc, freeCtr := s.freeCtr + 1, nextGrid := s.nextGrid, sched := s.sched, commUse := s.commUse,
    grids := left, started := s.started.filter (fun p => kept p.1 p.2.1), window := s.window.filter (fun p => kept p.1 p.2.1) }

/-- Take the main rails away. -/
def State.mainsOff (s : State) : State := s.endAll.standby

/-- MAIN POWER DOWN: refused while a grid runs, unless it is forced (R392). -/
def execMainPowerDown (forced : Bool) (s : State) : Host.Outcome State Fault Refusal :=
  .next (
    if s.power != .p0 && s.power != .p1 then s
    else if s.grids.any (fun g => g.ended.isNone) && !forced then { s.logEvent 0 3 with outbox := s.outbox ++ [Out.sideband [1]] }
    else { s.mainsOff with effecters := (false, true, forced) })

/-- MAIN POWER UP: the main rails come up from standby; the boot ROM has still to run. -/
def execMainPowerUp (s : State) : Host.Outcome State Fault Refusal :=
  .next (if s.power == .standby then { s with power := .p1, regs := DevRegs.reset, effecters := (true, false, false) } else s)

/-- VSTBY RAIL CHANGE: without it the device is off. -/
def execVstbyRailChange (up : Bool) (s : State) : Host.Outcome State Fault Refusal :=
  .next (
    if up then (if s.power == .off then { s with power := .standby } else s)
    else
      let s := if s.power == .p0 || s.power == .p1 then s.mainsOff else s
      { s with power := .off, writer := none, newImage := [], eventLog := [], effecters := (false, false, false) })

/-- HOST LINK CHANGE (R388, R392). -/
def execHostLinkChange (up : Bool) (s : State) : Host.Outcome State Fault Refusal :=
  .next (if up && s.power != .p0 && s.power != .p1 then s else { s with hostLink := up })

/-- P1 WAKE: the first packet returns the device to P0 (R386). -/
def execP1Wake (s : State) : Host.Outcome State Fault Refusal :=
  .next (
    let due := s.noticed.any (fun p => let d := s.qdesc p.1; d.valid && d.ahead p.2 != 0)
    if s.power == .p1 && tbit s.regs.bootst 4 && due then { s with power := .p0 } else s)

/-! ### Sensors (R372, R388) -/

/-- First sensor of a unit: cores have four each; unit 512 and up are the other sensors, of which 20 to 27 are the DRAM
stacks. -/
def sensorOf (unit : Nat) : Nat := 4 * unit
def isDram (unit : Nat) : Bool := 532 ≤ unit && unit < 540

/-- `h` of R372 without the reduction, from quarters of a degree. -/
def headroomOf (t : Int) : Nat := min 7 (max 0 ((400 - t) / 12)).toNat

/-- The first of some readings that reaches a trip. -/
def tripped (temps : List Int) (t : Int) : Nat := (temps.findIdx? (fun x => t ≤ x)).getD 0

/-- Readings of a unit's sensors, from its first. -/
def State.putSensors (s : State) (unit : Nat) (vs : List Int) : State :=
  { s with sensors := (vs.zip (List.range vs.length)).foldl (fun m (p : Int × Nat) => mput m (sensorOf unit + p.2) p.1) s.sensors }

/-- HEADROOM UPDATE: the sensors of a unit are read, with the averaged package power. Throttling changes timing only; a
sensor at 115 °C ends every grid and takes the device to standby. -/
def execHeadroomUpdate (unit : Nat) (temps : List Int) (watts : Nat) (s : State) : Host.Outcome State Fault Refusal :=
  .next (
    if s.power != .p0 && s.power != .p1 then (if unit == 547 && s.power == .standby then s.putSensors unit temps else s)
    else if isRail unit then { s with watts := watts }.putSensors unit temps
    else
      match temps with
      | [] => { s with watts := watts }
      | t0 :: r =>
        let hot := r.foldl max t0
        let base := sensorOf unit
        let old := (List.range temps.length).map (fun k => mgetD s.sensors (base + k) 0)
        let c := s.coreAt unit
        let halved := if 420 ≤ hot then true else if hot < 400 then false else c.halved
        let s1 := { s with watts := watts }.putSensors unit temps
        let s2 := if unit < Config.cores then s1.setCore unit { c with headroom := headroomOf hot, halved := halved, hot := hot } else s1
        let s3 := if unit < Config.cores && halved && !c.halved then s2.logEvent (base + tripped temps 420) 0
          else if isDram unit && 380 ≤ hot && old.all (· < 380) then s2.logEvent (base + tripped temps 380) 1 else s2
        if 460 ≤ hot then (s3.logEvent (base + tripped temps 460) 2).mainsOff else s3)

/-! ### Boot (R390, R391) -/

/-- BOOTST. -/
def bootWord (step ready recovery copy error fwver : Nat) : Word64 :=
  BitVec.ofNat 64 (step + ready * 2 ^ 4 + recovery * 2 ^ 5 + copy * 2 ^ 6 + error * 2 ^ 8 + fwver % 2 ^ 32 * 2 ^ 16)

/-- A copy is valid when both its images are (R390 step 1). -/
def Flash.valid (f : Flash) : Bool := f.fw.valid && f.cfg.valid
/-- The valid copy with the higher firmware version: `true` for B. -/
def bootCopy (f : Flash × Flash) : Option Bool :=
  if f.1.valid && f.2.valid then some (decide (f.1.fw.version < f.2.fw.version))
  else if f.1.valid then some false else if f.2.valid then some true else none

/-- The core passes self-test. -/
def State.passes (s : State) (core : Nat) : Bool := !s.selfTestFailed.contains core

/-- The Ringmaster core of a die: the one that the configuration names, or the lowest that passes self-test (R390 step 3). -/
def State.ringmasterOf (s : State) (named : List Nat) (die : Nat) : Nat :=
  let core := named.getD die 0
  if core / Config.coresPerDie == die && s.passes core then core else ((dieCores die).find? s.passes).getD (Config.coresPerDie * die)

/-- The configuration of a copy's image, with the devices that step 5 finds (R389, R390). -/
def State.bootConfig (s : State) (f : Flash) (present : List Nat) : FlashConfig :=
  let c := Config.configImage f.cfg.bytes
  { devNum := c.devNum % 16, podSize := c.podSize, ports := c.ports, present := insNat (present.foldl insNat []) (c.devNum % 16),
    dieLocal := c.dieLocal, ringmaster := (List.range Config.dies).map (s.ringmasterOf c.ringmaster), replay := c.replay,
    certs := c.certs, v3 := s.config.v3 }

/-- Step at which an error of R391 stops or marks the boot. -/
def errorStep (err : Nat) : Nat := match err with | 2 => 3 | 3 => 4 | _ => 5

/-- BOOT: the boot ROM runs on rails that are up. `err` is the code of a step that fails: 2 self-test and 3 memory
training stop the boot there, 4 leaves the host link down; `present` are the devices that step 5 finds. A die on which no core
passes self-test stops it too. -/
def execBoot (err : Nat) (present : List Nat) (s : State) : Host.Outcome State Fault Refusal :=
  .next (
    let s := if s.power == .standby then { s with power := .p1, regs := DevRegs.reset } else s
    if s.power != .p1 || s.regs.bootst != 0 then s
    else
      match bootCopy s.flash with
      | none => { s with regs := { s.regs with bootst := bootWord 1 0 1 0 1 0 }, hostLink := true }
      | some b =>
        let f := if b then s.flash.2 else s.flash.1
        let copy := if b then 1 else 0
        let s := { s with running := f }
        let err := if (List.range Config.dies).all (fun d => (dieCores d).any s.passes) then err else 2
        if err == 2 || err == 3 then { s with regs := { s.regs with bootst := bootWord (errorStep err) 0 0 copy err f.fw.version } }
        else
          { s with regs := { s.regs with bootst := bootWord 6 1 0 copy (if err == 4 then 4 else 0) f.fw.version }, power := .p0,
                   hostLink := err != 4, config := s.bootConfig f present })

/-! ### Flash and management (R391, R393 to R395) -/

def State.copyOf (s : State) (b : Bool) : Flash := if b then s.flash.2 else s.flash.1
def State.setCopy (s : State) (b : Bool) (f : Flash) : State :=
  { s with flash := if b then (s.flash.1, f) else (f, s.flash.2) }

/-- One of a copy's images changed. -/
def Flash.set (f : Flash) (config : Bool) (i : Image) : Flash := if config then { f with cfg := i } else { f with fw := i }
def Flash.image (f : Flash) (config : Bool) : Image := if config then f.cfg else f.fw

/-- The answer to a step of an update: 0, or 1 for busy. -/
def State.updateAnswer (s : State) (host : Bool) (v : Nat) : State :=
  { s with outbox := s.outbox ++ [if host then Out.hostData (leBytes 1 v) else Out.sideband [v]] }

/-- A step of an update is refused: the writer is told so, and the refusal is logged (R393, R394). -/
def State.updateRefused (s : State) (host : Bool) : State := (s.logEvent 0 4).updateAnswer host 1

/-- A step of an update of a copy by a writer (`true`: the host); a second writer is refused (R393). An image takes effect
at the next boot, where it is verified. -/
def State.updateStep (s : State) (host copy : Bool) (u : UpdateStep) : State :=
  let f := s.copyOf copy
  let mine := s.writer == some host
  match u with
  | .start config =>
    if s.writer.isSome && !mine then s.updateRefused host
    else ({ s with writer := some host, newPart := config, newImage := [] }.setCopy copy
      (f.set config { f.image config with valid := false })).updateAnswer host 0
  | .data bytes => if mine then { s with newImage := s.newImage ++ bytes }.updateAnswer host 0 else s.updateRefused host
  | .finish signed version =>
    if mine then
      ({ s with writer := none, newImage := [] }.setCopy copy
        (f.set s.newPart { version := version, valid := signed, bytes := s.newImage })).updateAnswer host 0
    else s.updateRefused host

/-- The copy that runs, or the one that would boot while none does. -/
def State.runCopy (s : State) : Bool :=
  if s.power == .standby then (bootCopy s.flash).getD false else tbit s.regs.bootst 6

/-- PLDM FIRMWARE UPDATE: it writes the copy that is not running. -/
def execPldmFirmwareUpdate (u : UpdateStep) (s : State) : Host.Outcome State Fault Refusal :=
  .next (if s.power == .off then s else s.updateStep false (!s.runCopy) u)

/-- RECOVERY WINDOW WRITE: in recovery the host writes a copy. -/
def execRecoveryWindowWrite (copy : Nat) (u : UpdateStep) (s : State) : Host.Outcome State Fault Refusal :=
  .next (if s.hostLink && tbit s.regs.bootst 5 && s.power != .off then s.updateStep true (copy % 2 == 1) u else s)

/-- Power state as the controller reports it. -/
def Power.code : Power → Nat
  | .off => 3 | .standby => 2 | .p1 => 1 | .p0 => 0

/-- The number under which package power is read. -/
def powerSensor : Nat := sensorOf 548

/-- PLDM MONITORING: sensors, state and events (R394). With the main rails down a sensor other than VSTBY's, package power among
them, is unavailable. -/
def execPldmMonitoring (req : PldmReq) (s : State) : Host.Outcome State Fault Refusal :=
  .next (
    if s.power == .off then s
    else
      let up := s.power == .p0 || s.power == .p1
      let say (l : List Nat) : State := { s with outbox := s.outbox ++ [Out.sideband l] }
      match req with
      | .sensor id =>
        say (if !up && !isStandbyRail id then [0]
             else if id == powerSensor then [1, s.watts] else [1, ((mgetD s.sensors id 0) + 2 ^ 31).toNat])
      | .state =>
        let bit (b : Bool) : Nat := if b then 1 else 0
        say [s.regs.bootst.toNat, s.power.code, bit s.effecters.1, bit s.effecters.2.1, bit s.effecters.2.2]
      | .events => say (s.eventLog.flatMap (fun e => [e.1, e.2.1, e.2.2])))

/-- SPDM REQUEST: a measurement of the running copy; 0 asks for the identity, which is the certificate chain and the public key
(R395). -/
def execSpdmRequest (idx : Nat) (s : State) : Host.Outcome State Fault Refusal :=
  .next (
    if s.power == .off then s
    else
      let nums (bs : List Byte) : List Nat := bs.map BitVec.toNat
      let body := match idx with
        | 0 => nums (s.config.certs ++ Config.identityKey)
        | 1 => nums Config.romDigest
        | 2 => nums s.running.fw.bytes
        | 3 => nums s.running.cfg.bytes
        | 4 => [nbits s.regs.bootst.toNat 16 32, nbits s.regs.bootst.toNat 6 1]
        | _ => []
      { s with outbox := s.outbox ++ [Out.spdm (idx :: body)] })

end Sys2Proof.Machine
end

