-- ==== Sys2Proof/Machine/Proposal.lean ====
section
/-! DEFINITION. Proposal banks (R250 to R256) and counter streams (R257 to R260). -/

namespace Sys2Proof.Machine

/-! ### Proposal banks -/

/-- Some written bit of the current bank is set, in any lane. -/
def Wave.anyWritten (w : Wave) : Bool := w.lanes.any (fun x => !x.written.isEmpty)

/-- The body of `pbsel`; the window was checked against the allotment at issue (R28, R252). -/
def bodyPbsel (f : FmtPbsel) (_ act : List Nat) (s : State) : Res :=
  if s.cur.anyWritten then .trap s (illegal act)
  else .done { s with cur := { s.cur with pbase := f.n.toNat } } []

def execPbsel (f : FmtPbsel) (s : State) : Host.Outcome State Fault Refusal := issue (.pbsel f) s (bodyPbsel f)

/-- The decision of one lane (R253): whether the proposal is taken, and the flags of `fcmp.lt.f32`. -/
def State.acceptTake (s : State) (f : FmtAccept) (l : Nat) : Bool × BitVec 6 :=
  let w := s.cur
  let r := w.readX false false l f.va.toNat
  let g := if f.expl then w.readX false false l f.vb.toNat else lg2Draw (s.draw l 6).toNat
  fF32.fcmp s.contract 2 g r

/-- Registers of the window that a lane has written in the current bank. -/
def Wave.writtenRegs (w : Wave) (l : Nat) : List Nat := (w.lane l).written.map (fun i => w.pbase + i)

/-- Commit a lane's shadow elements to its live registers, which a run-ahead then knows (R267). -/
def Wave.commitLane (w : Wave) (l : Nat) : Wave :=
  let x := w.lane l
  let w := x.written.foldl (fun w i => w.putV l (w.pbase + i) (x.shadow w.bank i)) w
  w.modLane l (fun y => { y with unk := y.unk.filter (fun r => !(x.written.map (fun i => w.pbase + i)).contains r) })

/-- A count of `$pacnt`, saturating. -/
def sat16 (c : BitVec 16) : BitVec 16 := if c == 0xFFFF then c else c + 1

/-- The body of `accept`. -/
def bodyAccept (f : FmtAccept) (_ act : List Nat) (s : State) : Res :=
  let w := s.cur
  let take (l : Nat) : Bool := (s.acceptTake f l).1
  let taken := act.filter take
  if taken.any (fun l => (w.writtenRegs l).any w.vEmpty.contains) then .wait .regs s
  else
    let w1 := w.orFlags act (fun l => (s.acceptTake f l).2)
    let w1 := if f.expl then w1 else w1.drew act 6
    let w1 := taken.foldl Wave.commitLane w1
    let w1 := act.foldl (fun (w : Wave) l => w.modLane l (fun x =>
      { x with proposed := sat16 x.proposed, accepted := if taken.contains l then sat16 x.accepted else x.accepted })) w1
    .done { s with cur := { w1 with lanes := w1.lanes.map (fun x => { x with written := [] }), bank := !w.bank } } []

def execAccept (f : FmtAccept) (s : State) : Host.Outcome State Fault Refusal := issue (.accept f) s (bodyAccept f)

def execPbclr (f : FmtG) (s : State) : Host.Outcome State Fault Refusal :=
  issue (.pbclr f) s (fun _ act s => .done { s with cur := s.cur.modLanes act (fun x => { x with written := [] }) } [])

/-- The body of `pbcnt`. -/
def bodyPbcnt (f : FmtVd) (_ act : List Nat) (s : State) : Res :=
  let w := s.cur
  let old (l : Nat) : Nat := (w.lane l).accepted.toNat + (w.lane l).proposed.toNat * 2 ^ 16
  .done { s with cur := (w.writeLanes false false f.vd.toNat act old).modLanes act (fun x =>
    { x with accepted := 0, proposed := 0 }) } []

def execPbcnt (f : FmtVd) (s : State) : Host.Outcome State Fault Refusal := issue (.pbcnt f) s (bodyPbcnt f)

/-! ### Counter streams -/

/-- The result of a form of `rng` on a draw (R259). The `.f32` value is exact. -/
def rngValue (form : Nat) (x : Elem) : Nat :=
  match form with
  | 0 => x.toNat
  | 1 => (fF32.roundDy false .rn false { m := ((2 * (x.toNat / 512) + 1 : Nat) : Int), e := -24 }).1
  | _ => lg2Draw x.toNat

/-- The body of `rng`. -/
def bodyRng (f : FmtRng) (_ act : List Nat) (s : State) : Res :=
  let k := f.k.toNat
  .done { s with cur := (s.cur.writeLanes f.p false f.vd.toNat act (fun l => rngValue f.form.toNat (s.draw l k))).drew act k } []

def execRng (f : FmtRng) (s : State) : Host.Outcome State Fault Refusal := issue (.rng f) s (bodyRng f)

def execRngk (f : FmtKey) (s : State) : Host.Outcome State Fault Refusal :=
  issue (.rngk f) s (fun _ _ s => .done { s with cur := { s.cur with keys := setAt s.cur.keys f.k.toNat (s.cur.getS f.sa.toNat) } } [])

end Sys2Proof.Machine
end

