-- ==== Sys2Proof/Machine/Reduce.lean ====
section
/-! DEFINITION. Collective reductions (R335 to R343): the tree over ranks, `creduce`, and the reduction units. -/

namespace Sys2Proof.Machine

/-! ### The tree (R335) -/

/-- A code of R53 is an integer. -/
def fmtInt (c : Nat) : Bool := 7 ≤ c && c ≤ 14

/-- Inner nodes of `.add` are held in XF48. -/
def redWide (contract fmt op : Nat) : Bool := op == 0 && contract == 0x400 && fmt != 0 && !fmtInt fmt

/-- A leaf: the contract's input flush; a NaN leaf of `.add` is the canonical NaN and sets invalid, a signalling NaN
leaf of `.min` and `.max` sets invalid. -/
def redLeaf (contract fmt op code : Nat) : Nat × BitVec 6 :=
  if fmtInt fmt then (code, 0)
  else
    let f := fmtOf fmt
    let v := f.read contract code
    let g := if redWide contract fmt op then fXf48 else f
    if op == 0 then (if v.isNan then (g.cnan, flInvalid) else (g.encodeExact v, 0))
    else (f.recode v, sigFlag [v])

/-- The smaller or larger of two floats: a NaN gives way, two give the canonical NaN. -/
def redMinMax (f : FFmt) (isMax : Bool) (a b : Nat) : Nat :=
  let x := f.decode a
  let y := f.decode b
  if x.isNan && y.isNan then f.cnan
  else if x.isNan then b
  else if y.isNan then a
  else if (if isMax then x.lt y else y.lt x) then b else a

/-- An inner node. -/
def redNode (contract fmt op a b : Nat) : Nat × BitVec 6 :=
  let n := fmtBits fmt
  if fmtInt fmt then
    let val (x : Nat) : Int := if fmtSigned fmt then toSigned n x else (x : Int)
    match op with
    | 0 => ((a + b) % 2 ^ n, 0)
    | 1 => (if val b < val a then b else a, 0)
    | _ => (if val a < val b then b else a, 0)
  else if op != 0 then (redMinMax (fmtOf fmt) (op == 2) a b, 0)
  else if redWide contract fmt op then
    let (r, fl) := xfNode (fXf48.decode a, 0) (fXf48.decode b, 0)
    (fXf48.encodeExact r, fl)
  else
    let f := fmtOf fmt
    let (t, fl) := addVal (f.decode a) (f.decode b)
    let (r, fl') := roundVal f (flushMat contract) .rn t
    (f.encodeExact r, fl ||| fl')

/-- One element: the tree over the values of the ranks, with one final rounding where nodes are held in XF48. -/
def redElem (contract fmt op : Nat) (xs : List Nat) : Nat × BitVec 6 :=
  let ls := xs.map (redLeaf contract fmt op)
  let (v, fl) := tree (redNode contract fmt op) xs.length (ls.map Prod.fst)
  let fl := ls.foldl (fun f x => f ||| x.2) fl
  if redWide contract fmt op then
    let f := fmtOf fmt
    let (r, fl') := roundVal f false .rn (fXf48.decode v)
    (f.encodeExact r, fl ||| fl')
  else (v, fl)

/-- The identity that an exited or lost member contributes (R340, R83). -/
def redIdentity (fmt op : Nat) : Nat :=
  let n := fmtBits fmt
  let f := fmtOf fmt
  if fmtInt fmt then
    match op with
    | 0 => 0
    | 1 => if fmtSigned fmt then 2 ^ (n - 1) - 1 else 2 ^ n - 1
    | _ => if fmtSigned fmt then 2 ^ (n - 1) else 0
  else
    match op with
    | 0 => f.signBit true
    | 1 => f.infCode
    | _ => f.signBit true + f.infCode

/-- Little-endian elements of a number of bytes each. -/
def chunks (fuel size : Nat) (bs : List Byte) : List Nat :=
  match fuel with
  | 0 => []
  | n + 1 => if bs.isEmpty then [] else leNat (bs.take size) :: chunks n size (bs.drop size)

/-! ### creduce at its wave (R336 to R339, R341) -/

/-- Bytes of an element. -/
def redSize (fmt : Nat) : Nat := fmtBits fmt / 8

def needRedR : AccNeed := ⟨true, false, false, false, false, false, true, true⟩
def needRedW : AccNeed := ⟨false, true, false, false, false, false, true, true⟩

/-- Checks 3 to 6 of R337 on the ranges, each over both before the next. -/
def State.redCheck (s : State) (iss : List Nat) (src dst : Nat × Nat) : Option Res :=
  let w := s.cur
  let rs := rangeAcc s w false needRedR 3 0 src.1 src.2
  let rd := rangeAcc s w false needRedW 3 0 dst.1 dst.2
  let all := rs.map (fun a => (src.1, a)) ++ rd.map (fun a => (dst.1, a))
  let order (os : List Nat) : Option Nat := (all.find? (fun (p : Nat × LaneAcc) => os.contains p.2.order)).map Prod.fst
  match order [2] with
  | some a => some (.trap s (protection iss a))
  | none =>
    match missesOf all with
    | v :: vs =>
      let g := s.gridOf w
      some (.wait .tlb (s.postMisses w.core g.ctx.asid g.ctx.root (v :: vs)))
    | [] =>
      match order [4, 6] with
      | some a => some (.trap s (protection iss a))
      | none =>
        match all.filterMap (fun (p : Nat × LaneAcc) => match p.2 with | .fault va m => some (va, m) | _ => none) with
        | (va, m) :: r =>
          some (.fault (((va, m) :: r).foldl (fun ps p => addPage ps (pageOf p.1, p.2)) []) va iss (iss.map (fun l => (l, 6))))
        | [] =>
          match (rangeLocs rs).find? (fun p => s.isPoisoned p.1) with
          | some p =>
            let asks := rs.any (fun a => a.access.pol == 1 && a.access.locs.contains p.1)
            some (.trap (if asks then { s with outbox := s.outbox ++ [.retireFrame (frameOf p.1)] } else s) ⟨9, iss, src.1, 0, 0, []⟩)
          | none => none

/-- The generation of the `creduce` at which a register waits. -/
def Memb.redGen (m : Memb) : Nat := (m.h + 2 ^ 32 - 1) % 2 ^ 32

/-- The stall trap of a `creduce` (R341). -/
def State.redStall (s : State) (k : Nat) (c : Comm) (iss : List Nat) : Res :=
  let m := s.cur.membAt k
  .trap ({ s with cur := s.cur.setMemb k { m with redStalled := true } }.putComm { c with stalledRed := insNat c.stalledRed m.redGen })
    (stallTrap k m.redGen c.handle iss)

/-- What the member of rank `r` passes a generation with, once its own destination bytes are written (R338). -/
def Comm.redResult (c : Comm) (gen r : Nat) : Option RedDone :=
  match c.reduced.find? (fun d => d.gen == gen) with
  | some d => some d
  | none =>
    match c.running.find? (fun x => x.done.gen == gen) with
    | some x => if x.pieces.any (fun p => p.1 == r) then none else some { x.done with wtime := mgetD x.times r 0 }
    | none => none

/-- Wait for the generation's destination bytes of this member, and pass (R338). -/
def State.redWait (s : State) (f : FmtCred) (c : Comm) (iss act : List Nat) : Res :=
  let k := f.k.toNat
  let w := s.cur
  let m := w.membAt k
  match c.redResult m.redGen m.rank with
  | none =>
    .wait .reduction { s with cur := w.setMemb k { m with redAt := if m.redStalled then s.gtc else m.redAt, redStalled := false } }
  | some d =>
    let m := { m with red := false, redStalled := false, lost := m.lost || d.lost }
    if d.mismatch then .trap { s with cur := w.setMemb k m } (illegal iss)
    else if !s.passed d.wtime then .wait .release s
    else
      ordered s false c.scope act (fun s =>
        .done { s with cur := (s.cur.setMemb k m).orFlags act (fun _ => mgetD d.flags m.rank 0) } [])

/-- Bytes of the source and of the destination of a member (R336). -/
def redSrcLen (kind size p c : Nat) : Nat := size * c * (if kind == 1 then p else 1)
def redDstLen (kind size p c : Nat) : Nat := size * c * (if kind == 2 then p else 1)

/-- The body of `creduce`. -/
def bodyCreduce (f : FmtCred) (iss act : List Nat) (s : State) : Res :=
  let w := s.cur
  let k := f.k.toNat
  let m := w.membAt k
  match s.commOf m with
  | none => .trap s (illegal iss)
  | some c =>
    let p := c.members.length
    let n := (w.getS f.sc.toNat).toNat
    let kind := f.kind.toNat
    let size := redSize f.fmt.toNat
    let dst := (w.getS f.sa.toNat).toNat
    let src := (w.getS f.sb.toNat).toNat
    let reads := kind != 3 || m.rank == 0
    if w.liveLanes.any (fun l => !iss.contains l) then .trap s (illegal iss)
    else if m.red then s.redWait f c iss act
    else if 2 ^ 28 < n || ((kind == 1 || kind == 2) && 2 ^ 28 < p * n) then .trap s (illegal iss)
    else if dst % size != 0 then .trap s ⟨5, iss, dst, 0, 0, []⟩
    else if reads && src % size != 0 then .trap s ⟨5, iss, src, 0, 0, []⟩
    else
      let srcN := if reads then redSrcLen kind size p n else 0
      let dstN := redDstLen kind size p n
      match s.redCheck iss (src, srcN) (dst, dstN) with
      | some r => r
      | none =>
        let locs (need : AccNeed) (a len : Nat) : List Nat := (rangeLocs (rangeAcc s w true need 3 0 a len)).map Prod.fst
        let mine : Contrib := { gen := m.h, rank := m.rank, kind := kind, op := f.op.toNat, fmt := f.fmt.toNat, count := n,
                                src := locs needRedR src srcN, bytes := [], early := [], dst := locs needRedW dst dstN }
        let c := { c with contribs := c.contribs ++ [mine] }
        let m := { m with h := (m.h + 1) % 2 ^ 32, red := true, redAt := s.gtc, redStalled := false }
        let s := { s with cur := w.setMemb k m }.putComm c
        if c.stalledRed.contains m.redGen then s.redStall k c iss else s.redWait f c iss act

def execCreduce (f : FmtCred) (s : State) : Host.Outcome State Fault Refusal := issue (.creduce f) s (bodyCreduce f)

/-! ### The units -/

/-- What a rank gives a generation: a contribution with its bytes, the word that it counts as the identity, or nothing
yet. -/
def State.redPart (s : State) (c : Comm) (gen : Nat) (foreign : List ForeignContrib) (rank : Nat) : Option (Option Contrib) :=
  match c.contribs.find? (fun x => x.gen == gen && x.rank == rank) with
  | some x =>
    let bytes := (x.src.zip (List.range x.src.length)).map (fun p => (mget x.early p.2).getD (Memory.read s.mem p.1))
    some (some { x with bytes := bytes })
  | none =>
    let own := (c.members.getD rank (0, 0, 0, s.config.devNum)).2.2.2 == s.config.devNum
    match if own then none else foreign.find? (fun x => x.rank == rank) with
    | some x =>
      some (if x.exited then none else some { gen := gen, rank := rank, kind := x.kind, op := x.op, fmt := x.fmt, count := x.count,
                                              src := [], bytes := x.bytes, early := [], dst := [] })
    | none => if c.exited.contains rank || c.lost.contains rank then some none else none

/-- The destination of a rank: values and flags of its elements (R336). `xs` holds the source elements of every
rank. -/
def redDest (contract kind op fmt n : Nat) (xs : List (List Nat)) (rank : Nat) : List (Nat × BitVec 6) :=
  match kind with
  | 0 => (List.range n).map (fun j => redElem contract fmt op (xs.map (fun x => x.getD j 0)))
  | 1 => (List.range n).map (fun j => redElem contract fmt op (xs.map (fun x => x.getD (rank * n + j) 0)))
  | 2 => xs.flatMap (fun x => (List.range n).map (fun j => (x.getD j 0, 0)))
  | _ => (List.range n).map (fun j => ((xs.headD []).getD j 0, 0))

/-- The bytes of the destination of a member of this device, by granule; bytes that its source overlaps otherwise than exactly
are unpredictable (R338, R343). -/
def State.redPieces (s : State) (x : Contrib) (size : Nat) (vals : List (Nat × BitVec 6)) : List (Nat × List (Nat × Byte)) :=
  let bs := vals.flatMap (fun v => leBytes size v.1)
  let exact := (x.kind == 0 || x.kind == 3) && x.src == x.dst
  let out := ((x.dst.zip bs).zip (List.range x.dst.length)).map (fun p =>
    if !exact && x.src.contains p.1.1 then (p.1.1, BitVec.ofNat 8 (s.free (2 ^ 32 * x.rank + p.2)).toNat) else p.1)
  (out.map (fun b => granule b.1)).eraseDups.map (fun g => (x.rank, out.filter (fun b => granule b.1 == g)))

/-- The contributions of a generation carry one kind, operation, type and count (R339). -/
def redAgree (cs : List Contrib) : Bool :=
  match cs with
  | [] => true
  | a :: r => r.all (fun b => a.kind == b.kind && a.op == b.op && a.fmt == b.fmt && a.count == b.count)

/-- Waves of a communicator that wait for a reduction look again. -/
def State.wakeRed (s : State) (c : Comm) : State :=
  s.mapWaves (fun w => if (w.why == .reduction || w.why == .release) && w.memb.any (fun m => m.comm == some (c.slot, c.use)) then { w with why := .none } else w)

/-- Every member's register shows a loss (R340). -/
def Wave.showLost (c : Comm) (w : Wave) : Wave :=
  { w with memb := w.memb.map (fun m => if m.comm == some (c.slot, c.use) then { m with lost := true } else m) }

/-- A generation is finished: its result is kept near later ones (log 139), a loss shows in every member's register (R340), and
members that wait look again. -/
def State.redFinish (s : State) (c : Comm) (d : RedDone) : State :=
  let s := s.putComm { c with reduced := c.reduced.filter (fun x => nearGen d.gen x.gen) ++ [d],
                              stalledRed := c.stalledRed.filter (nearGen d.gen),
                              contribs := c.contribs.filter (fun x => x.gen != d.gen),
                              running := c.running.filter (fun x => x.done.gen != d.gen) }
  let s := if d.lost then
      { s.mapWaves (Wave.showLost c) with
        teams := s.teams.map (fun t => { t with savedWaves := t.savedWaves.map (Wave.showLost c) }) }
    else s
  s.wakeRed c

/-- THE UNITS COMBINE a generation once every member has contributed or counts as the identity: what it leaves, and what they are
to write (R338 to R340). -/
def State.redPlan (s : State) (c : Comm) (gen : Nat) (foreign : List ForeignContrib) : Option RedRun :=
  let ranks := List.range c.members.length
  let parts := ranks.map (s.redPart c gen foreign)
  let cs := parts.filterMap (fun p => p.getD none)
  let lost := (ranks.zip parts).any (fun p => c.lost.contains p.1 && p.2 == some none)
  match cs with
  | [] => none
  | a :: _ =>
    if c.reduced.any (fun d => d.gen == gen) || parts.any Option.isNone then none
    else if !redAgree cs then some { done := { gen := gen, mismatch := true, flags := [], wtime := s.gtc, lost := lost }, pieces := [], times := [] }
    else
      let size := redSize a.fmt
      let srcElems := a.count * (if a.kind == 1 then c.members.length else 1)
      let ident := if a.kind < 2 then redIdentity a.fmt a.op else zeroOf a.fmt
      let xs := parts.map (fun p => match p.getD none with
        | some x => chunks srcElems size x.bytes
        | none => List.replicate srcElems ident)
      let own := cs.filter (fun x => (c.members.getD x.rank (0, 0, 0, 0)).2.2.2 == s.config.devNum && !c.exited.contains x.rank &&
        !c.lost.contains x.rank)
      let outs := own.map (fun x => (x, redDest c.contract a.kind a.op a.fmt a.count xs x.rank))
      let flags := outs.foldl (fun (m : Map (BitVec 6)) o => mputD 0 m o.1.rank (o.2.foldl (fun f v => f ||| v.2) 0)) []
      some { done := { gen := gen, mismatch := false, flags := flags, wtime := s.gtc, lost := lost },
             pieces := outs.flatMap (fun o => s.redPieces o.1 size o.2), times := [] }

/-- What the units have begun of a generation, or begin now. -/
def State.redRun (s : State) (c : Comm) (gen : Nat) (foreign : List ForeignContrib) : Option RedRun :=
  match c.running.find? (fun r => r.done.gen == gen) with
  | some r => some r
  | none => s.redPlan c gen foreign

/-- One granule is written (R343). -/
def State.redPiece (s : State) (r : RedRun) (p : Nat × List (Nat × Byte)) : State × RedRun :=
  let s := s.makeVisible p.2
  (s, { r with done := { r.done with wtime := s.gtc }, pieces := r.pieces.erase p, times := mput r.times p.1 s.gtc })

/-- The units begin a generation early. -/
def State.redStart (s : State) (slot gen : Nat) (foreign : List ForeignContrib) : State :=
  match s.comms.find? (fun c => c.slot == slot) with
  | none => s
  | some c =>
    match s.redRun c gen foreign with
    | some r => (s.freeNext.putComm { c with running := r :: c.running.filter (fun x => x.done.gen != gen) }).wakeRed c
    | none => s

/-- The units write one granule of a generation that they have begun. -/
def State.redGranule (s : State) (slot gen k : Nat) : State :=
  match s.comms.find? (fun c => c.slot == slot) with
  | none => s
  | some c =>
    match c.running.find? (fun r => r.done.gen == gen) with
    | none => s
    | some r =>
      match r.pieces[k]? with
      | none => s
      | some p =>
        let (s, r) := s.redPiece r p
        (s.putComm { c with running := r :: c.running.filter (fun x => x.done.gen != gen) }).wakeRed c

/-- The units read a granule of a contribution (R338: each byte of the source is read at a time after the issue). -/
def State.redRead (s : State) (slot gen rank k : Nat) : State :=
  match s.comms.find? (fun c => c.slot == slot) with
  | none => s
  | some c =>
    let read (x : Contrib) : Contrib :=
      match x.src[k]? with
      | none => x
      | some at_ =>
        let is := (List.range x.src.length).filter (fun i =>
          granule (x.src.getD i 0) == granule at_ && (mget x.early i).isNone)
        { x with early := is.foldl (fun m i => mput m i (Memory.read s.mem (x.src.getD i 0))) x.early }
    s.putComm { c with contribs := c.contribs.map (fun x => if x.gen == gen && x.rank == rank then read x else x) }

/-- CREDUCE GENERATION COMPLETE: once every member has contributed or counts as the identity, the units write what is left of each
member's destination, and the GTC passes the writes (R338 to R340). -/
def execCreduceGenerationComplete (slot gen : Nat) (foreign : List ForeignContrib) (s : State) :
    Host.Outcome State Fault Refusal :=
  .next (match s.comms.find? (fun c => c.slot == slot) with
    | none => s
    | some c =>
      match s.redRun c gen foreign with
      | none => s
      | some r =>
        let (s1, r) := r.pieces.foldl (fun (x : State × RedRun) p => x.1.redPiece x.2 p) (s, r)
        { s1.freeNext with gtc := if r.done.mismatch then s1.gtc else max s1.gtc (pastTime r.done.wtime) }.redFinish c r.done)

/-- CREDUCE STALL: the bound of a wave that waits in `creduce` passes: it takes the collective-stall trap there
(R341). -/
def execCreduceStall (key : WKey) (s : State) : Host.Outcome State Fault Refusal :=
  .next (s.withWave key (fun s =>
    let w := s.cur
    match (List.range 8).find? (fun k => (w.membAt k).red) with
    | none => s
    | some k =>
      let m := w.membAt k
      match s.commOf m with
      | none => s
      | some c =>
        if w.why != .reduction || (c.redResult m.redGen m.rank).isSome then s
        else
          let v := s.at_
          let word := s.wordOf w v
          let s := { s with gtc := max s.gtc (m.redAt + s.stallBound w), cur := { w with why := .none } }
          match s.redStall k c s.cur.issuingSet with
          | .trap s t => s.takeTrap (t.info v word)
          | _ => s))

end Sys2Proof.Machine
end

