-- ==== Sys2Proof/Machine/System.lean ====
section
/-! DEFINITION. System instructions: traps and returns from them (R277 to R283), the wave status word (R284), special
registers (R298, R299), and migration (R295). -/

namespace Sys2Proof.Machine

def execNop (f : FmtG) (s : State) : Host.Outcome State Fault Refusal := issue (.nop f) s (fun _ _ s => .done s [])

/-- The body of `trap`: the active lanes take the software trap behind it (R280); lanes whose guard fails stay (R18). -/
def bodyTrap (f : FmtTrap) (_ act : List Nat) (s : State) : Res :=
  .trap { s with cur := s.advance s.cur act } ⟨22, act, 0, f.imm.toNat, 0, []⟩

def execTrap (f : FmtTrap) (s : State) : Host.Outcome State Fault Refusal := issue (.trap f) s (bodyTrap f)

/-- The body of `brk`. -/
def bodyBrk (f : FmtBrk) (_ act : List Nat) (s : State) : Res :=
  let v := (s.cur.getS f.sa.toNat).toNat
  if 2 ^ 33 ≤ v then .trap s (illegal act)
  else .done { s with cur := { s.cur with bp := setAt s.cur.bp f.k.toNat (BitVec.ofNat 33 v) } } []

def execBrk (f : FmtBrk) (s : State) : Host.Outcome State Fault Refusal := issue (.brk f) s (bodyBrk f)

/-! ### Returns -/

/-- The body of `sret`. -/
def bodySret (iss act : List Nat) (s : State) : Res :=
  if !s.cur.tm then .trap s (illegal iss)
  else
    let u := { s with cur := s.cur.rest iss act .sret }
    if u.cur.atSret && !(u.returnMisses u.cur).isEmpty then .wait .tlb (u.sretAgain (u.returnMisses u.cur))
    else .done u.sretCheck act

def execSret (f : FmtG) (s : State) : Host.Outcome State Fault Refusal := issue (.sret f) s bodySret

/-- The body of `sret.esc`. -/
def bodySretEsc (iss _ : List Nat) (s : State) : Res :=
  if !s.cur.tm then .trap s (illegal iss) else .done (s.escalate s.cur.cause none) iss

def execSretEsc (f : FmtG) (s : State) : Host.Outcome State Fault Refusal := issue (.sretEsc f) s bodySretEsc

/-- The service resumes an escalated wave, with the effect of `sret` on its record (R279). -/
def State.resumeEscalated (s : State) : State :=
  match s.returnPositions s.cur with
  | .ok ps => s.returnFromTrap ps
  | .error pos =>
    let ls := s.cur.liveLanes
    s.takeTrap ((illegalReturn ls pos).info ((minNat (ls.map (fun l => (s.cur.lane l).vpc))).getD 0) 0)

/-- FAULT SERVICE DECISION: the service resumes an escalated wave, or ends its grid; the Ringmaster resumes page faults only
(R279). -/
def execFaultServiceDecision (key : WKey) (resume : Bool) (s : State) : Host.Outcome State Fault Refusal :=
  .next (match s.findWave key with
    | none => s
    | some w =>
      if !w.escalated then s
      else if resume then (if w.escHost || w.cause == 6 then s.withWave key State.resumeEscalated else s)
      else s.endEscalated w)

/-! ### Special registers (R298) -/

/-- The collective-branch status (R261). -/
def Wave.cbst (w : Wave) : Nat :=
  (List.range 8).foldl (fun n k =>
    let m := w.membAt k
    n + (if m.lost then 2 ^ k else 0) + (if m.outcome then 2 ^ (8 + k) else 0) + (if m.pending then 2 ^ (16 + k) else 0)) 0

/-- The contract capabilities (R125). -/
def ccap (k : Nat) : Nat :=
  match k with
  | 0 => 0x3400400
  | 1 => 0x1310300
  | 2 => 0x220200
  | _ => 0x120100

/-- Coordinate and extent of the team on an axis (R12, R14). -/
def Grid.axis (g : Grid) (team a : Nat) : Nat × Nat :=
  match a with
  | 0 => (team % g.p.ext.1, g.p.ext.1)
  | 1 => (team / g.p.ext.1 % g.p.ext.2.1, g.p.ext.2.1)
  | _ => (team / g.p.ext.1 / g.p.ext.2.1, g.p.ext.2.2)

/-- A special register as lane `l` of the current wave reads it; `none` for a number outside the table. -/
def State.sreg (s : State) (n l : Nat) : Option Nat :=
  let w := s.cur
  let g := s.gridOf w
  if n == 0 then some (w.lane l).tid
  else if n == 1 then some l
  else if n == 2 then some (w.key.wave + g.p.waves * 2 ^ 8 + w.width * 2 ^ 16)
  else if n == 3 then some w.key.team
  else if n < 7 then let (c, e) := g.axis w.key.team (n - 4); some (c + e * 2 ^ 32)
  else if n == 7 then some g.p.launch
  else if n == 8 then some g.p.contract
  else if n == 9 then some s.gtc
  else if n == 0xA then some w.wct
  else if n == 0xB then some w.alloc
  else if n == 0xC then some (w.pbase + (if w.bank then 2 ^ 10 else 0) + (if w.lanes.any (fun x => !x.written.isEmpty) then 2 ^ 11 else 0))
  else if n == 0xD then some w.cbst
  else if n == 0xE then some g.det
  else if n == 0xF then some (s.fabFree w.core w.tgt + w.hwm * 2 ^ 4 + w.tgt * 2 ^ 8)
  else if 0x10 ≤ n && n < 0x18 then some (w.keys.getD (n - 0x10) 0).toNat
  else if 0x18 ≤ n && n < 0x1C then some (ccap (n - 0x18))
  else if 0x1C ≤ n && n < 0x20 then some (w.bp.getD (n - 0x1C) 0).toNat
  else if n == 0x20 then some g.trapen.toNat
  else none

/-- The body of `rdsr`: number and form were checked at issue. -/
def bodyRdsr (f : FmtRdsr) (_ act : List Nat) (s : State) : Res :=
  let v (l : Nat) : Nat := (s.sreg f.num.toNat l).getD 0
  if f.vec then .done { s with cur := s.cur.writeLanes false false f.rd.toNat act (fun l => v l % 2 ^ 32) } []
  else .done (s.putS f.rd.toNat (BitVec.ofNat 64 (v 0))) []

def execRdsr (f : FmtRdsr) (s : State) : Host.Outcome State Fault Refusal := issue (.rdsr f) s (bodyRdsr f)

/-- The reserved bits of `$trapen` (R299). -/
def trapenLegal (v : Nat) : Bool := v < 2 ^ 10 && nbits v 6 2 == 0

/-- The body of `wrsr`: `$trapen`, the only register that is written, was named at issue; it is one for the whole grid. -/
def bodyWrsr (f : FmtWrsr) (_ act : List Nat) (s : State) : Res :=
  let v := s.cur.getS f.sa.toNat
  if !trapenLegal v.toNat then .trap s (illegal act)
  else .done (s.setGrid { s.gridOf s.cur with trapen := v }) []

def execWrsr (f : FmtWrsr) (s : State) : Host.Outcome State Fault Refusal := issue (.wrsr f) s (bodyWrsr f)

/-- The body of `wsw` (R284). The Safety Net counts its entries from the moment dbg is set (R285). -/
def bodyWsw (f : FmtWsw) (_ act : List Nat) (s : State) : Res :=
  let w := s.cur
  let old := s.wsw w
  let a := w.getS f.sa.toNat
  let b := w.getS f.sb.toNat
  if b &&& ~~~(6 : Word64) != 0 then .trap s (illegal act)
  else if tbit b 2 && !w.privileged then .trap s (trapOf 7 act)
  else
    let new := (old &&& ~~~b) ||| (a &&& b)
    let w1 := { w.setS f.sd.toNat old with step := tbit new 1, dbg := tbit new 2,
                                           snSeq := if tbit new 2 && !w.dbg then 0 else w.snSeq }
    .done { s with cur := w1 } []

def execWsw (f : FmtWsw) (s : State) : Host.Outcome State Fault Refusal := issue (.wsw f) s (bodyWsw f)

/-! ### Migration (R295) -/

/-- The team that `migrate` names: grid and team. -/
def State.migTeam (s : State) (f : FmtMig) : Option Team :=
  let w := s.cur
  if f.named then
    let b := (w.getS f.sb.toNat).toNat
    let q := nbits b 32 16
    (s.grids.filter (fun g => g.queue == q && g.ended.isNone)).findSome? (fun g =>
      s.teams.find? (fun t => t.grid == g.id && t.idx == b % 2 ^ 32))
  else s.teams.find? (fun t => t.grid == w.key.grid && t.idx == w.key.team)

/-- The reserved bits of the operands. -/
def State.migLegal (s : State) (f : FmtMig) : Bool :=
  (s.cur.getS f.sa.toNat).toNat < 2 ^ 9 && (!f.named || (s.cur.getS f.sb.toNat).toNat < 2 ^ 48)

/-- Why a migration to a core is refused, or the room there. -/
def State.migRoom (s : State) (t : Team) (core : Nat) : Except Nat Room :=
  let p := (s.gridAt t.grid).p
  if s.config.ringmaster.contains core || (p.pair && s.config.ringmaster.contains (core + 1)) then .error 3
  else if (!t.saved && t.core == core) || (p.pair && core % 2 == 1) then .error 1
  else
    let allots := if t.saved then t.allots
      else (List.range t.waves).map (fun k => match (s.teamWaves t.grid t.idx).find? (fun w => w.key.wave == k) with
        | some w => if w.liveLanes.isEmpty then 0 else w.alloc
        | none => 0)
    let eng := if t.saved then t.savedEngine.length
      else ((s.coreAt t.core).engine.filter (fun e => e.ofTeam t.grid t.idx)).length
    match s.roomOn p core allots eng with
    | some r => .ok r
    | none => .error 1

/-- The body of `migrate`. It waits for a core that has too little headroom (R373). -/
def bodyMigrate (f : FmtMig) (_ act : List Nat) (s : State) : Res :=
  let w := s.cur
  let a := (w.getS f.sa.toNat).toNat
  let core := nbits a 0 2 * 128 + nbits a 2 7
  let put (s : State) (v : Nat) : Res := .done (s.putS f.sd.toNat (BitVec.ofNat 64 v)) []
  if !w.privileged then .trap s (trapOf 7 act)
  else if !s.migLegal f then .trap s (illegal act)
  else
    match s.migTeam f with
    | none => put s 2
    | some t =>
      match s.migRoom t core with
      | .error e => put s e
      | .ok _ =>
        if !s.cool (s.gridAt t.grid) core then .wait .migrating s
        else
          let (s, ok) := if t.saved then (s, true) else s.takeTeam t.grid t.idx
          if !ok then .wait .migrating s
          else
            let t := s.teamAt t.grid t.idx
            match s.roomOn (s.gridAt t.grid).p core t.allots t.savedEngine.length with
            | none => .wait .migrating s
            | some r =>
              let s := (s.putTeam t core r).focus w.key
              put (s.countUp (s.gridAt t.grid) 0x24 1) 0

def execMigrate (f : FmtMig) (s : State) : Host.Outcome State Fault Refusal := issue (.migrate f) s (bodyMigrate f)

end Sys2Proof.Machine
end

