-- ==== Sys2Proof/Machine/Dispatch.lean ====
section
/-! DEFINITION. The dispatch: one arm per instruction and event of the opcode table, each a direct call of its
meaning. -/

namespace Sys2Proof.Machine

def exec (i : Instr) (s : State) : Host.Outcome State Fault Refusal :=
  match i with
  | .vadd f => Sys2Proof.Machine.execVadd f s
  | .vsub f => Sys2Proof.Machine.execVsub f s
  | .vaddc f => Sys2Proof.Machine.execVaddc f s
  | .vmul f => Sys2Proof.Machine.execVmul f s
  | .vmulh f => Sys2Proof.Machine.execVmulh f s
  | .vmad f => Sys2Proof.Machine.execVmad f s
  | .vmin f => Sys2Proof.Machine.execVmin f s
  | .vmax f => Sys2Proof.Machine.execVmax f s
  | .vabsd f => Sys2Proof.Machine.execVabsd f s
  | .vand f => Sys2Proof.Machine.execVand f s
  | .vor f => Sys2Proof.Machine.execVor f s
  | .vxor f => Sys2Proof.Machine.execVxor f s
  | .vnot f => Sys2Proof.Machine.execVnot f s
  | .vshl f => Sys2Proof.Machine.execVshl f s
  | .vshr f => Sys2Proof.Machine.execVshr f s
  | .vsar f => Sys2Proof.Machine.execVsar f s
  | .vrot f => Sys2Proof.Machine.execVrot f s
  | .vclz f => Sys2Proof.Machine.execVclz f s
  | .vpopc f => Sys2Proof.Machine.execVpopc f s
  | .vbrev f => Sys2Proof.Machine.execVbrev f s
  | .vext f => Sys2Proof.Machine.execVext f s
  | .vins f => Sys2Proof.Machine.execVins f s
  | .vsel f => Sys2Proof.Machine.execVsel f s
  | .vcmp f => Sys2Proof.Machine.execVcmp f s
  | .vmov f => Sys2Proof.Machine.execVmov f s
  | .vmovi f => Sys2Proof.Machine.execVmovi f s
  | .vshfl f => Sys2Proof.Machine.execVshfl f s
  | .vbcast f => Sys2Proof.Machine.execVbcast f s
  | .vvote f => Sys2Proof.Machine.execVvote f s
  | .vscan f => Sys2Proof.Machine.execVscan f s
  | .vred f => Sys2Proof.Machine.execVred f s
  | .vcompact f => Sys2Proof.Machine.execVcompact f s
  | .sadd f => Sys2Proof.Machine.execSadd f s
  | .ssub f => Sys2Proof.Machine.execSsub f s
  | .smul f => Sys2Proof.Machine.execSmul f s
  | .smad f => Sys2Proof.Machine.execSmad f s
  | .sand f => Sys2Proof.Machine.execSand f s
  | .sor f => Sys2Proof.Machine.execSor f s
  | .sxor f => Sys2Proof.Machine.execSxor f s
  | .sshl f => Sys2Proof.Machine.execSshl f s
  | .sshr f => Sys2Proof.Machine.execSshr f s
  | .ssar f => Sys2Proof.Machine.execSsar f s
  | .smov f => Sys2Proof.Machine.execSmov f s
  | .smovi f => Sys2Proof.Machine.execSmovi f s
  | .scmp f => Sys2Proof.Machine.execScmp f s
  | .vtos f => Sys2Proof.Machine.execVtos f s
  | .stov f => Sys2Proof.Machine.execStov f s
  | .fadd f => Sys2Proof.Machine.execFadd f s
  | .fsub f => Sys2Proof.Machine.execFsub f s
  | .fmul f => Sys2Proof.Machine.execFmul f s
  | .ffma f => Sys2Proof.Machine.execFfma f s
  | .fmin f => Sys2Proof.Machine.execFmin f s
  | .fmax f => Sys2Proof.Machine.execFmax f s
  | .fcmp f => Sys2Proof.Machine.execFcmp f s
  | .fclass f => Sys2Proof.Machine.execFclass f s
  | .fround f => Sys2Proof.Machine.execFround f s
  | .fscale f => Sys2Proof.Machine.execFscale f s
  | .fexp f => Sys2Proof.Machine.execFexp f s
  | .fman f => Sys2Proof.Machine.execFman f s
  | .fcvt f => Sys2Proof.Machine.execFcvt f s
  | .fcvti f => Sys2Proof.Machine.execFcvti f s
  | .icvtf f => Sys2Proof.Machine.execIcvtf f s
  | .fex2 f => Sys2Proof.Machine.execFex2 f s
  | .flg2 f => Sys2Proof.Machine.execFlg2 f s
  | .frcp f => Sys2Proof.Machine.execFrcp f s
  | .frsq f => Sys2Proof.Machine.execFrsq f s
  | .fsqrt f => Sys2Proof.Machine.execFsqrt f s
  | .fsin2 f => Sys2Proof.Machine.execFsin2 f s
  | .fcos2 f => Sys2Proof.Machine.execFcos2 f s
  | .fdot2 f => Sys2Proof.Machine.execFdot2 f s
  | .hadd2 f => Sys2Proof.Machine.execHadd2 f s
  | .hmul2 f => Sys2Proof.Machine.execHmul2 f s
  | .hfma2 f => Sys2Proof.Machine.execHfma2 f s
  | .fstat f => Sys2Proof.Machine.execFstat f s
  | .br f => Sys2Proof.Machine.execBr f s
  | .brd f => Sys2Proof.Machine.execBrd f s
  | .call f => Sys2Proof.Machine.execCall f s
  | .ret f => Sys2Proof.Machine.execRet f s
  | .join f => Sys2Proof.Machine.execJoin f s
  | .joinAct f => Sys2Proof.Machine.execJoinAct f s
  | .wait f => Sys2Proof.Machine.execWait f s
  | .exit f => Sys2Proof.Machine.execExit f s
  | .ld f => Sys2Proof.Machine.execLd f s
  | .st f => Sys2Proof.Machine.execSt f s
  | .sld f => Sys2Proof.Machine.execSld f s
  | .sst f => Sys2Proof.Machine.execSst f s
  | .lda f => Sys2Proof.Machine.execLda f s
  | .pf f => Sys2Proof.Machine.execPf f s
  | .loadDataReturn w k => Sys2Proof.Machine.execLoadDataReturn w k s
  | .grow f => Sys2Proof.Machine.execGrow f s
  | .growUnitsFreed core => Sys2Proof.Machine.execGrowUnitsFreed core s
  | .shrink f => Sys2Proof.Machine.execShrink f s
  | .sortk f => Sys2Proof.Machine.execSortk f s
  | .issueOverride => Sys2Proof.Machine.execIssueOverride s
  | .issueSlotGrant core => Sys2Proof.Machine.execIssueSlotGrant core s
  | .atom f => Sys2Proof.Machine.execAtom f s
  | .red f => Sys2Proof.Machine.execRed f s
  | .fence f => Sys2Proof.Machine.execFence f s
  | .writeAcknowledgement w k lo len => Sys2Proof.Machine.execWriteAcknowledgement w k lo len s
  | .mon f => Sys2Proof.Machine.execMon f s
  | .mwait f => Sys2Proof.Machine.execMwait f s
  | .monitorTrigger w => Sys2Proof.Machine.execMonitorTrigger w s
  | .mwaitDeadline w => Sys2Proof.Machine.execMwaitDeadline w s
  | .barr f => Sys2Proof.Machine.execBarr f s
  | .barw f => Sys2Proof.Machine.execBarw f s
  | .bara f => Sys2Proof.Machine.execBara f s
  | .bmask f => Sys2Proof.Machine.execBmask f s
  | .cvdecl f => Sys2Proof.Machine.execCvdecl f s
  | .mma f => Sys2Proof.Machine.execMma f s
  | .mmas f => Sys2Proof.Machine.execMmas f s
  | .mmaOperationComplete core k => Sys2Proof.Machine.execMmaOperationComplete core k s
  | .convergenceTimeout grid team cv => Sys2Proof.Machine.execConvergenceTimeout grid team cv s
  | .mmaw f => Sys2Proof.Machine.execMmaw f s
  | .orf f => Sys2Proof.Machine.execOrf f s
  | .spfence f => Sys2Proof.Machine.execSpfence f s
  | .accld f => Sys2Proof.Machine.execAccld f s
  | .accst f => Sys2Proof.Machine.execAccst f s
  | .accstReg f => Sys2Proof.Machine.execAccstReg f s
  | .acczero f => Sys2Proof.Machine.execAcczero f s
  | .engineEntryComplete core k => Sys2Proof.Machine.execEngineEntryComplete core k s
  | .trec f => Sys2Proof.Machine.execTrec f s
  | .rfence f => Sys2Proof.Machine.execRfence f s
  | .qblk f => Sys2Proof.Machine.execQblk f s
  | .dqblk f => Sys2Proof.Machine.execDqblk f s
  | .hadm f => Sys2Proof.Machine.execHadm f s
  | .sclq f => Sys2Proof.Machine.execSclq f s
  | .vldt f => Sys2Proof.Machine.execVldt f s
  | .vstt f => Sys2Proof.Machine.execVstt f s
  | .cpy f => Sys2Proof.Machine.execCpy f s
  | .cpys f => Sys2Proof.Machine.execCpys f s
  | .copyTransferStart w q => Sys2Proof.Machine.execCopyTransferStart w q s
  | .copyComplete w q => Sys2Proof.Machine.execCopyComplete w q s
  | .cpyw f => Sys2Proof.Machine.execCpyw f s
  | .cpywWait f => Sys2Proof.Machine.execCpywWait f s
  | .cpywRe f => Sys2Proof.Machine.execCpywRe f s
  | .copyPromiseWake w => Sys2Proof.Machine.execCopyPromiseWake w s
  | .tlbw f => Sys2Proof.Machine.execTlbw f s
  | .tlbiVa f => Sys2Proof.Machine.execTlbiVa f s
  | .tlbiAsid f => Sys2Proof.Machine.execTlbiAsid f s
  | .tlbiAll f => Sys2Proof.Machine.execTlbiAll f s
  | .tlbMissWalk core => Sys2Proof.Machine.execTlbMissWalk core s
  | .hostTlbFill core sa w0 w1 => Sys2Proof.Machine.execHostTlbFill core sa w0 w1 s
  | .pageFaultBatchResolved w ok => Sys2Proof.Machine.execPageFaultBatchResolved w ok s
  | .uncorrectableError site => Sys2Proof.Machine.execUncorrectableError site s
  | .hostMemoryAccess addr len data => Sys2Proof.Machine.execHostMemoryAccess addr len data s
  | .pbsel f => Sys2Proof.Machine.execPbsel f s
  | .accept f => Sys2Proof.Machine.execAccept f s
  | .pbclr f => Sys2Proof.Machine.execPbclr f s
  | .pbcnt f => Sys2Proof.Machine.execPbcnt f s
  | .rng f => Sys2Proof.Machine.execRng f s
  | .rngk f => Sys2Proof.Machine.execRngk f s
  | .cbrj f => Sys2Proof.Machine.execCbrj f s
  | .cbr f => Sys2Proof.Machine.execCbr f s
  | .cbrOutcome slot gen foreign => Sys2Proof.Machine.execCbrOutcome slot gen foreign s
  | .collectiveStall w k => Sys2Proof.Machine.execCollectiveStall w k s
  | .memberLost slot rank => Sys2Proof.Machine.execMemberLost slot rank s
  | .creduce f => Sys2Proof.Machine.execCreduce f s
  | .creduceGenerationComplete slot gen foreign => Sys2Proof.Machine.execCreduceGenerationComplete slot gen foreign s
  | .creduceStall w => Sys2Proof.Machine.execCreduceStall w s
  | .fld f => Sys2Proof.Machine.execFld f s
  | .fst f => Sys2Proof.Machine.execFst f s
  | .fatom f => Sys2Proof.Machine.execFatom f s
  | .ffence f => Sys2Proof.Machine.execFfence f s
  | .fabricRequestArrival r => Sys2Proof.Machine.execFabricRequestArrival r s
  | .fabricCountQuery src from_ interval sent replayed => Sys2Proof.Machine.execFabricCountQuery src from_ interval sent replayed s
  | .fabricResponse core tag inc res => Sys2Proof.Machine.execFabricResponse core tag inc res s
  | .fabricWaitNotice core tag inc => Sys2Proof.Machine.execFabricWaitNotice core tag inc s
  | .fabricRequestTimeout core tag => Sys2Proof.Machine.execFabricRequestTimeout core tag s
  | .linkFailure dev => Sys2Proof.Machine.execLinkFailure dev s
  | .deviceLeavesPod dev => Sys2Proof.Machine.execDeviceLeavesPod dev s
  | .nop f => Sys2Proof.Machine.execNop f s
  | .trap f => Sys2Proof.Machine.execTrap f s
  | .brk f => Sys2Proof.Machine.execBrk f s
  | .sret f => Sys2Proof.Machine.execSret f s
  | .sretEsc f => Sys2Proof.Machine.execSretEsc f s
  | .faultServiceDecision w resume => Sys2Proof.Machine.execFaultServiceDecision w resume s
  | .rdsr f => Sys2Proof.Machine.execRdsr f s
  | .wrsr f => Sys2Proof.Machine.execWrsr f s
  | .wsw f => Sys2Proof.Machine.execWsw f s
  | .migrate f => Sys2Proof.Machine.execMigrate f s
  | .qpush f => Sys2Proof.Machine.execQpush f s
  | .qpop f => Sys2Proof.Machine.execQpop f s
  | .qpopO f => Sys2Proof.Machine.execQpopO f s
  | .qpopDeadline w => Sys2Proof.Machine.execQpopDeadline w s
  | .qdone f => Sys2Proof.Machine.execQdone f s
  | .taskTurnsNonspeculative w => Sys2Proof.Machine.execTaskTurnsNonspeculative w s
  | .dtk f => Sys2Proof.Machine.execDtk f s
  | .dtkEnd f => Sys2Proof.Machine.execDtkEnd f s
  | .launch q item => Sys2Proof.Machine.execLaunch q item s
  | .teamPlacement core => Sys2Proof.Machine.execTeamPlacement core s
  | .teamResume grid team core => Sys2Proof.Machine.execTeamResume grid team core s
  | .gridCompletion grid => Sys2Proof.Machine.execGridCompletion grid s
  | .feedAppend q item => Sys2Proof.Machine.execFeedAppend q item s
  | .communicatorSetUp q item foreign => Sys2Proof.Machine.execCommunicatorSetUp q item foreign s
  | .communicatorRelease q item => Sys2Proof.Machine.execCommunicatorRelease q item s
  | .determinismLevel q item => Sys2Proof.Machine.execDeterminismLevel q item s
  | .token q item => Sys2Proof.Machine.execToken q item s
  | .powerClass q item => Sys2Proof.Machine.execPowerClass q item s
  | .gridCheckpoint q item => Sys2Proof.Machine.execGridCheckpoint q item s
  | .gridRestore q item => Sys2Proof.Machine.execGridRestore q item s
  | .gridEnd q item => Sys2Proof.Machine.execGridEnd q item s
  | .unknownPacketKind q item => Sys2Proof.Machine.execUnknownPacketKind q item s
  | .doorbell v => Sys2Proof.Machine.execDoorbell v s
  | .writeIndexNotice q => Sys2Proof.Machine.execWriteIndexNotice q s
  | .quantumSwap die set => Sys2Proof.Machine.execQuantumSwap die set s
  | .headroomUpdate core temps watts => Sys2Proof.Machine.execHeadroomUpdate core temps watts s
  | .registerWrite off v => Sys2Proof.Machine.execRegisterWrite off v s
  | .bkvocLoad slot addr => Sys2Proof.Machine.execBkvocLoad slot addr s
  | .bkcntRead k => Sys2Proof.Machine.execBkcntRead k s
  | .barkerRequest conn port rud msg => Sys2Proof.Machine.execBarkerRequest conn port rud msg s
  | .barkerFeedAppend feed => Sys2Proof.Machine.execBarkerFeedAppend feed s
  | .rudRmaWrite conn addr bytes => Sys2Proof.Machine.execRudRmaWrite conn addr bytes s
  | .replyFlushTimer => Sys2Proof.Machine.execReplyFlushTimer s
  | .connectionEnd conn => Sys2Proof.Machine.execConnectionEnd conn s
  | .portLinkChange port up => Sys2Proof.Machine.execPortLinkChange port up s
  | .boot err present => Sys2Proof.Machine.execBoot err present s
  | .p1Wake => Sys2Proof.Machine.execP1Wake s
  | .mainPowerDown forced => Sys2Proof.Machine.execMainPowerDown forced s
  | .mainPowerUp => Sys2Proof.Machine.execMainPowerUp s
  | .pldmMonitoring req => Sys2Proof.Machine.execPldmMonitoring req s
  | .pldmFirmwareUpdate step => Sys2Proof.Machine.execPldmFirmwareUpdate step s
  | .spdmRequest idx => Sys2Proof.Machine.execSpdmRequest idx s
  | .recoveryWindowWrite copy step => Sys2Proof.Machine.execRecoveryWindowWrite copy step s
  | .releasePoint w => Sys2Proof.Machine.execReleasePoint w s
  | .pageFaultResolved site ok => Sys2Proof.Machine.execPageFaultResolved site ok s
  | .fabricLinkRestored dev v3 => Sys2Proof.Machine.execFabricLinkRestored dev v3 s
  | .hostLinkChange up => Sys2Proof.Machine.execHostLinkChange up s
  | .vstbyRailChange up => Sys2Proof.Machine.execVstbyRailChange up s
  | .replyBufferFreed stream n => Sys2Proof.Machine.execReplyBufferFreed stream n s
  | .vocabularyLoadComplete slot => Sys2Proof.Machine.execVocabularyLoadComplete slot s

end Sys2Proof.Machine
end

