-- ==== Sys2Proof/Machine/Run.lean ====
section
/-! DEFINITION. What one step of the machine does around the instruction: what comes before an issue (R31, R49, R271,
R283, R315, R320), fetch and decode (R44, R69), the actions of the units that act on their own, and the schedule. -/

namespace Sys2Proof.Machine

/-! ### Before an issue -/

/-- The current wave may issue, or take a trap that waits (R17, R24, R25). -/
def State.mayIssue (s : State) : Bool := s.cur.slot && s.cur.why == .none && s.cur.runnable

/-- A trap that is taken instead of the issue; a speculation defers it (R210, R265, R288). -/
def State.preTrap (s : State) (t : TrapReq) (word : Word64) : State :=
  match s.cur.spec with
  | 0 => ({ s with cur := { s.cur with bpSkip := false } }).takeTrap (t.info s.at_ word)
  | 1 => (s.stopLanes t.lanes).checkAhead
  | n => { s with cur := { s.cur with why := specWhy n } }

/-- A page fault of a fetch by some lanes: a batch of one page, without run-ahead (R44, R209). -/
def State.preFault (s : State) (lanes : List Nat) (va : Nat) (malformed : Bool) : State :=
  match s.cur.spec with
  | 0 =>
    let b : Batch := { pages := [(pageOf va, malformed)], base := 1, first := va, lanes := lanes,
                       laneCause := lanes.map (fun l => (l, 6)), offset := s.at_, issued := 0, running := false }
    { s with cur := { s.cur with batch := some b, why := .pageFault },
             outbox := if s.hostService then s.outbox ++ [.hostFault s.cur.key] else s.outbox }
  | 1 => s.endAhead
  | n => { s with cur := { s.cur with why := specWhy n } }

/-- A fetch waits for a translation (R205). -/
def State.preMiss (s : State) (va : Nat) : State :=
  let g := s.gridOf s.cur
  let s := s.postMisses s.cur.core g.ctx.asid g.ctx.root [va]
  { s with cur := { s.cur with why := .tlb } }

/-- A trap that waits: the record that could not be written, or a trap that an earlier instruction left (R275, R282). A page-fault
run-ahead goes on without it. -/
def State.preHeld (s : State) : Option State :=
  match s.cur.trapPend with
  | none => none
  | some t =>
    match s.cur.spec with
    | 0 => some ({ s with cur := { s.cur with trapPend := none } }.takeTrap t)
    | 1 => none
    | n => some { s with cur := { s.cur with why := specWhy n } }

/-- Place of a cause in the order of the target's checks (R310). -/
def fabOrder (cause : Nat) : Nat := match cause with | 7 => 2 | 6 => 3 | 8 => 4 | _ => 5

/-- The use of the lane with the lowest `$tid`. -/
def lowestUse (us : List (FabUse × FabFail)) : Option (FabUse × FabFail) :=
  us.foldl (fun b u => match b with
    | some v => if u.1.tid < v.1.tid then some u else b
    | none => some u) none

/-- FAILED FABRIC REQUESTS: the earliest failed instruction is reported, with its lanes (R315). In trap mode only the
handler's own failures are. -/
def State.preFabric (s : State) : Option State :=
  let w := s.cur
  let due := w.fabFail.filter (fun x => !x.reported && (!w.tm || x.out.tm))
  match minNat (due.map (fun x => x.out.seq)) with
  | none => none
  | some n =>
    if w.spec != 0 then some { s with cur := { w with why := specWhy w.spec } }
    else
      let xs := due.filter (fun x => x.out.seq == n)
      match xs with
      | [] => none
      | x :: r =>
        let cause := (r.foldl (fun b y => if fabOrder y.cause < fabOrder b.cause then y else b) x).cause
        let uses := xs.flatMap (fun y => y.out.uses.map (fun u => (u, y)))
        let address := ((lowestUse uses).map (fun u => u.1.ea)).getD 0
        let first := lowestUse (uses.filter (fun u => u.2.cause == cause))
        let page := (first.map (fun u => u.1.ea)).getD 0
        let info := (first.map (fun u => u.2.stamp)).getD 0
        let t := mkTrap cause ((uses.map (fun u => u.1.lane)).eraseDups) address
          (if cause == 8 then info else if cause == 6 then 1 else 0)
          (if cause == 8 then s.contract else if cause == 6 then info else 0)
          (uses.map (fun u => (u.1.lane, u.2.cause))) x.out.offset x.out.word (if cause == 6 then [page] else [])
        let mark (y : FabFail) : FabFail := if xs.contains y then { y with reported := true } else y
        some ({ s with cur := { w with fabFail := w.fabFail.map mark } }.takeTrap t)

/-- The effect of `ffence` that a full replay buffer asks for (R320). -/
def State.preFence (s : State) : Option State :=
  match s.cur.mustFence with
  | [] => none
  | d :: _ =>
    if s.cur.spec != 0 then none
    else
      match s.fenceStep (some d) with
      | .ready s => some s
      | .waiting s => some { s with cur := { s.cur with why := .drain } }
      | .mismatch s d sent received num =>
        some (s.preTrap ⟨15, s.cur.issuingSet, mismatchAddr d, mismatchA sent received, mismatchB d num, []⟩ (s.wordOf s.cur s.at_))

/-- Lanes that have passed into a block whose header was not well formed, or could not be read: it is looked at again
(R49). -/
def State.preHeader (s : State) : Option State :=
  let w := s.cur
  match w.issuingSet.filter (fun l => (w.lane l).bad) with
  | [] => none
  | l :: r =>
    let h := (w.lane l).blk
    let ls := (l :: r).filter (fun k => (w.lane k).blk == h)
    match s.header w h with
    | .ok len => some { s with cur := w.enter ls h len }
    | .bad => some (s.preTrap (illegal ls) (s.wordOf s.cur s.at_))
    | .trap c a => some (s.preTrap ⟨c, ls, a, 0, 0, []⟩ 0)
    | .miss va => some (s.preMiss va)
    | .fault va m => some (s.preFault ls va m)

/-- The breakpoint that the wave is about to issue at (R283). -/
def Wave.breakAt (w : Wave) (v : Nat) : Option Nat :=
  if w.tm || w.bpSkip then none
  else (List.range 4).find? (fun k => let b := w.bp.getD k 0; tbit b 32 && b.toNat % 2 ^ 32 == v)
def State.preBreak (s : State) : Option State :=
  (s.cur.breakAt s.at_).map (fun k => s.preTrap ⟨21, s.cur.issuingSet, 0, k, 0, []⟩ (s.wordOf s.cur s.at_))

/-- What an instruction has to do with the open releases of waves. -/
inductive Orders where
  /-- nothing: it orders nothing between waves -/
  | nothing
  /-- an acquire at a scope -/
  | acquire (scope : Nat)
  /-- it may order what the model does not follow: every release is complete first -/
  | everything
  deriving DecidableEq, Repr
def Instr.orders (i : Instr) : Orders :=
  match i with
  | .fence f => if f.order.toNat % 2 == 1 then .acquire f.scope.toNat else .nothing
  | .atom f => if f.order.toNat % 2 == 1 then .acquire f.scope.toNat else .nothing
  | .red _ => .nothing
  | i => if rowOne i || Instr.usesBank i then .nothing else .everything

/-- OPEN RELEASES: before an acquire, those whose scope and that of the acquire include each other's waves are complete; before any
other instruction that orders waves, all are (R229, log 149). -/
def State.preOpen (s : State) : Option State :=
  if s.waves.all (fun w => w.opens.isEmpty) then none
  else
    match s.fetchNow s.cur s.at_ with
    | .word x =>
      (match (decode x).map Instr.orders with
       | some (.acquire scope) => let t := s.closeFor scope; if t.waves == s.waves then none else some t
       | some .everything => some s.closeAll
       | _ => none)
    | _ => none

/-- An atomic has been performed in some of its lanes and not in others: nothing comes between (R236). -/
def State.midAtom (s : State) : Bool := s.progress.any (fun p => 64 ≤ p.1)

/-- What happens before an issue, in place of it: the first that applies. -/
def State.before (s : State) : Option State :=
  if s.midAtom then s.preHeader.orElse (fun _ => s.preBreak)
  else
    s.preHeld.orElse (fun _ => s.preFabric.orElse (fun _ => s.preFence.orElse (fun _ =>
      s.preHeader.orElse (fun _ => s.preBreak.orElse (fun _ => s.preOpen)))))

/-! ### Fetch and decode -/

/-- ISSUE: the word at the lowest `vpc` is fetched and decoded, and its instruction runs (R18, R44, R69). -/
def State.fetchRun (s : State) : Host.Outcome State Fault Refusal :=
  match s.fetch s.cur s.at_ with
  | .word x =>
    (match decode x with
     | some i => exec i s
     | none => .next (s.preTrap (illegal s.cur.issuingSet) x))
  | .trap c a => .next (s.preTrap ⟨c, s.cur.issuingSet, a, 0, 0, []⟩ 0)
  | .miss va => .next (s.preMiss va)
  | .fault va m => .next (s.preFault s.cur.issuingSet va m)

/-- One issue of the current wave: the override where a count has reached its bound (R20), what comes before the issue,
or the instruction. -/
def State.issueNow (s : State) : Host.Outcome State Fault Refusal :=
  if s.cur.ovr.isEmpty && s.cur.overdue.isSome then exec .issueOverride s
  else
    match s.before with
    | some t => .next t
    | none => s.fetchRun

/-! ### The units that act on their own -/

/-- Actions that a wave has in flight. -/
def Wave.actions (w : Wave) : List Instr :=
  (match w.pend.findIdx? (fun p => !p.fabric) with | some k => [Instr.loadDataReturn w.key k] | none => []) ++
  (if w.pw.isEmpty then [] else [Instr.writeAcknowledgement w.key 0 0 0]) ++
  (if w.why == .release then [Instr.releasePoint w.key] else []) ++
  (below 16 (fun q => (w.copies.getD q none).isSome)).flatMap (fun q => [Instr.copyTransferStart w.key q, Instr.copyComplete w.key q]) ++
  (if w.mon.trig then [Instr.monitorTrigger w.key] else []) ++
  (if w.spec == 3 && w.why == .oldest then [Instr.taskTurnsNonspeculative w.key] else [])

/-- Actions of a core's units. -/
def coreActions (p : Nat × Core) : List Instr :=
  (if p.2.ableQ.isEmpty then [] else [Instr.issueSlotGrant p.1]) ++
  (if p.2.growQ.isEmpty then [] else [Instr.growUnitsFreed p.1]) ++
  (if p.2.misses.isEmpty then [] else [Instr.tlbMissWalk p.1]) ++
  (List.range p.2.engine.length).flatMap (fun k => [Instr.mmaOperationComplete p.1 k, Instr.engineEntryComplete p.1 k])

/-- Messages from the device to itself (R304). -/
def loopback (own : Nat) (m : Out) : Option Instr :=
  match m with
  | .fabReq r => if r.dst == own && r.src == own then some (.fabricRequestArrival r) else none
  | .fabResp dst core tag inc res => if dst == own then some (.fabricResponse core tag inc res) else none
  | .fabWait dst core tag inc => if dst == own then some (.fabricWaitNotice core tag inc) else none
  | .countQuery dst w n sent replayed => if dst == own then some (.fabricCountQuery own w n sent replayed) else none
  | .countReply dst w n sent received => if dst == own then some (.fabricResponse 0 0 0 (.count own w n sent received)) else none
  | _ => none

/-- Generations of a communicator that members of this device wait for. -/
def State.commActions (s : State) : List Instr :=
  s.comms.flatMap (fun c =>
    let ms := s.waves.flatMap (fun w => w.memb.filter (fun m => m.comm == some (c.slot, c.use)))
    (ms.filter Memb.pending).map (fun m => Instr.cbrOutcome c.slot m.g []) ++
    (ms.filter Memb.red).map (fun m => Instr.creduceGenerationComplete c.slot m.redGen []))

/-- Everything that may happen by itself, in the order in which the units act when nothing is scheduled. -/
def State.actions (s : State) : List Instr :=
  s.cores.flatMap coreActions ++ s.waves.flatMap Wave.actions ++ s.outbox.filterMap (loopback s.config.devNum) ++
  s.commActions ++ (s.grids.filter s.gridOver).map (fun g => Instr.gridCompletion g.id)

/-- The deadline of the `qpop` that the wave waits in (R286). -/
def State.popDeadline (s : State) (w : Wave) : List Nat :=
  if w.why != .record then []
  else
    match s.fetchNow w (w.issuePc.getD 0) with
    | .word x =>
      (match decode x with
       | some (.qpop f) | some (.qpopO f) =>
         let sb := (w.getS f.sb.toNat).toNat
         if f.pd == 15 || sb == 0 then [] else [sb]
       | _ => [])
    | _ => []

/-- What happens at a time, for one wave: deadlines of waits, bounds of collectives, deadlines of requests. -/
def State.waveTimed (s : State) (w : Wave) : List (Nat × Instr) :=
  (w.asleep.filter (fun p => p.2.2 != 0)).map (fun p => (p.2.2, Instr.mwaitDeadline w.key)) ++
  (s.popDeadline w).map (fun d => (d, Instr.qpopDeadline w.key)) ++
  (if w.cpySleepers.isEmpty then [] else ((s.focus w.key).copyDue.map (fun p => (p.1, Instr.copyPromiseWake w.key)))) ++
  (if w.spec == 2 && (w.membAt w.specMemb).pending
   then [((w.membAt w.specMemb).votedAt + s.stallBound w, Instr.collectiveStall w.key w.specMemb)] else []) ++
  (if w.why == .reduction
   then (w.memb.filter Memb.red).map (fun m => (m.redAt + s.stallBound w, Instr.creduceStall w.key)) else []) ++
  (w.fab.filter (fun o => o.sent && !o.held)).map (fun o => (o.req.deadline + 1, Instr.fabricRequestTimeout w.core o.req.tag))

/-- What happens at a time (R33: a timeout of a convergence region). -/
def State.timed (s : State) : List (Nat × Instr) :=
  s.waves.flatMap s.waveTimed ++
  (s.teams.filter (fun t => !t.saved)).flatMap (fun t => (List.range t.cv.length).flatMap (fun k =>
    let c := t.cvAt k
    if c.counts then [(c.start + s.cvBound t.grid, Instr.convergenceTimeout t.grid t.idx k)] else []))

/-- A wave that waits looks again at what it waits for; a page fault and a trap record wait for the fault service. -/
def Wave.lookAgain (w : Wave) : Wave :=
  if w.why == .pageFault || w.why == .trapRecord then w else { w with why := .none }

/-- An event that says nothing of the order of one wave's writes to another agent. -/
def Instr.ordersNothing : Instr → Bool
  | .loadDataReturn .. | .writeAcknowledgement .. | .releasePoint _ | .issueSlotGrant _ => true
  | _ => false

/-- Before any other event, every release that has been passed is complete (R228, log 149). -/
def State.closing (s : State) (i : Instr) : State := if Instr.ordersNothing i then s else s.closeAll

/-- The state after an action of a unit. -/
def State.acts (s : State) (i : Instr) : State :=
  match exec i (s.closing i) with
  | .next t => t
  | _ => s

/-- One tick passes, and the next wave has its turn. -/
def State.passTurn (s : State) : State := { s with gtc := s.gtc + 1 }.rotate

/-- Every fourth tick belongs to the units. -/
def State.unitsTurn (s : State) : Bool := s.gtc % 4 == 3

/-- Where the current wave does not issue: every unit acts once, what is due happens, and a wave that waits looks again at
what it waits for. A wave that may issue keeps its turn. -/
def State.idleStep (s : State) : State :=
  let s := s.actions.foldl State.acts s
  let s := if s.rma.isEmpty then s else s.closeAll
  let s := (List.range s.rma.length).foldl (fun s _ => s.rmaLand 0 0 ((s.rma.head?.map (fun r => r.2.length)).getD 0)) s
  let s := ((s.timed.filter (fun p => p.1 ≤ s.gtc)).map Prod.snd).foldl State.acts s
  if s.mayIssue then { s with gtc := s.gtc + 1 } else { s with cur := s.cur.lookAgain }.passTurn

/-! ### The schedule -/

/-- An element of a list is removed. -/
def dropAt (l : List α) (k : Nat) : List α := l.take k ++ l.drop (k + 1)

/-- A further effect on the state that comes next. -/
def andThen (o : Host.Outcome State Fault Refusal) (f : State → State) : Host.Outcome State Fault Refusal :=
  match o with
  | .next s => .next (f s)
  | o => o

/-- The Ringmaster writes or clears an entry of the export table of 256 entries (R310). -/
def State.exportWrite (s : State) (key : Nat) (e : Option Export) : State :=
  let k := key % 2 ^ 16
  match e with
  | none => { s with exports := mdel s.exports k }
  | some x => if (mget s.exports k).isNone && 256 ≤ s.exports.length then s else { s with exports := mput s.exports k x }

/-- What the environment brings that says nothing of the order of one wave's writes to another agent. -/
def Choice.ordersNothing : Choice → Bool
  | .event i => Instr.ordersNothing i
  | .wave _ | .wavePart .. | .lateRead .. | .loose _ | .advance _ | .evictTlb .. | .evictRec .. | .evictOp .. => true
  | _ => false

/-- A wave passes the release that it waits in before the release point (R229, log 149). -/
def State.setLoose (s : State) (key : WKey) : State :=
  s.onWave key (fun w => if w.why == .release then { w with loose := true, why := .none } else w)

/-- What the environment has chosen to happen. -/
def takeChoice (c : Choice) (s : State) : Host.Outcome State Fault Refusal :=
  match c with
  | .event i => if i.isEvent then exec i s else .next s
  | .wave k => let s := s.focus k; if s.mayIssue then s.issueNow else .next s
  | .wavePart k ls =>
    let s := { s.focus k with lanesNow := some ls }
    andThen (if s.mayIssue then s.issueNow else .next s) (fun s => { s with lanesNow := none })
  | .lateRead k n j => .next (s.lateRead k n j)
  | .loose k => .next (s.setLoose k)
  | .firmware k walker => .next (s.setFirmware k walker)
  | .softError => .next { s with softErrors := s.softErrors + 1 }
  | .exportWrite k e => .next (s.exportWrite k e)
  | .clockOffset dev ahead => .next { s with clockOff := mputD 0 s.clockOff dev ahead }
  | .importCkpt id k => .next (s.importCkpt id k)
  | .foreignStall slot gen red => .next (s.foreignStall slot gen red)
  | .foreignGrid dev launch runs => .next (s.foreignGrid dev launch runs)
  | .commInstall slot use ms contract scope => .next (s.commInstall slot use ms contract scope)
  | .commRemove slot use withdrawn => .next (s.commRemove slot use withdrawn)
  | .redRead slot gen rank k => .next (s.redRead slot gen rank k)
  | .redStart slot gen foreign => .next (s.redStart slot gen foreign)
  | .redGranule slot gen k => .next (s.redGranule slot gen k)
  | .barkerDrop => .next s.barkerDrop
  | .editRecord k t vpcs => .next (s.editRecord k t vpcs)
  | .rmaLand k j n => .next (s.rmaLand k j n)
  | .selfTest fails => .next { s with selfTestFailed := fails }
  | .advance n => .next { s with gtc := s.gtc + n }
  | .evictTlb core k => .next (let x := s.coreAt core; s.setCore core { x with tlb := dropAt x.tlb k })
  | .evictRec core k => .next (let x := s.coreAt core; s.setCore core { x with rcache := dropAt x.rcache k })
  | .evictOp core k => .next (let x := s.coreAt core; s.setCore core { x with opcache := dropAt x.opcache k })
  | .copyPiece k q n => .next (s.copyPiece k q n)
  | .copyBytes k q g loc n => .next (s.copyBytes k q g loc n)
  | .kstep core k => .next (s.kstep core k)

/-- A `sortk` that an exit or a producer has completed moves its threads (R39, R40). -/
def State.sortTidy (s : State) : State :=
  let ks := (s.waves.filter (fun w => w.lanes.any (fun x => x.st == .sort))).map (fun w => (w.key.grid, w.key.team))
  ks.eraseDups.foldl (fun s k => s.sortCheck k.1 k.2) s

/-- A wave without a slot could issue, if it held one: it would not find that it must go on waiting. -/
def State.trial (s : State) (w : Wave) : State × Bool :=
  let u := s.focus w.key
  let u : State := { u with cur := { u.cur with slot := true } }
  match u.issueNow with
  | .next t =>
    let why := t.cur.why
    if why != .none && { t with cur := { t.cur with why := .none } } == u then (s.onWave w.key (fun w => { w with why := why }), false)
    else (s, true)
  | _ => (s, true)

/-- WAVES THAT HAVE BECOME ABLE TO ISSUE line up for a slot, in order; one that would go on waiting does not (R25). -/
def State.lineUp (s : State) : State :=
  s.waves.foldl (fun s w =>
    if !w.able || (s.coreAt w.core).ableQ.contains w.key then s
    else
      let (s, ok) := s.trial w
      let c := s.coreAt w.core
      if ok then s.setCore w.core { c with ableQ := c.ableQ ++ [w.key] } else s) s

/-- Loads of class 3 that have read poisoned bytes as zero since the last step are counted (R214). -/
def State.countDue (s : State) : State :=
  s.waves.foldl (fun s w =>
    if w.duePoison == 0 then s
    else (s.countUp (s.gridOf w) 0x1C w.duePoison).onWave w.key (fun w => { w with duePoison := 0 })) s

/-- What follows every step: slots and requests, what producers have left, waits that are over, teams that are gone, queues
that are no longer valid, and the line for slots. -/
def State.settled (s : State) : State := s.breaches.tidy.sortTidy.barTidy.popsDone.countDue.reap.dropInvalid.lineUp

/-- ONE STEP: the next choice of the schedule; with none, the current wave issues where it may and then gives up its turn,
and else, or where it is their turn, the units act. -/
def runStep (s : State) : Host.Outcome State Fault Refusal :=
  andThen (match s.sched with
    | c :: r =>
      let s := { s with sched := r }
      takeChoice c (if c.ordersNothing then s else s.closeAll)
    | [] => if s.mayIssue && !s.unitsTurn then andThen s.issueNow State.passTurn else .next s.idleStep) State.settled

/-! ### A program of one word -/

/-- Where the word is placed. -/
def probeBase : Nat := 0x10000
/-- Header of a block of one word (R48). -/
def probeHeader : Nat := 0xFE * 2 ^ 56 + 2 ^ 46
/-- Leaf entry of the page: readable, writable, executable. -/
def probeLeaf : Word64 := BitVec.ofNat 64 (probeBase + 0x1F)
/-- A grid whose code segment is the header and the word. -/
def probeGrid : Grid := { Grid.zero with p := { LaunchPkt.zero with code := probeBase, codeLen := 2 }, nextTeam := 1 }
/-- A wave that stands at the word and holds an issue slot. -/
def probeWave : Wave :=
  { Wave.nobody with
    lanes := (List.range 16).map (fun l =>
      { Lane.zero with tid := l, vpc := 1, blk := 0, blkEnd := 1, st := .run, v := mputD 0 [] 0 (BitVec.ofNat 32 l) }),
    slot := true }

/-- THE STATE with one word where the next step fetches it: a grid of one wave, its page in the TLB, and the word behind a
block header. -/
def State.placeWord (s : State) (w : Nat) : State :=
  let c := s.coreAt 0
  let s := s.setCore 0 { c with tlb := { asid := 0, size := 0, va := probeBase, w0 := probeLeaf, w1 := 0 } :: c.tlb }
  let bytes := leBytes 8 probeHeader ++ leBytes 8 w
  { s with cur := probeWave, rest := s.waves.filter (fun x => !x.lanes.isEmpty && x.key != probeWave.key),
           grids := probeGrid :: s.grids.filter (fun (g : Grid) => g.id != 0),
           teams := ({ Team.zero with waves := 1 } : Team) :: s.teams.filter (fun (t : Team) => t.grid != 0), power := .p0, sched := [], stale := [],
           gtc := if s.unitsTurn then s.gtc + 1 else s.gtc,
           mem := (List.range 16).foldl (fun m k => Memory.write m (probeBase + k) (bytes.getD k 0)) s.mem }

end Sys2Proof.Machine
end

