-- ==== Sys2Proof/Safety.lean ====
section
/-! DEFINITION. The terms in which claims about the machine are made: a run that does not stop, the invariant, the
conditions under which an instruction has its effect, and what an issue changes beside that effect. -/

namespace Sys2Proof.Machine

/-- A step that answers a next state: the machine does not stop. -/
def Safe (s : State) : Prop := ∃ t, step s = .next t

/-- THE INVARIANT: memory is in its canonical form. -/
def Inv (s : State) : Prop := Memory.wf s.mem = true

/-! ### When an instruction has its effect -/

/-- The active lanes: those of the issuing set in which the guard holds (R5, R18, R46). -/
def active (i : Instr) (s : State) : List Nat :=
  s.cur.issuingSet.filter (fun l => guardHolds (Instr.guard i) (s.cur.lane l))

/-- Every register field lies within the allotment of its file (R28, R30). -/
abbrev Allotted (i : Instr) (s : State) : Prop :=
  ∀ o ∈ Instr.operands s i, o.kind ≠ 1 →
    o.num + o.cnt ≤ (if o.kind = 2 then (s.gridOf s.cur).p.acc else s.cur.alloc)

/-- No source or destination is empty (R30 to R33). -/
abbrev AllFull (i : Instr) (s : State) : Prop :=
  ∀ o ∈ Instr.operands s i, ∀ k < o.chk,
    (o.kind = 0 → o.num + k ∉ s.cur.vEmpty) ∧ (o.kind = 1 → o.num + k ∉ s.cur.sEmpty)

/-- With `.p`, every vector destination lies in the proposal window (R251). -/
abbrev InWindow (i : Instr) (s : State) : Prop :=
  Instr.usesBank i = true → ∀ o ∈ Instr.operands s i, o.dst = true → o.kind = 0 → ∀ k < o.cnt,
    s.cur.inWindow (o.num + k) = true

/-- Instructions whose own rules make further checks at issue in every lane of the issuing set, whatever its guard (R96, R161, R216,
R243, R263, R337). -/
def Instr.checksWhole (i : Instr) : Bool := Instr.trapsIdle i 11 || Instr.trapsIdle i 12

/-- READY: the checks at issue pass and some lane is active, outside a speculation, with no error in the register file or in a tile
that the instruction reads, and with neither debug bit of the wave set. -/
abbrev Ready (i : Instr) (s : State) : Prop :=
  legalHere s i = true ∧ Allotted i s ∧ AllFull i s ∧ InWindow i s ∧ s.cur.regErr = [] ∧
  readsBadTile s i (active i s) = false ∧ s.cur.spec = 0 ∧ s.cur.dbg = false ∧ s.cur.step = false ∧ active i s ≠ []

/-! ### What an issue changes beside the effect of the instruction -/

/-- A lane apart from where it stands. -/
def Lane.sansPos (x : Lane) : Lane := { x with vpc := 0, blk := 0, blkEnd := 0, bad := false }

/-- A wave apart from where its lanes stand, and apart from what `Moves` and `Counted` say of it: the written-groups mask (R51), the
counts and the lanes of the override (R20), the mark of a breakpoint passed (R283), the reason of its last wait, and what the
instruction had been performed of. -/
def Wave.sansIssue (w : Wave) : Wave :=
  { w with lanes := w.lanes.map Lane.sansPos, counts := [], ovr := [], bpSkip := false, why := .none, wgrp := 0, prog := [] }

/-- The machine apart from what an issue of its current wave changes beside the effect. -/
def State.sansIssue (s : State) : State := { s with cur := s.cur.sansIssue }

/-- A lane that has retired the last word of its block: it has passed into the next block, where the header there is well
formed; else it stands behind a header that its next issue finds wrong (R16, R49). -/
def State.nextBlock (u : State) (x : Lane) : Lane :=
  let h := x.blkEnd + 1
  match u.header u.cur h with
  | .ok len => { x with vpc := h + 1, blk := h, blkEnd := h + len, bad := false }
  | _ => { x with vpc := h + 1, blk := h, blkEnd := h + 1, bad := true }

/-- Every unexited lane of the wave stands in one block. -/
def Wave.oneBlock (w : Wave) : Prop :=
  w.liveLanes ≠ [] ∧ ∀ l ∈ w.liveLanes, ∀ k ∈ w.liveLanes, (w.lane k).blk = (w.lane l).blk

/-- One of the lanes stands at the last word of its block. -/
def Wave.someEnds (w : Wave) (ls : List Nat) : Prop := ∃ l ∈ ls, (w.lane l).blkEnd ≤ (w.lane l).vpc

/-- `t` is `u` once the lanes `ls` have moved on (R16, R18): the effect is that of `u`; a lane that is not at the end of its block
stands one word further, one that is has passed into the next block; no other lane has moved; and the written-groups
mask is cleared where a block was entered, `entered` saying whether the effect itself did so, and every unexited lane then stands
in one block (R51). -/
structure Moves (u t : State) (ls : List Nat) (entered : Prop) : Prop where
  same : t.sansIssue = u.sansIssue
  moved : ∀ l ∈ ls, l < u.cur.lanes.length → (u.cur.lane l).vpc < (u.cur.lane l).blkEnd →
    t.cur.lane l = { u.cur.lane l with vpc := (u.cur.lane l).vpc + 1 }
  passes : ∀ l ∈ ls, l < u.cur.lanes.length → (u.cur.lane l).blkEnd ≤ (u.cur.lane l).vpc →
    t.cur.lane l = u.nextBlock (u.cur.lane l)
  stays : ∀ l, l ∉ ls → t.cur.lane l = u.cur.lane l
  cleared : (entered ∨ u.cur.someEnds ls) → t.cur.oneBlock → t.cur.wgrp = 0
  kept : ¬ ((entered ∨ u.cur.someEnds ls) ∧ t.cur.oneBlock) → t.cur.wgrp = u.cur.wgrp

/-- The counts of the override after an issue of `s` with the effect `u` (R20): a `vpc` that ready lanes held before and hold
still, other than the one issued, counts one more, and every other one counts anew; the override goes on in its lanes that are
still ready and have entered no block. `before` is the list of the values that ready lanes held before. -/
structure Counted (s u t : State) (before ls : List Nat) : Prop where
  counts : u.cur.lanes ≠ [] → ∀ p, mgetD t.cur.counts p 0 =
    if p ∈ t.cur.readyPcs ∧ p ≠ s.at_ ∧ p ∈ before then mgetD u.cur.counts p 0 + 1 else 0
  overrides : u.cur.lanes ≠ [] → ∀ l, l ∈ t.cur.ovr ↔ l ∈ u.cur.ovr ∧ l ∈ t.cur.ready ∧
    ¬ (l ∈ ls ∧ (u.cur.lane l).blkEnd ≤ (u.cur.lane l).vpc)

/-- `t` is `u` once the instruction that `s` issues has retired in the lanes `ls`. -/
def Retires (s u t : State) (ls : List Nat) (entered : Prop) : Prop :=
  Moves u t ls entered ∧ (u.cur.tm = s.cur.tm → Counted s u t s.cur.readyPcs ls)

/-- THE INSTRUCTION COMPLETES with the effect `u`: the next state is `u`, with the issuing set retired. -/
def Completes (i : Instr) (s u : State) : Prop := ∃ t, exec i s = .next t ∧ Retires s u t s.cur.issuingSet False

/-- The instruction issues with the effect `u`; the lanes of `keep` stay at it, the rest of the issuing set retires. -/
def CompletesBut (i : Instr) (s u : State) (keep : List Nat) : Prop :=
  ∃ t, exec i s = .next t ∧ Retires s u t (s.cur.issuingSet.filter (fun l => !keep.contains l)) False

/-- The instruction traps, with the effect `u` before the trap: the next state is that of the trap's entry. -/
def Traps (i : Instr) (s u : State) (t : TrapReq) : Prop :=
  exec i s = .next (({ u with cur := { u.cur with bpSkip := false } }).takeTrap (t.info s.at_ (encode i)))

/-- The instruction transfers: its effect is `u`, every active lane `l` stands at the first word of the block whose header
is at `h l` and which has `len l` words, the other lanes of the issuing set retire, and the counts, the override and the mask are
as an issue with a block entry leaves them (R16, R18, R20, R51, R92). -/
def Transfers (i : Instr) (s u : State) (h len : Nat → Nat) : Prop :=
  ∃ t, exec i s = .next t ∧ t.sansIssue = u.sansIssue ∧
    (∀ l ∈ active i s, t.cur.lane l = { u.cur.lane l with vpc := h l + 1, blk := h l, blkEnd := h l + len l, bad := false }) ∧
    (∀ l ∈ s.cur.issuingSet, l ∉ active i s →
      t.cur.lane l = if (u.cur.lane l).vpc < (u.cur.lane l).blkEnd then { u.cur.lane l with vpc := (u.cur.lane l).vpc + 1 }
        else u.nextBlock (u.cur.lane l)) ∧
    (∀ l, l ∉ s.cur.issuingSet → t.cur.lane l = u.cur.lane l) ∧
    (t.cur.oneBlock → t.cur.wgrp = 0) ∧ (¬ t.cur.oneBlock → t.cur.wgrp = u.cur.wgrp) ∧
    (u.cur.tm = s.cur.tm →
      (∀ p, mgetD t.cur.counts p 0 =
        if p ∈ t.cur.readyPcs ∧ p ≠ s.at_ ∧ p ∈ s.cur.readyPcs then mgetD u.cur.counts p 0 + 1 else 0) ∧
      ∀ l, l ∈ t.cur.ovr ↔ l ∈ u.cur.ovr ∧ l ∈ t.cur.ready ∧ l ∉ active i s ∧
        ¬ (l ∈ s.cur.issuingSet ∧ (u.cur.lane l).blkEnd ≤ (u.cur.lane l).vpc))

/-! ### Values of a type (R52, R74, R89) -/

/-- A register value as a bit vector of the type. -/
def bvOf (t : Ty) (x : Nat) : BitVec (tyBits t) := BitVec.ofNat (tyBits t) x
/-- The number that a register value stands for under the type. -/
def numOf (t : Ty) (x : Nat) : Int := if tySigned t then (bvOf t x).toInt else ((bvOf t x).toNat : Int)
/-- The register value that stands for a number, modulo 2^n. -/
def bitsOf (t : Ty) (x : Int) : Nat := (BitVec.ofInt (tyBits t) x).toNat
/-- The number nearest to `x` among those of the type. -/
def clampTo (t : Ty) (x : Int) : Int :=
  if tySigned t then max (BitVec.intMin (tyBits t)).toInt (min (BitVec.intMax (tyBits t)).toInt x)
  else max 0 (min ((BitVec.allOnes (tyBits t)).toNat : Int) x)
/-- An exact integer result in a register: modulo 2^n, or with `.sat` clamped, with the flag where that changes it. -/
def satResult (t : Ty) (sat : Bool) (x : Int) : Nat × BitVec 6 :=
  if sat then (bitsOf t (clampTo t x), if clampTo t x = x then 0 else flSat) else (bitsOf t x, 0)
/-- A value of the type, zero- or sign-extended to a scalar register. -/
def scalarOf (t : Ty) (v : BitVec (tyBits t)) : Word64 := if tySigned t then v.signExtend 64 else v.setWidth 64
/-- The condition of a compare, by its code (R80). -/
def compares (c : Nat) (x y : Int) : Prop :=
  match c with
  | 0 => x = y | 1 => x ≠ y | 2 => x < y | 3 => x ≤ y | 4 => y < x | _ => y ≤ x

/-! ### Values of float codes, from their bits (R106, R110), and what correct rounding is (R116) -/

/-- The exponent and the fraction field of a code. -/
def expField (f : FFmt) (c : Nat) : Nat := c / 2 ^ f.fb % 2 ^ f.eb
def fracField (f : FFmt) (c : Nat) : Nat := c % 2 ^ f.fb
/-- The code stands for a number. -/
def finiteCode (f : FFmt) (c : Nat) : Prop := c < 2 ^ (1 + f.eb + f.fb) ∧ expField f c ≠ 2 ^ f.eb - 1
/-- The code stands for a NaN; a signalling one has the highest fraction bit clear. -/
def nanCode (f : FFmt) (c : Nat) : Prop := c < 2 ^ (1 + f.eb + f.fb) ∧ expField f c = 2 ^ f.eb - 1 ∧ fracField f c ≠ 0
def sigCode (f : FFmt) (c : Nat) : Prop := nanCode f c ∧ fracField f c < 2 ^ (f.fb - 1)
/-- The number that a code stands for. -/
def codeVal (f : FFmt) (c : Nat) : ℚ :=
  (if c / 2 ^ (f.eb + f.fb) % 2 = 1 then -1 else 1) *
  (if expField f c = 0 then (fracField f c : ℚ) * 2 ^ (1 - f.bias - f.fb)
   else ((2 ^ f.fb + fracField f c : Nat) : ℚ) * 2 ^ ((expField f c : Int) - f.bias - f.fb))
/-- The largest number of the format. -/
def maxVal (f : FFmt) : ℚ := ((2 ^ (f.fb + 1) - 1 : Nat) : ℚ) * 2 ^ ((2 ^ f.eb - 2 : Int) - f.bias - f.fb)

/-- `r` is the code of the number of the format that a rounding of `q` in the mode selects: the nearest, a tie going to the even
fraction; the nearest not larger in magnitude; the largest at most `q`; the smallest at least `q`. -/
def RoundsTo (f : FFmt) (mode : RMode) (q : ℚ) (r : Nat) : Prop :=
  match mode with
  | .rz => 0 ≤ codeVal f r * q ∧ |codeVal f r| ≤ |q| ∧ ∀ y, finiteCode f y → |codeVal f y| ≤ |q| → |codeVal f y| ≤ |codeVal f r|
  | .rm => codeVal f r ≤ q ∧ ∀ y, finiteCode f y → codeVal f y ≤ q → codeVal f y ≤ codeVal f r
  | .rp => q ≤ codeVal f r ∧ ∀ y, finiteCode f y → q ≤ codeVal f y → codeVal f r ≤ codeVal f y
  | _ => ∀ y, finiteCode f y → |codeVal f r - q| ≤ |codeVal f y - q| ∧
      (|codeVal f y - q| = |codeVal f r - q| → codeVal f y ≠ codeVal f r → r % 2 = 0)

/-- The result and the flags of an operation whose exact result is the number `q` (R116): a number is the correct rounding, with
no flag where it is exact and with inexact where it is not; an infinity is an overflow of a number beyond the largest. -/
def RoundedResult (f : FFmt) (mode : RMode) (q : ℚ) (r : Nat × BitVec 6) : Prop :=
  (finiteCode f r.1 → RoundsTo f mode q r.1 ∧ (codeVal f r.1 = q → r.2 = 0) ∧ (codeVal f r.1 ≠ q → r.2 &&& flInexact ≠ 0)) ∧
  (¬ finiteCode f r.1 → maxVal f < |q| ∧ expField f r.1 = 2 ^ f.eb - 1 ∧ fracField f r.1 = 0 ∧ r.2 = flOverflow ||| flInexact ∧
    (r.1 / 2 ^ (f.eb + f.fb) = 1 ↔ q < 0))

/-- `r` is the correct rounding of the square root of the positive number `q`, told by squares: no flag where the root is a
number of the format, and inexact where it is not. The root is never halfway between two numbers of the format. -/
def RoundsRoot (f : FFmt) (mode : RMode) (q : ℚ) (r : Nat × BitVec 6) : Prop :=
  let v := codeVal f r.1
  finiteCode f r.1 ∧ 0 < v ∧ r.2 = (if v * v = q then 0 else flInexact) ∧ ∀ y, finiteCode f y → 0 ≤ codeVal f y →
    match mode with
    | .rz | .rm => v * v ≤ q ∧ (codeVal f y * codeVal f y ≤ q → codeVal f y ≤ v)
    | .rp => q ≤ v * v ∧ (q ≤ codeVal f y * codeVal f y → v ≤ codeVal f y)
    | _ => (v < codeVal f y → 4 * q ≤ (v + codeVal f y) * (v + codeVal f y)) ∧
        (codeVal f y < v → (v + codeVal f y) * (v + codeVal f y) ≤ 4 * q)

/-- `k` is `q` rounded to an integer in the mode. -/
def RoundsToInt (mode : RMode) (q : ℚ) (k : Int) : Prop :=
  match mode with
  | .rz => 0 ≤ (k : ℚ) * q ∧ |(k : ℚ)| ≤ |q| ∧ |q| < |(k : ℚ)| + 1
  | .rm => (k : ℚ) ≤ q ∧ q < k + 1
  | .rp => q ≤ k ∧ (k : ℚ) < q + 1
  | _ => |q - k| ≤ 1 / 2 ∧ (|q - k| = 1 / 2 → k % 2 = 0)

/-! ### Effects on registers -/

/-- The state with another current wave. -/
def State.withCur (s : State) (w : Wave) : State := { s with cur := w }

/-- The value of format A's destination in every active lane, with its flags: `val` gives them by lane. -/
def putA (f : FmtA) (s : State) (act : List Nat) (wide : Bool) (val : Nat → Nat × BitVec 6) : State :=
  s.withCur (s.cur.writeFlagged f.p wide f.vd.toNat act val)
/-- The same of format B. -/
def putB (f : FmtB) (s : State) (act : List Nat) (wide : Bool) (val : Nat → Nat × BitVec 6) : State :=
  s.withCur (s.cur.writeFlagged f.p wide f.vd.toNat act val)
/-- The sources of format A in a lane: the first, the second at the width of the type, and the second as one register. -/
def srcA (f : FmtA) (s : State) (l : Nat) : Nat := s.cur.readX f.p f.ty.wide l f.va.toNat
def srcB (f : FmtA) (s : State) (l : Nat) : Nat := s.cur.readX f.p f.ty.wide l f.vb.toNat
def srcB1 (f : FmtA) (s : State) (l : Nat) : Nat := s.cur.readX f.p false l f.vb.toNat
/-- The sources of format B in a lane. -/
def srcs (f : FmtB) (s : State) (wide : Bool) (l : Nat) : Nat × Nat × Nat :=
  (s.cur.readX f.p wide l f.va.toNat, s.cur.readX f.p wide l f.vb.toNat, s.cur.readX f.p wide l f.vc.toNat)

/-- The predicate `k` of every active lane. -/
def putP (s : State) (k : Nat) (act : List Nat) (val : Nat → Bool) : State := s.withCur (s.cur.writePreds k act val)

/-- The sources of format S as values of the type: the second is a register or the immediate, sign-extended (R59). -/
def sclA (f : FmtS) (s : State) : BitVec (tyBits f.ty) := bvOf f.ty (s.cur.getS f.sa.toNat).toNat
def sclB (f : FmtS) (s : State) : BitVec (tyBits f.ty) :=
  bvOf f.ty (if f.i then (f.imm.signExtend 64).toNat else (s.cur.getS f.sb.toNat).toNat)
/-- The scalar destination of format S. -/
def putScalar (f : FmtS) (s : State) (v : BitVec (tyBits f.ty)) : State := s.putS f.sd.toNat (scalarOf f.ty v)

end Sys2Proof.Machine
end

