-- ==== Sys2Proof/Certificates/Slice0/Obligations.lean ====
section
/-! DEFINITION. The statements for the provers. -/

open Sys2Proof Sys2Proof.Machine

/-! ### Vector integer instructions (R73 to R81) -/

/-- Addition, subtraction, multiplication, multiply-add, minimum, maximum and absolute difference (R74 to R76): every
active lane receives the exact result modulo 2^n, or with `.sat` clamped to the type with the saturation flag; nothing else
changes but where the lanes stand. -/
def Obligations.IntegerArithmeticResults : Prop :=
  (∀ (f : FmtA) (s : State),
    (Ready (.vadd f) s → Completes (.vadd f) s (putA f s (active (.vadd f) s) f.ty.wide (fun l =>
      satResult f.ty f.sat (numOf f.ty (srcA f s l) + numOf f.ty (srcB f s l))))) ∧
    (Ready (.vsub f) s → Completes (.vsub f) s (putA f s (active (.vsub f) s) f.ty.wide (fun l =>
      satResult f.ty f.sat (numOf f.ty (srcA f s l) - numOf f.ty (srcB f s l))))) ∧
    (Ready (.vmul f) s → Completes (.vmul f) s (putA f s (active (.vmul f) s) f.ty.wide (fun l =>
      satResult f.ty f.sat (numOf f.ty (srcA f s l) * numOf f.ty (srcB f s l))))) ∧
    (Ready (.vmulh f) s → Completes (.vmulh f) s (putA f s (active (.vmulh f) s) f.ty.wide (fun l =>
      (bitsOf f.ty (numOf f.ty (srcA f s l) * numOf f.ty (srcB f s l) / 2 ^ 32), 0)))) ∧
    (Ready (.vmin f) s → Completes (.vmin f) s (putA f s (active (.vmin f) s) f.ty.wide (fun l =>
      (bitsOf f.ty (min (numOf f.ty (srcA f s l)) (numOf f.ty (srcB f s l))), 0)))) ∧
    (Ready (.vmax f) s → Completes (.vmax f) s (putA f s (active (.vmax f) s) f.ty.wide (fun l =>
      (bitsOf f.ty (max (numOf f.ty (srcA f s l)) (numOf f.ty (srcB f s l))), 0)))) ∧
    (Ready (.vabsd f) s → Completes (.vabsd f) s (putA f s (active (.vabsd f) s) f.ty.wide (fun l =>
      (bitsOf f.ty ((numOf f.ty (srcA f s l) - numOf f.ty (srcB f s l)).natAbs : Int), 0))))) ∧
  (∀ (f : FmtB) (s : State), Ready (.vmad f) s →
    Completes (.vmad f) s (putB f s (active (.vmad f) s) f.ty.wide (fun l =>
      let (a, b, c) := srcs f s f.ty.wide l
      (bitsOf f.ty (numOf f.ty a * numOf f.ty b + numOf f.ty c), 0))))

/-- Logic, select, shifts and rotations (R77): every active lane receives the bit-vector result. -/
def Obligations.LogicAndShiftResults : Prop :=
  (∀ (f : FmtA) (s : State),
    let a := fun l => bvOf f.ty (srcA f s l)
    let b := fun l => bvOf f.ty (srcB f s l)
    let n := fun l => srcB1 f s l
    (Ready (.vand f) s → Completes (.vand f) s (putA f s (active (.vand f) s) f.ty.wide (fun l => ((a l &&& b l).toNat, 0)))) ∧
    (Ready (.vor f) s → Completes (.vor f) s (putA f s (active (.vor f) s) f.ty.wide (fun l => ((a l ||| b l).toNat, 0)))) ∧
    (Ready (.vxor f) s → Completes (.vxor f) s (putA f s (active (.vxor f) s) f.ty.wide (fun l => ((a l ^^^ b l).toNat, 0)))) ∧
    (Ready (.vnot f) s → Completes (.vnot f) s (putA f s (active (.vnot f) s) f.ty.wide (fun l => ((~~~ a l).toNat, 0)))) ∧
    (Ready (.vshl f) s → Completes (.vshl f) s (putA f s (active (.vshl f) s) f.ty.wide (fun l => ((a l <<< n l).toNat, 0)))) ∧
    (Ready (.vshr f) s → Completes (.vshr f) s (putA f s (active (.vshr f) s) f.ty.wide (fun l => ((a l >>> n l).toNat, 0)))) ∧
    (Ready (.vsar f) s → Completes (.vsar f) s (putA f s (active (.vsar f) s) f.ty.wide (fun l =>
      (((a l).sshiftRight (n l)).toNat, 0)))) ∧
    (Ready (.vrot f) s → Completes (.vrot f) s (putA f s (active (.vrot f) s) f.ty.wide (fun l =>
      ((if f.minor = 0 then (a l).rotateLeft (n l) else (a l).rotateRight (n l)).toNat, 0))))) ∧
  (∀ (f : FmtB) (s : State), Ready (.vsel f) s →
    Completes (.vsel f) s (putB f s (active (.vsel f) s) f.ty.wide (fun l =>
      let (a, b, c) := srcs f s f.ty.wide l
      (((bvOf f.ty a &&& bvOf f.ty c) ||| (bvOf f.ty b &&& ~~~ bvOf f.ty c)).toNat, 0))))

/-- Leading zeros, population, bit reversal, and the extraction and insertion of a field (R77, R78). -/
def Obligations.BitFieldResults : Prop :=
  (∀ (f : FmtA) (s : State),
    (Ready (.vclz f) s → Completes (.vclz f) s (putA f s (active (.vclz f) s) f.ty.wide (fun l =>
      ((bvOf f.ty (srcA f s l)).clz.toNat, 0)))) ∧
    (Ready (.vpopc f) s → Completes (.vpopc f) s (putA f s (active (.vpopc f) s) f.ty.wide (fun l =>
      ((List.range (tyBits f.ty)).countP (fun k => (srcA f s l).testBit k), 0)))) ∧
    (Ready (.vbrev f) s → Completes (.vbrev f) s (putA f s (active (.vbrev f) s) f.ty.wide (fun l =>
      ((bvOf f.ty (srcA f s l)).reverse.toNat, 0))))) ∧
  (∀ (f : FmtB) (s : State),
    (Ready (.vext f) s → Completes (.vext f) s (putB f s (active (.vext f) s) false (fun l =>
      let (a, b, c) := srcs f s false l
      let field := (BitVec.ofNat 32 b ++ BitVec.ofNat 32 a).extractLsb' (c % 64) (min (c / 256 % 64) 32)
      (if f.ty = .s32 then (field.signExtend 32).toNat else (field.setWidth 32).toNat, 0)))) ∧
    (Ready (.vins f) s → ∃ v : Nat → Nat,
      Completes (.vins f) s (putB f s (active (.vins f) s) false (fun l => (v l, 0))) ∧
      ∀ l, v l < 2 ^ 32 ∧ ∀ k < 32,
        let (a, b, c) := srcs f s false l
        let pos := c % 32
        (v l).testBit k = if pos ≤ k ∧ k < pos + min (c / 256 % 64) (32 - pos) then b.testBit (k - pos) else a.testBit k))

/-- Addition with a carry predicate, compares, and moves (R79 to R81). -/
def Obligations.CarryCompareMoveResults : Prop :=
  (∀ (f : FmtA) (s : State),
    (Ready (.vaddc f) s →
      let k := f.minor.toNat % 16
      let sum := fun l => s.cur.readX f.p false l f.va.toNat + s.cur.readX f.p false l f.vb.toNat + (predOf (s.cur.lane l) k).toNat
      Completes (.vaddc f) s (s.withCur ((s.cur.writeLanes f.p false f.vd.toNat (active (.vaddc f) s)
        (fun l => sum l % 2 ^ 32)).writePreds k (active (.vaddc f) s) (fun l => decide (2 ^ 32 ≤ sum l))))) ∧
    (Ready (.vcmp f) s → ∃ c : Nat → Bool,
      Completes (.vcmp f) s (putP s f.vd.toNat (active (.vcmp f) s) c) ∧
      ∀ l, c l = true ↔ compares f.minor.toNat (numOf f.ty (s.cur.readX false f.ty.wide l f.va.toNat))
        (numOf f.ty (s.cur.readX false f.ty.wide l f.vb.toNat))) ∧
    (Ready (.vmov f) s → Completes (.vmov f) s (putA f s (active (.vmov f) s) f.ty.wide (fun l => (srcA f s l, 0))))) ∧
  (∀ (f : FmtD) (s : State), Ready (.vmovi f) s →
    Completes (.vmovi f) s (s.withCur (s.cur.writeLanes f.p false f.rd.toNat (active (.vmovi f) s) (fun _ => f.imm.toNat)))) ∧
  (∀ (f : FmtSV) (s : State),
    (Ready (.vtos f) s → Completes (.vtos f) s
      (s.putS f.sr.toNat (BitVec.ofNat 64 (s.cur.readX false f.ty.wide f.lane.toNat f.vr.toNat)))) ∧
    (Ready (.stov f) s → Completes (.stov f) s (s.withCur (s.cur.writeLanes f.p f.ty.wide f.vr.toNat (active (.stov f) s)
      (fun _ => (s.cur.getS f.sr.toNat).toNat)))))

/-! ### Lane operations (R82 to R88) -/

/-- Shuffle, broadcast, vote and compaction: every active lane is a member of the mask, and receives what the members
hold (R82 to R86, R88). Where some active lane is no member, every active lane takes the illegal-instruction trap, and the
instruction has no effect; so too the reduction and the scan (R82). -/
def Obligations.LaneExchangeResults : Prop :=
  (∀ (f : FmtB) (s : State), Ready (.vshfl f) s → (∀ l ∈ active (.vshfl f) s, tbit (s.cur.getS f.vc.toNat) l = true) →
    Completes (.vshfl f) s (s.withCur (s.cur.writeLanes f.p f.ty.wide f.vd.toNat (active (.vshfl f) s) (fun l =>
      let own := s.cur.readX f.p f.ty.wide l f.va.toNat
      let d := s.cur.readX f.p false l f.vb.toNat
      let src := match f.minor.toNat with
        | 0 => some d | 1 => if d ≤ l then some (l - d) else none | 2 => some (l + d) | _ => some (l ^^^ d)
      match src with
      | none => own
      | some k =>
        if k < s.cur.width ∧ tbit (s.cur.getS f.vc.toNat) k = true then
          if (s.cur.lane k).st = .exited then 0 else s.cur.readX f.p f.ty.wide k f.va.toNat
        else own)))) ∧
  (∀ (f : FmtA) (s : State),
    (Ready (.vbcast f) s →
      let k := (s.cur.getS f.vb.toNat).toNat % s.cur.width
      Completes (.vbcast f) s (s.withCur (s.cur.writeLanes f.p f.ty.wide f.vd.toNat (active (.vbcast f) s) (fun _ =>
        if (s.cur.lane k).st = .exited then 0 else s.cur.readX f.p f.ty.wide k f.va.toNat)))) ∧
    (let members := s.cur.idx.filter (fun m => tbit (s.cur.getS f.vb.toNat) m && (s.cur.lane m).live)
     let holds := fun m => predOf (s.cur.lane m) f.va.toNat
     (Ready (.vvote f) s → (∀ l ∈ active (.vvote f) s, tbit (s.cur.getS f.vb.toNat) l = true) →
       Completes (.vvote f) s (
         if f.minor = 2 then s.withCur (s.cur.writeLanes f.p (s.cur.width == 64) f.vd.toNat (active (.vvote f) s)
             (fun _ => (maskOf (members.filter holds)).toNat))
         else putP s f.vd.toNat (active (.vvote f) s) (fun _ =>
           if f.minor = 0 then members.all holds else if f.minor = 1 then members.any holds
           else members.all holds || !members.any holds))) ∧
     (Ready (.vcompact f) s → (∀ l ∈ active (.vcompact f) s, tbit (s.cur.getS f.vb.toNat) l = true) →
       Completes (.vcompact f) s (s.withCur (s.cur.writeLanes f.p false f.vd.toNat (active (.vcompact f) s) (fun l =>
         (members.filter (fun m => holds m && decide ((s.cur.lane m).tid < (s.cur.lane l).tid))).length)))))) ∧
  (∀ (i : Instr) (mask : Word64) (s : State),
    (∃ f : FmtB, i = .vshfl f ∧ mask = s.cur.getS f.vc.toNat) ∨
    (∃ f : FmtA, mask = s.cur.getS f.vb.toNat ∧ (i = .vvote f ∨ i = .vcompact f ∨ i = .vred f ∨ i = .vscan f)) →
    Ready i s → (∃ l ∈ active i s, tbit mask l = false) → Traps i s s ⟨1, active i s, 0, 0, 0, []⟩)

/-- Reduction and scan (R83, R87): members contribute in the order of `$tid`, an exited member the identity; a reduction
combines neighbours level by level, a scan folds from the identity. The sum of an integer reduction is the sum of the
contributions modulo 2^n. -/
def Obligations.ReductionAndScanResults : Prop :=
  ∀ (f : FmtA) (s : State),
    let ms := s.cur.byTid (s.cur.members (s.cur.getS f.vb.toNat))
    let gives := fun op m => if (s.cur.lane m).st = .exited then identity f.ty op else srcA f s m
    (Ready (.vred f) s → (∀ l ∈ active (.vred f) s, tbit (s.cur.getS f.vb.toNat) l = true) →
      let xs := ms.map (gives f.minor.toNat)
      let r := tree (combine s.contract f.ty f.minor.toNat) xs.length xs
      Completes (.vred f) s (putA f s (active (.vred f) s) f.ty.wide (fun _ => r)) ∧
      (f.ty.isInt = true → f.minor = 0 → xs ≠ [] → r = (xs.sum % 2 ^ tyBits f.ty, 0))) ∧
    (Ready (.vscan f) s → (∀ l ∈ active (.vscan f) s, tbit (s.cur.getS f.vb.toNat) l = true) →
      Completes (.vscan f) s (putA f s (active (.vscan f) s) f.ty.wide (fun l =>
        foldOp (combine s.contract f.ty (f.minor.toNat % 8)) (identity f.ty (f.minor.toNat % 8))
          ((ms.filter (fun m => if 8 ≤ f.minor.toNat then decide ((s.cur.lane m).tid < (s.cur.lane l).tid)
            else decide ((s.cur.lane m).tid ≤ (s.cur.lane l).tid))).map (gives (f.minor.toNat % 8))))))

/-! ### Scalar instructions (R89 to R91) -/

/-- Scalar arithmetic, logic, shifts, moves and compare: the result of the type extended to 64 bits, once for the wave. -/
def Obligations.ScalarResults : Prop :=
  (∀ (f : FmtS) (s : State),
    let a := sclA f s
    let b := sclB f s
    (Ready (.sadd f) s → Completes (.sadd f) s (putScalar f s (a + b))) ∧
    (Ready (.ssub f) s → Completes (.ssub f) s (putScalar f s (a - b))) ∧
    (Ready (.smul f) s → Completes (.smul f) s (putScalar f s (a * b))) ∧
    (Ready (.smad f) s → Completes (.smad f) s (putScalar f s (a * b + bvOf f.ty (s.cur.getS f.sd.toNat).toNat))) ∧
    (Ready (.sand f) s → Completes (.sand f) s (putScalar f s (a &&& b))) ∧
    (Ready (.sor f) s → Completes (.sor f) s (putScalar f s (a ||| b))) ∧
    (Ready (.sxor f) s → Completes (.sxor f) s (putScalar f s (a ^^^ b))) ∧
    (Ready (.sshl f) s → Completes (.sshl f) s (putScalar f s (a <<< b.toNat))) ∧
    (Ready (.sshr f) s → Completes (.sshr f) s (putScalar f s (a >>> b.toNat))) ∧
    (Ready (.ssar f) s → Completes (.ssar f) s (putScalar f s (a.sshiftRight b.toNat))) ∧
    (Ready (.smov f) s → Completes (.smov f) s (putScalar f s a)) ∧
    (Ready (.scmp f) s → ∃ c : Bool, Completes (.scmp f) s (putP s f.sd.toNat (active (.scmp f) s) (fun _ => c)) ∧
      (c = true ↔ compares f.minor.toNat (numOf f.ty a.toNat) (numOf f.ty b.toNat)))) ∧
  (∀ (f : FmtD) (s : State), Ready (.smovi f) s → Completes (.smovi f) s (s.putS f.rd.toNat (
    if f.minor = 0 then f.imm.setWidth 64 else if f.minor = 1 then f.imm.signExtend 64
    else f.imm ++ (s.cur.getS f.rd.toNat).setWidth 32)))

/-! ### Floating point, conversion and functions (R131 to R152) -/

/-- Floating-point arithmetic (R135, R136, R141): every active lane receives the operation's result on its operands under
the grid's contract and the word's rounding mode, and the operation's flags are ORed into its status. -/
def Obligations.FloatArithmeticResults : Prop :=
  (∀ (f : FmtA) (s : State),
    let two := fun (op : Nat → Nat → Nat × BitVec 6) (l : Nat) =>
      let lo := op (srcA f s l % 2 ^ 16) (srcB f s l % 2 ^ 16)
      let hi := op (srcA f s l / 2 ^ 16 % 2 ^ 16) (srcB f s l / 2 ^ 16 % 2 ^ 16)
      (lo.1 % 2 ^ 16 + hi.1 % 2 ^ 16 * 2 ^ 16, lo.2 ||| hi.2)
    (Ready (.fadd f) s → Completes (.fadd f) s (putA f s (active (.fadd f) s) f.ty.wide (fun l =>
      (tyFmt f.ty).fadd s.contract (RMode.ofCode f.rnd.toNat) (srcA f s l) (srcB f s l)))) ∧
    (Ready (.fsub f) s → Completes (.fsub f) s (putA f s (active (.fsub f) s) f.ty.wide (fun l =>
      (tyFmt f.ty).fsub s.contract (RMode.ofCode f.rnd.toNat) (srcA f s l) (srcB f s l)))) ∧
    (Ready (.fmul f) s → Completes (.fmul f) s (putA f s (active (.fmul f) s) f.ty.wide (fun l =>
      (tyFmt f.ty).fmul s.contract (RMode.ofCode f.rnd.toNat) (srcA f s l) (srcB f s l)))) ∧
    (Ready (.fmin f) s → Completes (.fmin f) s (putA f s (active (.fmin f) s) f.ty.wide (fun l =>
      (tyFmt f.ty).fminmax s.contract false (srcA f s l) (srcB f s l)))) ∧
    (Ready (.fmax f) s → Completes (.fmax f) s (putA f s (active (.fmax f) s) f.ty.wide (fun l =>
      (tyFmt f.ty).fminmax s.contract true (srcA f s l) (srcB f s l)))) ∧
    (Ready (.hadd2 f) s → Completes (.hadd2 f) s (putA f s (active (.hadd2 f) s) false (two
      ((halfFmt f.ty).fadd s.contract (RMode.ofCode f.rnd.toNat))))) ∧
    (Ready (.hmul2 f) s → Completes (.hmul2 f) s (putA f s (active (.hmul2 f) s) false (two
      ((halfFmt f.ty).fmul s.contract (RMode.ofCode f.rnd.toNat)))))) ∧
  (∀ (f : FmtB) (s : State),
    (Ready (.ffma f) s → Completes (.ffma f) s (putB f s (active (.ffma f) s) f.ty.wide (fun l =>
      let (a, b, c) := srcs f s f.ty.wide l
      (tyFmt f.ty).ffma s.contract (RMode.ofCode f.rnd.toNat) a b c))) ∧
    (Ready (.hfma2 f) s → Completes (.hfma2 f) s (putB f s (active (.hfma2 f) s) false (fun l =>
      let (a, b, c) := srcs f s false l
      let op := fun e => (halfFmt f.ty).ffma s.contract (RMode.ofCode f.rnd.toNat) (a / 2 ^ (16 * e) % 2 ^ 16)
        (b / 2 ^ (16 * e) % 2 ^ 16) (c / 2 ^ (16 * e) % 2 ^ 16)
      ((op 0).1 % 2 ^ 16 + (op 1).1 % 2 ^ 16 * 2 ^ 16, (op 0).2 ||| (op 1).2)))) ∧
    (Ready (.fdot2 f) s → Completes (.fdot2 f) s (putB f s (active (.fdot2 f) s) false (fun l =>
      let (a, b, c) := srcs f s false l
      dot2 s.contract (RMode.ofCode f.rnd.toNat) (halfFmt f.ty) a b c))))

/-- Comparison, classification and the taking apart of numbers (R137 to R140). -/
def Obligations.FloatInspectionResults : Prop :=
  ∀ (f : FmtA) (s : State),
    (Ready (.fcmp f) s →
      let r := fun l => (tyFmt f.ty).fcmp s.contract f.minor.toNat (s.cur.readX false f.ty.wide l f.va.toNat)
        (s.cur.readX false f.ty.wide l f.vb.toNat)
      Completes (.fcmp f) s (s.withCur ((s.cur.writePreds f.vd.toNat (active (.fcmp f) s) (fun l => (r l).1)).orFlags
        (active (.fcmp f) s) (fun l => (r l).2)))) ∧
    (Ready (.fclass f) s → Completes (.fclass f) s (putA f s (active (.fclass f) s) false (fun l =>
      ((tyFmt f.ty).fclass (srcA f s l), 0)))) ∧
    (Ready (.fround f) s → Completes (.fround f) s (putA f s (active (.fround f) s) f.ty.wide (fun l =>
      (tyFmt f.ty).fround s.contract (RMode.ofCode f.rnd.toNat) (srcA f s l)))) ∧
    (Ready (.fscale f) s → Completes (.fscale f) s (putA f s (active (.fscale f) s) f.ty.wide (fun l =>
      (tyFmt f.ty).fscale s.contract (RMode.ofCode f.rnd.toNat) (srcA f s l) (BitVec.ofNat 32 (srcB1 f s l)).toInt))) ∧
    (Ready (.fexp f) s → Completes (.fexp f) s (putA f s (active (.fexp f) s) f.ty.wide (fun l =>
      (tyFmt f.ty).fexp s.contract (srcA f s l)))) ∧
    (Ready (.fman f) s → Completes (.fman f) s (putA f s (active (.fman f) s) f.ty.wide (fun l =>
      (tyFmt f.ty).fman s.contract (srcA f s l))))

/-- Conversions (R142 to R145): each active lane converts the code that it reads between the formats that the minor field
names; `.sr` draws once from stream 7 in each active lane. -/
def Obligations.ConversionResults : Prop :=
  ∀ (f : FmtA) (s : State),
    let dst := f.minor.toNat / 16
    let src := f.minor.toNat % 16
    let x := fun l => s.cur.readX f.p (fmtWide src) l f.va.toNat
    (Ready (.fcvt f) s → f.rnd ≠ 4 → Completes (.fcvt f) s (putA f s (active (.fcvt f) s) (fmtWide dst) (fun l =>
      fcvtVal s.contract dst src f.rnd.toNat f.sat 0 (x l)))) ∧
    (Ready (.fcvt f) s → f.rnd = 4 → Completes (.fcvt f) s (s.withCur (((s.cur.writeFlagged f.p (fmtWide dst) f.vd.toNat
      (active (.fcvt f) s) (fun l => fcvtVal s.contract dst src 4 f.sat (s.draw l 7).toNat (x l)))).drew
        (active (.fcvt f) s) 7))) ∧
    (Ready (.fcvti f) s → Completes (.fcvti f) s (putA f s (active (.fcvti f) s) (fmtWide dst) (fun l =>
      fcvtiVal s.contract dst src (RMode.ofCode f.rnd.toNat) f.sat (x l)))) ∧
    (Ready (.icvtf f) s → Completes (.icvtf f) s (putA f s (active (.icvtf f) s) (fmtWide dst) (fun l =>
      icvtfVal s.contract dst src (RMode.ofCode f.rnd.toNat) (x l))))

/-- The function unit and the status (R146 to R152): each active lane receives the function of its operand, whose `.f16`
form reads bits [15:0]; `fstat` gives each active lane its sticky status and clears it. THE FUNCTIONS THEMSELVES, under every
contract: the special operands (R147) and a NaN (R132); a subnormal operand that the contract flushes is a zero of its sign; `fex2` of an
integer, `flg2` of a power of two, `fsin2` and `fcos2` of a multiple of 1/4 are exact, with overflow and underflow of `fex2` beyond the
format (R148 to R150); `fsqrt` is correctly rounded, and so are `frcp` and `frsq` of revisions 3 and 4 and of binary64 (R151). -/
def Obligations.FunctionUnitResults : Prop :=
  (∀ (f : FmtA) (s : State),
    let fn := fun (i : Instr) (op : Func) => Ready i s → Completes i s (putA f s (active i s) f.ty.wide (fun l =>
      (funcFmt f.ty).func s.contract op (RMode.ofCode f.rnd.toNat) (if f.ty = .f16 then srcA f s l % 2 ^ 16 else srcA f s l)))
    fn (.fex2 f) .ex2 ∧ fn (.flg2 f) .lg2 ∧ fn (.frcp f) .rcp ∧ fn (.frsq f) .rsq ∧ fn (.fsqrt f) .sqrt ∧
    fn (.fsin2 f) .sin2 ∧ fn (.fcos2 f) .cos2 ∧
    (Ready (.fstat f) s → s.flagsDue s.cur (active (.fstat f) s) = false →
      Completes (.fstat f) s (s.withCur ((s.cur.writeLanes false false f.vd.toNat (active (.fstat f) s)
        (fun l => (s.cur.lane l).flags.toNat)).modLanes (active (.fstat f) s) (fun x => { x with flags := 0 }))))) ∧
  (∀ (f : FFmt) (contract : Nat) (mode : RMode), f ∈ [fF64, fF32, fF16] → contract ∈ [0x100, 0x200, 0x300, 0x400] → mode ≠ .odd →
    let val := f.func contract
    let inf := (2 ^ f.eb - 1) * 2 ^ f.fb
    let neg := 2 ^ (f.eb + f.fb)
    let one := (2 ^ (f.eb - 1) - 1) * 2 ^ f.fb
    let nan := (f.cnan, flInvalid)
    let kept := fun (a : Nat) => f ≠ fF32 ∨ 0x300 ≤ contract ∨ expField f a ≠ 0
    let exact := fun (r : Nat × BitVec 6) (q : ℚ) => finiteCode f r.1 ∧ codeVal f r.1 = q ∧ r.2 = 0
    (val .ex2 mode inf = (inf, 0) ∧ val .ex2 mode (neg + inf) = (0, 0) ∧ val .ex2 mode 0 = (one, 0) ∧ val .ex2 mode neg = (one, 0)) ∧
    (val .lg2 mode inf = (inf, 0) ∧ val .lg2 mode (neg + inf) = nan ∧
      val .lg2 mode 0 = (neg + inf, flDivzero) ∧ val .lg2 mode neg = (neg + inf, flDivzero)) ∧
    (val .rcp mode inf = (0, 0) ∧ val .rcp mode (neg + inf) = (neg, 0) ∧
      val .rcp mode 0 = (inf, flDivzero) ∧ val .rcp mode neg = (neg + inf, flDivzero)) ∧
    (val .rsq mode inf = (0, 0) ∧ val .rsq mode (neg + inf) = nan ∧
      val .rsq mode 0 = (inf, flDivzero) ∧ val .rsq mode neg = (neg + inf, flDivzero)) ∧
    (val .sqrt mode inf = (inf, 0) ∧ val .sqrt mode (neg + inf) = nan ∧ val .sqrt mode 0 = (0, 0) ∧ val .sqrt mode neg = (neg, 0)) ∧
    (val .sin2 mode inf = nan ∧ val .sin2 mode (neg + inf) = nan ∧ val .sin2 mode 0 = (0, 0) ∧ val .sin2 mode neg = (neg, 0)) ∧
    (val .cos2 mode inf = nan ∧ val .cos2 mode (neg + inf) = nan ∧ val .cos2 mode 0 = (one, 0) ∧ val .cos2 mode neg = (one, 0)) ∧
    (∀ (op : Func) (a : Nat), nanCode f a →
      (val op mode a).1 = (if 0x300 ≤ contract then f.cnan else a ||| 2 ^ (f.fb - 1)) ∧
      (sigCode f a → (val op mode a).2 = flInvalid) ∧ (¬ sigCode f a → (val op mode a).2 = 0)) ∧
    (∀ (op : Func) (a : Nat), finiteCode f a → ¬ kept a → val op mode a = val op mode (a / neg * neg)) ∧
    ∀ a : Nat, finiteCode f a → kept a →
      (codeVal f a < 0 → val .lg2 mode a = nan ∧ val .rsq mode a = nan ∧ val .sqrt mode a = nan) ∧
      (∀ n : Int, f ≠ fF64 → codeVal f a = n →
        (1 - f.bias ≤ n → n ≤ f.bias → exact (val .ex2 mode a) (2 ^ n)) ∧
        (1 - f.bias - f.fb ≤ n → n < 1 - f.bias → if f = fF16 ∨ 0x300 ≤ contract then exact (val .ex2 mode a) (2 ^ n)
          else val .ex2 mode a = (0, flUnderflow ||| flInexact)) ∧
        (n < 1 - f.bias - f.fb → val .ex2 mode a = (0, flUnderflow ||| flInexact)) ∧
        (f.bias < n → val .ex2 mode a = (inf, flOverflow ||| flInexact))) ∧
      (∀ n : Int, f ≠ fF64 → codeVal f a = 2 ^ n → exact (val .lg2 mode a) n) ∧
      (∀ k : Int, f ≠ fF64 → codeVal f a = k / 4 →
        exact (val .sin2 mode a) (if k % 4 = 1 then 1 else if k % 4 = 3 then -1 else 0) ∧
        exact (val .cos2 mode a) (if k % 4 = 0 then 1 else if k % 4 = 2 then -1 else 0) ∧
        (k ≠ 0 → k % 2 = 0 → (val .sin2 mode a).1 = 0) ∧ (k % 2 = 1 → (val .cos2 mode a).1 = 0)) ∧
      (0 < codeVal f a → RoundsRoot f mode (codeVal f a) (val .sqrt mode a)) ∧
      (f = fF64 ∨ 0x300 ≤ contract →
        (codeVal f a ≠ 0 → RoundedResult f .rn (1 / codeVal f a) (val .rcp mode a)) ∧
        (0 < codeVal f a → RoundsRoot f .rn (1 / codeVal f a) (val .rsq mode a))))

/-! ### Control (R21, R22, R50, R92 to R96) -/

/-- `br`, `brd`, `call` and `ret`: where the target of every active lane is the offset of a well-formed header, the active
lanes enter the blocks there; `call` writes the link (R50, R92 to R94). The entry that `brd` transfers by is read once the wave's
earlier reductions are performed (R227). Where some target is none, the instruction has no effect,
and the lanes whose target is none take the illegal-target trap (R50). -/
def Obligations.ControlTransferResults : Prop :=
  ∀ (f : FmtJ) (s : State) (h len : Nat → Nat),
    let entered := fun i => ∀ l ∈ active i s, s.header s.cur (h l) = .ok (len l)
    let near := (s.at_ : Int) + f.off.toInt
    let astray := fun (t : Int) => t < 0 ∨ s.header s.cur t.toNat = .bad
    let entryIn := fun (u : State) (l : Nat) => tableEntry u (s.cur.lane l).tid (s.cur.readV false l f.reg.toNat).toNat
    let entry := entryIn s
    (Ready (.br f) s → entered (.br f) → (∀ l, (h l : Int) = near) → Transfers (.br f) s s h len) ∧
    (Ready (.call f) s → entered (.call f) → (∀ l, (h l : Int) = near) →
      Transfers (.call f) s (s.withCur (s.cur.writeLanes false false f.reg.toNat (active (.call f) s) (fun _ => s.at_ + 1))) h len) ∧
    (Ready (.ret f) s → entered (.ret f) → (∀ l ∈ active (.ret f) s, h l = (s.cur.readV false l f.reg.toNat).toNat) →
      Transfers (.ret f) s s h len) ∧
    (let u := s.beforeRead ((active (.brd f) s).any (fun l =>
        (tableAccess s (s.cur.lane l).tid (s.cur.readV false l f.reg.toNat).toNat).access.cls != 3)) true
     Ready (.brd f) s → (∀ l ∈ active (.brd f) s, ∃ t n, entry l = .ok t ∧ s.header s.cur t = .ok n) →
      (∀ l ∈ active (.brd f) s, entryIn u l = .ok (h l) ∧ u.header u.cur (h l) = .ok (len l)) → Transfers (.brd f) s u h len) ∧
    (astray near →
      (Ready (.br f) s → ∃ lc, Traps (.br f) s s ⟨2, active (.br f) s, wrapTo 64 near, 0, 0, lc⟩) ∧
      (Ready (.call f) s → ∃ lc, Traps (.call f) s s ⟨2, active (.call f) s, wrapTo 64 near, 0, 0, lc⟩)) ∧
    (let link := fun (l : Nat) => (s.cur.readV false l f.reg.toNat).toNat
     let bad := (active (.ret f) s).filter (fun l => s.header s.cur (link l) == .bad)
     Ready (.ret f) s → bad ≠ [] → (∀ l ∈ active (.ret f) s, l ∉ bad → ∃ n, s.header s.cur (link l) = .ok n) →
     ∃ lc, Traps (.ret f) s s ⟨2, bad, link (s.cur.lowestTid bad), 0, 0, lc⟩) ∧
    (Ready (.brd f) s → (∀ l ∈ active (.brd f) s, ∃ t, entry l = .ok t ∧ s.header s.cur t = .bad) →
      ∃ t lc, entry (s.cur.lowestTid (active (.brd f) s)) = .ok t ∧
        Traps (.brd f) s s ⟨2, active (.brd f) s, t % 2 ^ 64, 0, 0, lc⟩)

/-- `join`, `join.act` and `wait` (R21, R22, R95): arming sets E to the named lanes that have not exited; a `wait` on a mask
that is not armed has no effect; a `wait` on an armed mask parks the active lanes and adds them to A; when A covers E the
mask is disarmed and cleared, and the lanes parked on it go on. Where every unexited lane is then parked, the wave takes the
rejoin-deadlock trap in all of them, with the masks as they are. -/
def Obligations.RejoinMaskResults : Prop :=
  ∀ (f : FmtJ) (s : State), f.k.toNat < s.cur.rejoin.length →
    let w := s.cur
    let k := f.k.toNat
    let j := w.rejoin.getD k Rejoin.zero
    -- the lanes parked on the mask in a wave `v` go on, and the mask is cleared
    let waiting := fun (v : Wave) => v.idx.filter (fun l => (v.lane l).st == .parked k)
    let freed := fun (v : Wave) (u : State) =>
      Moves (s.withCur { v.modLanes (waiting v) (fun x => { x with st := .run }) with rejoin := w.rejoin.set k Rejoin.zero }) u (waiting v) False
    let joins := fun (i : Instr) (named : Word64) =>
      let e := named &&& maskOf w.liveLanes
      Ready i s →
        (e &&& ~~~ j.a ≠ 0 → Completes i s (s.withCur { w with rejoin := w.rejoin.set k ⟨true, e, j.a⟩ })) ∧
        (e &&& ~~~ j.a = 0 → ∃ u, freed w u ∧ Completes i s u)
    joins (.join f) (w.getS f.reg.toNat) ∧ joins (.joinAct f) (maskOf (active (.joinAct f) s)) ∧
    (Ready (.wait f) s → j.armed = false → Completes (.wait f) s s) ∧
    (Ready (.wait f) s → j.armed = true →
      let act := active (.wait f) s
      let a := j.a ||| maskOf act
      let v := w.modLanes act (fun x => { x with st := .parked k, iss := maskOf w.issuingSet })
      let u := s.withCur { v with rejoin := w.rejoin.set k { j with a := a } }
      let stuck := ∀ l ∈ w.liveLanes, ∃ q, (v.lane l).st = .parked q
      (j.e &&& ~~~ a = 0 → ∃ u, freed v u ∧ CompletesBut (.wait f) s u act) ∧
      (j.e &&& ~~~ a ≠ 0 → ¬ stuck → (w.tm = true → v.atSret = false) → CompletesBut (.wait f) s u act) ∧
      (j.e &&& ~~~ a ≠ 0 → stuck → ∃ m, Traps (.wait f) s u ⟨10, w.liveLanes, 0, m, 0, []⟩ ∧
        ∀ q < 8, m.testBit q = true ↔ ∃ l ∈ w.liveLanes, (v.lane l).st = .parked q))

/-- `exit` (R96): the active lanes exit; while other lanes of the wave remain nothing but room in the engine's queue for the operations
that the exit issues (R160, R168) holds them back, and the last lanes of a wave exit once the effect `u` of `ffence` is had, no task is
open and no producer is pending. -/
def Obligations.ExitResults : Prop :=
  (∀ (f : FmtJ) (s : State),
    let act := active (.exit f) s
    let tids := act.map (fun l => (s.cur.lane l).tid)
    let s0 := s.cvTick
    let exits := fun (u : State) => CompletesBut (.exit f) s ((u.exitLanes act).exitEffects tids).exitLast act
    Ready (.exit f) s → s.stickyCheck act = none → s0.cvTrapAny s.cur.issuingSet = none →
    ((∃ l ∈ s.cur.liveLanes, l ∉ act) → s0.engineRoom (s0.cvExitIssues s.cur.key tids) = true → exits s0) ∧
    (∀ u : State, (∀ l ∈ s.cur.liveLanes, l ∈ act) → s0.fenceStep none = .ready u → u.cur.task = none → u.cur.pend = [] →
      u.producing = false → u.engineRoom (u.cvExitIssues u.cur.key tids) = true → exits u)) ∧
  (∀ (s : State) (act : List Nat), act.Nodup → ∀ l ∈ act, l < s.cur.lanes.length →
    ((s.exitLanes act).cur.lane l).st = .exited)

/-! ### Memory (R31, R97 to R103, R227 to R240) -/

/-- `ld` and `sld` (R31, R97 to R101): where the access of every active lane passes its checks, of which `a` is the outcome (in walker
mode that of a physical access, R205), the wave's earlier reductions are performed where the read is on the main path (R227), and the
load becomes a pending producer of the destination registers. THE INSTANT OF THE READ IS THE MODEL'S CHOICE (log entry 9, DESIGN CHOICE;
R227 and R233 leave it open): a main-path byte has been read at the issue, a class 3 byte is read when the load returns, but for a byte
that a pending store of the wave itself gives (R233). The poison count is that of what has been read (R214).
`lda` writes the generic address of the named space, and `pf` has no effect (R102, R103). -/
def Obligations.LoadResults : Prop :=
  ∀ (f : FmtM) (s : State),
    let n := accBytes f
    let check := fun (l : Nat) (a : Access) =>
      (if s.cur.walker = true then walkerAccess s needLoad (s.cur.effAddr f l) n
       else checkAccess s s.cur false needLoad f.space.toNat (s.cur.lane l).tid (s.cur.effAddr f l) n) = .ok a
    (∀ a : Nat → Access, Ready (.ld f) s → (∀ l ∈ active (.ld f) s, check l (a l)) →
      let act := active (.ld f) s
      let s1 := s.beforeRead (act.any (fun l => (a l).cls != 3)) false
      let elems := act.flatMap (fun l => (partsOf n).map (fun p =>
        let locs := ((a l).locs.drop p.2.1).take p.2.2
        let late := (a l).cls == 3
        ({ lane := l, reg := f.rd.toNat + p.1, val := BitVec.ofNat 32 (leNat (s1.loadBytes s1.cur { a l with locs := locs })),
           src := { locs := locs, late := late, zero := (a l).pol == 2,
                    got := if late = true then locs.filterMap (fun x => (s1.cur.ownByte x).map (fun b => (x, b))) else [] } } : PElem)))
      let read := act.map (fun l => (a l).atIssue)
      Completes (.ld f) s ((s1.countAccess read).addPend
        { vecPend elems ((List.range (dataRegs f)).map (fun k => f.rd.toNat + k)) false with counted := read.any Access.zero } act)) ∧
    (∀ a : Access, Ready (.sld f) s → check (s.cur.lowestTid (active (.sld f) s)) a →
      let s1 := s.beforeRead (a.cls != 3) false
      Completes (.sld f) s ((s1.countAccess [a.atIssue]).addPend
        { scalarPend f.rd.toNat (BitVec.ofNat 64 (leNat (s1.loadBytes s1.cur a))) (loadSrc s1.cur a a.locs) with
          counted := a.atIssue.zero } [])) ∧
    (Ready (.lda f) s → Completes (.lda f) s (s.withCur (s.cur.writeLanes false true f.rd.toNat (active (.lda f) s) (fun l =>
      let ea := s.cur.effAddr f l
      if f.space = 1 then (0xFFFFFF0000000000 + ea) % 2 ^ 64
      else if f.space = 2 then (0xFFFFFE0000000000 + ea) % 2 ^ 64 else ea)))) ∧
    (Ready (.pf f) s → Completes (.pf f) s s)

/-- `st` and `sst` (R100, R101): where every access passes its checks, the bytes of the data registers are queued as one
store of the wave, the highest `$tid` last. -/
def Obligations.StoreResults : Prop :=
  ∀ (f : FmtM) (s : State),
    let n := accBytes f
    let check := fun (l : Nat) (a : Access) =>
      checkAccess s s.cur false needStore f.space.toNat (s.cur.lane l).tid (s.cur.effAddr f l) n = .ok a
    (∀ a : Nat → Access, Ready (.st f) s → (∀ l ∈ active (.st f) s, check l (a l)) →
      let as := (s.cur.byTid (active (.st f) s)).map (fun l => (l, a l))
      Completes (.st f) s ((s.countAccess (as.map Prod.snd)).storeAll as (storeBytes s.cur f) (fun _ => false))) ∧
    (∀ a : Access, Ready (.sst f) s → check (s.cur.lowestTid (active (.sst f) s)) a →
      Completes (.sst f) s ((s.countAccess [a]).storeAll [(s.cur.lowestTid (active (.sst f) s), a)]
        (fun _ => leBytes n (s.cur.getS f.rd.toNat).toNat) (fun _ => false)))

/-- THE FRAME OF A STORE: a byte outside the stored bytes, and outside the count of masked contract mixes in the context
status block (R129), reads for the wave as before, and no byte of memory but that count changes before the store becomes
visible; registers, predicates and status of every lane are unchanged. A STORE IS READ BACK: after `st` by one lane, the wave reads
the bytes of the data register at the locations that the lane's effective address names (R100). -/
def Obligations.StoreFrame : Prop :=
  (∀ (f : FmtM) (s t : State) (a : Nat → Access), Ready (.st f) s →
    (∀ l ∈ active (.st f) s, checkAccess s s.cur false needStore f.space.toNat (s.cur.lane l).tid (s.cur.effAddr f l)
      (accBytes f) = .ok (a l)) →
    exec (.st f) s = .next t →
    let count := fun loc => (s.gridOf s.cur).ctx.status + 0x14 ≤ loc ∧ loc < (s.gridOf s.cur).ctx.status + 0x18
    (∀ loc, ¬ count loc → Memory.read t.mem loc = Memory.read s.mem loc) ∧
    (∀ loc, ¬ count loc → (∀ l ∈ active (.st f) s, loc ∉ (a l).locs) → t.loadByte t.cur loc = s.loadByte s.cur loc) ∧
    (∀ l r, (t.cur.lane l).getV r = (s.cur.lane l).getV r) ∧
    (∀ l, (t.cur.lane l).p = (s.cur.lane l).p ∧ (t.cur.lane l).flags = (s.cur.lane l).flags) ∧
    t.cur.s = s.cur.s ∧ t.cur.vEmpty = s.cur.vEmpty ∧ t.rest.map Wave.toArch = s.rest.map Wave.toArch) ∧
  (∀ (f : FmtM) (s t : State) (l : Nat) (a : Access), Ready (.st f) s → active (.st f) s = [l] →
    checkAccess s s.cur false needStore f.space.toNat (s.cur.lane l).tid (s.cur.effAddr f l) (accBytes f) = .ok a →
    a.locs.Nodup → s.cur.hold = [] → exec (.st f) s = .next t →
    a.locs.map (t.loadByte t.cur) = storeBytes s.cur f l)

/-- THE ROUNDING OF FLOAT OPERATIONS (R116), told from the bits of the codes alone: of numbers of a format, under a contract that
flushes none of its subnormals (R121), `fadd`, `fsub`, `fmul` and `ffma` give the correctly rounded sum, difference, product and
product with an addend; so do the conversions between float formats and from an integer (R143, R145). `fround` gives a correctly rounded integer and no
flag (R139), and a compare tells how the numbers compare (R137). A NAN OPERAND gives the canonical NaN, or under 0x0100 and 0x0200
the first NaN operand quieted, with invalid exactly where one of them is signalling (R121). -/
def Obligations.FloatRoundingLaws : Prop :=
  ∀ (f : FFmt) (contract : Nat) (mode : RMode), f ∈ [fF64, fF32, fF16, fBf16] → mode ≠ .odd →
    let keeps := f = fF64 ∨ f = fF16 ∨ contract = 0x300 ∨ contract = 0x400
    (keeps → ∀ a b c : Nat, finiteCode f a → finiteCode f b → finiteCode f c →
      RoundedResult f mode (codeVal f a + codeVal f b) (f.fadd contract mode a b) ∧
      RoundedResult f mode (codeVal f a - codeVal f b) (f.fsub contract mode a b) ∧
      RoundedResult f mode (codeVal f a * codeVal f b) (f.fmul contract mode a b) ∧
      RoundedResult f mode (codeVal f a * codeVal f b + codeVal f c) (f.ffma contract mode a b c) ∧
      (∃ k : Int, codeVal f (f.fround contract mode a).1 = k ∧ RoundsToInt mode (codeVal f a) k ∧ (f.fround contract mode a).2 = 0) ∧
      (∀ cond < 6, (f.fcmp contract cond a b).2 = 0 ∧ ((f.fcmp contract cond a b).1 = true ↔ match cond with
        | 0 => codeVal f a = codeVal f b | 1 => codeVal f a ≠ codeVal f b | 2 => codeVal f a < codeVal f b
        | 3 => codeVal f a ≤ codeVal f b | 4 => codeVal f b < codeVal f a | _ => codeVal f b ≤ codeVal f a))) ∧
    (∀ a b : Nat, a < 2 ^ (1 + f.eb + f.fb) → b < 2 ^ (1 + f.eb + f.fb) → nanCode f a ∨ nanCode f b →
      ∀ op ∈ [f.fadd contract mode, f.fsub contract mode, f.fmul contract mode],
        (contract = 0x300 ∨ contract = 0x400 → (op a b).1 = f.cnan) ∧
        (contract = 0x100 ∨ contract = 0x200 → (nanCode f a → (op a b).1 = a ||| 2 ^ (f.fb - 1)) ∧
          (¬ nanCode f a → (op a b).1 = b ||| 2 ^ (f.fb - 1))) ∧
        ((op a b).2 = flInvalid ∧ (sigCode f a ∨ sigCode f b) ∨ (op a b).2 = 0 ∧ ¬ sigCode f a ∧ ¬ sigCode f b)) ∧
    (∀ dst src : Nat, dst < 4 → src < 4 → fmtOf dst = f → ∀ rnd < 4, ∀ x : Nat, finiteCode (fmtOf src) x →
      contract = 0x300 ∨ contract = 0x400 →
      RoundedResult f (RMode.ofCode rnd) (codeVal (fmtOf src) x) (fcvtVal contract dst src rnd false 0 x)) ∧
    (∀ dst src : Nat, dst < 4 → 7 ≤ src → src ≤ 14 → fmtOf dst = f → ∀ x : Nat,
      let n := fmtBits src
      RoundedResult f mode (if fmtSigned src then (((BitVec.ofNat n x).toInt : Int) : ℚ) else ((x % 2 ^ n : Nat) : ℚ))
        (icvtfVal contract dst src mode x))

/-- LOAD DATA RETURN (R31): the pending load leaves the list, its registers become full, and each of its elements holds the
value that was read; a wait of the wave on its registers ends. Loads behind it are as they were. WHEN IT WAS READ IS THE MODEL'S CHOICE
(log entry 9, DESIGN CHOICE): a main-path value at the issue, or where the reads of the load were moved since; a class 3 byte that has not
been read yet is the one that memory holds now, a poisoned one as zero where the page says so; and a load waits while an earlier request of the
wave to its own device for one of its class 3 bytes has no answer (log entry 152, DESIGN CHOICE). -/
def Obligations.LoadReturnResults : Prop :=
  ∀ (s : State) (w : Wave) (k : Nat) (p : Pend),
    let now := fun (x : PSrc) => leNat (x.locs.map (fun l =>
      (lastByte x.got l).getD (if x.zero && s.isPoisoned l then 0 else Memory.read s.mem l)))
    s.findWave w.key = some w → w.pend[k]? = some p → w.pend.find? (fun q => q.id == p.id && !q.fabric) = some p →
    (s.behindOwn w p.lateLocs (fun o => o.loads ≤ p.id) = true → exec (.loadDataReturn w.key k) s = .next s) ∧
    (s.behindOwn w p.lateLocs (fun o => o.loads ≤ p.id) = false →
    (∀ q ∈ w.pend, q.id < p.id → ∀ loc ∈ q.lateLocs, loc ∉ p.lateLocs) →
    (∀ e ∈ p.elems, e.lane < w.lanes.length) → (p.elems.map (fun e => (e.lane, e.reg))).Nodup →
    ∃ u : Wave, exec (.loadDataReturn w.key k) s = .next (s.setWave u) ∧
      u.pend.map (fun q => (q.id, q.elems, q.scalar, q.regs)) =
        (w.pend.filter (fun q => q.id != p.id)).map (fun q => (q.id, q.elems, q.scalar, q.regs)) ∧ u.why = .none ∧
      (∀ r, r ∈ u.vEmpty ↔ r ∈ w.vEmpty ∧ r ∉ p.regs) ∧
      (∀ e ∈ p.elems, (u.lane e.lane).getV e.reg = if e.src.late then BitVec.ofNat 32 (now e.src) else e.val) ∧
      (∀ l r, (∀ e ∈ p.elems, ¬ (e.lane = l ∧ e.reg = r)) → (u.lane l).getV r = (w.lane l).getV r) ∧
      (p.scalar = none → u.s = w.s ∧ u.sEmpty = w.sEmpty) ∧
      (∀ r v x, p.scalar = some (r, v, x) → (∀ q, q ∈ u.sEmpty ↔ q ∈ w.sEmpty ∧ q ≠ r) ∧
        ∀ q, u.getS q = if q = r then (if x.late then BitVec.ofNat 64 (now x) else v) else w.getS q))

/-- `grow` and `shrink`, and the units that a blocked `grow` waits for (R29, R104, R105). -/
def Obligations.AllotmentResults : Prop :=
  ∀ (f : FmtGrow) (s : State),
    let w := s.cur
    let c := s.coreAt w.core
    let n := f.n.toNat
    let fits := n * unitsPerGroup w.width ≤ s.unitsFree w.core
    let grown := fun (s : State) => s.withCur { s.cur with alloc := s.cur.alloc + 64 * n }
    let served := s.setCore w.core { c with growQ := c.growQ.filter (· != w.key) }
    (Ready (.grow f) s → w.alloc + 64 * n ≤ 1024 →
      (f.try_ = true → fits → Completes (.grow f) s
        ((grown s).withCur ((grown s).cur.writePreds f.pd.toNat (active (.grow f) s) (fun _ => true)))) ∧
      (f.try_ = true → ¬ fits → Completes (.grow f) s (putP s f.pd.toNat (active (.grow f) s) (fun _ => false))) ∧
      (f.try_ = false → fits → (c.growQ = [] ∨ c.growQ.head? = some w.key) →
        Completes (.grow f) s (grown served) ∧
        (c.growQ.head? = some w.key → s.findWave w.key = some w → s.standsAt w = some (.grow f) →
          ∃ t, exec (.growUnitsFreed w.core) s = .next t ∧ Retires s (grown served) t w.issuingSet False))) ∧
    (Ready (.shrink f) s → 64 + 64 * n ≤ w.alloc → (∀ r ∈ w.vEmpty, r < w.alloc - 64 * n) →
      (∀ x ∈ w.lanes, ∀ i ∈ x.written, w.pbase + i < w.alloc - 64 * n) →
      Completes (.shrink f) s (s.withCur { w with
        alloc := w.alloc - 64 * n,
        lanes := w.lanes.map (fun x => { x with
          v := x.v.filter (fun e => e.1 < w.alloc - 64 * n), old := x.old.filter (fun e => e.1 < w.alloc - 64 * n) }) }))

/-- `sortk` (R38 to R40), the override of the issue rule (R20), and the grant of issue slots (R25). After a sort (R39)
unexited threads come first, in the order of their keys, equal keys in the order of `$tid`; exited threads follow in the
order of `$tid`; and no thread is lost or made. -/
def Obligations.ThreadOrderResults : Prop :=
  (∀ (f : FmtSort) (s : State), Ready (.sortk f) s → (∀ x ∈ s.cur.lanes, x.written = []) →
    (∀ r ∈ s.cur.vEmpty, tbit f.mask (r / 64) = false) →
    let act := active (.sortk f) s
    let u := s.withCur (s.cur.modLanes act (fun x => { x with st := .sort, iss := maskOf s.cur.issuingSet }))
    let goes := u.sortReady s.cur.key.grid s.cur.key.team = true ∧ u.sortQuiet f s.cur.key.grid s.cur.key.team = true
    (¬ goes → CompletesBut (.sortk f) s u act) ∧
    (goes → ∃ t, exec (.sortk f) s = .next t ∧ Retires s (u.sortMove f s.cur.key.grid s.cur.key.team) t [] False)) ∧
  (∀ (s : State) (v : Nat), s.cur.overdue = some v →
    exec .issueOverride s = .next (s.withCur { s.cur with ovr := s.cur.ready.filter (fun l => (s.cur.lane l).vpc == v) })) ∧
  (∀ (s : State) (core : Nat) (w : Wave) (r : List WKey), (s.coreAt core).ableQ = w.key :: r → s.findWave w.key = some w →
    w.able = true → s.slotsHeld core < Config.slotsPerCore →
    exec (.issueSlotGrant core) s =
      .next ((s.setCore core { s.coreAt core with ableQ := r }).setWave { w with slot := true })) ∧
  (∀ (f : FmtSort) (ws : List Wave),
    let before := fun (a b : SortThread) =>
      (a.live = true ∧ b.live = false) ∨
      (a.live = b.live ∧ a.live = true ∧ (if f.desc then b.key < a.key else a.key < b.key)) ∨
      (a.live = b.live ∧ (a.live = true → a.key = b.key) ∧ a.lane.tid ≤ b.lane.tid)
    (sortThreads f ws).Pairwise before ∧
    (sortThreads f ws).length = (ws.map (fun w => w.lanes.length)).sum ∧
    ∀ w ∈ ws, ∀ x ∈ w.lanes, ∃ t ∈ sortThreads f ws, t.lane = x ∧ t.live = x.live ∧ t.key = (x.getV f.va.toNat).toNat)

/-! ### Atomics, fences and the monitor -/

/-- `atom`, `red` and `fence` (R228 to R236): where the checks pass and the release that the word asks for is done, which at scope `.pod`
begins with the effect `u` of `ffence`, the lanes' operations are performed in ascending `$tid`; an acquire at `.pod`, for which that
effect can be had at the issue (log entry 40, DEDUCED), then has it, `v`, at the end, and `atom` gives each lane the old value. `red` queues the lanes' operations as pending writes. -/
def Obligations.AtomicResults : Prop :=
  (∀ (f : FmtAtom) (s u v : State) (a : Nat → Access), s.cur.task = none → nonDet s f false = false →
    let rel := 2 ≤ f.order.toNat
    let acq := f.order.toNat % 2 = 1
    let passes := fun (i : Instr) =>
      (∀ l ∈ active i s, checkAccess s s.cur false needAtom 0 (s.cur.lane l).tid (s.cur.atomAddr f l) (atomSize f) = .ok (a l)) ∧
      (if f.scope = 5 ∧ rel then s.fenceStep none = .ready u else u = s) ∧ (rel → u.released u.cur = true)
    let as := fun (i : Instr) => (s.cur.byTid (active i s)).map (fun l => (l, a l))
    (Ready (.atom f) s → passes (.atom f) → s.progress = [] → s.lanesNow = none →
      (f.scope = 5 ∧ acq → ∃ w, s.fenceStep none = .ready w) →
      let r := (u.countAccess ((as (.atom f)).map Prod.snd)).atomAll f (as (.atom f))
      (if f.scope = 5 ∧ acq then (r.1.progressed r.2).fenceStep none = .ready v else v = r.1.progressed r.2) →
      Completes (.atom f) s (v.withCur (r.2.foldl (fun w p => w.writeX false f.wide p.1 f.vd.toNat p.2) v.cur))) ∧
    (Ready (.red f) s → passes (.red f) →
      let s1 := u.countAccess ((as (.red f)).map Prod.snd)
      ∃ n, (∀ e ∈ s1.cur.pw, e.kind.ins ≠ n) ∧
        Completes (.red f) s (s1.withCur { s1.cur with pw := s1.cur.pw ++ (as (.red f)).map (fun x =>
          { bytes := x.2.locs.map (fun loc => (loc, 0)), fb := false, part := false,
            kind := .rmw f.op.toNat f.wide (BitVec.ofNat 64 (s1.cur.atomVal f x.1)) s1.contract n }) }))) ∧
  (∀ (f : FmtFence) (s u : State), Ready (.fence f) s → (if f.scope = 5 then s.fenceStep none = .ready u else u = s) →
    (2 ≤ f.order.toNat → u.released u.cur = true) → Completes (.fence f) s u)

/-- AN ATOMIC OF ONE LANE is one read-modify-write (R234, R236): with nothing of the wave pending, memory afterwards holds
the operation's new value at the lane's bytes and what it held before at every other byte, and the lane's destination
holds the old value. -/
def Obligations.AtomicReadModifyWrite : Prop :=
  ∀ (f : FmtAtom) (s : State) (l : Nat) (a : Access), Ready (.atom f) s → active (.atom f) s = [l] →
    s.cur.pw = [] → s.cur.task = none → nonDet s f false = false → f.order = 0 → s.progress = [] → s.lanesNow = none →
    a.mix = false → a.zero = false → a.locs.Nodup → a.locs.length = atomSize f →
    checkAccess s s.cur false needAtom 0 (s.cur.lane l).tid (s.cur.atomAddr f l) (atomSize f) = .ok a →
    ∃ t, exec (.atom f) s = .next t ∧
      let old := leNat (a.locs.map (Memory.read s.mem))
      a.locs.map (Memory.read t.mem) =
        leBytes (atomSize f) (atomicNew s.contract f.op.toNat f.wide old (s.cur.atomVal f l) (s.cur.atomVal2 f l)) ∧
      (∀ loc, loc ∉ a.locs → Memory.read t.mem loc = Memory.read s.mem loc) ∧
      t.cur.readX false f.wide l f.vd.toNat = old

/-- WRITE ACKNOWLEDGEMENT and RELEASE POINT (R224, R225, R228): the bytes of the wave's oldest pending write, or those of it that are
named, become visible, and nothing else of memory changes; what is left of it stays pending; its time folds into `$wct`, but for a
drain and for class 3; a reduction is performed. The GTC passes the wave's last write by the margin. -/
def Obligations.AcknowledgementResults : Prop :=
  (∀ (s : State) (w : Wave) (e : PWrite) (r : List PWrite) (lo len : Nat), s.findWave w.key = some w → w.pw = e :: r →
    (e.bytes.map Prod.fst).Nodup → (∀ p ∈ w.pend, ∀ loc ∈ p.lateLocs, loc ∉ e.bytes.map Prod.fst) →
    let sel := if len = 0 ∨ e.kind.isRmw = true then e.bytes else (e.bytes.drop lo).take len
    let left := e.bytes.filter (fun b => !(sel.map Prod.fst).contains b.1)
    let behind := r.filter (fun x => !x.bytes.isEmpty)
    sel ≠ [] → ∃ t x, exec (.writeAcknowledgement w.key 0 lo len) s = .next t ∧ t.findWave w.key = some x ∧ s.gtc < t.gtc ∧
      (∀ loc, loc ∉ sel.map Prod.fst → Memory.read t.mem loc = Memory.read s.mem loc) ∧
      (e.kind.isRmw = false → (∀ b ∈ sel, Memory.read t.mem b.1 = b.2) ∧
        x.pw = (if left = [] then behind else { e with bytes := left, part := true } :: behind)) ∧
      (e.kind = .store → x.wct = if e.fb = true then w.wct else max w.wct t.gtc) ∧
      (e.kind = .drain → x.wct = w.wct ∧ x.dct = max w.dct t.gtc) ∧
      (∀ op wide v c n, e.kind = .rmw op wide v c n →
        let old := leNat (e.bytes.map (fun b => Memory.read s.mem b.1))
        e.bytes.map (fun b => Memory.read t.mem b.1) = leBytes e.bytes.length (atomicNew c op wide old v.toNat 0) ∧ x.pw = behind ∧
        x.wct = max w.wct t.gtc)) ∧
  (∀ (s : State) (w : Wave), s.findWave w.key = some w → ∃ t : State, exec (.releasePoint w.key) s = .next t ∧
    t.passed w.wct = true ∧ t.mem = s.mem ∧ (w.why = .release → w.key = s.cur.key → t.cur.why = .none))

/-- `mon`, `mwait`, the trigger and the deadline (R239, R240). That lanes of the wave whose sleep a trigger has ended wake first, at a `mon`
or `mwait` of other lanes, is the model's reading (log entry 19, DEDUCED). -/
def Obligations.MonitorResults : Prop :=
  (∀ (f : FmtSrc) (s : State) (a : Access), Ready (.mon f) s →
    let ea := (s.cur.getS f.sa.toNat).toNat
    checkAccess s s.cur false needMon 0 (s.cur.lane (s.cur.lowestTid (active (.mon f) s))).tid ea 1 = .ok a →
    let s1 := s.wakeFirst.beforeRead true true
    Completes (.mon f) s (s1.withCur { s1.cur with
      mon := { armed := true, line := a.locs.headD 0 - ea % 128, trig := false, lost := false } })) ∧
  (∀ (f : FmtDstSrc) (s : State), Ready (.mwait f) s →
    let m := s.cur.mon
    let dl := (s.cur.getS f.sa.toNat).toNat
    let ends := fun (s : State) (v : Word64) => s.withCur { s.cur.setS f.sd.toNat v with mon := Monitor.off }
    let act := active (.mwait f) s
    (m.lost = true → Completes (.mwait f) s (ends s 4)) ∧
    (m.lost = false → m.armed = false → Completes (.mwait f) s (ends s 3)) ∧
    (m.lost = false → m.armed = true → m.trig = true → Completes (.mwait f) s (ends s.wakeFirst 1)) ∧
    (m.lost = false → m.armed = true → m.trig = false → dl ≠ 0 → dl ≤ s.gtc → Completes (.mwait f) s (ends s 2)) ∧
    (m.lost = false → m.armed = true → m.trig = false → dl = 0 ∨ s.gtc < dl →
      CompletesBut (.mwait f) s (s.withCur (s.cur.modLanes act (fun x => { x with
        st := .mwait f.sd.toNat dl, iss := maskOf s.cur.issuingSet }))) act)) ∧
  (∀ (s : State) (sd dl : Nat) (l : Nat), s.findWave s.cur.key = some s.cur → s.cur.asleep = [(l, sd, dl)] →
    (s.cur.mon.trig = true → ∃ t, exec (.monitorTrigger s.cur.key) s = .next t ∧
      t.cur.getS sd = 1 ∧ t.cur.mon = Monitor.off ∧ (t.cur.lane l).st = .run) ∧
    (s.cur.mon.trig = false → dl ≠ 0 → ∃ t, exec (.mwaitDeadline s.cur.key) s = .next t ∧
      t.cur.getS sd = 2 ∧ t.cur.mon = Monitor.off ∧ (t.cur.lane l).st = .run ∧ dl ≤ t.gtc))

/-! ### The Turnstile (R242 to R246) -/

/-- `barr`, `barw`, `bara` and `bmask` (R242 to R246): with no sticky arithmetic trap and no timed-out signature due, a member that has
reached its release point arrives, and the generation completes once every member has arrived; a lane that has arrived waits. A wave
that is no member, and a `bmask` in the middle of a generation, take the barrier-membership trap (R243); a `bmask` of a mask that names no
wave is illegal (R246), and that the membership check comes first is the model's reading (log entry 70, DEDUCED). Before these checks, and
before an `exit`, the active lanes whose status meets the enable take the arithmetic (sticky) trap, each with its status (R96, R153; log entry 154,
DEDUCED). A GENERATION COMPLETES only when every unexited lane of every member has arrived at the name; and when they have, some
of them by an instruction, a team-scope name advances its generation by one modulo 2^32, its arrivals are cleared, the waiting lanes
become ready, and no other lane's state changes (R244). -/
def Obligations.TurnstileResults : Prop :=
  (∀ (f : FmtBar) (s : State),
    let n := f.n.toNat
    let s0 := s.cvTick
    let w := s0.cur
    let t := s0.teamOf w
    let iss := s.cur.issuingSet
    let gen := s0.barGen w.key.grid w.key.team n
    let calm := fun i => s.stickyCheck (active i s) = none ∧ s0.cvTrapAny iss = none
    let waits := fun (v : Wave) (l : Nat) => match (v.lane l).st with | .bar .. => true | _ => false
    let arrives := fun (i : Instr) (stays : Bool) =>
      let v := w.arrive n gen stays (active i s)
      let held := (active i s).filter (waits v)
      Ready i s → calm i →
        (t.hasMember n w.key.wave = true → s0.released w = true →
          CompletesBut i s ((s0.withCur (v.modLanes held (fun x => { x with iss := maskOf iss }))).barCheck 8 w.key.grid w.key.team n) held) ∧
        (t.hasMember n w.key.wave = false → Traps i s s0 ⟨12, iss, 0, n, 0, []⟩)
    arrives (.barr f) false ∧ arrives (.bara f) true ∧
    (Ready (.barw f) s → calm (.barw f) →
      let due := if t.hasMember n w.key.wave = true then
        (active (.barw f) s).filter (fun l => (w.lane l).arr.contains n) else []
      CompletesBut (.barw f) s (s0.withCur (w.modLanes due (fun x => { x with st := .bar n gen false false, iss := maskOf iss }))) due) ∧
    (Ready (.bmask f) s →
      let t := s.teamOf s.cur
      let mask := BitVec.ofNat 32 ((s.cur.getS f.sa.toNat).toNat % 2 ^ t.waves)
      let closed := ∀ x ∈ s.wavesOf t, t.hasMember n x.key.wave = true → ∀ y ∈ x.lanes, n ∉ y.arr
      (mask ≠ 0 → closed → Completes (.bmask f) s
        ((s.setTeam { t with bar := t.bar.set n { t.name n with mask := mask } }).barCheck 8 s.cur.key.grid s.cur.key.team n)) ∧
      (¬ closed → Traps (.bmask f) s s ⟨12, iss, 0, n, 0, []⟩) ∧
      (mask = 0 → closed → Traps (.bmask f) s s ⟨1, iss, 0, 0, 0, []⟩))) ∧
  (∀ (i : Instr) (s : State), (∃ f, i = .barr f ∨ i = .barw f ∨ i = .bara f) ∨ (∃ f, i = .exit f) → Ready i s → s.cur.tm = false →
    s.flagsDue s.cur (active i s) = false →
    let flagged := (active i s).filter (fun l => (s.cur.lane l).flags &&& BitVec.ofNat 6 (s.gridOf s.cur).trapen.toNat != 0)
    flagged ≠ [] → Traps i s s ⟨19, flagged, 0, 0, 0, flagged.map (fun l => (l, (s.cur.lane l).flags.toNat))⟩) ∧
  (∀ (s : State) (grid team n fuel : Nat), n < 48 →
    (∃ t ∈ s.teams, t.grid = grid ∧ t.idx = team ∧ ∃ w ∈ s.wavesOf t, t.hasMember n w.key.wave = true ∧
      ∃ x ∈ w.lanes, x.live = true ∧ n ∉ x.arr) →
    s.barCheck fuel grid team n = s) ∧
  (∀ (s : State) (grid team n fuel : Nat) (t : Team), n < 48 → s.scopeTeams grid team n = [t] → n < t.bar.length → t.savedWaves = [] →
    (s.waves.map Wave.key).Nodup → (∀ w ∈ s.waves, w.opens = []) →
    let ws := s.teamWaves grid team
    let g := s.barGen grid team n
    (∃ w ∈ ws, ∃ x ∈ w.lanes, n ∈ x.arr) →
    (∀ w ∈ ws, t.hasMember n w.key.wave = true → ∀ x ∈ w.lanes, x.live = true → n ∈ x.arr) →
    (∀ w ∈ ws, ∀ x ∈ w.lanes, ∀ b, x.st ≠ .bar n g true b) →
    let u := s.barCheck (fuel + 1) grid team n
    u.barGen grid team n = (g + 1) % 2 ^ 32 ∧ u.mem = s.mem ∧
    ∀ w ∈ ws, ∃ v ∈ u.waves, v.key = w.key ∧ ∀ l < w.lanes.length,
      (v.lane l).arr = (w.lane l).arr.filter (· != n) ∧
      ((∃ b, (w.lane l).st = .bar n g false b) → (v.lane l).st = .run) ∧
      ((∀ b, (w.lane l).st ≠ .bar n g false b) → (v.lane l).st = (w.lane l).st))

/-! ### The matrix engine (R157 to R179) -/

/-- `cvdecl`, `mma`, `mmas` and `mmaw` (R158, R159, R163 to R165, R172): a declaration opens a generation, or changes or adopts the declared
one; a signature records the fragments of the active lanes, with what may stand in their place where the `orf` is missing, and the
last one issues the operation; `mmaw` passes once the wave's own generation is done, and ORs its status into the active lanes; until
then it waits, and so does a `cvdecl` of an issued generation, or of one that some member has signed with another size or base.
Where the wave's own generation has timed out, `mmaw` and `cvdecl` take the convergence-timeout trap (R161); that `cvdecl` does
so ahead of the check of its operand, and that the generations whose count has reached the bound are timed out before (`s0`), are
the model's reading (log entry 50, DEDUCED), and so is that the fragments stand recorded at the signature with what may stand in their
place (log entry 48, DEDUCED). -/
def Obligations.ConvergenceResults : Prop :=
  (∀ (f : FmtKey) (s : State), Ready (.cvdecl f) s →
    let k := f.k.toNat
    let v := (s.cur.getS f.sa.toNat).toNat
    let n := v % 2 ^ 7
    let b := v / 2 ^ 16 % 2 ^ 11
    let s0 := s.cvTick
    let c := s0.cvOf k
    let gone := s0.exitedTids s.cur.key.grid s.cur.key.team
    let adopt := fun (c : Cv) => (s0.putCv k c).withCur ((s0.putCv k c).cur.setOwn k (some c.gen) false)
    s0.cvTrap k s.cur.issuingSet = none → declLegal v (s.gridOf s.cur).threads = true →
    (c.st = .idle ∨ c.st = .done ∨ c.st = .timedOut → Completes (.cvdecl f) s (adopt (c.opened n b gone))) ∧
    (c.st = .declared → c.word = none → Completes (.cvdecl f) s
      (adopt ({ c with s := n, b := b, signed := (({ c with s := n, b := b } : Cv).gone gone).foldl insNat [] } : Cv).closeEmpty)) ∧
    (c.st = .declared → c.word ≠ none → c.s = n → c.b = b → Completes (.cvdecl f) s (adopt c)) ∧
    (c.st = .issued ∨ (c.st = .declared ∧ c.word ≠ none ∧ ¬ (c.s = n ∧ c.b = b)) →
      exec (.cvdecl f) s = .next (s0.withCur { s0.cur with why := .cv }))) ∧
  (∀ (f : FmtKey) (s : State), Ready (.cvdecl f) s → s.cvTick.cvTrap f.k.toNat s.cur.issuingSet = none →
    declLegal (s.cur.getS f.sa.toNat).toNat (s.gridOf s.cur).threads = false →
    Traps (.cvdecl f) s s.cvTick ⟨1, s.cur.issuingSet, 0, 0, 0, []⟩) ∧
  (∀ (f : FmtX) (s : State) (scratch : Bool),
    let i : Instr := if scratch then .mmas f else .mma f
    let k := f.cv.toNat
    let s0 := s.cvTick
    let w := s0.cur
    let c := s0.cvOf k
    let handle := if scratch then (w.getS (baseS f.vb)).toNat else 0
    let word := signWord (encode i)
    let regs := fragRegs f scratch c.s
    let frags := (active i s).map (fun l =>
      ({ rank := (w.lane l).tid - c.b, tid := (w.lane l).tid, a := w.fragA f c.s l,
         b := if scratch then [] else w.fragB f c.s l,
         alt := (w.lane l).old.filter (fun e => regs.contains e.1), late := regs.filter (fun r => w.vEmpty.contains r) } : Frag))
    let signed := c.sign s0.gtc word handle frags
    let watch : Watch := { cv := k, gen := signed.gen, tile := f.acc.toNat, size := shapeM f.shape.toNat, pair := f.fc == 0,
                           tids := (active i s).map (fun l => (w.lane l).tid), regs := fragRegs f scratch signed.s, hit := false }
    let put := s0.putCv k signed
    let own := put.cur.setOwn k (some signed.gen) true
    let u := put.withCur { own with watch := own.watch ++ [watch] }
    Ready i s → s0.cvTrap k w.issuingSet = none → signCheck f scratch handle word w.issuingSet (active i s) s0 = none →
    (signed.full = true → s0.engineFull = false) →
    Completes i s (if signed.full then u.cvIssue w.key k else u)) ∧
  (∀ (f : FmtCv) (s : State), Ready (.mmaw f) s →
    let k := f.k.toNat
    let s0 := s.cvTick
    (s0.cur.ownOf k = none → Completes (.mmaw f) s s0) ∧
    (∀ g st, s0.cur.ownOf k = some g → (s0.cvOf k).timedMask g = none → mget (s0.cvOf k).done g = some st →
      Completes (.mmaw f) s (s0.withCur ((s0.cur.observed k g).orFlags (active (.mmaw f) s) (fun _ => st)))) ∧
    (∀ g, s0.cur.ownOf k = some g → (s0.cvOf k).timedMask g = none → mget (s0.cvOf k).done g = none →
      exec (.mmaw f) s = .next (s0.withCur { s0.cur with why := .cv }))) ∧
  (∀ (i : Instr) (k : Nat) (s : State) (g : Nat) (m : BitVec 64),
    (∃ f : FmtCv, i = .mmaw f ∧ k = f.k.toNat) ∨ (∃ f : FmtKey, i = .cvdecl f ∧ k = f.k.toNat) → Ready i s →
    s.cvTick.cur.ownOf k = some g → (s.cvTick.cvOf k).timedMask g = some m →
    Traps i s (s.cvTick.withCur (s.cvTick.cur.setOwn k none false)) ⟨11, s.cur.issuingSet, 0, k + g * 2 ^ 16, m.toNat, []⟩)

/-- A GENERATION IS ISSUED ONCE EVERY MEMBER HAS SIGNED (R159): a signature that is not the last puts nothing in the engine's
queue, and the last puts one entry at its end, with the operation of the signed word and the fragments of every member. -/
def Obligations.LastSignatureIssues : Prop :=
  ∀ (f : FmtX) (s : State), Ready (.mma f) s →
    let s0 := s.cvTick
    s0.cvTrap f.cv.toNat s.cur.issuingSet = none →
    signCheck f false 0 (signWord (encode (.mma f))) s.cur.issuingSet (active (.mma f) s) s0 = none → s.engineFull = false →
    ∃ t, exec (.mma f) s = .next t ∧
    let core := (s.teamOf s.cur).core
    let c := s0.cvOf f.cv.toNat
    let signs := (active (.mma f) s).map (fun l => (s.cur.lane l).tid - c.b)
    let left := (List.range c.s).filter (fun r => !c.signed.contains r && !signs.contains r)
    (left ≠ [] → (t.coreAt core).engine = (s.coreAt core).engine) ∧
    (left = [] → ∃ (new : List Frag) (wild : Nat), new.map Frag.rank = signs ∧ (wild = c.spoiled ∨ wild = 2) ∧
      (t.coreAt core).engine = (s.coreAt core).engine ++ [{
        who := s.cur.key, tile := f.acc.toNat, wild := wild,
        op := .mma { f with g := 0, ma := false, mb := false } false 0 f.cv.toNat c.gen c.s c.b (c.frags ++ new) 0 [] none }])

/-- The engine completes an operation, with the status of the tile as that of the generation, and a generation times out with its
signatures discarded (R161, R169). What a breach of R165 or R177 leaves unpredictable holds free values afterwards. THE INTEGER SHAPES
(R123, R163, R167): element (r, c) becomes its old number, or 0 with `.z`, plus the sum of the 32 products of row r of A and column c of
B, modulo 2^32, with no flag; row r is held by member r mod n, and a member that exited unsigned holds zeros; elements outside the shape
stay, or are 0 with `.z`. -/
def Obligations.EngineOperationResults : Prop :=
  (∀ (s : State) (core k : Nat) (e : EngEntry) (f : FmtX) (scratch : Bool) (handle : Word64) (cv gen n b : Nat)
      (frags : List Frag) (kp : Nat) (part : Map (BitVec 64)) (op : Option (List Byte)),
    (s.coreAt core).engine[k]? = some e → e.op = .mma f scratch handle cv gen n b frags kp part op →
    engineReady (s.coreAt core).engine k = true →
    let team := s.teamAt e.who.grid e.who.team
    let tile := team.tileBase + e.tile
    let inp := (s.dequeue core k).opInputs team f scratch handle frags op
    let r := (inp.1.runOp e f scratch n inp.2.1 kp (shapeK f.shape.toNat) part inp.2.2).1.wildElems team.core tile
      (wildRows e.wild (shapeM f.shape.toNat)) (f.fc == 0)
    let st := (r.tileAt team.core tile).status
    let c := team.cvAt cv
    exec (.mmaOperationComplete core k) s = .next ((r.setTeam (team.setCv cv { c with
      st := if c.gen = gen then .done else c.st, done := mput c.done gen st })).wakeEngine e.who.grid e.who.team)) ∧
  (∀ (s : State) (core k : Nat) (e : EngEntry) (f : FmtX) (handle : Word64) (cv gen n b : Nat) (frags : List Frag),
    (s.coreAt core).engine[k]? = some e → e.op = .mma f false handle cv gen n b frags 0 [] none →
    engineReady (s.coreAt core).engine k = true → e.wild = 0 → (∀ x ∈ frags, x.alt = [] ∧ x.late = []) →
    f.fc = 11 → (f.fa = 7 ∨ f.fa = 8) → (f.fb = 7 ∨ f.fb = 8) → (f.shape = 1 ∨ f.shape = 9) →
    let team := s.teamAt e.who.grid e.who.team
    let tile := team.tileBase + e.tile
    let was := s.tileAt team.core tile
    let m := shapeM f.shape.toNat
    let num := fun (fmt : BitVec 4) (x : Nat) => if fmt = 7 ∧ 128 ≤ x then (x : Int) - 256 else (x : Int)
    let byte := fun (part : Frag → List Elem) (r j : Nat) => match frags.find? (fun x => x.rank == r % n) with
      | some x => ((part x).getD (8 * (r / n) + j / 4) 0).toNat / 2 ^ (8 * (j % 4)) % 256
      | none => 0
    let old := fun (x : Nat) => if f.z then (0 : Nat) else (mgetD was.elems x 0).toNat
    ∃ t : State, exec (.mmaOperationComplete core k) s = .next t ∧
      (t.tileAt team.core tile).status = (if f.z then 0 else was.status) ∧
      (∀ r < m, ∀ c < m, ((mgetD (t.tileAt team.core tile).elems (64 * r + c) 0).toNat : Int) =
        ((old (64 * r + c) : Int) + ((List.range 32).map (fun j => num f.fa (byte Frag.a r j) * num f.fb (byte Frag.b c j))).sum) % 2 ^ 32) ∧
      ∀ x, ¬ (x / 64 < m ∧ x % 64 < m) → (mgetD (t.tileAt team.core tile).elems x 0).toNat = old x) ∧
  (∀ (s : State) (grid team cv : Nat),
    let t := s.teamAt grid team
    let c := t.cvAt cv
    t.saved = false → c.st = .declared → c.word ≠ none → t ∈ s.teams → cv < t.cv.length →
    ∃ u : State, exec (.convergenceTimeout grid team cv) s = .next u ∧
      let d := (u.teamAt t.grid t.idx).cvAt cv
      d.st = .timedOut ∧ d.signed = [] ∧ d.frags = [] ∧ d.timedMask c.gen = some (maskOf c.signed) ∧
      c.start + ((s.grids.find? (fun g => g.id == grid)).getD Grid.zero).ctx.cvBound ≤ u.gtc)

/-- `orf`, `spfence` and the tile instructions (R166 to R177): a fence waits for the writes that it orders, and for the registers of the
wave to be full, and then passes; and a tile instruction enters the engine's queue, where the engine performs it. The tag that a drain is
checked against is the one that the earlier entries of the queue will have set: that is the model's reading (log entry 46, DEDUCED). -/
def Obligations.TileInstructionResults : Prop :=
  (∀ (f : FmtG) (s : State),
    (Ready (.orf f) s → s.cur.vEmpty = [] → (∀ e ∈ s.cur.pw, e.kind = .drain) →
      Completes (.orf f) s (s.withCur { s.cur with lanes := s.cur.lanes.map (fun x => { x with old := [] }) })) ∧
    (Ready (.orf f) s → s.cur.vEmpty = [] → (∃ e ∈ s.cur.pw, e.kind ≠ .drain) →
      exec (.orf f) s = .next (s.withCur { s.cur with why := .release })) ∧
    (Ready (.orf f) s → s.cur.vEmpty ≠ [] → ∃ y, (y = .drain ∨ y = .regs) ∧ exec (.orf f) s = .next (s.withCur { s.cur with why := y })) ∧
    (Ready (.spfence f) s → s.drains s.cur = true → exec (.spfence f) s = .next (s.withCur { s.cur with why := .drain })) ∧
    (Ready (.spfence f) s → s.drains s.cur = false →
      let t := s.teamOf s.cur
      let c := s.coreAt t.core
      let s1 := s.setCore t.core { c with opcache := c.opcache.filter (fun e => !(e.grid == t.grid && e.team == t.idx)) }
      Completes (.spfence f) s (s1.withCur { s.cur with wct := max s.cur.wct s.cur.dct, dct := 0 }))) ∧
  (∀ (f : FmtTile) (s : State), s.engineFull = false →
    let key := s.cur.key
    (Ready (.acczero f) s → Completes (.acczero f) s (s.enqueue key f.acc.toNat (.acczero f.fmt.toNat))) ∧
    (∀ as, Ready (.accld f) s → tileRange s f needAccld (active (.accld f) s) = .ok as →
      let s1 := s.readsRange as
      let bs := s1.rangeBytes s1.cur as
      let n := tileBytes f.fmt.toNat
      let vs := (List.range 4096).map (fun k => accldVal s1.contract f.fmt.toNat (leNat ((bs.drop (n * k)).take n)))
      let s2 := s1.countAccess (as.map LaneAcc.access)
      Completes (.accld f) s (s2.enqueue s2.cur.key f.acc.toNat (.accld f.fmt.toNat
          ((List.range 4096).foldl (fun (m : Map (BitVec 64)) k => mputD 0 m k (BitVec.ofNat 64 (vs.getD k (0, 0)).1)) [])
          (vs.foldl (fun (x : BitVec 6) v => x ||| v.2) 0)))) ∧
    (∀ as, Ready (.accst f) s → drainTag f.fmt.toNat (s.tagAhead f.acc.toNat) = true →
      tileRange s f needAccst (active (.accst f) s) = .ok as → s.cur.task = none →
      Completes (.accst f) s (s.enqueue key f.acc.toNat (.accst f.fmt.toNat (s.drainScale f) f.sat ((rangeLocs as).map Prod.fst)
        ((active (.accst f) s).map (fun l => (s.cur.lane l).tid)) (as.any (fun a => a.access.cls == 3))))) ∧
    (Ready (.accstReg f) s → drainTag f.fmt.toNat (s.tagAhead f.acc.toNat) = true → s.cur.task = none →
      let v := (s.cur.getS f.sb.toNat).toNat
      v < 64 → v + s.cur.width ≤ 64 →
      let act := active (.accstReg f) s
      let id := s.cur.nextPend
      let s1 := s.addPend { vecPend [] ((List.range 64).map (fun k => f.reg.toNat + k)) true with id := id } act
      Completes (.accstReg f) s (s1.enqueue key f.acc.toNat
        (.accstReg f.fmt.toNat (s.drainScale f) v f.reg.toNat id (act.map (fun l => (l, (s.cur.lane l).tid))))))) ∧
  (∀ (s : State) (core k : Nat) (e : EngEntry), (s.coreAt core).engine[k]? = some e →
    engineReady (s.coreAt core).engine k = true → (s.teamAt e.who.grid e.who.team).core = core →
    ∀ fmt, e.op = .acczero fmt → e.wild = 0 → ∃ t, exec (.engineEntryComplete core k) s = .next t ∧
      (t.coreAt core).engine = (s.coreAt core).engine.eraseIdx k ∧
      t.tileAt core ((s.teamAt e.who.grid e.who.team).tileBase + e.tile) = Tile.cleared (tagOfFmt fmt) ∧ t.mem = s.mem)

/-! ### Tensor records and quantisation (R180 to R194) -/

/-- `trec`, `rfence` and `sclq`: a record is read, cached and named; the fence drops the cached records of the team's names; a scale code is
formed in each active lane. -/
def Obligations.RecordResults : Prop :=
  (∀ (f : FmtTrec) (s s1 : State) (bs : List Byte), Ready (.trec f) s →
    let ea := wrapTo 64 (((s.cur.getS f.sa.toNat).toNat : Int) + f.off.toInt)
    ea % 64 = 0 → s.loadRec (active (.trec f) s) ea = .ok (bs, s1) →
    Completes (.trec f) s (s1.setTeam { s1.teamOf s1.cur with
      recs := (s1.teamOf s1.cur).recs.set f.rec_.toNat (some (BitVec.ofNat 64 ea)) })) ∧
  (∀ (f : FmtG) (s : State), Ready (.rfence f) s → s.passed s.cur.wct = true →
    let tags := (s.teamOf s.cur).recs.filterMap (fun r => r.map (fun a => recTag s.cur.key.grid a.toNat))
    let c := s.coreAt s.cur.core
    Completes (.rfence f) s (s.setCore s.cur.core { c with rcache := c.rcache.filter (fun e => !tags.contains e.1) })) ∧
  (∀ (f : FmtSclq) (s : State), Ready (.sclq f) s →
    Completes (.sclq f) s (s.withCur (s.cur.writeFlagged false false f.vd.toNat (active (.sclq f) s) (fun l =>
      scaleCode ((fF32.read s.contract (s.cur.readX false false l f.va.toNat)).setNeg false)
        (fF32.read s.contract (s.cur.readX false false l f.vb.toNat))
        (if f.fmt = 4 then 448 else if f.fmt = 5 then 57344 else 2)))))

/-- The quantisation instructions (R187, R189 to R193): where both records are valid for the origin and fit the instruction, no stamp
is trapped, every access passes and nothing read is poisoned, the tile is staged. Where it passes the threshold of `qblk.d` and the
trap is enabled, the active lanes take the scale-range trap and nothing is written (R191). Otherwise the bytes of the tile are queued as
stores of the wave, the masked events are counted, and the wave waits for those stores; then come the updates of the statistics,
if any; and then the instruction retires, with its flags ORed into the active lanes, and leaves the staging buffer of its core. The
buffer serves the waves of the core in the order of issue (R189): the instruction joins the line, and waits where another is before
it. A tile with no element inside the tensor retires at once. -/
def Obligations.QuantisationResults : Prop :=
  ∀ (k : QKind) (f : FmtQblk) (s : State),
    let i : Instr := match k with | .quant _ => .qblk f | .dequant => .dqblk f | .had _ => .hadm f
    let act := active i s
    let a := (s.cur.getS f.sa.toNat).toNat
    let b := (s.cur.getS f.sb.toNat).toNat
    let o := originOf a b
    let pauses := fun (u : State) => exec i s = .next (u.withCur { u.cur with why := .staging })
    Ready i s → s.cur.task = none → (∀ b, k = .quant b → b = f.flag) → (∀ b, k = .had b → b = f.flag) →
    (∀ (dst src : Rec) (s1 s2 : State), s.progress = [] →
      s.useRec s.cur.issuingSet act f.dst.toNat o = .ok (dst, s1) → s1.useRec s.cur.issuingSet act f.src.toNat o = .ok (src, s2) →
      k.legal s2.contract dst src o = true → dst.ro = false →
      let g := s2.gridOf s2.cur
      let mix := dst.mixes s2.contract || src.mixes s2.contract
      (mix = true → tbit g.trapen 8 = false) →
      (∀ x ∈ k.reads dst src o, ∃ a, s2.tileAcc act needTileR x.1 x.2 = .ok a ∧ a.locs.any s2.isPoisoned = false) →
      (∀ x ∈ k.others dst o, ∃ a, s2.tileAcc act x.1 x.2.1 x.2.2 = .ok a) →
      let reads := (k.reads dst src o).map (fun x => s2.tileAcc act needTileR x.1 x.2)
      let rest := (k.others dst o).map (fun x => s2.tileAcc act x.1 x.2.1 x.2.2)
      (s2.joinStage.2 = true → pauses s2.joinStage.1) ∧
      (s2.joinStage.2 = false →
      let s3 := s2.joinStage.1.readsRange reads
      let q := k.stage s3 act dst src o
      let hit := k == .quant true && q.passes (fF32.decode dst.thresh)
      ((hit && tbit g.trapen 9) = true → Traps i s s3 ⟨17, act, a, b, f.dst.toNat + q.sat * 2 ^ 16 + q.under * 2 ^ 32, []⟩) ∧
      ((hit && tbit g.trapen 9) = false →
        let s4 := (s3.countUp g 0x14 (if mix then 1 else 0)).countUp g 0x18 (if hit then 1 else 0)
        let slow := ((rangeLocs (reads ++ rest)).filter (fun x => x.2 == 3)).map Prod.fst
        let part := fun (fb : Bool) => q.writes.filter (fun x => slow.contains x.1 == fb)
        let stats := match k with
          | .quant _ => if dst.stats = 0 ∨ q.n = 0 then []
            else statFields.flatMap (fun f => s3.tileLocs act needStats (dst.stats + f.1) f.2)
          | _ => []
        (q.writes ≠ [] → pauses ((s4.withCur ((s4.cur.queueStore (part false) false).queueStore (part true) true)).progressed
          (q.keep hit stats ++ q.writes.map (fun x => (10, x.1))))) ∧
        (q.writes = [] → q.n = 0 → Completes i s ((s4.leaveStage s.cur.key).withCur
          (s4.cur.orFlags act (fun _ => BitVec.ofNat 6 q.flags.toNat))))))) ∧
    (let p := s.progress
     let stats := (p.filter (fun x => x.1 == 256)).map Prod.snd
     (∃ x ∈ p, x.1 = 4) → (∀ e ∈ s.cur.pw, ∀ x ∈ e.bytes, x.1 ∉ awaited p) →
      (stats = [] → Completes i s ((s.leaveStage s.cur.key).withCur (s.cur.orFlags act (fun _ => BitVec.ofNat 6 (keptVal p 4))))) ∧
      (stats ≠ [] → pauses ((s.withCur (s.cur.statistics s.contract stats (keptVal p 0) (keptVal p 1)
        (keptVal p 2) (keptVal p 3) (keptVal p 5))).progressed
          ((4, keptVal p 4) :: stats.map (fun x => (10, x))))))

/-- Tile loads and stores (R194): where the record is valid and fits, and every access passes, `vldt` becomes a pending
producer of the tile's registers, each element of which has the four bytes that its lane, row and register take of the tile, of the
elements' addresses in memory, and 0 outside the tensor and in rows at or above e1; and `vstt` queues the bytes of its elements. That the
bytes are read at the issue, and those of class 3 by the return, is the model's choice (log entry 9, DESIGN CHOICE). -/
def Obligations.TileAccessResults : Prop :=
  ∀ (f : FmtVldt) (s s1 : State) (r : Rec),
    let o := originOf (s.cur.getS f.sa.toNat).toNat (s.cur.getS f.sb.toNat).toNat
    (Ready (.vldt f) s → s.useRec s.cur.issuingSet (active (.vldt f) s) f.rec_.toNat o = .ok (r, s1) →
      tileGate r f.rec_.toNat f.reg.toNat s.cur.issuingSet s1 = none →
      let act := active (.vldt f) s
      let xs := tileAccs s1 r o needLoad act
      tileFailed s1 r act xs = none →
      let as := xs.map (fun x => x.2.2.1.access)
      let s2 := s1.beforeRead (as.any (fun a => a.cls != 3)) false
      let rt := tileRt r
      let rows := tileQ r s1.cur.width
      let value := fun (l i b : Nat) => s2.tileLoad (tileByte r xs l i b)
      let elem := fun (l i j : Nat) => ({
        lane := l, reg := f.reg.toNat + rt * i + j,
        val := BitVec.ofNat 32 (leNat ((List.range 4).map (fun k => value l i (4 * j + k)))),
        src := s2.tileSrc ((List.range 4).filterMap (fun k => tileByte r xs l i (4 * j + k))) } : PElem)
      let elems := act.flatMap (fun l => (List.range rows).flatMap (fun i => (List.range rt).map (fun j => elem l i j)))
      let read := as.map Access.atIssue
      Completes (.vldt f) s ((s2.countTile r read).addPend {
        vecPend elems ((List.range (rt * rows)).map (fun k => f.reg.toNat + k)) false with counted := read.any Access.zero } act) ∧
      ∀ l ∈ act, ∀ i < rows, ∀ b < 4 * rt,
        let y := s1.cur.width * i + l
        let c := coordsAt o (b / r.size) y
        (y < r.e1 → r.inside c = true →
          ∃ a, checkAccess s1 s1.cur false needLoad 0 (s1.cur.lane l).tid (r.addr c) r.size = .ok a ∧
            value l i b = (s2.loadBytes s2.cur a).getD (b % r.size) 0) ∧
        (r.e1 ≤ y ∨ r.inside c = false → value l i b = 0)) ∧
    (Ready (.vstt f) s → s.cur.task = none → s.useRec s.cur.issuingSet (active (.vstt f) s) f.rec_.toNat o = .ok (r, s1) →
      tileGate r f.rec_.toNat f.reg.toNat s.cur.issuingSet s1 = none → r.ro = false →
      let xs := tileAccs s1 r o needStore (s1.cur.byTid (active (.vstt f) s))
      tileFailed s1 r (active (.vstt f) s) xs = none →
      let s2 := s1.countTile r (xs.map (fun x => x.2.2.1.access))
      let row := fun (l i : Nat) => (List.range (tileRt r)).flatMap (fun j =>
        leBytes 4 (s1.cur.readV false l (f.reg.toNat + tileRt r * i + j)).toNat)
      let part := fun (fb : Bool) => lastBytes ((xs.filter (fun x => (x.2.2.1.access.cls == 3) == fb)).flatMap (fun x =>
        x.2.2.1.access.locs.zip (((row x.1 x.2.2.2.part).drop x.2.2.2.byte).take r.size)))
      Completes (.vstt f) s (s2.withCur ((s2.cur.queueStore (part false) false).queueStore (part true) true)))

/-! ### The copy engine and translation (R205 to R223) -/

/-- `cpy`, `cpys` and the three forms of `cpyw` (R165, R215 to R217, R220): a transfer takes the first free slot and gives its
promise, a transfer of no byte takes none, but is checked at its addresses all the same (the model's reading, log entry 20, DEDUCED); the
registers of the wave that it will write become empty; a `cpyw` passes, or sleeps, or takes the copy-promise trap. A length beyond the limit, a register pair that is none, the stack aperture, a team-relative source and
an absolute map address outside a privileged mode trap in the whole issuing set (R216). -/
def Obligations.CopyInstructionResults : Prop :=
  (∀ (f : FmtCpy) (s : State) (strided : Bool),
    let i : Instr := if strided then .cpys f else .cpy f
    let w := s.cur
    let stack := fun (a n : Nat) => a < 0xFFFFFE0000000000 + 2 ^ 32 ∧ 0xFFFFFE0000000000 < a + max n 1
    let stray := fun (r : CopyRow) => stack r.src r.len ∨ stack r.dst r.len ∨ r.src / 2 ^ 60 = 9 ∨
      (w.privileged = false ∧ (r.src / 2 ^ 60 = 8 ∨ r.dst / 2 ^ 60 = 8))
    Ready i s → s.cur.task = none →
    (∀ (rows : List CopyRow) (q : Nat), copyRows w f strided = some rows → copyTrap w.privileged rows = none →
      (List.range 16).find? (fun q => Copy.isFree (w.copies.getD q none)) = some q → (∀ r ∈ s.ownDst rows, r ∉ w.vEmpty) →
      let len := (rows.map CopyRow.len).sum
      let p := promiseAt s.gtc len q
      let w1 := w.setS f.sd.toNat (BitVec.ofNat 64 p)
      let w2 := if s.ownDst rows = [] then w1 else w1.idx.foldl (fun (v : Wave) l => v.watched l (s.ownDst rows)) w1
      p % 16 = q ∧ s.gtc ≤ p ∧
      (len = 0 → Completes i s (s.withCur { w1 with rct := max w.rct s.gtc })) ∧
      (len ≠ 0 → Completes i s (s.withCur { w2 with
        copies := w.copies.set q (some {
          ticket := BitVec.ofNat 64 p, promise := p, rows := rows, regDst := s.ownDst rows,
          before := w.pw.length, priv := w.privileged, written := [], torn := [], phase := .waiting, dropped := [], counted := false }),
        vEmpty := (s.ownDst rows).foldl insNat w.vEmpty }))) ∧
    ((if strided then f.sc.toNat % 2 = 1 ∨ 126 < f.sc.toNat else 2 ^ 32 ≤ (w.getS f.sc.toNat).toNat) →
      Traps i s s ⟨1, w.issuingSet, 0, 0, 0, []⟩) ∧
    (∀ rows, copyRows w f strided = some rows → (∃ r ∈ rows, stray r) → ∃ a, Traps i s s ⟨7, w.issuingSet, a, 0, 0, []⟩) ∧
    (∀ rows c a, copyRows w f strided = some rows → copyTrap w.privileged rows = some (c, a) →
      Traps i s s ⟨c, w.issuingSet, a, 0, 0, []⟩)) ∧
  (∀ (f : FmtDstSrc) (s : State) (waits : Bool),
    let i : Instr := if waits then .cpywWait f else .cpyw f
    let t := s.cur.getS f.sa.toNat
    let act := active i s
    Ready i s →
    (∀ free, s.cpywDecide waits t act = .pass free → Completes i s (s.cpywFree free)) ∧
    (∀ till, s.cpywDecide waits t act = .sleep till →
      CompletesBut i s (s.withCur (s.cur.modLanes act (fun x => { x with
        st := .cpyw waits t, iss := maskOf s.cur.issuingSet }))) act) ∧
    (∀ c, waits = false → s.cur.copies.getD (t.toNat % 16) none = some c → c.ticket = t → c.phase = .waiting →
      t.toNat ≤ s.gtc → c.promise ≤ s.gtc → Traps i s s ⟨14, act, 0, t.toNat, 0, []⟩)) ∧
  (∀ (f : FmtDstSrc) (s : State), Ready (.cpywRe f) s →
    let t := s.cur.getS f.sa.toNat
    let q := t.toNat % 16
    (s.cur.copies.getD q none = none → Completes (.cpywRe f) s (s.withCur (s.cur.setS f.sd.toNat t))) ∧
    (∀ c, s.cur.copies.getD q none = some c → c.ticket = t → c.phase = .waiting →
      Completes (.cpywRe f) s (s.withCur ((s.cur.setCopy q (some { c with
        promise := promiseAt s.gtc ((c.rows.map CopyRow.len).sum) q })).setS f.sd.toNat t))))

/-- The copy engine (R218 to R220): a transfer starts once the wave's earlier writes are acknowledged and the GTC has passed
its write time; it completes by writing its last byte; and the sleepers of a ticket go on. -/
def Obligations.CopyEngineResults : Prop :=
  (∀ (s : State) (w : Wave) (q : Nat) (c : Copy) (ms : List (CopyByte × CopyByte × Nat)) (mix : Bool),
    s.findWave w.key = some w → w.copies.getD q none = some c → c.phase = .waiting →
    (∀ e ∈ w.pw.take c.before, e.kind = .drain) → s.passed w.wct = true →
    copyPlan s { w with tm := c.priv, priv := c.priv } c.rows = .ok (ms, mix) →
    let s1 := s.setWave (w.setCopy q (some { c with phase := .started ms, counted := c.counted || mix }))
    exec (.copyTransferStart w.key q) s = .next (s1.countUp (s1.gridOf w) 0x14 (if mix && !c.counted then 1 else 0))) ∧
  (∀ (s : State) (q : Nat) (c : Copy) (ms : List (CopyByte × CopyByte × Nat)), q < s.cur.copies.length →
    s.findWave s.cur.key = some s.cur → s.cur.copies.getD q none = some c → c.phase = .started ms →
    (∀ m ∈ ms, ∃ d e, m.1 = .mem d ∧ m.2.1 = .mem e) → c.written = [] →
    (∀ x ∈ s.waves, ∀ k d, x.copies.getD k none = some d → d.torn = []) →
    (∀ m ∈ ms, ∀ n ∈ ms, m.1 ≠ n.2.1) → (ms.map (fun m => m.1)).Nodup →
    ∃ t : State, exec (.copyComplete s.cur.key q) s = .next t ∧ t.cur.rct = max s.cur.rct t.gtc ∧
      (s.cur.cpySleepers = [] → t.cur.copies.getD q none = none) ∧
      ∀ m ∈ ms, ∀ d e, m.1 = .mem d → m.2.1 = .mem e → Memory.read t.mem d = Memory.read s.mem e) ∧
  (∀ (s : State) (l : Nat) (t : Word64), s.findWave s.cur.key = some s.cur → s.cur.cpySleepers = [(l, false, t)] →
    s.cur.spec = 0 → s.cur.copies.getD (t.toNat % 16) none = none →
    ∃ u : State, exec (.copyPromiseWake s.cur.key) s = .next u ∧ (u.cur.lane l).st = .run ∧
      t.toNat ≤ u.gtc ∧ u.passed s.cur.rct = true)

/-! ### System instructions, traps and returns (R69, R271 to R299) -/

/-- `nop`, `trap`, `brk`, `rdsr`, `wrsr` and `wsw` (R280, R281, R283, R284, R298, R299), and the values of the special
registers (R298). -/
def Obligations.SystemResults : Prop :=
  (∀ (f : FmtG) (s : State), Ready (.nop f) s → Completes (.nop f) s s) ∧
  (∀ (f : FmtTrap) (s : State), Ready (.trap f) s → Traps (.trap f) s (s.withCur (s.advance s.cur (active (.trap f) s)))
    ⟨22, active (.trap f) s, 0, f.imm.toNat, 0, []⟩) ∧
  (∀ (f : FmtBrk) (s : State), Ready (.brk f) s → (s.cur.getS f.sa.toNat).toNat < 2 ^ 33 →
    Completes (.brk f) s (s.withCur { s.cur with bp := s.cur.bp.set f.k.toNat ((s.cur.getS f.sa.toNat).setWidth 33) })) ∧
  (∀ (f : FmtRdsr) (s : State) (v : Nat), Ready (.rdsr f) s → s.sreg f.num.toNat 0 = some v →
    (f.vec = true → Completes (.rdsr f) s (s.withCur (s.cur.writeLanes false false f.rd.toNat (active (.rdsr f) s)
      (fun l => ((s.sreg f.num.toNat l).getD 0) % 2 ^ 32)))) ∧
    (f.vec = false → 2 ≤ f.num.toNat → Completes (.rdsr f) s (s.putS f.rd.toNat (BitVec.ofNat 64 v)))) ∧
  (∀ (f : FmtWrsr) (s : State), Ready (.wrsr f) s → f.num = 0x20 →
    s.cur.getS f.sa.toNat &&& 0x33F = s.cur.getS f.sa.toNat →
    Completes (.wrsr f) s (s.setGrid { s.gridOf s.cur with trapen := s.cur.getS f.sa.toNat })) ∧
  (∀ (f : FmtWsw) (s : State), Ready (.wsw f) s →
    let a := s.cur.getS f.sa.toNat
    let b := s.cur.getS f.sb.toNat
    b &&& ~~~6 = 0 → (tbit b 2 = true → s.cur.privileged = true) →
    let dbg := tbit a 2 && tbit b 2
    Completes (.wsw f) s (s.withCur { s.cur.setS f.sd.toNat (s.wsw s.cur) with
      step := tbit a 1 && tbit b 1, dbg := dbg, snSeq := if dbg then 0 else s.cur.snSeq })) ∧
  (∀ (s : State) (l : Nat),
    let w := s.cur
    let g := s.gridOf w
    let t := w.key.team
    let (x, y, z) := g.p.ext
    s.sreg 0 l = some (w.lane l).tid ∧ s.sreg 1 l = some l ∧ s.sreg 3 l = some t ∧
    s.sreg 4 l = some (t % x + x * 2 ^ 32) ∧ s.sreg 5 l = some (t / x % y + y * 2 ^ 32) ∧
    s.sreg 6 l = some (t / x / y + z * 2 ^ 32) ∧ s.sreg 7 l = some g.p.launch ∧ s.sreg 8 l = some g.p.contract ∧
    s.sreg 9 l = some s.gtc ∧ s.sreg 10 l = some w.wct ∧ s.sreg 11 l = some w.alloc ∧ s.sreg 14 l = some g.det ∧
    (∀ k < 8, s.sreg (16 + k) l = some (w.keys.getD k 0).toNat) ∧ (∀ k < 4, s.sreg (28 + k) l = some (w.bp.getD k 0).toNat) ∧
    s.sreg 32 l = some g.trapen.toNat ∧ ∀ n, 32 < n → s.sreg n l = none)

/-- `sret`, `sret.esc` and the decision of the fault service (R277, R279): `sret` waits for every lane; then the wave
leaves trap mode, its scalar bank and predicates are restored, and every unexited lane stands where its record says;
after a breakpoint the next issue matches none. Where a translation that the return needs is missing, it is asked for and the wave waits
for it (R205). A record with a position that is an illegal target is a double trap. An escalated wave is resumed, or its grid ends; the Ringmaster resumes page faults only. -/
def Obligations.TrapReturnResults : Prop :=
  (∀ (f : FmtG) (s : State), Ready (.sret f) s → s.cur.tm = true → s.cur.fabFail = [] →
    let act := active (.sret f) s
    let u := s.withCur (s.cur.modLanes act (fun x => { x with st := .sret, iss := maskOf s.cur.issuingSet }))
    (u.cur.atSret = false → CompletesBut (.sret f) s u act) ∧
    (u.cur.atSret = true → u.returnMisses u.cur ≠ [] → ∃ t : State, exec (.sret f) s = .next t ∧ t.cur.why = .tlb ∧ t.cur.tm = true ∧
      (∀ l ∈ act, (t.cur.lane l).st = .run ∧ (t.cur.lane l).vpc = (s.cur.lane l).vpc) ∧
      ∀ va ∈ u.returnMisses u.cur, ∃ m ∈ (t.coreAt s.cur.core).misses, m.asid = (s.gridOf s.cur).ctx.asid ∧ m.va = missPage va) ∧
    (∀ ps, u.cur.atSret = true → u.returnMisses u.cur = [] → u.returnPositions u.cur = .ok ps → ∃ t, exec (.sret f) s = .next t ∧
      t.cur.tm = false ∧ t.cur.cause = 0 ∧ t.mem = s.mem ∧ (t.cur.bpSkip = true ↔ s.cur.cause = 21) ∧
      (∀ k < 8, t.cur.getS (120 + k) = s.cur.bankS.getD k 0) ∧
      (∀ l ∈ s.cur.liveLanes, ∃ p ∈ ps, p.lane = l ∧ (t.cur.lane l).vpc = p.vpc ∧ (t.cur.lane l).p = (s.cur.lane l).bankP)) ∧
    (∀ pos a, u.cur.atSret = true → u.returnMisses u.cur = [] → u.returnPositions u.cur = .error pos → s.cur.pend = [] → u.recordAccess u.cur false = .ok a →
      ∃ t, exec (.sret f) s = .next t ∧ t.cur.tm = true ∧ t.cur.cause = 2 ∧ t.cur.escalated = true)) ∧
  (∀ (f : FmtG) (s : State), Ready (.sretEsc f) s → s.cur.tm = true →
    CompletesBut (.sretEsc f) s (s.escalate s.cur.cause none) s.cur.issuingSet) ∧
  (∀ (s : State) (w : Wave) (resume : Bool), s.findWave w.key = some w →
    (w.escalated = false → exec (.faultServiceDecision w.key resume) s = .next s) ∧
    (w.escalated = true → w.escHost = false → w.cause ≠ 6 → exec (.faultServiceDecision w.key true) s = .next s) ∧
    (w.escalated = true → ∀ g, s.grids.find? (fun x => x.id == w.key.grid) = some g → g.ended = none →
      ∃ t : State, exec (.faultServiceDecision w.key false) s = .next t ∧ (t.gridAt w.key.grid).ended = some (5, 2))) ∧
  (∀ (s : State) ps, s.findWave s.cur.key = some s.cur → s.cur.escalated = true → s.cur.escHost = true ∨ s.cur.cause = 6 →
    s.cur.fabFail = [] → s.returnPositions s.cur = .ok ps → ∃ t, exec (.faultServiceDecision s.cur.key true) s = .next t ∧
      t.cur.tm = false ∧ t.cur.escalated = false ∧
      ∀ l ∈ s.cur.liveLanes, ∃ p ∈ ps, p.lane = l ∧ (t.cur.lane l).vpc = p.vpc ∧ (t.cur.lane l).p = (s.cur.lane l).bankP)

/-- TAKING A TRAP (R274 to R276): outside trap mode, where the record can be written and the handler's header is well
formed, the record is stored, the bank is saved, and every unexited lane stands at word 1 of the trap segment with p0
alone telling the trapping lanes; the fields of the record; where the record cannot be written the wave is escalated, and the
service has the record itself with the cause of the failed write; a trap in trap mode keeps the first record in the context
status block and escalates. WHAT A DEBUGGER USES: with the step bit set the instruction that retires is followed by the step trap of its
issuing set, and lanes whose wait ends take it with the issuing set that they waited in (R282); a wave about to issue at an enabled
breakpoint takes the breakpoint trap first, with the lowest number that matches, but not in trap mode, nor at the first issue after a
return from that trap (R283); with the debug bit set the Safety Net stores one entry with the prior value before a register or eight
bytes of memory are written, and a horizon entry before an effect that it cannot undo (R285). -/
def Obligations.TrapEntryResults : Prop :=
  (∀ (s : State) (t : TrapInfo) (a : Access) (len : Nat), s.cur.tm = false → s.cur.spec = 0 → s.cur.pend = [] → t.esc = false →
    (s.gridOf s.cur).ctx.trapLen ≠ 0 → s.recordAccess s.cur false = .ok a → a.locs ≠ [] →
    s.header { s.cur with tm := true } 0 = .ok len →
    let u := s.takeTrap t
    u.cur.tm = true ∧ u.cur.cause = t.cause ∧ u.cur.escalated = s.cur.escalated ∧ u.mem = s.mem ∧
    u.rest.map Wave.toArch = s.rest.map Wave.toArch ∧
    u.cur.bankS = (List.range 8).map (fun k => s.cur.getS (120 + k)) ∧
    u.cur.getS 127 = BitVec.ofNat 64 (recordAddr (s.gridOf s.cur) s.cur) ∧
    u.cur.pw = s.cur.pw ++ [{ bytes := a.locs.zip (s.recordBytes s.cur t), kind := .store, fb := a.cls == 3, part := false }] ∧
    ∀ l ∈ s.cur.liveLanes, (u.cur.lane l).bankP = (s.cur.lane l).p ∧
      (u.cur.lane l).bankPos = ((s.cur.lane l).vpc, (s.cur.lane l).blk, (s.cur.lane l).blkEnd, (s.cur.lane l).bad) ∧
      (u.cur.lane l).p = (if tbit t.lanes l then 1 else 0) ∧ (u.cur.lane l).vpc = 1 ∧ (u.cur.lane l).st = .run ∧
      (u.cur.lane l).v = (s.cur.lane l).v) ∧
  (∀ (s : State) (t : TrapInfo),
    let bs := s.recordBytes s.cur t
    let field := fun off n => leNat ((bs.drop off).take n)
    bs.length = 2048 ∧ field 0 4 = t.cause % 2 ^ 32 ∧ field 4 4 = t.offset % 2 ^ 32 ∧ field 8 8 = t.lanes.toNat ∧
    field 0x10 8 = t.word.toNat ∧ field 0x18 8 = t.addr % 2 ^ 64 ∧ field 0x20 8 = t.infoA % 2 ^ 64 ∧
    field 0x28 8 = t.infoB % 2 ^ 64 ∧ field 0x30 8 = s.gtc % 2 ^ 64 ∧ field 0x38 8 = (s.wsw s.cur &&& ~~~1).toNat ∧
    (∀ l < 64, field (0x40 + 4 * l) 4 = (s.cur.lane l).vpc % 2 ^ 32) ∧
    (∀ l < 64, field (0x140 + l) 1 = t.laneCause.getD l 0 % 2 ^ 8) ∧
    ∀ k < 96, field (0x200 + 8 * k) 8 = t.batch.getD k 0 % 2 ^ 64) ∧
  (∀ (s : State) (t : TrapInfo) (o c n : Nat), s.cur.pend = [] → s.recordAccess s.cur false = .trap o c n →
    let u := s.takeTrap t
    u.cur.tm = true ∧ u.cur.cause = t.cause ∧ u.cur.escalated = true ∧ u.cur.trapPend = some { t with failed := c } ∧ u.mem = s.mem) ∧
  (∀ (s : State) (t : TrapInfo) (a : Access), s.cur.tm = true → s.cur.pend = [] → s.recordAccess s.cur false = .ok a →
    a.locs.length = 2048 → ∀ k < 1024,
      Memory.read (s.takeTrap t).mem ((s.gridOf s.cur).ctx.status + 0x400 + k) = s.loadByte s.cur (a.locs.getD k 0)) ∧
  (∀ (i : Instr) (s : State),
    let act := active i s
    let iss := s.cur.issuingSet
    let at1 := legalHere s i = true ∧ Allotted i s ∧ AllFull i s ∧ InWindow i s ∧ s.cur.regErr = [] ∧ readsBadTile s i act = false ∧
      s.cur.spec = 0 ∧ s.cur.tm = false ∧ act ≠ []
    let steps := fun (u : State) => ∃ t, Retires s u t iss False ∧
      exec i s = .next (t.takeTrap ((trapOf 20 iss).info s.at_ (encode i)))
    let logs := fun (a : Access) (kind full count place : Nat) (prior : List Byte) => ∃ t more, exec i s = .next t ∧
      t.cur.snSeq = s.cur.snSeq + 1 ∧ t.cur.pw = s.cur.pw ++ { kind := .store, fb := a.cls == 3, part := false, bytes := a.locs.zip (
        leBytes 8 s.cur.snSeq ++ leBytes 4 s.at_ ++ leBytes 1 kind ++ leBytes 1 full ++ leBytes 2 count ++ leBytes 8 place ++
        leBytes 8 (maskOf iss).toNat ++ List.replicate 32 0 ++ prior ++ List.replicate (256 - prior.length) 0) } :: more
    (at1 → s.cur.step = true → s.cur.dbg = false → s.cur.trapPend = none →
      (∀ f, i = .nop f → steps s) ∧
      (∀ f, i = .vmovi f → steps (s.withCur (s.cur.writeLanes f.p false f.rd.toNat act (fun _ => f.imm.toNat))))) ∧
    (at1 → s.cur.step = false → s.cur.dbg = true → s.progress = [] → s.cur.fabAt = [] →
      ∀ (e : Nat) (a : Access), s.netPlaces 0 = [(e, .ok a)] → a.locs ≠ [] →
      (∀ f, i = .vmovi f → f.p = false → logs a 0 1 0 f.rd.toNat ((List.range 64).flatMap (fun l =>
        leBytes 4 ((s.cur.lane l).getV f.rd.toNat).toNat))) ∧
      (∀ f, i = .smovi f → logs a 1 1 0 f.rd.toNat (leBytes 8 (s.cur.getS f.rd.toNat).toNat)) ∧
      (∀ f, i = .cpywRe f → s.cur.copies.getD ((s.cur.getS f.sa.toNat).toNat % 16) none = none → logs a 4 0 0 0 []) ∧
      (∀ f l b c, i = .st f → act = [l] → accBytes f ≤ 8 →
        let ea := s.cur.effAddr f l
        checkAccess s s.cur true { needStore with stamp := false } 0 (s.cur.lane l).tid (ea / 8 * 8) 8 = .ok b →
        checkAccess s s.cur false needStore f.space.toNat (s.cur.lane l).tid ea (accBytes f) = .ok c →
        logs a 3 0 1 0 (leBytes 8 (ea / 8 * 8) ++ b.locs.map (s.loadByte s.cur))))) ∧
  (∀ (s : State) (key : WKey) (w : Wave) (ls : List Nat), s.findWave key = some w → w.step = true → w.tm = false → ls ≠ [] →
    w.trapPend = none → w.lanes.length ≤ 64 →
    ∃ (v : Wave) (x : TrapInfo), (s.lateRetire key ls).findWave key = some v ∧ v.trapPend = some x ∧ x.cause = 20 ∧
      ∀ k < 64, tbit x.lanes k = true ↔ k ∈ v.liveLanes ∧ (k ∈ ls ∨ ∃ j ∈ ls, tbit (w.lane j).iss k = true)) ∧
  (∀ (s : State) (k : Nat), s.sched = [] → s.mayIssue = true → s.unitsTurn = false → (s.cur.ovr ≠ [] ∨ s.cur.overdue = none) →
    s.midAtom = false → s.preHeld = none → s.preFabric = none → s.preFence = none → s.preHeader = none → s.cur.spec = 0 →
    let hits := fun (j : Nat) => tbit (s.cur.bp.getD j 0) 32 = true ∧ (s.cur.bp.getD j 0).toNat % 2 ^ 32 = s.at_
    (s.cur.tm = false → s.cur.bpSkip = false → k < 4 → hits k → (∀ j < k, ¬ hits j) →
      step s = .next ((s.withCur { s.cur with bpSkip := false }).takeTrap
        ((⟨21, s.cur.issuingSet, 0, k, 0, []⟩ : TrapReq).info s.at_ (s.wordOf s.cur s.at_))).passTurn.settled) ∧
    (s.cur.tm = true ∨ s.cur.bpSkip = true ∨ (∀ j < 4, ¬ hits j) → s.preBreak = none))

/-- THE CHECKS AT ISSUE, for every instruction (R28, R32, R47, R69): a word that is not legal traps first, then a register
beyond the allotment, then an empty mode-1 source; an instruction that passes them and has no active lane retires
without effect, but for a trap that its own rule has every lane of the issuing set take. Which own checks are made all the same
with no active lane (`checksWhole`), and that `cvdecl`, `mma` and the instructions on records then retire without theirs, is the model's
reading (log entry 12, DEDUCED). -/
def Obligations.IssueChecks : Prop :=
  ∀ (i : Instr) (s : State), i.isEvent = false → s.cur.spec = 0 → s.cur.issuingSet ≠ [] →
    (legalHere s i = false → Traps i s s (trapOf 1 s.cur.issuingSet)) ∧
    (legalHere s i = true →
      (∀ x, overAllotment s (Instr.operands s i) = some x → Traps i s s { trapOf 3 s.cur.issuingSet with infoA := x }) ∧
      (Allotted i s →
        (∀ x, emptyTrap s.cur (Instr.operands s i) = some x → Traps i s s { trapOf 4 s.cur.issuingSet with infoA := x }) ∧
        (AllFull i s → InWindow i s → s.cur.step = false → active i s = [] →
          (Instr.checksWhole i = false → Completes i s s) ∧
          (Completes i s s ∨ ∃ u t, t.lanes = s.cur.issuingSet ∧ Traps i s u t))))

/-- ACCESS AND PRIVILEGE TRAPS (R98, R99, R206, R207, R273, R284, R295): once every translation is at hand, a misaligned lane
traps before any other check, a trap of another check is that of the first failing check, with the address and the stamp of the
trapping lane with the lowest `$tid`, and an instruction that needs a privileged mode traps outside it. -/
def Obligations.AccessAndPrivilegeTraps : Prop :=
  (∀ (f : FmtM) (s : State),
    let n := accBytes f
    let ea := s.cur.effAddr f
    let mis := fun ls => ls.filter (fun l => ea l % n != 0)
    let stampOf := fun (rs : List (Nat × LaneAcc)) (ls : List Nat) =>
      ((rs.find? (fun r => r.1 == s.cur.lowestTid ls)).map (fun r => r.2.info)).getD 0
    (Ready (.ld f) s → mis (active (.ld f) s) ≠ [] →
      missesOf (laneAccesses s needLoad f.space.toNat n (active (.ld f) s) ea) = [] → ∃ lc, Traps (.ld f) s s
      ⟨5, mis (active (.ld f) s), ea (s.cur.lowestTid (mis (active (.ld f) s))), 0, 0, lc⟩) ∧
    (let rs := laneAccesses s needLoad f.space.toNat n (active (.ld f) s) ea
     ∀ c ls info lc, c ≠ 9 → Ready (.ld f) s → verdict rs = .trap c ls info lc →
      Traps (.ld f) s s ⟨c, ls, ea (s.cur.lowestTid ls), if c = 8 then stampOf rs ls else 0, if c = 8 then s.contract else 0, lc⟩) ∧
    (let rs := laneAccesses s needStore f.space.toNat n (s.cur.byTid (active (.st f) s)) ea
     ∀ c ls info lc, Ready (.st f) s → verdict rs = .trap c ls info lc →
      Traps (.st f) s s ⟨c, ls, ea (s.cur.lowestTid ls), if c = 8 then stampOf rs ls else 0, if c = 8 then s.contract else 0, lc⟩)) ∧
  (∀ (s : State), s.cur.privileged = false →
    (∀ f, Ready (.tlbw f) s → Traps (.tlbw f) s s (trapOf 7 (active (.tlbw f) s))) ∧
    (∀ f, Ready (.tlbiVa f) s → Traps (.tlbiVa f) s s (trapOf 7 (active (.tlbiVa f) s))) ∧
    (∀ f, Ready (.tlbiAsid f) s → Traps (.tlbiAsid f) s s (trapOf 7 (active (.tlbiAsid f) s))) ∧
    (∀ f, Ready (.tlbiAll f) s → Traps (.tlbiAll f) s s (trapOf 7 (active (.tlbiAll f) s))) ∧
    (∀ f, Ready (.migrate f) s → Traps (.migrate f) s s (trapOf 7 (active (.migrate f) s))) ∧
    (∀ f : FmtWsw, Ready (.wsw f) s → s.cur.getS f.sb.toNat &&& ~~~6 = 0 → tbit (s.cur.getS f.sb.toNat) 2 = true →
      Traps (.wsw f) s s (trapOf 7 (active (.wsw f) s)))) ∧
  (∀ (f : FmtG) (s : State), s.cur.tm = false →
    (Ready (.sret f) s → Traps (.sret f) s s (trapOf 1 s.cur.issuingSet)) ∧
    (Ready (.sretEsc f) s → Traps (.sretEsc f) s s (trapOf 1 s.cur.issuingSet)))

/-! ### Translation, page faults and errors (R205 to R214, R223) -/

/-- `tlbw`, `tlbi`, the walker and the host's fill (R205 to R207): a valid entry translates its page from then on; the
invalidations remove the entries that they name and complete once every access is over; a walk that finds no entry
leaves the page faulting. -/
def Obligations.TranslationResults : Prop :=
  (∀ (f : FmtCpy) (s : State), Ready (.tlbw f) s → s.cur.privileged = true →
    let a := s.cur.getS f.sa.toNat
    let w0 := s.cur.getS f.sb.toNat
    let w1 := s.cur.getS f.sc.toNat
    let u := s.tlbFill s.cur.core a w0 w1
    tlbwLegal a.toNat = true →
    Completes (.tlbw f) s u ∧
    (leafValid (tlbwSize a.toNat) w0 w1 = true → ∀ va,
      va / 2 ^ pageBits (tlbwSize a.toNat) = tlbwVa a.toNat / 2 ^ pageBits (tlbwSize a.toNat) →
      u.translate s.cur.core (tlbwAsid a.toNat) va = .hit (tlbwSize a.toNat) w0 w1)) ∧
  (∀ (f : FmtSrc) (s : State), s.cur.privileged = true → s.accessesDone = true →
    let a := (s.cur.getS f.sa.toNat).toNat
    let drops := fun (i : Instr) (gone : TlbEntry → Bool) => Ready i s → ∃ u, Completes i s u ∧ u.mem = s.mem ∧ u.cur = s.cur ∧
      ∀ core, (u.coreAt core).tlb = (s.coreAt core).tlb.filter (fun e => !gone e)
    (a % 16 = 0 → drops (.tlbiVa f) (fun e => e.covers (a / 16 % 2 ^ 12) (tlbwVa a)) ∧
      drops (.tlbiAsid f) (fun e => e.asid == a / 16 % 2 ^ 12)) ∧
    drops (.tlbiAll f) (fun _ => true)) ∧
  (∀ (s : State) (core : Nat) (m : Miss), s.hostWalks = false → m.asid < 2 ^ 12 → m.va < 2 ^ 57 →
    (s.coreAt core).misses.find? (fun x => x.failed.isNone && !x.host) = some m →
    (∀ size w0 w1, s.walk m.root m.va = .leaf size w0 w1 → size < 3 → leafValid size w0 w1 = true →
      ∃ t : State, exec (.tlbMissWalk core) s = .next t ∧ t.translate core m.asid m.va = .hit size w0 w1) ∧
    (s.walk m.root m.va = .absent → (s.coreAt core).tlb.find? (fun e => e.covers m.asid m.va) = none →
      ∃ t : State, exec (.tlbMissWalk core) s = .next t ∧ t.translate core m.asid m.va = .fault false)) ∧
  (∀ (s : State) (core : Nat) (a w0 w1 : Word64), s.hostLink = true → s.inRecovery = false → tlbwLegal a.toNat = true → leafValid (tlbwSize a.toNat) w0 w1 = true →
    ∃ t : State, exec (.hostTlbFill core a w0 w1) s = .next t ∧
      t.translate core (tlbwAsid a.toNat) (tlbwVa a.toNat) = .hit (tlbwSize a.toNat) w0 w1)

/-- PAGE FAULTS (R209, R210): a load that faults opens a batch with its distinct pages, and the wave runs ahead from its checkpoint, the
destination unknown; a further fault adds its pages; the run-ahead ends at the first of 32 further pages, 2048 instructions, no ready
lane, and an instruction that it does not run, and then the checkpoint is back, nothing held is left, and the batch waits for the
service; a trap stops its lanes and is not taken. Then the fault service's answers, errors of memory, and the host's accesses (R211, R218,
R223, R310). That the host's access to a reserved range ends in the fault of that name is the model's own stop (log entry 113, DESIGN
CHOICE), where the specification is silent. -/
def Obligations.FaultAndHostResults : Prop :=
  (∀ (f : FmtM) (s : State) (pages : List (Nat × Bool)) (lc : List (Nat × Nat)),
    let i : Instr := .ld f
    let act := active i s
    let ea := s.cur.effAddr f
    let rs := laneAccesses s needLoad f.space.toNat (accBytes f) act ea
    let ls := (rs.filter (fun r => match r.2 with | .fault .. => true | _ => false)).map Prod.fst
    let unknown := fun (t : State) => ∀ l ∈ act, ∀ k < dataRegs f, f.rd.toNat + k ∈ (t.cur.lane l).unk
    (Ready i s → s.cur.pend = [] → (∀ c ∈ s.cur.copies, ∀ x, c = some x → x.regDst = []) → verdict rs = .fault pages lc →
      ∃ t b, exec i s = .next t ∧ t.cur.batch = some b ∧ b.pages = pages ∧ b.base = pages.length ∧ b.lanes = ls ∧
        b.first = ea (s.cur.lowestTid ls) ∧ b.laneCause = lc ∧ b.offset = s.at_ ∧ t.mem = s.mem ∧ t.cur.pw = s.cur.pw ∧
        (b.running = true → t.cur.spec = 1 ∧ t.cur.ck = some s.cur.toArch ∧ unknown t) ∧
        (b.running = false → t.cur.spec = 0 ∧ t.cur.toArch = s.cur.toArch ∧ t.cur.why = .pageFault)) ∧
    (∀ b, legalHere s i = true → Allotted i s → AllFull i s → s.cur.regErr = [] → s.cur.spec = 1 → s.cur.batch = some b → act ≠ [] →
      (∀ l ∈ s.cur.issuingSet, guardUnknown s.cur i l = false) → stopsBefore s i s.cur.issuingSet act = [] →
      verdict rs = .fault pages lc →
      let all := pages.foldl addPage b.pages
      ∃ t d, exec i s = .next t ∧ t.cur.batch = some d ∧ d.base = b.base ∧ t.mem = s.mem ∧
        (d.running = true → d.pages = all ∧ d.issued = b.issued + 1 ∧ t.cur.ck = s.cur.ck ∧ unknown t) ∧
        (d.running = false → d.pages = all.take (b.base + 32)))) ∧
  (∀ (i : Instr) (s : State), i.isEvent = false → s.cur.spec = 1 → s.cur.issuingSet ≠ [] →
    (legalHere s i = false → exec i s = .next ((s.stopLanes s.cur.issuingSet).checkAhead)) ∧
    (legalHere s i = true → Allotted i s → AllFull i s → InWindow i s → s.cur.regErr = [] → readsBadTile s i (active i s) = false →
      rowOne i = false → exec i s = .next s.endAhead)) ∧
  (∀ (s : State) (b : Batch), s.cur.batch = some b →
    (b.base + 32 ≤ b.pages.length ∨ 2048 ≤ b.issued ∨ s.cur.ready = [] → s.checkAhead = s.endAhead) ∧
    (b.pages.length < b.base + 32 → b.issued < 2048 → s.cur.ready ≠ [] → s.checkAhead = s) ∧
    ∀ a, s.cur.ck = some a → s.cur.spec = 1 →
      let u := s.endAhead
      u.cur.toArch = a ∧ u.cur.spec = 0 ∧ u.cur.ck = none ∧ u.cur.hold = [] ∧ u.cur.heldPoison = 0 ∧ u.cur.heldCmix = 0 ∧
      u.cur.pw = s.cur.pw ∧ u.mem = s.mem ∧ u.rest = s.rest ∧ u.cur.why = .pageFault ∧
      u.cur.batch = some { b with pages := b.pages.take (b.base + 32), running := false } ∧
      u.outbox = (if tbit s.regs.fmode 1 then s.outbox ++ [.hostFault s.cur.key] else s.outbox)) ∧
  (∀ (s : State) (b : Batch), s.findWave s.cur.key = some s.cur → s.cur.batch = some b → b.running = false →
    let c := s.clearFailed s.cur.core (s.gridOf s.cur).ctx.asid (b.pages.map Prod.fst)
    exec (.pageFaultBatchResolved s.cur.key true) s = .next (c.withCur { s.cur with batch := none, why := .none }) ∧
    exec (.pageFaultBatchResolved s.cur.key false) s =
      .next ((c.withCur { s.cur with batch := none, why := .none }).batchTrap b)) ∧
  (∀ (s : State) (w : Wave) (q va : Nat) (m : Bool) (c : Copy), s.findWave w.key = some w → w.copies.getD q none = some c →
    c.phase = .faulted va m →
    exec (.pageFaultResolved (.copy w.key q) true) s = .next (s.setWave (w.setCopy q (some { c with phase := .waiting }))) ∧
    exec (.pageFaultResolved (.copy w.key q) false) s = .next (s.setWave ((w.setCopy q (some { c with
      phase := .failed 6 va (if m then 1 else 0) })).fill c.regDst).copyWake)) ∧
  (∀ (s : State) (k : Nat) (r : FabReq), s.fabWaiting[k]? = some r → s.fabWaiting.Nodup → (∀ x ∈ s.fabWaiting, FabReq.meets r x = true → x = r) →
    ∃ t n, exec (.pageFaultResolved (.fabric k) false) s = .next t ∧ Out.fabResp r.src r.core r.tag r.inc (.error 6 n) ∈ t.outbox ∧
      t.mem = s.mem) ∧
  (∀ (s : State) (t : TrapInfo), s.findWave s.cur.key = some s.cur → s.cur.trapPend = some t → s.cur.why = .trapRecord →
    let g := s.gridOf s.cur
    let c := s.clearFailed s.cur.core g.ctx.asid [recordAddr g s.cur, g.ctx.trapSeg]
    exec (.pageFaultResolved (.record s.cur.key) true) s = .next ((c.withCur { s.cur with why := .none, trapPend := none }).takeTrap t) ∧
    ∃ u, exec (.pageFaultResolved (.record s.cur.key) false) s = .next u ∧ u.cur.escalated = true) ∧
  (∀ (s : State) (a : Nat), physValid a = true → ∃ t : State, exec (.uncorrectableError (.mem a)) s = .next t ∧
    t.isPoisoned a = true ∧ t.mem = s.mem) ∧
  (∀ (s : State) (core k e : Nat), k < Config.tilesPerCore → e < 4096 →
    ∃ t : State, exec (.uncorrectableError (.tile core k e)) s = .next t ∧ e ∈ (t.tileAt core k).bad) ∧
  (∀ (s : State) (addr len : Nat) (bs : List Byte), s.hostLink = true → s.inRecovery = false → mapKind addr ≠ 8 →
    ((∀ k < bs.length, physValid (addr + k) = true) → ∃ t, exec (.hostMemoryAccess addr len (some bs)) s = .next t ∧
      (∀ k < bs.length, Memory.read t.mem (addr + k) = bs.getD k 0) ∧
      ∀ x, (x < addr ∨ addr + bs.length ≤ x) → Memory.read t.mem x = Memory.read s.mem x) ∧
    ((∀ k < len, physValid (addr + k) = true) →
      exec (.hostMemoryAccess addr len none) s = .next { s with outbox := s.outbox ++ [.hostData (s.readN addr len)] }) ∧
    ((∃ k < len, physValid (addr + k) = false) → exec (.hostMemoryAccess addr len none) s = .fault .reservedPhysical))

/-! ### Proposals and streams (R250 to R260) -/

/-- `pbsel`, `accept`, `pbclr`, `pbcnt`, `rng` and `rngk` (R252 to R259). A `pbsel` while some lane has written its bank is illegal in
its active lanes (R252; the lanes are the model's reading, log entry 12, DEDUCED). -/
def Obligations.ProposalResults : Prop :=
  (∀ (f : FmtPbsel) (s : State), Ready (.pbsel f) s → (∀ x ∈ s.cur.lanes, x.written = []) →
    Completes (.pbsel f) s (s.withCur { s.cur with pbase := f.n.toNat })) ∧
  (∀ (f : FmtPbsel) (s : State), Ready (.pbsel f) s → (∃ x ∈ s.cur.lanes, x.written ≠ []) →
    Traps (.pbsel f) s s ⟨1, active (.pbsel f) s, 0, 0, 0, []⟩) ∧
  (∀ (f : FmtAccept) (s : State), Ready (.accept f) s →
    let act := active (.accept f) s
    let w := s.cur
    let test := fun l => fF32.fcmp s.contract 2 (if f.expl then w.readX false false l f.vb.toNat else lg2Draw (s.draw l 6).toNat)
      (w.readX false false l f.va.toNat)
    (∀ l ∈ act, (test l).1 = true → ∀ i ∈ (w.lane l).written, w.pbase + i ∉ w.vEmpty) →
    ∃ u, Completes (.accept f) s u ∧ u.cur.bank = !w.bank ∧ u.mem = s.mem ∧ u.cur.s = w.s ∧
      (∀ l < w.lanes.length, (u.cur.lane l).written = [] ∧ (u.cur.lane l).p = (w.lane l).p) ∧
      (∀ l ∈ act,
        ((test l).1 = true → ∀ i ∈ (w.lane l).written, (u.cur.lane l).getV (w.pbase + i) = (w.lane l).shadow w.bank i) ∧
        ((test l).1 = false → (u.cur.lane l).v = (w.lane l).v) ∧
        (u.cur.lane l).flags = (w.lane l).flags ||| (test l).2 ∧
        (u.cur.lane l).getDraw 6 = (w.lane l).getDraw 6 + (if f.expl then 0 else 1) ∧
        (u.cur.lane l).proposed = sat16 (w.lane l).proposed ∧
        (u.cur.lane l).accepted = if (test l).1 then sat16 (w.lane l).accepted else (w.lane l).accepted)) ∧
  (∀ (f : FmtG) (s : State), Ready (.pbclr f) s →
    Completes (.pbclr f) s (s.withCur (s.cur.modLanes (active (.pbclr f) s) (fun x => { x with written := [] })))) ∧
  (∀ (f : FmtVd) (s : State), Ready (.pbcnt f) s →
    Completes (.pbcnt f) s (s.withCur ((s.cur.writeLanes false false f.vd.toNat (active (.pbcnt f) s)
      (fun l => ((s.cur.lane l).proposed ++ (s.cur.lane l).accepted : BitVec 32).toNat)).modLanes (active (.pbcnt f) s)
        (fun x => { x with accepted := 0, proposed := 0 })))) ∧
  (∀ (f : FmtRng) (s : State), Ready (.rng f) s →
    Completes (.rng f) s (s.withCur ((s.cur.writeLanes f.p false f.vd.toNat (active (.rng f) s)
      (fun l => rngValue f.form.toNat (s.draw l f.k.toNat))).drew (active (.rng f) s) f.k.toNat))) ∧
  (∀ (f : FmtKey) (s : State), Ready (.rngk f) s →
    Completes (.rngk f) s (s.withCur { s.cur with keys := s.cur.keys.set f.k.toNat (s.cur.getS f.sa.toNat) }))

/-! ### Collectives (R261 to R270, R335 to R343) -/

/-- `cbrj` binds a register; a vote is cast and the wave runs ahead from the hinted direction (R262, R263, R265); an outcome
is formed once every member has voted (R264); it confirms the run-ahead, or the wave goes back and takes the other
direction (R266, R267). A handle that names no communicator of which the wave is a member, a register that is not bound, a wave with an
unexited lane outside the issuing set and a target that is none trap in the whole issuing set (R262, R263). -/
def Obligations.CollectiveResults : Prop :=
  (∀ (f : FmtKey) (s : State), Ready (.cbrj f) s →
    let named := s.commByHandle (s.cur.getS f.sa.toNat).toNat
    (∀ c r, named = some c → s.rankIn c s.cur.key = some r → (s.cur.membAt f.k.toNat).pending = false →
      Completes (.cbrj f) s (s.withCur (s.cur.setMemb f.k.toNat { Memb.unbound with comm := some (c.slot, c.use), rank := r }))) ∧
    ((∀ c, named = some c → s.rankIn c s.cur.key = none) → Traps (.cbrj f) s s ⟨7, s.cur.issuingSet, 0, 0, 0, []⟩)) ∧
  (∀ (f : FmtCbr) (s : State), Ready (.cbr f) s →
    let k := f.k.toNat
    let w := s.cur
    let m := w.membAt k
    let iss := w.issuingSet
    let t := (s.at_ : Int) + f.off.toInt
    (∀ (c : Comm) (h len : Nat), s.commOf m = some c → (∀ l ∈ w.liveLanes, l ∈ iss) → s.target t = .ok h len →
      m.arrived = none → m.pending = false → w.pend = [] → s.producing = false → m.g ∉ c.stalled →
      let holds := fun l => predOf (w.lane l) f.pn.toNat
      let v := if f.or_ then iss.any holds else iss.all holds
      let s1 := s.putComm { c with votes := c.votes ++ [{ gen := m.g, rank := m.rank, v := v, or_ := f.or_ }] }
      let w1 := (w.setMemb k { m with
        pending := true, votedAt := s.gtc, vote := some f.t, tgt := h, tgtLen := len, stalled := false }).speculate 2 k
      (f.t = false → Completes (.cbr f) s (s1.withCur w1)) ∧
      (f.t = true → ∃ t, exec (.cbr f) s = .next t ∧ Retires s (s1.withCur (w1.enter iss h len)) t [] True)) ∧
    ((s.commOf m = none ∨ ∃ l ∈ w.liveLanes, l ∉ iss) → Traps (.cbr f) s s ⟨1, iss, 0, 0, 0, []⟩) ∧
    (∀ c, s.commOf m = some c → (∀ l ∈ w.liveLanes, l ∈ iss) → (t < 0 ∨ s.header w t.toNat = .bad) →
      ∃ lc, Traps (.cbr f) s s ⟨2, iss, wrapTo 64 t, 0, 0, lc⟩)) ∧
  (∀ (s : State) (slot gen : Nat) (c : Comm) (v : Nat → Bool) (isOr : Bool),
    s.comms.find? (fun x => x.slot == slot) = some c → (∀ o ∈ c.outcomes, o.1 ≠ gen) → c.members ≠ [] →
    (∀ r < c.members.length, c.voteOf gen r = some (v r, isOr)) →
    let all := (List.range c.members.length).all v
    let any := (List.range c.members.length).any v
    ∃ t : State, exec (.cbrOutcome slot gen []) s = .next t ∧ ∃ x ∈ t.comms, x.slot = slot ∧ x.use = c.use ∧
      (gen, if isOr then (true, any, false) else (all, false, false)) ∈ x.outcomes) ∧
  (∀ (s : State) (k : Nat) (o lost : Bool), s.outcomeFor s.cur k = some (o, lost) → k < s.cur.memb.length →
    let m := s.cur.membAt k
    let u := s.deliver k
    ((u.cur.membAt k).outcome = o ∧ (u.cur.membAt k).pending = false ∧ (u.cur.membAt k).g = (m.g + 1) % 2 ^ 32 ∧
      (u.cur.membAt k).lost = (m.lost || lost)) ∧
    (s.cur.spec = 2 → s.cur.specMemb = k → m.vote = some o → s.cur.declined = false →
      u.cur.spec = 0 ∧ u.cur.ck = none ∧ u.cur.hold = [] ∧ u.cur.lanes = s.cur.lanes ∧ u.cur.s = s.cur.s ∧
      u.cur.pw = s.cur.pw ++ (s.cur.hold.filter (fun h => !h.bytes.isEmpty)).map (fun h => ⟨h.bytes, .store, h.fb, false⟩)) ∧
    (∀ a, s.cur.spec = 2 → s.cur.specMemb = k → m.vote ≠ some o → s.cur.ck = some a →
      u.cur.spec = 0 ∧ u.cur.ck = none ∧ u.cur.hold = [] ∧ u.cur.s = a.s ∧ u.cur.pw = s.cur.pw ∧ u.mem = s.mem ∧
      (∀ l, (u.cur.lane l).v = (a.lanes.getD l Lane.zero).v ∧ (u.cur.lane l).p = (a.lanes.getD l Lane.zero).p) ∧
      (o = true → ∀ l < a.lanes.length, (a.lanes.getD l Lane.zero).live = true → (u.cur.lane l).vpc = m.tgt + 1))) ∧
  (∀ (s : State) (k : Nat) (c : Comm), s.findWave s.cur.key = some s.cur → s.cur.spec = 2 → s.cur.specMemb = k →
    (s.cur.membAt k).pending = true → s.outcomeFor s.cur k = none → s.commOf (s.cur.membAt k) = some c →
    ∃ (t : State) (word : Word64), t.cur.spec = 0 ∧ (s.cur.membAt k).votedAt + s.stallBound s.cur ≤ t.gtc ∧
      exec (.collectiveStall s.cur.key k) s = .next (t.takeTrap
        ((⟨16, t.cur.liveLanes, 0, k + (s.cur.membAt k).g * 2 ^ 32, c.handle, []⟩ : TrapReq).info t.at_ word))) ∧
  (∀ (s : State) (slot rank : Nat) (c : Comm) (m : Nat × Nat × Nat × Nat), s.comms.find? (fun x => x.slot == slot) = some c →
    c.members[rank]? = some m → m.2.2.2 ≠ s.config.devNum →
    ∃ t : State, exec (.memberLost slot rank) s = .next t ∧ ∃ x ∈ t.comms, x.slot = slot ∧ x.use = c.use ∧ rank ∈ x.lost)

/-- `creduce` (R335 to R341). A member contributes and waits, and where another member has taken the stall trap on the generation it
contributes and then traps. Once every member has contributed, the units write every destination with the tree's values, and the
GTC passes the writes; contributions that differ in kind, operation, type or count write nothing. A member whose generation is
complete, or all of whose own destination bytes are written, passes with the flags of its destination, and acquires (`u` is the state
after the acquire). At the bound a waiting member
takes the collective-stall trap. An integer sum is the sum modulo 2^n. -/
def Obligations.ReductionResults : Prop :=
  (∀ (f : FmtCred) (s : State) (c : Comm), Ready (.creduce f) s → s.cur.task = none →
    let k := f.k.toNat
    let w := s.cur
    let m := w.membAt k
    let iss := w.issuingSet
    let n := (w.getS f.sc.toNat).toNat
    let size := redSize f.fmt.toNat
    let dst := (w.getS f.sa.toNat).toNat
    let src := (w.getS f.sb.toNat).toNat
    let reads := f.kind ≠ 3 ∨ m.rank = 0
    let srcN := if reads then size * n * (if f.kind = 1 then c.members.length else 1) else 0
    let dstN := size * n * (if f.kind = 2 then c.members.length else 1)
    s.commOf m = some c → (∀ l ∈ w.liveLanes, l ∈ iss) →
    (m.red = false → n ≤ 2 ^ 28 → (f.kind = 1 ∨ f.kind = 2 → c.members.length * n ≤ 2 ^ 28) → dst % size = 0 → (reads → src % size = 0) →
      s.redCheck iss (src, srcN) (dst, dstN) = none →
      let locs := fun need a len => (rangeLocs (rangeAcc s w true need 3 0 a len)).map Prod.fst
      let sent := s.putComm { c with contribs := c.contribs ++ [{
        gen := m.h, rank := m.rank, kind := f.kind.toNat, op := f.op.toNat, fmt := f.fmt.toNat, count := n,
        src := locs needRedR src srcN, bytes := [], early := [], dst := locs needRedW dst dstN }] }
      let waits := { m with h := (m.h + 1) % 2 ^ 32, red := true, redAt := s.gtc, redStalled := false }
      (m.h < 2 ^ 32 → m.h ∉ c.stalledRed → (∀ d ∈ c.reduced, d.gen ≠ m.h) → (∀ x ∈ c.running, x.done.gen ≠ m.h) →
        exec (.creduce f) s = .next (sent.withCur { w.setMemb k waits with why := .reduction })) ∧
      (m.h < 2 ^ 32 → m.h ∈ c.stalledRed → ∃ u, u.mem = s.mem ∧ u.cur = w.setMemb k { waits with redStalled := true } ∧
        Traps (.creduce f) s u ⟨16, iss, 0, k + m.h * 2 ^ 32, c.handle, []⟩)) ∧
    (m.red = true →
      let passes := fun (d : RedDone) (wtime : Nat) => d.mismatch = false → s.passed wtime = true →
        ∀ u, (if c.scope = 5 then s.fenceStep none = .ready u else u = s) →
        Completes (.creduce f) s (u.withCur ((u.cur.setMemb k { m with
          red := false, redStalled := false, lost := m.lost || d.lost }).orFlags (active (.creduce f) s) (fun _ => mgetD d.flags m.rank 0)))
      (∀ d, c.reduced.find? (fun x => x.gen == m.redGen) = some d → passes d d.wtime) ∧
      (∀ x, c.reduced.find? (fun y => y.gen == m.redGen) = none → c.running.find? (fun y => y.done.gen == m.redGen) = some x →
        (∀ p ∈ x.pieces, p.1 ≠ m.rank) → passes x.done (mgetD x.times m.rank 0))) ∧
    (∀ d, m.red = true → c.reduced.find? (fun x => x.gen == m.redGen) = some d → d.mismatch = true →
      Traps (.creduce f) s (s.withCur (w.setMemb k { m with red := false, redStalled := false, lost := m.lost || d.lost }))
        ⟨1, iss, 0, 0, 0, []⟩)) ∧
  (∀ (s : State) (slot gen : Nat) (c : Comm) (give : Nat → Contrib),
    s.comms.find? (fun x => x.slot == slot) = some c → (∀ d ∈ c.reduced, d.gen ≠ gen) → (∀ r ∈ c.running, r.done.gen ≠ gen) →
    c.members ≠ [] → c.exited = [] → c.lost = [] → (∀ m ∈ c.members, m.2.2.2 = s.config.devNum) →
    (∀ r < c.members.length, c.contribs.find? (fun x => x.gen == gen && x.rank == r) = some (give r)) →
    let a := give 0
    let agrees := ∀ r < c.members.length, (give r).kind = a.kind ∧ (give r).op = a.op ∧ (give r).fmt = a.fmt ∧ (give r).count = a.count
    let n := a.count * (if a.kind = 1 then c.members.length else 1)
    let xs := (List.range c.members.length).map (fun r => chunks n (redSize a.fmt) ((give r).src.map (Memory.read s.mem)))
    ∃ t : State, exec (.creduceGenerationComplete slot gen []) s = .next t ∧
      (∃ x ∈ t.comms, x.slot = slot ∧ x.use = c.use ∧ (∀ y ∈ x.contribs, y.gen ≠ gen) ∧
        ∃ d ∈ x.reduced, d.gen = gen ∧ d.lost = false ∧ (d.mismatch = true ↔ ¬ agrees) ∧ (agrees → t.passed d.wtime = true)) ∧
      (¬ agrees → t.mem = s.mem) ∧
      (agrees → (∀ r < c.members.length, (give r).early = []) →
        ((List.range c.members.length).flatMap (fun r => (give r).dst)).Nodup →
        (∀ r < c.members.length, (a.kind = 0 ∨ a.kind = 3) ∧ (give r).src = (give r).dst ∨ ∀ l ∈ (give r).dst, l ∉ (give r).src) →
        ∀ r < c.members.length,
          let bs := (redDest c.contract a.kind a.op a.fmt a.count xs r).flatMap (fun v => leBytes (redSize a.fmt) v.1)
          ∀ j, j < (give r).dst.length → j < bs.length → Memory.read t.mem ((give r).dst.getD j 0) = bs.getD j 0)) ∧
  (∀ (contract fmt : Nat) (xs : List Nat), fmtInt fmt = true → xs ≠ [] → (∀ x ∈ xs, x < 2 ^ fmtBits fmt) →
    redElem contract fmt 0 xs = (xs.sum % 2 ^ fmtBits fmt, 0)) ∧
  (∀ (s : State) (k : Nat) (c : Comm), s.findWave s.cur.key = some s.cur → s.cur.why = .reduction →
    (List.range 8).find? (fun j => (s.cur.membAt j).red) = some k → s.commOf (s.cur.membAt k) = some c →
    (∀ d ∈ c.reduced, d.gen ≠ (s.cur.membAt k).redGen) → (∀ x ∈ c.running, x.done.gen ≠ (s.cur.membAt k).redGen) →
    let m := s.cur.membAt k
    let late := { s with gtc := max s.gtc (m.redAt + s.stallBound s.cur) }
    let u := (late.putComm { c with stalledRed := insNat c.stalledRed m.redGen }).withCur
      { s.cur.setMemb k { m with redStalled := true } with why := .none }
    exec (.creduceStall s.cur.key) s = .next (u.takeTrap
      ((⟨16, s.cur.issuingSet, 0, k + m.redGen * 2 ^ 32, c.handle, []⟩ : TrapReq).info s.at_ (s.wordOf s.cur s.at_))))

/-! ### The scale-up fabric (R303 to R326) -/

/-- `fld`, `fst`, `fatom` and `ffence` (R307, R311 to R314, R317, R318): where the lanes' addresses pass and slots allow every
request to be sent, the lanes retire with one request per line, or per location of an atomic; where a request still
waits, the wave waits; `ffence` passes once every interval is answered, and opens the next intervals. -/
def Obligations.FabricIssueResults : Prop :=
  (∀ (f : FmtM) (s : State),
    let w := s.cur
    let n := accBytes f
    let ea := w.effAddr f
    let lines := fun act => groupLanes (w.byTid act) (fun l => s.lineOf (ea l))
    let uses := fun (g : List Nat) => g.map (fun l => s.useOf l (ea l) f.rd.toNat n)
    let load := fun (g : List Nat) => s.newOut (.fld f) (ea (g.headD 0))
      (.load ((g.flatMap (fun l => (List.range n).map (fun k => fabVa (ea l) + k))).foldl insNat [])) (uses g) (some w.nextPend)
    let store := fun (g : List Nat) => s.newOut (.fst f) (ea (g.headD 0))
      (.store (lastBytes (g.flatMap (fun l => ((List.range n).map (fun k => fabVa (ea l) + k)).zip (storeBytes w f l))))) (uses g) none
    let sends := fun (i : Instr) (s1 : State) (outs : List FabOut) =>
      let s2 := (s1.withCur { s1.cur with fab := s1.cur.fab ++ outs, fabSeq := s1.cur.fabSeq + 1 }).fabPump w.key
      ((∀ o ∈ s2.cur.fab, o.seq = w.fabSeq → o.sent = true) → Completes i s s2) ∧
      ((∃ o ∈ s2.cur.fab, o.seq = w.fabSeq ∧ o.sent = false) → ∃ t, exec i s = .next t ∧ t.cur.why = .slots)
    s.fabAgain w.issuingSet = none → s.cur.task = none →
    (Ready (.fld f) s → s.fabCheck n (active (.fld f) s) ea = none →
      sends (.fld f) (s.addPend (vecPend [] ((List.range (dataRegs f)).map (fun k => f.rd.toNat + k)) true) (active (.fld f) s))
        ((lines (active (.fld f) s)).map load)) ∧
    (Ready (.fst f) s → s.fabCheck n (active (.fst f) s) ea = none → sends (.fst f) s ((lines (active (.fst f) s)).map store))) ∧
  (∀ (f : FmtAtom) (s : State), Ready (.fatom f) s → s.fabAgain s.cur.issuingSet = none → s.cur.task = none → nonDet s f true = false →
    s.fabCheck (atomSize f) (active (.fatom f) s) (s.cur.atomAddr f) = none →
    let outs := (groupLanes (s.cur.byTid (active (.fatom f) s)) (s.cur.atomAddr f)).flatMap (s.atomGroup f)
    let s1 := s.addPend (vecPend [] ((List.range (if f.wide then 2 else 1)).map (fun k => f.vd.toNat + k)) true) (active (.fatom f) s)
    let s2 := (s1.withCur { s1.cur with fab := s1.cur.fab ++ outs, fabSeq := s1.cur.fabSeq + 1 }).fabPump s.cur.key
    (∀ o ∈ s2.cur.fab, o.seq = s.cur.fabSeq → o.sent = true) → Completes (.fatom f) s s2) ∧
  (∀ (f : FmtG) (s u : State), Ready (.ffence f) s → s.fenceStep none = .ready u →
    Completes (.ffence f) s u ∧
    ∀ d < 16, (u.cur.ival d).count = 0 ∧ (u.cur.ival d).replay = [] ∧ (u.cur.ival d).num = ((s.cur.ival d).num + 1) % 2 ^ 16)

/-- Requests, queries, responses, timeouts and links (R305, R310, R315, R317, R318, R322, R323, R326, R268). -/
def Obligations.FabricMessageResults : Prop :=
  (∀ (s : State) (r : FabReq), r.dst = s.config.devNum → r.src ≠ s.config.devNum → s.reaches r.src = true →
    (∀ x ∈ s.fabWaiting, FabReq.meets r x = false) →
    let due := (r.deadline : Int) + mgetD s.clockOff r.src 0
    let e := (mget s.exports r.key).getD { asid := 0, root := 0, r := false, w := false }
    let answers := fun (t : State) (x : FabResult) => Out.fabResp r.src r.core r.tag r.inc x ∈ t.outbox
    (due < s.gtc → exec (.fabricRequestArrival r) s = .next s) ∧
    ((s.gtc : Int) ≤ due → (r.replay = true ∨ (s.fabCount r.src r.from_ r.interval).reported = false) →
      (mget s.exports r.key = none → r.spec = false →
        ∃ t, exec (.fabricRequestArrival r) s = .next t ∧ answers t (.error 7 0) ∧ t.mem = s.mem) ∧
      (∀ size w0 w1, mget s.exports r.key ≠ none → s.walk e.root ((FabReqAddrs r).headD 0) = .leaf size w0 w1 →
        tbit w0 5 = false → w1.toNat % 2 ^ 16 = 0 →
        (∀ a ∈ FabReqAddrs r, physValid (leafPhys size w0 a) = true ∧ s.isPoisoned (leafPhys size w0 a) = false) →
        (∀ as, r.kind = .load as → e.r = true → tbit w0 2 = true → ∃ t, exec (.fabricRequestArrival r) s = .next t ∧
          answers t (.data (as.map (fun a => (a, Memory.read s.mem (leafPhys size w0 a)))) false false) ∧ t.mem = s.mem) ∧
        (∀ bs, r.kind = .store bs → e.w = true → tbit w0 3 = true → (bs.map (fun b => leafPhys size w0 b.1)).Nodup →
          r.replay = false → s.fabQueries = [] →
          ∃ t : State, exec (.fabricRequestArrival r) s = .next t ∧ answers t (.ack false) ∧
            (∀ b ∈ bs, Memory.read t.mem (leafPhys size w0 b.1) = b.2) ∧
            (t.fabCount r.src r.from_ r.interval).count = (s.fabCount r.src r.from_ r.interval).count + 1)))) ∧
  (∀ (s : State) (src : Nat) (w : WKey) (interval sent : Nat), src ≠ s.config.devNum → s.reaches src = true →
    s.fabWaiting = [] → s.fabQueries = [] →
    ∃ t : State, exec (.fabricCountQuery src w interval sent false) s = .next t ∧
      Out.countReply src w interval sent (s.fabCount src w interval).count ∈ t.outbox ∧
      (t.fabCount src w interval).reported = true) ∧
  (∀ (s : State) (core tag inc : Nat) (w : Wave) (o : FabOut), s.outOf core tag inc = some (w, o) → s.findWave w.key = some w →
    o.req.dst ≠ s.config.devNum → s.reaches o.req.dst = true → (o.held = true ∨ s.gtc ≤ o.req.deadline) →
    (∀ mix, o.uses = [] → ∃ t : State, exec (.fabricResponse core tag inc (.ack mix)) s = .next t ∧
      (t.findWave w.key).map Wave.fab = some (w.fab.erase o)) ∧
    (∀ cause stamp, o.uses ≠ [] → ∃ t : State, exec (.fabricResponse core tag inc (.error cause stamp)) s = .next t ∧
      (t.findWave w.key).map Wave.fab = some (w.fab.erase o) ∧
      (t.findWave w.key).map Wave.fabFail =
        some (w.fabFail ++ [{ out := o, cause := cause, stamp := stamp, reported := false }])) ∧
    (s.gtc ≤ o.req.deadline → exec (.fabricWaitNotice core tag inc) s =
      .next (s.setWave { w with fab := w.fab.map (fun x => if x = o then { x with held := true } else x) }))) ∧
  (∀ (s : State) (tag : Nat) (o : FabOut) (bs : List (Nat × Byte)), s.findWave s.cur.key = some s.cur →
    s.cur.fab.find? (fun x => x.sent && x.req.tag == tag && !x.held) = some o → o.req.kind = .store bs →
    ∃ t : State, exec (.fabricRequestTimeout s.cur.core tag) s = .next t ∧ o.req.deadline < t.gtc ∧
      t.cur.fab = s.cur.fab.erase o) ∧
  (∀ (s : State) (dev : Nat) (v3 : Bool),
    (∃ t : State, exec (.linkFailure dev) s = .next t ∧ dev ∈ t.linkDown ∧ t.mem = s.mem) ∧
    (∃ t : State, exec (.fabricLinkRestored dev v3) s = .next t ∧ dev ∉ t.linkDown ∧ (dev ∈ t.config.v3 ↔ v3 = true)) ∧
    (dev ≠ s.config.devNum → dev ∈ s.config.present → ∃ t : State, exec (.deviceLeavesPod dev) s = .next t ∧
      dev ∉ t.config.present ∧
      ∀ c ∈ s.comms, ∃ x ∈ t.comms, x.slot = c.slot ∧ x.use = c.use ∧ ∀ r < c.members.length,
        (c.members.getD r (0, 0, 0, 0)).2.2.2 = dev → r ∉ c.exited → r ∈ x.lost))

/-! ### Feeds and ordered tasks (R287 to R291, R364 to R367) -/

/-- `qpush`, `qpop`, `qpop.o`, `qdone` and their events: whole records are appended at the tail; a claim moves head, and the
claimed records go to the active lanes in the order of `$tid`; a task opens on one record with the wave's checkpoint;
it turns non-speculative once it is the oldest, and commits. A feed that is not valid, registers beyond the allotment, more records
than the feed holds, a misaligned source, times that fall, and an ordered pop where none may be made, trap (R365, R366). -/
def Obligations.QueueResults : Prop :=
  (∀ (f : FmtQpush) (s : State), Ready (.qpush f) s → s.cur.task = none →
    let act := active (.qpush f) s
    let feed := (s.cur.getS f.sa.toNat).toNat
    let n := (s.cur.getS f.sc.toNat).toNat
    let src := (s.cur.getS f.sb.toNat).toNat
    let d := s.fdesc feed
    let rs := rangeAcc s s.cur false needPush 0 (s.cur.lane (s.cur.lowestTid act)).tid src (n * d.rsize)
    let s1 := s.readsRange rs
    let recs := splitRecs n d.rsize (s1.rangeBytes s1.cur rs)
    let s2 := s1.countAccess (rs.map LaneAcc.access)
    (feed < 256 → d.valid = true → n ≠ 0 → n ≤ d.entries → src % 16 = 0 → rangeFailed s act src rs = none →
      (s1.timesOk feed recs = true → n ≤ d.room → n ≤ (s1.fdesc feed).room → (feed, Appender.wave s.cur.key) ∉ s1.pushQ →
        s1.released s1.cur = true →
        Completes (.qpush f) s (tryPred f.try_ f.pd act true (s2.feedWrite feed recs))) ∧
      (s1.timesOk feed recs = false → Traps (.qpush f) s s1 ⟨1, act, 0, 0, 0, []⟩)) ∧
    (256 ≤ feed ∨ d.valid = false → Traps (.qpush f) s s ⟨7, act, 0, 0, 0, []⟩) ∧
    (feed < 256 → d.valid = true → d.entries < n → n ≠ 0 → Traps (.qpush f) s s ⟨1, act, 0, 0, 0, []⟩) ∧
    (feed < 256 → d.valid = true → n ≠ 0 → n ≤ d.entries → src % 16 ≠ 0 → Traps (.qpush f) s s ⟨5, act, src, 0, 0, []⟩)) ∧
  (∀ (s : State) (feed : Nat) (recs : List (List Byte)),
    let d := s.fdesc feed
    (∀ r ∈ recs, r.length = d.rsize) → (recs.length ≤ d.entries) → 0 < d.rsize →
    (∀ i < d.entries, d.ring + d.rsize * (i + 1) ≤ s.fdAddr feed ∨ s.fdAddr feed + 32 ≤ d.ring + d.rsize * i) →
    let u := s.feedWrite feed recs
    u.readNat (s.fdAddr feed + 0x10) 4 = (d.tail + recs.length) % 2 ^ 32 ∧
    ∀ k < recs.length, u.readN (d.recAddr (d.tail + k)) d.rsize = recs.getD k []) ∧
  (∀ (f : FmtQpop) (s : State),
    let feed := (s.cur.getS f.sa.toNat).toNat
    let d := s.fdesc feed
    (Ready (.qpop f) s → s.popCheck f false s.cur.issuingSet (active (.qpop f) s) = none → s.popTurn feed = true →
      (active (.qpop f) s).length ≤ d.unclaimed →
      Completes (.qpop f) s ((s.leavePopQ feed).popTake f feed (active (.qpop f) s).length (active (.qpop f) s))) ∧
    (Ready (.qpopO f) s → s.popCheck f true s.cur.issuingSet (active (.qpopO f) s) = none → s.cur.pend = [] →
      s.producing = false → s.cur.redeliver = none → s.popTurn feed = true → 1 ≤ d.unclaimed →
      Completes (.qpopO f) s (((s.leavePopQ feed).claim feed 1).openTask f feed d.head (active (.qpopO f) s))) ∧
    (let refuses := fun (i : Instr) => Ready i s →
        (256 ≤ feed ∨ d.valid = false → Traps i s s ⟨7, active i s, 0, 0, 0, []⟩) ∧
        (feed < 256 → d.valid = true → s.cur.alloc < f.vd.toNat + d.rsize / 4 →
          ∃ x, Traps i s s ⟨3, s.cur.issuingSet, 0, x, 0, []⟩)
     refuses (.qpop f) ∧ refuses (.qpopO f)) ∧
    (Ready (.qpopO f) s → feed < 256 → d.valid = true → f.vd.toNat + d.rsize / 4 ≤ s.cur.alloc →
      (d.ordered = false ∨ (s.gridOf s.cur).det < 2 ∨ s.cur.task ≠ none) →
      Traps (.qpopO f) s s ⟨1, active (.qpopO f) s, 0, 0, 0, []⟩)) ∧
  (∀ (f : FmtG) (s : State) (t : Task), Ready (.qdone f) s → s.cur.task = some t → (s.fdesc t.feed).free = t.idx →
    s.released s.cur = true → Completes (.qdone f) s s.commitTask) ∧
  (∀ (s : State) (t : Task), s.findWave s.cur.key = some s.cur → s.cur.spec = 3 → s.cur.task = some t →
    (s.fdesc t.feed).free = t.idx → ∃ u : State, exec (.taskTurnsNonspeculative s.cur.key) s = .next u ∧
      u.cur.spec = 0 ∧ u.cur.nonspec = true ∧ u.cur.ck = none ∧ u.cur.hold = [] ∧ u.cur.lanes = s.cur.lanes ∧
      u.cur.pw = s.cur.pw ++ (s.cur.hold.filter (fun h => !h.bytes.isEmpty)).map (fun h => ⟨h.bytes, .store, h.fb, false⟩)) ∧
  (∀ (s : State) (x : Word64) (f : FmtQpop), s.findWave s.cur.key = some s.cur → s.cur.why = .record →
    s.fetchNow s.cur s.at_ = .word x → decode x = some (.qpop f) → f.pd ≠ 15 → s.cur.getS f.sb.toNat ≠ 0 →
    ∃ t : State, exec (.qpopDeadline s.cur.key) s = .next t ∧ t.cur.why = .none ∧ (s.cur.getS f.sb.toNat).toNat ≤ t.gtc)

/-! ### Launches, teams and packets (R15, R295, R346 to R363) -/

/-- A launch that passes its checks becomes a grid, one that fails completes with its code (R355); a team is placed and its
waves start as R15 states; a saved team resumes with what was saved (R294); `migrate` moves a team (R295); a grid that is
over completes (R357). -/
def Obligations.LaunchResults : Prop :=
  (∀ (s : State) (q i : Nat), s.startable q i = true → s.pktKind q i = 1 →
    let s1 := s.startServed q i
    (∀ code, s1.launchCheck q i = some code → exec (.launch q i) s = .next (s1.completePkt q i code)) ∧
    (s1.launchCheck q i = none → (∀ x ∈ s.grids, x.id ≠ s.nextGrid) → ∃ t : State, exec (.launch q i) s = .next t ∧
      t.nextGrid = s.nextGrid + 1 ∧ ∃ g ∈ t.grids, g.id = s.nextGrid ∧ g.queue = q ∧ g.pkt = i ∧ g.p = s1.launchPkt q i ∧
        g.det = (s1.qdesc q).det ∧ g.ctx = s1.readCtx (s1.pkt q i 0x40 8) ∧ g.nextTeam = 0 ∧ g.ended = none)) ∧
  (∀ (s : State) (core : Nat) (g : Grid) (r : Room), s.power = .p0 → s.placeNext core = some g → s.newRoom g core = some r →
    ∃ u : State, exec (.teamPlacement core) s = .next u ∧
      (∃ t ∈ u.teams, t.grid = g.id ∧ t.idx = g.nextTeam ∧ t.core = core ∧ t.waves = g.p.waves ∧ t.saved = false) ∧
      ∀ k < g.p.waves, ∃ w ∈ u.waves, w.key = ⟨g.id, g.nextTeam, k⟩ ∧ w.width = g.p.width ∧ w.alloc = g.p.vregs ∧
        w.lanes.length = g.p.width ∧ w.tm = false ∧ w.getS 0 = BitVec.ofNat 64 g.p.args ∧
        w.getS 1 = BitVec.ofNat 64 g.nextTeam ∧ w.getS 2 = BitVec.ofNat 64 g.total ∧ w.getS 3 = BitVec.ofNat 64 k ∧
        ∀ l < g.p.width, (w.lane l).tid = k * g.p.width + l ∧ (w.lane l).getV 0 = BitVec.ofNat 32 (k * g.p.width + l) ∧
          (w.lane l).vpc = 1 ∧ (w.lane l).st = .run ∧ (w.lane l).p = 0 ∧ (w.lane l).flags = 0) ∧
  (∀ (s : State) (t : Team) (core : Nat) (r : Room), s.teams.find? (fun x => x.grid == t.grid && x.idx == t.idx) = some t →
    s.power = .p0 → s.served (s.gridAt t.grid).queue core = true → s.savedRoom t core = some r →
    s.mayGo (s.gridAt t.grid, some t) core = true →
    exec (.teamResume t.grid t.idx core) s =
      .next ((s.putTeam t core r).serve (core / Config.coresPerDie) (s.gridAt t.grid).queue) ∧
    ∀ w ∈ t.savedWaves, ∃ x ∈ (s.putTeam t core r).waves, x.key = w.key ∧ x.lanes = w.lanes ∧ x.s = w.s ∧ x.rejoin = w.rejoin) ∧
  (∀ (f : FmtMig) (s s1 : State) (t : Team) (r0 r : Room), Ready (.migrate f) s → s.cur.privileged = true → s.migLegal f = true →
    let a := (s.cur.getS f.sa.toNat).toNat
    let core := a % 2 ^ 2 * 128 + a / 2 ^ 2 % 2 ^ 7
    s.migTeam f = some t → s.migRoom t core = .ok r0 → s.cool (s.gridAt t.grid) core = true →
    (if t.saved then (s, true) else s.takeTeam t.grid t.idx) = (s1, true) →
    let t1 := s1.teamAt t.grid t.idx
    s1.roomOn (s1.gridAt t1.grid).p core t1.allots t1.savedEngine.length = some r →
    let s2 := (s1.putTeam t1 core r).focus s.cur.key
    Completes (.migrate f) s ((s2.countUp (s2.gridAt t1.grid) 0x24 1).putS f.sd.toNat 0)) ∧
  (∀ (s : State) (g : Grid), s.grids.find? (fun x => x.id == g.id) = some g → s.gridOver g = true → s.mayComplete g = true →
    ∃ t : State, exec (.gridCompletion g.id) s = .next t ∧ (∀ x ∈ t.grids, x.id ≠ g.id) ∧ g.wct + Config.gtcMargin < t.gtc)

/-- THE PACKETS (R349, R350, R359 to R363): what each kind does when it starts and its fields are in range, and the status
word of a packet that completes. -/
def Obligations.PacketResults : Prop :=
  (∀ (s : State) (q i code : Nat), code < 2 ^ 31 →
    let a := (s.qdesc q).pktAddr i + 4
    (a + 4 ≤ s.qdAddr q ∨ s.qdAddr q + 64 ≤ a) → (s.completePkt q i code).readNat a 4 = 2 ^ 31 + code) ∧
  (∀ (s : State) (q i : Nat),
    let s1 := s.startServed q i
    let p := s1.pkt q i
    (s.startsAs q i 2 = true →
      let f := p 0x20 2
      let n := p 0x24 4
      let d := s1.fdesc f
      let recs := splitRecs n d.rsize (s1.readN (p 0x28 8) (n * d.rsize))
      s1.appendOk q i = true → d.valid = true → s1.timesOk f recs = true → n ≤ d.room → (f, Appender.packet q i) ∉ s1.pushQ →
      exec (.feedAppend q i) s = .next ((s1.feedWrite f recs).completePkt q i 0)) ∧
    (s.startsAs q i 4 = true → s1.headerOk q i = true → p 0x20 1 ≤ 2 → p 0x21 95 = 0 →
      exec (.determinismLevel q i) s = .next ((s1.agentWrite (s1.qdAddr q + 0x18) (leBytes 1 (p 0x20 1))).completePkt q i 0)) ∧
    (s.startsAs q i 5 = true → s1.headerOk q i = true → p 0x20 2 < 1024 → p 0x22 1 < 2 → p 0x23 93 = 0 →
      let t := if p 0x22 1 = 1 then p 0x20 2 else q
      (s1.qdesc t).valid = true → exec (.token q i) s = .next (s1.completeTo q i 0 t true)) ∧
    (s.startsAs q i 6 = true → s1.headerOk q i = true → p 0x20 1 < 8 → p 0x21 95 = 0 →
      exec (.powerClass q i) s = .next ((s1.agentWrite (s1.qdAddr q + 0xF) (leBytes 1 (p 0x20 1))).completePkt q i 0)) ∧
    (s.startsAs q i 7 = true → s.pkt q i 0x20 1 = 1 → s1.gridOk q i = true → s1.bufOk q i = true → 48 ≤ p 0x21 1 → p 0x21 1 ≤ 63 →
      ∀ g, s1.target_ q i = some g →
      exec (.gridCheckpoint q i) s = .next (s1.setGrid { g with ckpt := g.ckpt ++ [(q, i, p 0x21 1, p 0x28 8, p 0x30 8)] })) ∧
    (s.startsAs q i 7 = true → s.pkt q i 0x20 1 = 3 → s1.gridOk q i = true →
      ∀ g, s1.target_ q i = some g → s1.grids.find? (fun x => x.id == g.id) = some g →
      ∃ t : State, exec (.gridEnd q i) s = .next t ∧ (t.gridAt g.id).ended = some (6, 3) ∧ (q, i) ∈ (t.gridAt g.id).endPkts) ∧
    (s.startsAs q i 7 = true → s.pkt q i 0x20 1 = 2 → s1.gridOk q i = true → s1.bufOk q i = true →
      s1.settingsOk (p 0x38 8) = true → (∀ x ∈ s1.grids, x.id ≠ s1.nextGrid) →
      ∀ k, mget s1.ckpts (s1.readNat (p 0x28 8) 8) = some k → s1.checkFrom3 q k.grid.p = none → 48 ≤ k.name →
      ∃ t : State, exec (.gridRestore q i) s = .next t ∧ t.nextGrid = s1.nextGrid + 1 ∧
        (∃ g ∈ t.grids, g.id = s1.nextGrid ∧ g.queue = q ∧ g.pkt = i ∧ g.p = k.grid.p) ∧
        ∀ x ∈ k.teams, ∃ y ∈ t.teams, y.grid = s1.nextGrid ∧ y.idx = x.idx ∧ y.saved = true) ∧
    (s.power = .p0 → s.isResident q = true → s.inWindow q i = true → s.pktStarted q i = false →
      (s.pktKind q i = 0 ∨ 7 < s.pktKind q i) →
      exec (.unknownPacketKind q i) s = .next ({ s with started := s.started ++ [(q, i, false)] }.completeTo q i 3 q false)) ∧
    (s.startsAs q i 3 = true → s.pkt q i 0x2D 1 % 2 = 0 → (q, i) ∉ s.hostComms →
      (tbit s1.regs.fmode 3 = true → ∀ foreign, exec (.communicatorSetUp q i foreign) s =
        .next { s1 with hostComms := s1.hostComms ++ [(q, i)], outbox := s1.outbox ++ [.hostComm q i] }) ∧
      (tbit s1.regs.fmode 3 = false → p 0x30 8 % 32 = 0 → s1.setUpOk q i = true →
        let ms := (List.range (p 0x28 4)).map (s1.memberAt (p 0x20 8))
        ∀ foreign slot c, s1.setUpCheck q i foreign ms = .ok (slot, c) →
        ∃ (t : State) (x : Comm), exec (.communicatorSetUp q i foreign) s = .next t ∧ x.slot = slot ∧
          x.use = s1.useFor foreign slot ms ∧ x.members = ms ∧ x.contract = c ∧ x.scope = p 0x2C 1 ∧
          if ∃ m ∈ ms, m.2.2.2 = s.config.devNum then x ∈ t.comms else x ∈ t.awayComms)) ∧
    (s.startsAs q i 3 = true → s.pkt q i 0x2D 1 % 2 = 1 → s1.headerOk q i = true → p 0x2D 1 = 1 → p 0x20 8 = 0 → p 0x38 72 = 0 →
      p 0x30 8 % 32 = 0 → physValid (p 0x30 8) = true →
      ∀ c, s1.recordComm (p 0x30 8) = some c → s1.commBusy c = false →
      ∃ t : State, exec (.communicatorRelease q i) s = .next t ∧
        (s1.commAt c.slot c.use = some c → (∀ x ∈ t.comms, ¬ (x.slot = c.slot ∧ x.use = c.use)) ∧
          mgetD t.commUse c.slot 0 = (c.use + 1) % 2 ^ 16) ∧
        (s1.commAt c.slot c.use ≠ some c → t.comms = s1.comms ∧ t.awayComms = s1.awayComms.erase c)))

/-! ### Host registers, Barker, power (R344, R345, R347, R368 to R395) -/

/-- Register writes, doorbells, the resident set and headroom: a write stores the defined fields of the register that its
offset names and nothing else (R344, R345, R374, R377); the write index of a queue is read (R347); the set of a die
changes (R368, R374); headroom follows the hottest sensor, less 1 where the averaged package power is above 2.66 kW and less 2 above
2.8 kW (R372), and the clock of a core is halved from 105 °C until all its sensors are below 100 °C (R388). That the tokens of a queue
are cleared when it is first found valid, here by a doorbell, is the model's reading (log entry 78, DEDUCED). -/
def Obligations.HostRegisterResults : Prop :=
  (∀ (s : State) (v : Word64), s.hostReaches = true →
    let r := s.regs
    let q := v >>> 8 &&& 0xFFFF
    let writes := fun (off : Nat) (r' : DevRegs) => exec (.registerWrite off v) s = .next { s with regs := r' }
    writes 0 { r with fmode := (v &&& 0x1F) ||| ((if q = 0 then r.fmode else v) &&& 0xFFFF00) } ∧
    writes 8 { r with qtbase := v &&& 0xFFFFFFFFFFFC0 } ∧
    writes 0x10 { r with ftbase := v &&& 0xFFFFFFFFFFFE0 } ∧
    writes 0x1000 { r with bkctl := (v &&& 1) ||| (r.bkctl &&& 6) } ∧
    writes 0x1028 { r with bkwin := v &&& 0xFFFFFFFFFF000 } ∧
    writes 0x1030 { r with bkwlen := v &&& 0xFFFFFFFF } ∧
    (∀ k < 4, writes (0x1008 + 8 * k) { r with bkvoc := r.bkvoc.set k ((v &&& 0xFFFFFFFFFFFC0) ||| 1) } ∧
      exec (.bkvocLoad k v) s = exec (.registerWrite (0x1008 + 8 * k) v) s) ∧
    (∀ off, off ∉ [0, 8, 0x10, 0x18, 0x1000, 0x1008, 0x1010, 0x1018, 0x1020, 0x1028, 0x1030] → writes off r) ∧
    ((s.qdesc (v.toNat % 1024)).valid = true → ∃ t : State, exec (.doorbell v) s = .next t ∧ exec (.registerWrite 0x18 v) s = .next t ∧
      mget t.noticed (v.toNat % 1024) = some (s.qdesc (v.toNat % 1024)).wr ∧
      (v.toNat % 1024 ∉ s.queuesOn → (t.qdesc (v.toNat % 1024)).tokens = 0))) ∧
  (∀ (s : State) (q : Nat), s.running_ = true → (s.qdesc q).valid = true →
    ∃ t : State, exec (.writeIndexNotice q) s = .next t ∧ mget t.noticed q = some (s.qdesc q).wr) ∧
  (∀ (s : State) (die : Nat) (set : List Nat), s.power = .p0 → die < Config.dies →
    ∃ t : State, exec (.quantumSwap die set) s = .next t ∧
      mgetD t.resident die [] = if tbit s.regs.fmode 2 then ((set.filter (s.mayReside die)).eraseDups).take 64 else s.rotation die) ∧
  (∀ (s : State) (unit : Nat) (t0 : Int) (r : List Int) (watts : Nat), s.power = .p0 ∨ s.power = .p1 → unit < Config.cores →
    let hot := r.foldl max t0
    hot < 460 → ∃ t : State, exec (.headroomUpdate unit (t0 :: r) watts) s = .next t ∧ t.mem = s.mem ∧ t.watts = watts ∧
      (t.coreAt unit).headroom = min 7 (max 0 ((400 - hot) / 12)).toNat ∧
      (t.coreAt unit).halved = (if 420 ≤ hot then true else if hot < 400 then false else (s.coreAt unit).halved)) ∧
  (∀ (s : State) (unit : Nat) (h w : Nat), (s.coreAt unit).headroom = h → s.watts = w →
    (w ≤ 2660 → s.headroom unit = h) ∧ (2660 < w → w ≤ 2800 → s.headroom unit = h - 1) ∧ (2800 < w → s.headroom unit = h - 2) ∧
    ∀ g : Grid, s.cool g unit = true → s.classOf g ≤ s.headroom unit)

/-- THE TOKENISER LOSES NOTHING (R381, R382): under an accepted vocabulary, the strings of the ids of a text, one after
another, are the characters of the text after validation, and every id is one of the vocabulary. -/
def Obligations.TokenisationIsLossless : Prop :=
  ∀ img text : List Byte, vocOk img = true →
    (tokenise img text).1.flatMap (vocString img) = (validate text).1.flatten ∧
    ∀ id ∈ (tokenise img text).1, id < (vocTab img).ntokens

/-- Barker (R375 to R385): vocabularies, counters, requests, replies, the bulk window and connections. That status 5 comes ahead of
status 1 and of the others is the model's reading (log entry 96, DEDUCED), and so is that a text request on RUD counts in BKCNT0 and
in BKCNT3 (log entry 97, DEDUCED). A request that waited for room appends nothing to a feed that is no longer valid, or has another
record size (log entry 79, DEDUCED). -/
def Obligations.BarkerResults : Prop :=
  (∀ (f : FmtDtk) (s : State) (ends : Bool),
    let i : Instr := if ends then .dtkEnd f else .dtk f
    let act := s.cur.byTid (active i s)
    ∀ u : State, Ready i s → s.progress = [] → s.lanesNow = none →
    act.foldl (fun (r : Option State) l => r.bind (fun x => x.tokenLane ends l (s.cur.readX false false l f.vb.toNat)
      (s.cur.readX false false l f.va.toNat))) (some s) = some u →
    Completes i s u.freeNext) ∧
  (∀ (s : State) (slot : Nat), slot < 4 → s.regs.bkvoc.length = 4 → s.vocState slot = 1 →
    let a := s.vocAddr slot
    let img := s.readN a (s.readNat (a + 0x24) 4)
    ∃ t : State, exec (.vocabularyLoadComplete slot) s = .next t ∧ t.vocAddr slot = a ∧ t.mem = s.mem ∧
      (physValid a = true → physValid (a + max img.length 0x40 - 1) = true → img.length ≤ 2 ^ 26 → s.poison = [] →
        t.vocState slot = (if vocOk img then 2 else 3) ∧ (vocOk img = true → (mget t.vocs slot).map Voc.image = some img))) ∧
  (∀ (s : State) (k : Nat), s.hostReaches = true → k < 5 → ∃ t : State, exec (.bkcntRead k) s = .next t ∧
    t.regs.bkcnt.getD k 0 = 0 ∧ t.outbox = s.outbox ++ [Out.hostData (leBytes 8 (s.regs.bkcnt.getD k 0).toNat)]) ∧
  (∀ (s : State) (conn port : Nat) (rud : Bool) (msg : List Byte), s.running_ = true → port < 2 →
    (if port = 0 then s.portLink.1 else s.portLink.2) = true →
    let s1 := (s.bkCount 0 1).bkCount 3 (if rud then 1 else 0)
    let h := reqHdr rud msg
    let d := s1.fdesc h.feed
    let r := tokenise (mgetD s1.vocs h.slot { image := [], old := none }).image (msg.drop 16)
    let n := recordCount ((d.rsize - 16) / 4) r.1.length
    let answers := fun (t : State) => exec (.barkerRequest conn port rud msg) s = .next t
    (tbit s.regs.bkctl 0 = false → answers (s1.refuseReq conn port h.tag 5)) ∧
    (tbit s.regs.bkctl 0 = true →
      (h.ok = false → answers (s1.refuseReq conn port h.tag 1)) ∧
      (h.ok = true → (∀ st, s1.reqStatus conn h msg.length = some st → answers (s1.refuseReq conn port h.tag st)) ∧
        (s1.reqStatus conn h msg.length = none → d.entries < n → answers ((s1.bkCount 1 r.2).refuseReq conn port h.tag 3)) ∧
        ∀ k, s1.reqStatus conn h msg.length = none → s1.streamFor conn h.tag = some k → n ≤ d.entries →
          let x0 := s1.streamAt k
          let x := if x0.isOpen then x0 else { Stream.closed x0.use with
            isOpen := true, conn := conn, port := port, tag := h.tag, slot := h.slot, feed := h.feed }
          answers (((s1.bkCount 1 r.2).putStream k { x with reqs := x.reqs ++ [h.close] }).barkerAppend
            h.feed msg.length (workRecords d.rsize s.gtc (k + x.use * 4096) h.slot r.1))))) ∧
  (∀ (s : State) (feed held : Nat) (recs : List (List Byte)), s.firstAppender feed = some (.barker recs held) →
    let d := s.fdesc feed
    let s1 := { s.leavePushQ feed (.barker recs held) with bkHeld := s.bkHeld - held }
    (d.valid = true → (∀ r ∈ recs, r.length = d.rsize) → d.room < recs.length → exec (.barkerFeedAppend feed) s = .next s) ∧
    (d.valid = true → (∀ r ∈ recs, r.length = d.rsize) → recs.length ≤ d.room → s1.timesOk feed recs = true →
      exec (.barkerFeedAppend feed) s = .next (s1.feedWrite feed recs)) ∧
    (d.valid = false ∨ (∃ r ∈ recs, r.length ≠ d.rsize) → exec (.barkerFeedAppend feed) s = .next s1)) ∧
  (∀ (s : State) (conn addr : Nat) (bytes : List Byte), bytes ≠ [] → s.running_ = true →
    let base := s.regs.bkwin.toNat
    let inside := base ≤ addr ∧ addr + bytes.length ≤ base + s.regs.bkwlen.toNat ∧ physValid addr = true ∧
      physValid (addr + bytes.length - 1) = true
    (inside → s.rma = [] → ∃ t : State, exec (.rudRmaWrite conn addr bytes) s = .next t ∧ t.mem = s.mem ∧
      (∀ j < bytes.length, Memory.read (t.rmaLand 0 j 1).mem (addr + j) = bytes.getD j 0 ∧
        ∀ a, a ≠ addr + j → Memory.read (t.rmaLand 0 j 1).mem a = Memory.read s.mem a) ∧
      let u := t.rmaLand 0 0 bytes.length
      u.rma = [] ∧ Out.rmaDone conn true ∈ u.outbox ∧ ∀ j < bytes.length, Memory.read u.mem (addr + j) = bytes.getD j 0) ∧
    (¬ inside → exec (.rudRmaWrite conn addr bytes) s = .next { s with outbox := s.outbox ++ [.rmaDone conn false] })) ∧
  (∀ (s : State) (k : Nat) (x : Stream), s.streams = [(k, x)] → x.isOpen = true → x.ready ≠ [] →
    ∃ t : State, exec .replyFlushTimer s = .next t ∧ x.readyAt + 10000 ≤ t.gtc ∧
      Out.reply x.conn x.port (replyBytes x.tag x.seq 0 0 x.ready) ∈ t.outbox) ∧
  (∀ (s : State) (conn : Nat), ∃ t : State, exec (.connectionEnd conn) s = .next t ∧
    ∀ k, (t.streamAt k).isOpen = true → (t.streamAt k).conn ≠ conn) ∧
  (∀ (s : State) (up : Bool), ∃ t u : State, exec (.portLinkChange 0 up) s = .next t ∧ exec (.portLinkChange 1 up) s = .next u ∧
    t.portLink = (up, s.portLink.2) ∧ u.portLink = (s.portLink.1, up) ∧ tbit t.regs.bkctl 1 = up ∧ tbit u.regs.bkctl 2 = up ∧
    tbit t.regs.bkctl 0 = tbit s.regs.bkctl 0) ∧
  (∀ (s : State) (k n : Nat), (s.streamAt k).isOpen = true → ∃ t : State, exec (.replyBufferFreed k n) s = .next t ∧
    t.streamAt k = { s.streamAt k with inBuf := (s.streamAt k).inBuf - n })

/-- POWER, BOOT AND MANAGEMENT (R386 to R395): of the update steps the start and a refused one, of the SPDM requests the measurement of the
firmware, and of the link its loss. The outcomes of a boot that fails and what a loss of power leaves are the model's reading (log
entries 107, 108 and 112, DEDUCED); the numbering of the sensors, and the bodies of the answers on the side-band port and to SPDM, the
busy answer among them, are the model's choice (log entries 110 and 111, DESIGN CHOICE). -/
def Obligations.PowerResults : Prop :=
  (∀ (s : State) (err : Nat) (present : List Nat), s.power = .standby →
    (s.flash.1.valid = false → s.flash.2.valid = false → ∃ t : State, exec (.boot err present) s = .next t ∧
      tbit t.regs.bootst 5 = true ∧ tbit t.regs.bootst 4 = false ∧ t.power = .p1) ∧
    (∀ f, (if s.flash.1.valid && s.flash.2.valid then (if s.flash.1.fw.version < s.flash.2.fw.version then s.flash.2 else s.flash.1)
        else if s.flash.1.valid then s.flash.1 else s.flash.2) = f → f.valid = true → s.selfTestFailed = [] →
      (err ≠ 2 → err ≠ 3 → ∃ t : State, exec (.boot err present) s = .next t ∧ t.power = .p0 ∧ t.running = f ∧
        tbit t.regs.bootst 4 = true ∧ tbit t.regs.bootst 5 = false ∧ t.regs.bootst.toNat / 2 ^ 16 % 2 ^ 32 = f.fw.version % 2 ^ 32 ∧
        (t.hostLink = true ↔ err ≠ 4) ∧ t.config.certs = (Config.configImage f.cfg.bytes).certs) ∧
      (err = 2 ∨ err = 3 → ∃ t : State, exec (.boot err present) s = .next t ∧ t.power = .p1 ∧ tbit t.regs.bootst 4 = false))) ∧
  (∀ (s : State), s.power = .p0 ∨ s.power = .p1 →
    ((∃ g ∈ s.grids, g.ended = none) → ∃ t : State, exec (.mainPowerDown false) s = .next t ∧ t.power = s.power ∧
      t.grids = s.grids ∧ t.mem = s.mem) ∧
    (∃ t : State, exec (.mainPowerDown true) s = .next t ∧ t.power = .standby ∧ t.flash = s.flash ∧ t.regs = State.reset.regs ∧
      t.teams = [] ∧ t.waves = [Wave.nobody] ∧ t.effecters = (false, true, true) ∧ ∀ g ∈ t.grids, g.orphan = true ∧ g.ended ≠ none) ∧
    (∃ t : State, exec (.vstbyRailChange false) s = .next t ∧ t.power = .off ∧ t.flash = s.flash)) ∧
  (∀ (s : State),
    (s.power = .standby → exec .mainPowerUp s = .next { s with power := .p1, regs := State.reset.regs, effecters := (true, false, false) }) ∧
    (s.power = .off → exec (.vstbyRailChange true) s = .next { s with power := .standby }) ∧
    (∀ q n, s.power = .p1 → tbit s.regs.bootst 4 = true → (q, n) ∈ s.noticed → (s.qdesc q).valid = true → (s.qdesc q).ahead n ≠ 0 →
      exec .p1Wake s = .next { s with power := .p0 }) ∧
    exec (.hostLinkChange false) s = .next { s with hostLink := false } ∧
    (s.power ≠ .off → ∀ id, exec (.pldmMonitoring (.sensor id)) s = .next { s with outbox := s.outbox ++ [Out.sideband (
      if s.power = .standby ∧ id / 4 ≠ 547 then [0] else if id = 2192 then [1, s.watts]
        else [1, (mgetD s.sensors id 0 + 2 ^ 31).toNat])] }) ∧
    (s.power ≠ .off → exec (.pldmMonitoring .state) s = .next { s with outbox := s.outbox ++ [Out.sideband
      [s.regs.bootst.toNat, s.power.code, if s.effecters.1 then 1 else 0, if s.effecters.2.1 then 1 else 0,
        if s.effecters.2.2 then 1 else 0]] }) ∧
    (s.power ≠ .off → exec (.spdmRequest 2) s = .next { s with outbox := s.outbox ++ [Out.spdm (2 :: s.running.fw.bytes.map BitVec.toNat)] })) ∧
  (∀ (s : State) (config : Bool), s.power = .p0 ∨ s.power = .p1 →
    (s.writer = none → ∃ t : State, exec (.pldmFirmwareUpdate (.start config)) s = .next t ∧ t.writer = some false ∧
      (if tbit s.regs.bootst 6 then (t.flash.1.image config).valid = false ∧ t.flash.2 = s.flash.2
        else (t.flash.2.image config).valid = false ∧ t.flash.1 = s.flash.1)) ∧
    (s.hostLink = true → tbit s.regs.bootst 5 = true →
      (s.writer = none → ∃ t : State, exec (.recoveryWindowWrite 0 (.start config)) s = .next t ∧
        t.writer = some true ∧ (t.flash.1.image config).valid = false ∧ t.flash.2 = s.flash.2) ∧
      (s.writer = some false → exec (.recoveryWindowWrite 0 (.start config)) s =
        .next { s.logEvent 0 4 with outbox := s.outbox ++ [Out.hostData [1]] })))

/-! ### The machine as a whole -/

/-- RESET (R344, R374, R377, R391): the device registers hold their reset values; nothing runs; memory lists nothing and is
in its canonical form. -/
def Obligations.ResetState : Prop :=
  State.reset.regs.fmode = 0x3E800 ∧ State.reset.regs.qtbase = 0 ∧ State.reset.regs.ftbase = 0 ∧ State.reset.regs.bkctl = 0 ∧
  State.reset.regs.bkvoc = [0, 0, 0, 0] ∧ State.reset.regs.bkwin = 0 ∧ State.reset.regs.bkwlen = 0 ∧
  State.reset.regs.bkcnt = [0, 0, 0, 0, 0, 0] ∧ State.reset.regs.bootst = 0 ∧ State.reset.grids = [] ∧
  State.reset.mem = [] ∧ Inv State.reset

/-- EVERY STEP KEEPS THE CANONICAL FORM OF MEMORY. -/
def Obligations.StepKeepsCanonicalMemory : Prop := ∀ s t : State, Inv s → step s = .next t → Inv t

/-- REGISTER INSTRUCTIONS TOUCH NO MEMORY (R52 to R96): outside trap mode, an instruction that neither loads or stores nor
acts on another unit leaves every byte of memory, the poison, the other waves, the teams, the grids and the device
registers as they are, whatever it does to the registers, predicates, status and positions of its own wave. The table read of
`brd` performs the wave's earlier reductions (R227), so that there are none in the claim about it. -/
def Obligations.RegisterInstructionFrame : Prop :=
  ∀ (i : Instr) (s t : State), rowOne i = true → (∀ f, i ≠ .ld f ∧ i ≠ .st f ∧ i ≠ .sld f ∧ i ≠ .sst f) →
    (∀ f, i = .brd f → ∀ e ∈ s.cur.pw, e.kind.isRmw = false) →
    s.cur.tm = false → s.cur.spec = 0 → s.cur.step = false → exec i s = .next t →
    (∀ a, Memory.read t.mem a = Memory.read s.mem a) ∧ t.poison = s.poison ∧ t.rest = s.rest ∧ t.teams = s.teams ∧
    t.grids = s.grids ∧ t.regs = s.regs ∧ t.comms = s.comms ∧ t.gtc = s.gtc ∧ t.cur.key = s.cur.key ∧ t.cur.width = s.cur.width ∧
    t.cur.alloc = s.cur.alloc ∧ t.cur.wct = s.cur.wct ∧ t.cur.keys = s.cur.keys ∧ t.cur.memb = s.cur.memb ∧
    t.cur.copies = s.cur.copies ∧ t.cur.bp = s.cur.bp

/-- DECODE AND ENCODE AGREE: every well-formed instruction is read back from its word. -/
def Obligations.DecodeEncodeRoundTrip : Prop := ∀ i : Instr, i.wellFormed = true → decode (encode i) = some i

/-- WORDS OF THE SPECIFICATION decode to what it says they stand for (R70, R92, R97, R277, R280, R281, R283). -/
def Obligations.DecodedWords : Prop :=
  decode 0xE078000000000000 = some (.nop { g := 15 }) ∧
  decode 0xE178000000000007 = some (.trap { g := 15, imm := 7 }) ∧
  decode 0xE2780A0000000000 = some (.brk { g := 15, sa := 5, ma := false, k := 0 }) ∧
  decode 0xE378000000000000 = some (.sret { g := 15 }) ∧
  decode 0xE378000000000001 = some (.sretEsc { g := 15 }) ∧
  decode 0 = none

/-- A STEP RUNS THE DECODED INSTRUCTION (R18, R44): with nothing scheduled, outside the turn of the units (the model's choice,
log entry 5), where the current wave may issue, no override is due and nothing comes before the issue, the step is the execution
of the instruction that the fetched word decodes to, one tick of time with the turn of the next wave, and then the settling of
what the execution brought about elsewhere; a word that decodes to none is illegal. -/
def Obligations.StepRunsDecodedInstruction : Prop :=
  ∀ (s : State) (x : Word64), s.sched = [] → s.mayIssue = true → s.unitsTurn = false → (s.cur.ovr ≠ [] ∨ s.cur.overdue = none) → s.before = none →
    s.fetch s.cur s.at_ = .word x →
    (∀ i, decode x = some i → step s = (match exec i s with | .next t => .next t.passTurn.settled | o => o)) ∧
    (decode x = none → step s = .next (s.preTrap (illegal s.cur.issuingSet) x).passTurn.settled)
end

