-- ==== Sys2Proof/Laws/PerInstr.lean ====
section
/-! SUPPORT. Per instruction: an event is no word of a program, so it is not well formed as one and has no encoding. -/

namespace Sys2Proof.Laws.EventShape

/-- An event is not well formed as a word, and its encoding is empty. -/
def Statement (i : Instr) : Prop := i.isEvent = true → i.wellFormed = false ∧ encode i = 0

theorem vadd (f : FmtA) : Statement (.vadd f) := fun h => nomatch h
theorem vsub (f : FmtA) : Statement (.vsub f) := fun h => nomatch h
theorem vaddc (f : FmtA) : Statement (.vaddc f) := fun h => nomatch h
theorem vmul (f : FmtA) : Statement (.vmul f) := fun h => nomatch h
theorem vmulh (f : FmtA) : Statement (.vmulh f) := fun h => nomatch h
theorem vmad (f : FmtB) : Statement (.vmad f) := fun h => nomatch h
theorem vmin (f : FmtA) : Statement (.vmin f) := fun h => nomatch h
theorem vmax (f : FmtA) : Statement (.vmax f) := fun h => nomatch h
theorem vabsd (f : FmtA) : Statement (.vabsd f) := fun h => nomatch h
theorem vand (f : FmtA) : Statement (.vand f) := fun h => nomatch h
theorem vor (f : FmtA) : Statement (.vor f) := fun h => nomatch h
theorem vxor (f : FmtA) : Statement (.vxor f) := fun h => nomatch h
theorem vnot (f : FmtA) : Statement (.vnot f) := fun h => nomatch h
theorem vshl (f : FmtA) : Statement (.vshl f) := fun h => nomatch h
theorem vshr (f : FmtA) : Statement (.vshr f) := fun h => nomatch h
theorem vsar (f : FmtA) : Statement (.vsar f) := fun h => nomatch h
theorem vrot (f : FmtA) : Statement (.vrot f) := fun h => nomatch h
theorem vclz (f : FmtA) : Statement (.vclz f) := fun h => nomatch h
theorem vpopc (f : FmtA) : Statement (.vpopc f) := fun h => nomatch h
theorem vbrev (f : FmtA) : Statement (.vbrev f) := fun h => nomatch h
theorem vext (f : FmtB) : Statement (.vext f) := fun h => nomatch h
theorem vins (f : FmtB) : Statement (.vins f) := fun h => nomatch h
theorem vsel (f : FmtB) : Statement (.vsel f) := fun h => nomatch h
theorem vcmp (f : FmtA) : Statement (.vcmp f) := fun h => nomatch h
theorem vmov (f : FmtA) : Statement (.vmov f) := fun h => nomatch h
theorem vmovi (f : FmtD) : Statement (.vmovi f) := fun h => nomatch h
theorem vshfl (f : FmtB) : Statement (.vshfl f) := fun h => nomatch h
theorem vbcast (f : FmtA) : Statement (.vbcast f) := fun h => nomatch h
theorem vvote (f : FmtA) : Statement (.vvote f) := fun h => nomatch h
theorem vscan (f : FmtA) : Statement (.vscan f) := fun h => nomatch h
theorem vred (f : FmtA) : Statement (.vred f) := fun h => nomatch h
theorem vcompact (f : FmtA) : Statement (.vcompact f) := fun h => nomatch h
theorem sadd (f : FmtS) : Statement (.sadd f) := fun h => nomatch h
theorem ssub (f : FmtS) : Statement (.ssub f) := fun h => nomatch h
theorem smul (f : FmtS) : Statement (.smul f) := fun h => nomatch h
theorem smad (f : FmtS) : Statement (.smad f) := fun h => nomatch h
theorem sand (f : FmtS) : Statement (.sand f) := fun h => nomatch h
theorem sor (f : FmtS) : Statement (.sor f) := fun h => nomatch h
theorem sxor (f : FmtS) : Statement (.sxor f) := fun h => nomatch h
theorem sshl (f : FmtS) : Statement (.sshl f) := fun h => nomatch h
theorem sshr (f : FmtS) : Statement (.sshr f) := fun h => nomatch h
theorem ssar (f : FmtS) : Statement (.ssar f) := fun h => nomatch h
theorem smov (f : FmtS) : Statement (.smov f) := fun h => nomatch h
theorem smovi (f : FmtD) : Statement (.smovi f) := fun h => nomatch h
theorem scmp (f : FmtS) : Statement (.scmp f) := fun h => nomatch h
theorem vtos (f : FmtSV) : Statement (.vtos f) := fun h => nomatch h
theorem stov (f : FmtSV) : Statement (.stov f) := fun h => nomatch h
theorem fadd (f : FmtA) : Statement (.fadd f) := fun h => nomatch h
theorem fsub (f : FmtA) : Statement (.fsub f) := fun h => nomatch h
theorem fmul (f : FmtA) : Statement (.fmul f) := fun h => nomatch h
theorem ffma (f : FmtB) : Statement (.ffma f) := fun h => nomatch h
theorem fmin (f : FmtA) : Statement (.fmin f) := fun h => nomatch h
theorem fmax (f : FmtA) : Statement (.fmax f) := fun h => nomatch h
theorem fcmp (f : FmtA) : Statement (.fcmp f) := fun h => nomatch h
theorem fclass (f : FmtA) : Statement (.fclass f) := fun h => nomatch h
theorem fround (f : FmtA) : Statement (.fround f) := fun h => nomatch h
theorem fscale (f : FmtA) : Statement (.fscale f) := fun h => nomatch h
theorem fexp (f : FmtA) : Statement (.fexp f) := fun h => nomatch h
theorem fman (f : FmtA) : Statement (.fman f) := fun h => nomatch h
theorem fcvt (f : FmtA) : Statement (.fcvt f) := fun h => nomatch h
theorem fcvti (f : FmtA) : Statement (.fcvti f) := fun h => nomatch h
theorem icvtf (f : FmtA) : Statement (.icvtf f) := fun h => nomatch h
theorem fex2 (f : FmtA) : Statement (.fex2 f) := fun h => nomatch h
theorem flg2 (f : FmtA) : Statement (.flg2 f) := fun h => nomatch h
theorem frcp (f : FmtA) : Statement (.frcp f) := fun h => nomatch h
theorem frsq (f : FmtA) : Statement (.frsq f) := fun h => nomatch h
theorem fsqrt (f : FmtA) : Statement (.fsqrt f) := fun h => nomatch h
theorem fsin2 (f : FmtA) : Statement (.fsin2 f) := fun h => nomatch h
theorem fcos2 (f : FmtA) : Statement (.fcos2 f) := fun h => nomatch h
theorem fdot2 (f : FmtB) : Statement (.fdot2 f) := fun h => nomatch h
theorem hadd2 (f : FmtA) : Statement (.hadd2 f) := fun h => nomatch h
theorem hmul2 (f : FmtA) : Statement (.hmul2 f) := fun h => nomatch h
theorem hfma2 (f : FmtB) : Statement (.hfma2 f) := fun h => nomatch h
theorem fstat (f : FmtA) : Statement (.fstat f) := fun h => nomatch h
theorem br (f : FmtJ) : Statement (.br f) := fun h => nomatch h
theorem brd (f : FmtJ) : Statement (.brd f) := fun h => nomatch h
theorem call (f : FmtJ) : Statement (.call f) := fun h => nomatch h
theorem ret (f : FmtJ) : Statement (.ret f) := fun h => nomatch h
theorem join (f : FmtJ) : Statement (.join f) := fun h => nomatch h
theorem joinAct (f : FmtJ) : Statement (.joinAct f) := fun h => nomatch h
theorem wait (f : FmtJ) : Statement (.wait f) := fun h => nomatch h
theorem exit (f : FmtJ) : Statement (.exit f) := fun h => nomatch h
theorem ld (f : FmtM) : Statement (.ld f) := fun h => nomatch h
theorem st (f : FmtM) : Statement (.st f) := fun h => nomatch h
theorem sld (f : FmtM) : Statement (.sld f) := fun h => nomatch h
theorem sst (f : FmtM) : Statement (.sst f) := fun h => nomatch h
theorem lda (f : FmtM) : Statement (.lda f) := fun h => nomatch h
theorem pf (f : FmtM) : Statement (.pf f) := fun h => nomatch h
theorem loadDataReturn (w : WKey) (k : Nat) : Statement (.loadDataReturn w k) := fun _ => ⟨rfl, rfl⟩
theorem grow (f : FmtGrow) : Statement (.grow f) := fun h => nomatch h
theorem growUnitsFreed (core : Nat) : Statement (.growUnitsFreed core) := fun _ => ⟨rfl, rfl⟩
theorem shrink (f : FmtGrow) : Statement (.shrink f) := fun h => nomatch h
theorem sortk (f : FmtSort) : Statement (.sortk f) := fun h => nomatch h
theorem issueOverride : Statement .issueOverride := fun _ => ⟨rfl, rfl⟩
theorem issueSlotGrant (core : Nat) : Statement (.issueSlotGrant core) := fun _ => ⟨rfl, rfl⟩
theorem atom (f : FmtAtom) : Statement (.atom f) := fun h => nomatch h
theorem red (f : FmtAtom) : Statement (.red f) := fun h => nomatch h
theorem fence (f : FmtFence) : Statement (.fence f) := fun h => nomatch h
theorem writeAcknowledgement (w : WKey) (k lo len : Nat) : Statement (.writeAcknowledgement w k lo len) := fun _ => ⟨rfl, rfl⟩
theorem mon (f : FmtSrc) : Statement (.mon f) := fun h => nomatch h
theorem mwait (f : FmtDstSrc) : Statement (.mwait f) := fun h => nomatch h
theorem monitorTrigger (w : WKey) : Statement (.monitorTrigger w) := fun _ => ⟨rfl, rfl⟩
theorem mwaitDeadline (w : WKey) : Statement (.mwaitDeadline w) := fun _ => ⟨rfl, rfl⟩
theorem barr (f : FmtBar) : Statement (.barr f) := fun h => nomatch h
theorem barw (f : FmtBar) : Statement (.barw f) := fun h => nomatch h
theorem bara (f : FmtBar) : Statement (.bara f) := fun h => nomatch h
theorem bmask (f : FmtBar) : Statement (.bmask f) := fun h => nomatch h
theorem cvdecl (f : FmtKey) : Statement (.cvdecl f) := fun h => nomatch h
theorem mma (f : FmtX) : Statement (.mma f) := fun h => nomatch h
theorem mmas (f : FmtX) : Statement (.mmas f) := fun h => nomatch h
theorem mmaOperationComplete (core k : Nat) : Statement (.mmaOperationComplete core k) := fun _ => ⟨rfl, rfl⟩
theorem convergenceTimeout (grid team cv : Nat) : Statement (.convergenceTimeout grid team cv) := fun _ => ⟨rfl, rfl⟩
theorem mmaw (f : FmtCv) : Statement (.mmaw f) := fun h => nomatch h
theorem orf (f : FmtG) : Statement (.orf f) := fun h => nomatch h
theorem spfence (f : FmtG) : Statement (.spfence f) := fun h => nomatch h
theorem accld (f : FmtTile) : Statement (.accld f) := fun h => nomatch h
theorem accst (f : FmtTile) : Statement (.accst f) := fun h => nomatch h
theorem accstReg (f : FmtTile) : Statement (.accstReg f) := fun h => nomatch h
theorem acczero (f : FmtTile) : Statement (.acczero f) := fun h => nomatch h
theorem engineEntryComplete (core k : Nat) : Statement (.engineEntryComplete core k) := fun _ => ⟨rfl, rfl⟩
theorem trec (f : FmtTrec) : Statement (.trec f) := fun h => nomatch h
theorem rfence (f : FmtG) : Statement (.rfence f) := fun h => nomatch h
theorem qblk (f : FmtQblk) : Statement (.qblk f) := fun h => nomatch h
theorem dqblk (f : FmtQblk) : Statement (.dqblk f) := fun h => nomatch h
theorem hadm (f : FmtQblk) : Statement (.hadm f) := fun h => nomatch h
theorem sclq (f : FmtSclq) : Statement (.sclq f) := fun h => nomatch h
theorem vldt (f : FmtVldt) : Statement (.vldt f) := fun h => nomatch h
theorem vstt (f : FmtVldt) : Statement (.vstt f) := fun h => nomatch h
theorem cpy (f : FmtCpy) : Statement (.cpy f) := fun h => nomatch h
theorem cpys (f : FmtCpy) : Statement (.cpys f) := fun h => nomatch h
theorem copyTransferStart (w : WKey) (q : Nat) : Statement (.copyTransferStart w q) := fun _ => ⟨rfl, rfl⟩
theorem copyComplete (w : WKey) (q : Nat) : Statement (.copyComplete w q) := fun _ => ⟨rfl, rfl⟩
theorem cpyw (f : FmtDstSrc) : Statement (.cpyw f) := fun h => nomatch h
theorem cpywWait (f : FmtDstSrc) : Statement (.cpywWait f) := fun h => nomatch h
theorem cpywRe (f : FmtDstSrc) : Statement (.cpywRe f) := fun h => nomatch h
theorem copyPromiseWake (w : WKey) : Statement (.copyPromiseWake w) := fun _ => ⟨rfl, rfl⟩
theorem tlbw (f : FmtCpy) : Statement (.tlbw f) := fun h => nomatch h
theorem tlbiVa (f : FmtSrc) : Statement (.tlbiVa f) := fun h => nomatch h
theorem tlbiAsid (f : FmtSrc) : Statement (.tlbiAsid f) := fun h => nomatch h
theorem tlbiAll (f : FmtSrc) : Statement (.tlbiAll f) := fun h => nomatch h
theorem tlbMissWalk (core : Nat) : Statement (.tlbMissWalk core) := fun _ => ⟨rfl, rfl⟩
theorem hostTlbFill (core : Nat) (sa w0 w1 : Word64) : Statement (.hostTlbFill core sa w0 w1) := fun _ => ⟨rfl, rfl⟩
theorem pageFaultBatchResolved (w : WKey) (ok : Bool) : Statement (.pageFaultBatchResolved w ok) := fun _ => ⟨rfl, rfl⟩
theorem uncorrectableError (site : ErrSite) : Statement (.uncorrectableError site) := fun _ => ⟨rfl, rfl⟩
theorem hostMemoryAccess (addr len : Nat) (data : Option (List Byte)) : Statement (.hostMemoryAccess addr len data) := fun _ => ⟨rfl, rfl⟩
theorem pbsel (f : FmtPbsel) : Statement (.pbsel f) := fun h => nomatch h
theorem accept (f : FmtAccept) : Statement (.accept f) := fun h => nomatch h
theorem pbclr (f : FmtG) : Statement (.pbclr f) := fun h => nomatch h
theorem pbcnt (f : FmtVd) : Statement (.pbcnt f) := fun h => nomatch h
theorem rng (f : FmtRng) : Statement (.rng f) := fun h => nomatch h
theorem rngk (f : FmtKey) : Statement (.rngk f) := fun h => nomatch h
theorem cbrj (f : FmtKey) : Statement (.cbrj f) := fun h => nomatch h
theorem cbr (f : FmtCbr) : Statement (.cbr f) := fun h => nomatch h
theorem cbrOutcome (slot gen : Nat) (foreign : ForeignVotes) : Statement (.cbrOutcome slot gen foreign) := fun _ => ⟨rfl, rfl⟩
theorem collectiveStall (w : WKey) (k : Nat) : Statement (.collectiveStall w k) := fun _ => ⟨rfl, rfl⟩
theorem memberLost (slot rank : Nat) : Statement (.memberLost slot rank) := fun _ => ⟨rfl, rfl⟩
theorem creduce (f : FmtCred) : Statement (.creduce f) := fun h => nomatch h
theorem creduceGenerationComplete (slot gen : Nat) (foreign : List ForeignContrib) : Statement (.creduceGenerationComplete slot gen foreign) := fun _ => ⟨rfl, rfl⟩
theorem creduceStall (w : WKey) : Statement (.creduceStall w) := fun _ => ⟨rfl, rfl⟩
theorem fld (f : FmtM) : Statement (.fld f) := fun h => nomatch h
theorem fst (f : FmtM) : Statement (.fst f) := fun h => nomatch h
theorem fatom (f : FmtAtom) : Statement (.fatom f) := fun h => nomatch h
theorem ffence (f : FmtG) : Statement (.ffence f) := fun h => nomatch h
theorem fabricRequestArrival (r : FabReq) : Statement (.fabricRequestArrival r) := fun _ => ⟨rfl, rfl⟩
theorem fabricCountQuery (src : Nat) (from_ : WKey) (interval sent : Nat) (replayed : Bool) : Statement (.fabricCountQuery src from_ interval sent replayed) := fun _ => ⟨rfl, rfl⟩
theorem fabricResponse (core tag inc : Nat) (res : FabResult) : Statement (.fabricResponse core tag inc res) := fun _ => ⟨rfl, rfl⟩
theorem fabricWaitNotice (core tag inc : Nat) : Statement (.fabricWaitNotice core tag inc) := fun _ => ⟨rfl, rfl⟩
theorem fabricRequestTimeout (core tag : Nat) : Statement (.fabricRequestTimeout core tag) := fun _ => ⟨rfl, rfl⟩
theorem linkFailure (dev : Nat) : Statement (.linkFailure dev) := fun _ => ⟨rfl, rfl⟩
theorem deviceLeavesPod (dev : Nat) : Statement (.deviceLeavesPod dev) := fun _ => ⟨rfl, rfl⟩
theorem nop (f : FmtG) : Statement (.nop f) := fun h => nomatch h
theorem trap (f : FmtTrap) : Statement (.trap f) := fun h => nomatch h
theorem brk (f : FmtBrk) : Statement (.brk f) := fun h => nomatch h
theorem sret (f : FmtG) : Statement (.sret f) := fun h => nomatch h
theorem sretEsc (f : FmtG) : Statement (.sretEsc f) := fun h => nomatch h
theorem faultServiceDecision (w : WKey) (resume : Bool) : Statement (.faultServiceDecision w resume) := fun _ => ⟨rfl, rfl⟩
theorem rdsr (f : FmtRdsr) : Statement (.rdsr f) := fun h => nomatch h
theorem wrsr (f : FmtWrsr) : Statement (.wrsr f) := fun h => nomatch h
theorem wsw (f : FmtWsw) : Statement (.wsw f) := fun h => nomatch h
theorem migrate (f : FmtMig) : Statement (.migrate f) := fun h => nomatch h
theorem qpush (f : FmtQpush) : Statement (.qpush f) := fun h => nomatch h
theorem qpop (f : FmtQpop) : Statement (.qpop f) := fun h => nomatch h
theorem qpopO (f : FmtQpop) : Statement (.qpopO f) := fun h => nomatch h
theorem qpopDeadline (w : WKey) : Statement (.qpopDeadline w) := fun _ => ⟨rfl, rfl⟩
theorem qdone (f : FmtG) : Statement (.qdone f) := fun h => nomatch h
theorem taskTurnsNonspeculative (w : WKey) : Statement (.taskTurnsNonspeculative w) := fun _ => ⟨rfl, rfl⟩
theorem dtk (f : FmtDtk) : Statement (.dtk f) := fun h => nomatch h
theorem dtkEnd (f : FmtDtk) : Statement (.dtkEnd f) := fun h => nomatch h
theorem launch (q i : Nat) : Statement (.launch q i) := fun _ => ⟨rfl, rfl⟩
theorem teamPlacement (core : Nat) : Statement (.teamPlacement core) := fun _ => ⟨rfl, rfl⟩
theorem teamResume (grid team core : Nat) : Statement (.teamResume grid team core) := fun _ => ⟨rfl, rfl⟩
theorem gridCompletion (grid : Nat) : Statement (.gridCompletion grid) := fun _ => ⟨rfl, rfl⟩
theorem feedAppend (q i : Nat) : Statement (.feedAppend q i) := fun _ => ⟨rfl, rfl⟩
theorem communicatorSetUp (q i : Nat) (foreign : List (Nat × Word64)) : Statement (.communicatorSetUp q i foreign) := fun _ => ⟨rfl, rfl⟩
theorem communicatorRelease (q i : Nat) : Statement (.communicatorRelease q i) := fun _ => ⟨rfl, rfl⟩
theorem determinismLevel (q i : Nat) : Statement (.determinismLevel q i) := fun _ => ⟨rfl, rfl⟩
theorem token (q i : Nat) : Statement (.token q i) := fun _ => ⟨rfl, rfl⟩
theorem powerClass (q i : Nat) : Statement (.powerClass q i) := fun _ => ⟨rfl, rfl⟩
theorem gridCheckpoint (q i : Nat) : Statement (.gridCheckpoint q i) := fun _ => ⟨rfl, rfl⟩
theorem gridRestore (q i : Nat) : Statement (.gridRestore q i) := fun _ => ⟨rfl, rfl⟩
theorem gridEnd (q i : Nat) : Statement (.gridEnd q i) := fun _ => ⟨rfl, rfl⟩
theorem unknownPacketKind (q i : Nat) : Statement (.unknownPacketKind q i) := fun _ => ⟨rfl, rfl⟩
theorem doorbell (v : Word64) : Statement (.doorbell v) := fun _ => ⟨rfl, rfl⟩
theorem writeIndexNotice (q : Nat) : Statement (.writeIndexNotice q) := fun _ => ⟨rfl, rfl⟩
theorem quantumSwap (die : Nat) (set : List Nat) : Statement (.quantumSwap die set) := fun _ => ⟨rfl, rfl⟩
theorem headroomUpdate (core : Nat) (temps : List Int) (watts : Nat) : Statement (.headroomUpdate core temps watts) := fun _ => ⟨rfl, rfl⟩
theorem registerWrite (off : Nat) (v : Word64) : Statement (.registerWrite off v) := fun _ => ⟨rfl, rfl⟩
theorem bkvocLoad (slot : Nat) (addr : Word64) : Statement (.bkvocLoad slot addr) := fun _ => ⟨rfl, rfl⟩
theorem bkcntRead (k : Nat) : Statement (.bkcntRead k) := fun _ => ⟨rfl, rfl⟩
theorem barkerRequest (conn port : Nat) (rud : Bool) (msg : List Byte) : Statement (.barkerRequest conn port rud msg) := fun _ => ⟨rfl, rfl⟩
theorem barkerFeedAppend (feed : Nat) : Statement (.barkerFeedAppend feed) := fun _ => ⟨rfl, rfl⟩
theorem rudRmaWrite (conn addr : Nat) (bytes : List Byte) : Statement (.rudRmaWrite conn addr bytes) := fun _ => ⟨rfl, rfl⟩
theorem replyFlushTimer : Statement .replyFlushTimer := fun _ => ⟨rfl, rfl⟩
theorem connectionEnd (conn : Nat) : Statement (.connectionEnd conn) := fun _ => ⟨rfl, rfl⟩
theorem portLinkChange (port : Nat) (up : Bool) : Statement (.portLinkChange port up) := fun _ => ⟨rfl, rfl⟩
theorem boot (err : Nat) (present : List Nat) : Statement (.boot err present) := fun _ => ⟨rfl, rfl⟩
theorem p1Wake : Statement .p1Wake := fun _ => ⟨rfl, rfl⟩
theorem mainPowerDown (forced : Bool) : Statement (.mainPowerDown forced) := fun _ => ⟨rfl, rfl⟩
theorem mainPowerUp : Statement .mainPowerUp := fun _ => ⟨rfl, rfl⟩
theorem pldmMonitoring (req : PldmReq) : Statement (.pldmMonitoring req) := fun _ => ⟨rfl, rfl⟩
theorem pldmFirmwareUpdate (step : UpdateStep) : Statement (.pldmFirmwareUpdate step) := fun _ => ⟨rfl, rfl⟩
theorem spdmRequest (idx : Nat) : Statement (.spdmRequest idx) := fun _ => ⟨rfl, rfl⟩
theorem recoveryWindowWrite (copy : Nat) (step : UpdateStep) : Statement (.recoveryWindowWrite copy step) := fun _ => ⟨rfl, rfl⟩
theorem releasePoint (w : WKey) : Statement (.releasePoint w) := fun _ => ⟨rfl, rfl⟩
theorem pageFaultResolved (site : FaultSite) (ok : Bool) : Statement (.pageFaultResolved site ok) := fun _ => ⟨rfl, rfl⟩
theorem fabricLinkRestored (dev : Nat) (v3 : Bool) : Statement (.fabricLinkRestored dev v3) := fun _ => ⟨rfl, rfl⟩
theorem hostLinkChange (up : Bool) : Statement (.hostLinkChange up) := fun _ => ⟨rfl, rfl⟩
theorem vstbyRailChange (up : Bool) : Statement (.vstbyRailChange up) := fun _ => ⟨rfl, rfl⟩
theorem replyBufferFreed (stream n : Nat) : Statement (.replyBufferFreed stream n) := fun _ => ⟨rfl, rfl⟩
theorem vocabularyLoadComplete (slot : Nat) : Statement (.vocabularyLoadComplete slot) := fun _ => ⟨rfl, rfl⟩

/-- Every instruction. -/
theorem all (i : Instr) : Statement i :=
  match i with
  | .vadd f => vadd f
  | .vsub f => vsub f
  | .vaddc f => vaddc f
  | .vmul f => vmul f
  | .vmulh f => vmulh f
  | .vmad f => vmad f
  | .vmin f => vmin f
  | .vmax f => vmax f
  | .vabsd f => vabsd f
  | .vand f => vand f
  | .vor f => vor f
  | .vxor f => vxor f
  | .vnot f => vnot f
  | .vshl f => vshl f
  | .vshr f => vshr f
  | .vsar f => vsar f
  | .vrot f => vrot f
  | .vclz f => vclz f
  | .vpopc f => vpopc f
  | .vbrev f => vbrev f
  | .vext f => vext f
  | .vins f => vins f
  | .vsel f => vsel f
  | .vcmp f => vcmp f
  | .vmov f => vmov f
  | .vmovi f => vmovi f
  | .vshfl f => vshfl f
  | .vbcast f => vbcast f
  | .vvote f => vvote f
  | .vscan f => vscan f
  | .vred f => vred f
  | .vcompact f => vcompact f
  | .sadd f => sadd f
  | .ssub f => ssub f
  | .smul f => smul f
  | .smad f => smad f
  | .sand f => sand f
  | .sor f => sor f
  | .sxor f => sxor f
  | .sshl f => sshl f
  | .sshr f => sshr f
  | .ssar f => ssar f
  | .smov f => smov f
  | .smovi f => smovi f
  | .scmp f => scmp f
  | .vtos f => vtos f
  | .stov f => stov f
  | .fadd f => fadd f
  | .fsub f => fsub f
  | .fmul f => fmul f
  | .ffma f => ffma f
  | .fmin f => fmin f
  | .fmax f => fmax f
  | .fcmp f => fcmp f
  | .fclass f => fclass f
  | .fround f => fround f
  | .fscale f => fscale f
  | .fexp f => fexp f
  | .fman f => fman f
  | .fcvt f => fcvt f
  | .fcvti f => fcvti f
  | .icvtf f => icvtf f
  | .fex2 f => fex2 f
  | .flg2 f => flg2 f
  | .frcp f => frcp f
  | .frsq f => frsq f
  | .fsqrt f => fsqrt f
  | .fsin2 f => fsin2 f
  | .fcos2 f => fcos2 f
  | .fdot2 f => fdot2 f
  | .hadd2 f => hadd2 f
  | .hmul2 f => hmul2 f
  | .hfma2 f => hfma2 f
  | .fstat f => fstat f
  | .br f => br f
  | .brd f => brd f
  | .call f => call f
  | .ret f => ret f
  | .join f => join f
  | .joinAct f => joinAct f
  | .wait f => wait f
  | .exit f => exit f
  | .ld f => ld f
  | .st f => st f
  | .sld f => sld f
  | .sst f => sst f
  | .lda f => lda f
  | .pf f => pf f
  | .loadDataReturn w k => loadDataReturn w k
  | .grow f => grow f
  | .growUnitsFreed core => growUnitsFreed core
  | .shrink f => shrink f
  | .sortk f => sortk f
  | .issueOverride => issueOverride 
  | .issueSlotGrant core => issueSlotGrant core
  | .atom f => atom f
  | .red f => red f
  | .fence f => fence f
  | .writeAcknowledgement w k lo len => writeAcknowledgement w k lo len
  | .mon f => mon f
  | .mwait f => mwait f
  | .monitorTrigger w => monitorTrigger w
  | .mwaitDeadline w => mwaitDeadline w
  | .barr f => barr f
  | .barw f => barw f
  | .bara f => bara f
  | .bmask f => bmask f
  | .cvdecl f => cvdecl f
  | .mma f => mma f
  | .mmas f => mmas f
  | .mmaOperationComplete core k => mmaOperationComplete core k
  | .convergenceTimeout grid team cv => convergenceTimeout grid team cv
  | .mmaw f => mmaw f
  | .orf f => orf f
  | .spfence f => spfence f
  | .accld f => accld f
  | .accst f => accst f
  | .accstReg f => accstReg f
  | .acczero f => acczero f
  | .engineEntryComplete core k => engineEntryComplete core k
  | .trec f => trec f
  | .rfence f => rfence f
  | .qblk f => qblk f
  | .dqblk f => dqblk f
  | .hadm f => hadm f
  | .sclq f => sclq f
  | .vldt f => vldt f
  | .vstt f => vstt f
  | .cpy f => cpy f
  | .cpys f => cpys f
  | .copyTransferStart w q => copyTransferStart w q
  | .copyComplete w q => copyComplete w q
  | .cpyw f => cpyw f
  | .cpywWait f => cpywWait f
  | .cpywRe f => cpywRe f
  | .copyPromiseWake w => copyPromiseWake w
  | .tlbw f => tlbw f
  | .tlbiVa f => tlbiVa f
  | .tlbiAsid f => tlbiAsid f
  | .tlbiAll f => tlbiAll f
  | .tlbMissWalk core => tlbMissWalk core
  | .hostTlbFill core sa w0 w1 => hostTlbFill core sa w0 w1
  | .pageFaultBatchResolved w ok => pageFaultBatchResolved w ok
  | .uncorrectableError site => uncorrectableError site
  | .hostMemoryAccess addr len data => hostMemoryAccess addr len data
  | .pbsel f => pbsel f
  | .accept f => accept f
  | .pbclr f => pbclr f
  | .pbcnt f => pbcnt f
  | .rng f => rng f
  | .rngk f => rngk f
  | .cbrj f => cbrj f
  | .cbr f => cbr f
  | .cbrOutcome slot gen foreign => cbrOutcome slot gen foreign
  | .collectiveStall w k => collectiveStall w k
  | .memberLost slot rank => memberLost slot rank
  | .creduce f => creduce f
  | .creduceGenerationComplete slot gen foreign => creduceGenerationComplete slot gen foreign
  | .creduceStall w => creduceStall w
  | .fld f => fld f
  | .fst f => fst f
  | .fatom f => fatom f
  | .ffence f => ffence f
  | .fabricRequestArrival r => fabricRequestArrival r
  | .fabricCountQuery src from_ interval sent replayed => fabricCountQuery src from_ interval sent replayed
  | .fabricResponse core tag inc res => fabricResponse core tag inc res
  | .fabricWaitNotice core tag inc => fabricWaitNotice core tag inc
  | .fabricRequestTimeout core tag => fabricRequestTimeout core tag
  | .linkFailure dev => linkFailure dev
  | .deviceLeavesPod dev => deviceLeavesPod dev
  | .nop f => nop f
  | .trap f => trap f
  | .brk f => brk f
  | .sret f => sret f
  | .sretEsc f => sretEsc f
  | .faultServiceDecision w resume => faultServiceDecision w resume
  | .rdsr f => rdsr f
  | .wrsr f => wrsr f
  | .wsw f => wsw f
  | .migrate f => migrate f
  | .qpush f => qpush f
  | .qpop f => qpop f
  | .qpopO f => qpopO f
  | .qpopDeadline w => qpopDeadline w
  | .qdone f => qdone f
  | .taskTurnsNonspeculative w => taskTurnsNonspeculative w
  | .dtk f => dtk f
  | .dtkEnd f => dtkEnd f
  | .launch q i => launch q i
  | .teamPlacement core => teamPlacement core
  | .teamResume grid team core => teamResume grid team core
  | .gridCompletion grid => gridCompletion grid
  | .feedAppend q i => feedAppend q i
  | .communicatorSetUp q i foreign => communicatorSetUp q i foreign
  | .communicatorRelease q i => communicatorRelease q i
  | .determinismLevel q i => determinismLevel q i
  | .token q i => token q i
  | .powerClass q i => powerClass q i
  | .gridCheckpoint q i => gridCheckpoint q i
  | .gridRestore q i => gridRestore q i
  | .gridEnd q i => gridEnd q i
  | .unknownPacketKind q i => unknownPacketKind q i
  | .doorbell v => doorbell v
  | .writeIndexNotice q => writeIndexNotice q
  | .quantumSwap die set => quantumSwap die set
  | .headroomUpdate core temps watts => headroomUpdate core temps watts
  | .registerWrite off v => registerWrite off v
  | .bkvocLoad slot addr => bkvocLoad slot addr
  | .bkcntRead k => bkcntRead k
  | .barkerRequest conn port rud msg => barkerRequest conn port rud msg
  | .barkerFeedAppend feed => barkerFeedAppend feed
  | .rudRmaWrite conn addr bytes => rudRmaWrite conn addr bytes
  | .replyFlushTimer => replyFlushTimer 
  | .connectionEnd conn => connectionEnd conn
  | .portLinkChange port up => portLinkChange port up
  | .boot err present => boot err present
  | .p1Wake => p1Wake 
  | .mainPowerDown forced => mainPowerDown forced
  | .mainPowerUp => mainPowerUp 
  | .pldmMonitoring req => pldmMonitoring req
  | .pldmFirmwareUpdate step => pldmFirmwareUpdate step
  | .spdmRequest idx => spdmRequest idx
  | .recoveryWindowWrite copy step => recoveryWindowWrite copy step
  | .releasePoint w => releasePoint w
  | .pageFaultResolved site ok => pageFaultResolved site ok
  | .fabricLinkRestored dev v3 => fabricLinkRestored dev v3
  | .hostLinkChange up => hostLinkChange up
  | .vstbyRailChange up => vstbyRailChange up
  | .replyBufferFreed stream n => replyBufferFreed stream n
  | .vocabularyLoadComplete slot => vocabularyLoadComplete slot

end Sys2Proof.Laws.EventShape
end

