-- ==== Sys2Proof/Laws/Encoding.lean ====
section
/-! SUPPORT. Fields of a word: what taking a field apart gives of a word put together. -/

namespace Sys2Proof

/-- A field of a number below 2^64, with what lies above and below it. -/
theorem bits_of_sum (hi x lo p n : Nat) (hlo : lo < 2 ^ p) (hx : x < 2 ^ n)
    (hw : hi * 2 ^ (p + n) + x * 2 ^ p + lo < 2 ^ 64) :
    bits (BitVec.ofNat 64 (hi * 2 ^ (p + n) + x * 2 ^ p + lo)) p n = BitVec.ofNat n x := by
  unfold bits
  rw [BitVec.toNat_ofNat, Nat.mod_eq_of_lt hw]
  apply BitVec.eq_of_toNat_eq
  have h1 : hi * 2 ^ (p + n) + x * 2 ^ p + lo = 2 ^ p * (hi * 2 ^ n + x) + lo := by rw [Nat.pow_add]; ring
  rw [h1, Nat.mul_add_div (Nat.two_pow_pos p), Nat.div_eq_of_lt hlo]
  simp [BitVec.toNat_ofNat, Nat.mul_comm hi, Nat.mod_eq_of_lt hx]

/-- The type that a type's code stands for (R52). -/
@[simp] theorem Ty.ofCode_code (t : Ty) : Ty.ofCode (BitVec.ofNat 3 t.code) = t := by cases t <;> rfl

theorem Ty.code_lt (t : Ty) : t.code < 8 := by cases t <;> decide

/-- Every word that decodes does so to a well-formed instruction whose word it is: no word has two meanings. -/
theorem decode_some (w : BitVec 64) (i : Instr) (h : decode w = some i) : i.wellFormed = true ∧ encode i = w := by
  unfold decode at h
  split at h
  · split at h
    · rename_i j _ hc
      cases h
      simpa using hc
    · cases h
  · cases h

/-- An event is never decoded. -/
theorem decode_not_event (w : BitVec 64) (i : Instr) (h : decode w = some i) : i.isEvent = false := by
  have hw := (decode_some w i h).1
  cases he : i.isEvent with
  | false => rfl
  | true => exact absurd hw (by simp [(Laws.EventShape.all i he).1])

/-- What an instruction decodes to from its own word, where the raw decoder gives it back. -/
theorem decode_encode_of_raw (i : Instr) (hw : i.wellFormed = true) (hr : decodeRaw (encode i) = some i) :
    decode (encode i) = some i := by simp [decode, hr, hw]

end Sys2Proof
end

