-- ==== Sys2Proof/Laws/State.lean ====
section
/-! SUPPORT. What each update of a part of the state leaves as it is, field by field. -/

namespace Sys2Proof.Machine

/-! ### Another current wave -/

@[simp] theorem State.withCur_rest (s : State) (w : Wave) : (s.withCur w).rest = s.rest := rfl
@[simp] theorem State.withCur_teams (s : State) (w : Wave) : (s.withCur w).teams = s.teams := rfl
@[simp] theorem State.withCur_grids (s : State) (w : Wave) : (s.withCur w).grids = s.grids := rfl
@[simp] theorem State.withCur_cores (s : State) (w : Wave) : (s.withCur w).cores = s.cores := rfl
@[simp] theorem State.withCur_mem (s : State) (w : Wave) : (s.withCur w).mem = s.mem := rfl
@[simp] theorem State.withCur_poison (s : State) (w : Wave) : (s.withCur w).poison = s.poison := rfl
@[simp] theorem State.withCur_stale (s : State) (w : Wave) : (s.withCur w).stale = s.stale := rfl
@[simp] theorem State.withCur_gtc (s : State) (w : Wave) : (s.withCur w).gtc = s.gtc := rfl
@[simp] theorem State.withCur_regs (s : State) (w : Wave) : (s.withCur w).regs = s.regs := rfl
@[simp] theorem State.withCur_power (s : State) (w : Wave) : (s.withCur w).power = s.power := rfl
@[simp] theorem State.withCur_flash (s : State) (w : Wave) : (s.withCur w).flash = s.flash := rfl
@[simp] theorem State.withCur_running (s : State) (w : Wave) : (s.withCur w).running = s.running := rfl
@[simp] theorem State.withCur_writer (s : State) (w : Wave) : (s.withCur w).writer = s.writer := rfl
@[simp] theorem State.withCur_newPart (s : State) (w : Wave) : (s.withCur w).newPart = s.newPart := rfl
@[simp] theorem State.withCur_newImage (s : State) (w : Wave) : (s.withCur w).newImage = s.newImage := rfl
@[simp] theorem State.withCur_selfTestFailed (s : State) (w : Wave) : (s.withCur w).selfTestFailed = s.selfTestFailed := rfl
@[simp] theorem State.withCur_config (s : State) (w : Wave) : (s.withCur w).config = s.config := rfl
@[simp] theorem State.withCur_eventLog (s : State) (w : Wave) : (s.withCur w).eventLog = s.eventLog := rfl
@[simp] theorem State.withCur_sensors (s : State) (w : Wave) : (s.withCur w).sensors = s.sensors := rfl
@[simp] theorem State.withCur_watts (s : State) (w : Wave) : (s.withCur w).watts = s.watts := rfl
@[simp] theorem State.withCur_effecters (s : State) (w : Wave) : (s.withCur w).effecters = s.effecters := rfl
@[simp] theorem State.withCur_hostLink (s : State) (w : Wave) : (s.withCur w).hostLink = s.hostLink := rfl
@[simp] theorem State.withCur_portLink (s : State) (w : Wave) : (s.withCur w).portLink = s.portLink := rfl
@[simp] theorem State.withCur_linkDown (s : State) (w : Wave) : (s.withCur w).linkDown = s.linkDown := rfl
@[simp] theorem State.withCur_exports (s : State) (w : Wave) : (s.withCur w).exports = s.exports := rfl
@[simp] theorem State.withCur_fabErrors (s : State) (w : Wave) : (s.withCur w).fabErrors = s.fabErrors := rfl
@[simp] theorem State.withCur_clockOff (s : State) (w : Wave) : (s.withCur w).clockOff = s.clockOff := rfl
@[simp] theorem State.withCur_fabCounts (s : State) (w : Wave) : (s.withCur w).fabCounts = s.fabCounts := rfl
@[simp] theorem State.withCur_fabQueries (s : State) (w : Wave) : (s.withCur w).fabQueries = s.fabQueries := rfl
@[simp] theorem State.withCur_fabWaiting (s : State) (w : Wave) : (s.withCur w).fabWaiting = s.fabWaiting := rfl
@[simp] theorem State.withCur_comms (s : State) (w : Wave) : (s.withCur w).comms = s.comms := rfl
@[simp] theorem State.withCur_awayComms (s : State) (w : Wave) : (s.withCur w).awayComms = s.awayComms := rfl
@[simp] theorem State.withCur_hostComms (s : State) (w : Wave) : (s.withCur w).hostComms = s.hostComms := rfl
@[simp] theorem State.withCur_awayGrids (s : State) (w : Wave) : (s.withCur w).awayGrids = s.awayGrids := rfl
@[simp] theorem State.withCur_ckpts (s : State) (w : Wave) : (s.withCur w).ckpts = s.ckpts := rfl
@[simp] theorem State.withCur_commUse (s : State) (w : Wave) : (s.withCur w).commUse = s.commUse := rfl
@[simp] theorem State.withCur_noticed (s : State) (w : Wave) : (s.withCur w).noticed = s.noticed := rfl
@[simp] theorem State.withCur_queuesOn (s : State) (w : Wave) : (s.withCur w).queuesOn = s.queuesOn := rfl
@[simp] theorem State.withCur_window (s : State) (w : Wave) : (s.withCur w).window = s.window := rfl
@[simp] theorem State.withCur_started (s : State) (w : Wave) : (s.withCur w).started = s.started := rfl
@[simp] theorem State.withCur_resident (s : State) (w : Wave) : (s.withCur w).resident = s.resident := rfl
@[simp] theorem State.withCur_lastServed (s : State) (w : Wave) : (s.withCur w).lastServed = s.lastServed := rfl
@[simp] theorem State.withCur_waited (s : State) (w : Wave) : (s.withCur w).waited = s.waited := rfl
@[simp] theorem State.withCur_popQ (s : State) (w : Wave) : (s.withCur w).popQ = s.popQ := rfl
@[simp] theorem State.withCur_pushQ (s : State) (w : Wave) : (s.withCur w).pushQ = s.pushQ := rfl
@[simp] theorem State.withCur_popping (s : State) (w : Wave) : (s.withCur w).popping = s.popping := rfl
@[simp] theorem State.withCur_freed (s : State) (w : Wave) : (s.withCur w).freed = s.freed := rfl
@[simp] theorem State.withCur_feedLast (s : State) (w : Wave) : (s.withCur w).feedLast = s.feedLast := rfl
@[simp] theorem State.withCur_streams (s : State) (w : Wave) : (s.withCur w).streams = s.streams := rfl
@[simp] theorem State.withCur_vocs (s : State) (w : Wave) : (s.withCur w).vocs = s.vocs := rfl
@[simp] theorem State.withCur_bkHeld (s : State) (w : Wave) : (s.withCur w).bkHeld = s.bkHeld := rfl
@[simp] theorem State.withCur_rma (s : State) (w : Wave) : (s.withCur w).rma = s.rma := rfl
@[simp] theorem State.withCur_softErrors (s : State) (w : Wave) : (s.withCur w).softErrors = s.softErrors := rfl
@[simp] theorem State.withCur_lanesNow (s : State) (w : Wave) : (s.withCur w).lanesNow = s.lanesNow := rfl
@[simp] theorem State.withCur_outbox (s : State) (w : Wave) : (s.withCur w).outbox = s.outbox := rfl
@[simp] theorem State.withCur_freeCtr (s : State) (w : Wave) : (s.withCur w).freeCtr = s.freeCtr := rfl
@[simp] theorem State.withCur_nextGrid (s : State) (w : Wave) : (s.withCur w).nextGrid = s.nextGrid := rfl
@[simp] theorem State.withCur_sched (s : State) (w : Wave) : (s.withCur w).sched = s.sched := rfl
@[simp] theorem State.withCur_cur (s : State) (w : Wave) : (s.withCur w).cur = w := rfl

/-! ### Another team -/

@[simp] theorem State.setTeam_cur (s : State) (t : Team) : (s.setTeam t).cur = s.cur := rfl
@[simp] theorem State.setTeam_rest (s : State) (t : Team) : (s.setTeam t).rest = s.rest := rfl
@[simp] theorem State.setTeam_grids (s : State) (t : Team) : (s.setTeam t).grids = s.grids := rfl
@[simp] theorem State.setTeam_cores (s : State) (t : Team) : (s.setTeam t).cores = s.cores := rfl
@[simp] theorem State.setTeam_mem (s : State) (t : Team) : (s.setTeam t).mem = s.mem := rfl
@[simp] theorem State.setTeam_poison (s : State) (t : Team) : (s.setTeam t).poison = s.poison := rfl
@[simp] theorem State.setTeam_stale (s : State) (t : Team) : (s.setTeam t).stale = s.stale := rfl
@[simp] theorem State.setTeam_gtc (s : State) (t : Team) : (s.setTeam t).gtc = s.gtc := rfl
@[simp] theorem State.setTeam_regs (s : State) (t : Team) : (s.setTeam t).regs = s.regs := rfl
@[simp] theorem State.setTeam_power (s : State) (t : Team) : (s.setTeam t).power = s.power := rfl
@[simp] theorem State.setTeam_flash (s : State) (t : Team) : (s.setTeam t).flash = s.flash := rfl
@[simp] theorem State.setTeam_running (s : State) (t : Team) : (s.setTeam t).running = s.running := rfl
@[simp] theorem State.setTeam_writer (s : State) (t : Team) : (s.setTeam t).writer = s.writer := rfl
@[simp] theorem State.setTeam_newPart (s : State) (t : Team) : (s.setTeam t).newPart = s.newPart := rfl
@[simp] theorem State.setTeam_newImage (s : State) (t : Team) : (s.setTeam t).newImage = s.newImage := rfl
@[simp] theorem State.setTeam_selfTestFailed (s : State) (t : Team) : (s.setTeam t).selfTestFailed = s.selfTestFailed := rfl
@[simp] theorem State.setTeam_config (s : State) (t : Team) : (s.setTeam t).config = s.config := rfl
@[simp] theorem State.setTeam_eventLog (s : State) (t : Team) : (s.setTeam t).eventLog = s.eventLog := rfl
@[simp] theorem State.setTeam_sensors (s : State) (t : Team) : (s.setTeam t).sensors = s.sensors := rfl
@[simp] theorem State.setTeam_watts (s : State) (t : Team) : (s.setTeam t).watts = s.watts := rfl
@[simp] theorem State.setTeam_effecters (s : State) (t : Team) : (s.setTeam t).effecters = s.effecters := rfl
@[simp] theorem State.setTeam_hostLink (s : State) (t : Team) : (s.setTeam t).hostLink = s.hostLink := rfl
@[simp] theorem State.setTeam_portLink (s : State) (t : Team) : (s.setTeam t).portLink = s.portLink := rfl
@[simp] theorem State.setTeam_linkDown (s : State) (t : Team) : (s.setTeam t).linkDown = s.linkDown := rfl
@[simp] theorem State.setTeam_exports (s : State) (t : Team) : (s.setTeam t).exports = s.exports := rfl
@[simp] theorem State.setTeam_fabErrors (s : State) (t : Team) : (s.setTeam t).fabErrors = s.fabErrors := rfl
@[simp] theorem State.setTeam_clockOff (s : State) (t : Team) : (s.setTeam t).clockOff = s.clockOff := rfl
@[simp] theorem State.setTeam_fabCounts (s : State) (t : Team) : (s.setTeam t).fabCounts = s.fabCounts := rfl
@[simp] theorem State.setTeam_fabQueries (s : State) (t : Team) : (s.setTeam t).fabQueries = s.fabQueries := rfl
@[simp] theorem State.setTeam_fabWaiting (s : State) (t : Team) : (s.setTeam t).fabWaiting = s.fabWaiting := rfl
@[simp] theorem State.setTeam_comms (s : State) (t : Team) : (s.setTeam t).comms = s.comms := rfl
@[simp] theorem State.setTeam_awayComms (s : State) (t : Team) : (s.setTeam t).awayComms = s.awayComms := rfl
@[simp] theorem State.setTeam_hostComms (s : State) (t : Team) : (s.setTeam t).hostComms = s.hostComms := rfl
@[simp] theorem State.setTeam_awayGrids (s : State) (t : Team) : (s.setTeam t).awayGrids = s.awayGrids := rfl
@[simp] theorem State.setTeam_ckpts (s : State) (t : Team) : (s.setTeam t).ckpts = s.ckpts := rfl
@[simp] theorem State.setTeam_commUse (s : State) (t : Team) : (s.setTeam t).commUse = s.commUse := rfl
@[simp] theorem State.setTeam_noticed (s : State) (t : Team) : (s.setTeam t).noticed = s.noticed := rfl
@[simp] theorem State.setTeam_queuesOn (s : State) (t : Team) : (s.setTeam t).queuesOn = s.queuesOn := rfl
@[simp] theorem State.setTeam_window (s : State) (t : Team) : (s.setTeam t).window = s.window := rfl
@[simp] theorem State.setTeam_started (s : State) (t : Team) : (s.setTeam t).started = s.started := rfl
@[simp] theorem State.setTeam_resident (s : State) (t : Team) : (s.setTeam t).resident = s.resident := rfl
@[simp] theorem State.setTeam_lastServed (s : State) (t : Team) : (s.setTeam t).lastServed = s.lastServed := rfl
@[simp] theorem State.setTeam_waited (s : State) (t : Team) : (s.setTeam t).waited = s.waited := rfl
@[simp] theorem State.setTeam_popQ (s : State) (t : Team) : (s.setTeam t).popQ = s.popQ := rfl
@[simp] theorem State.setTeam_pushQ (s : State) (t : Team) : (s.setTeam t).pushQ = s.pushQ := rfl
@[simp] theorem State.setTeam_popping (s : State) (t : Team) : (s.setTeam t).popping = s.popping := rfl
@[simp] theorem State.setTeam_freed (s : State) (t : Team) : (s.setTeam t).freed = s.freed := rfl
@[simp] theorem State.setTeam_feedLast (s : State) (t : Team) : (s.setTeam t).feedLast = s.feedLast := rfl
@[simp] theorem State.setTeam_streams (s : State) (t : Team) : (s.setTeam t).streams = s.streams := rfl
@[simp] theorem State.setTeam_vocs (s : State) (t : Team) : (s.setTeam t).vocs = s.vocs := rfl
@[simp] theorem State.setTeam_bkHeld (s : State) (t : Team) : (s.setTeam t).bkHeld = s.bkHeld := rfl
@[simp] theorem State.setTeam_rma (s : State) (t : Team) : (s.setTeam t).rma = s.rma := rfl
@[simp] theorem State.setTeam_softErrors (s : State) (t : Team) : (s.setTeam t).softErrors = s.softErrors := rfl
@[simp] theorem State.setTeam_lanesNow (s : State) (t : Team) : (s.setTeam t).lanesNow = s.lanesNow := rfl
@[simp] theorem State.setTeam_outbox (s : State) (t : Team) : (s.setTeam t).outbox = s.outbox := rfl
@[simp] theorem State.setTeam_freeCtr (s : State) (t : Team) : (s.setTeam t).freeCtr = s.freeCtr := rfl
@[simp] theorem State.setTeam_nextGrid (s : State) (t : Team) : (s.setTeam t).nextGrid = s.nextGrid := rfl
@[simp] theorem State.setTeam_sched (s : State) (t : Team) : (s.setTeam t).sched = s.sched := rfl

/-! ### Another grid -/

@[simp] theorem State.setGrid_cur (s : State) (g : Grid) : (s.setGrid g).cur = s.cur := rfl
@[simp] theorem State.setGrid_rest (s : State) (g : Grid) : (s.setGrid g).rest = s.rest := rfl
@[simp] theorem State.setGrid_teams (s : State) (g : Grid) : (s.setGrid g).teams = s.teams := rfl
@[simp] theorem State.setGrid_cores (s : State) (g : Grid) : (s.setGrid g).cores = s.cores := rfl
@[simp] theorem State.setGrid_mem (s : State) (g : Grid) : (s.setGrid g).mem = s.mem := rfl
@[simp] theorem State.setGrid_poison (s : State) (g : Grid) : (s.setGrid g).poison = s.poison := rfl
@[simp] theorem State.setGrid_stale (s : State) (g : Grid) : (s.setGrid g).stale = s.stale := rfl
@[simp] theorem State.setGrid_gtc (s : State) (g : Grid) : (s.setGrid g).gtc = s.gtc := rfl
@[simp] theorem State.setGrid_regs (s : State) (g : Grid) : (s.setGrid g).regs = s.regs := rfl
@[simp] theorem State.setGrid_power (s : State) (g : Grid) : (s.setGrid g).power = s.power := rfl
@[simp] theorem State.setGrid_flash (s : State) (g : Grid) : (s.setGrid g).flash = s.flash := rfl
@[simp] theorem State.setGrid_running (s : State) (g : Grid) : (s.setGrid g).running = s.running := rfl
@[simp] theorem State.setGrid_writer (s : State) (g : Grid) : (s.setGrid g).writer = s.writer := rfl
@[simp] theorem State.setGrid_newPart (s : State) (g : Grid) : (s.setGrid g).newPart = s.newPart := rfl
@[simp] theorem State.setGrid_newImage (s : State) (g : Grid) : (s.setGrid g).newImage = s.newImage := rfl
@[simp] theorem State.setGrid_selfTestFailed (s : State) (g : Grid) : (s.setGrid g).selfTestFailed = s.selfTestFailed := rfl
@[simp] theorem State.setGrid_config (s : State) (g : Grid) : (s.setGrid g).config = s.config := rfl
@[simp] theorem State.setGrid_eventLog (s : State) (g : Grid) : (s.setGrid g).eventLog = s.eventLog := rfl
@[simp] theorem State.setGrid_sensors (s : State) (g : Grid) : (s.setGrid g).sensors = s.sensors := rfl
@[simp] theorem State.setGrid_watts (s : State) (g : Grid) : (s.setGrid g).watts = s.watts := rfl
@[simp] theorem State.setGrid_effecters (s : State) (g : Grid) : (s.setGrid g).effecters = s.effecters := rfl
@[simp] theorem State.setGrid_hostLink (s : State) (g : Grid) : (s.setGrid g).hostLink = s.hostLink := rfl
@[simp] theorem State.setGrid_portLink (s : State) (g : Grid) : (s.setGrid g).portLink = s.portLink := rfl
@[simp] theorem State.setGrid_linkDown (s : State) (g : Grid) : (s.setGrid g).linkDown = s.linkDown := rfl
@[simp] theorem State.setGrid_exports (s : State) (g : Grid) : (s.setGrid g).exports = s.exports := rfl
@[simp] theorem State.setGrid_fabErrors (s : State) (g : Grid) : (s.setGrid g).fabErrors = s.fabErrors := rfl
@[simp] theorem State.setGrid_clockOff (s : State) (g : Grid) : (s.setGrid g).clockOff = s.clockOff := rfl
@[simp] theorem State.setGrid_fabCounts (s : State) (g : Grid) : (s.setGrid g).fabCounts = s.fabCounts := rfl
@[simp] theorem State.setGrid_fabQueries (s : State) (g : Grid) : (s.setGrid g).fabQueries = s.fabQueries := rfl
@[simp] theorem State.setGrid_fabWaiting (s : State) (g : Grid) : (s.setGrid g).fabWaiting = s.fabWaiting := rfl
@[simp] theorem State.setGrid_comms (s : State) (g : Grid) : (s.setGrid g).comms = s.comms := rfl
@[simp] theorem State.setGrid_awayComms (s : State) (g : Grid) : (s.setGrid g).awayComms = s.awayComms := rfl
@[simp] theorem State.setGrid_hostComms (s : State) (g : Grid) : (s.setGrid g).hostComms = s.hostComms := rfl
@[simp] theorem State.setGrid_awayGrids (s : State) (g : Grid) : (s.setGrid g).awayGrids = s.awayGrids := rfl
@[simp] theorem State.setGrid_ckpts (s : State) (g : Grid) : (s.setGrid g).ckpts = s.ckpts := rfl
@[simp] theorem State.setGrid_commUse (s : State) (g : Grid) : (s.setGrid g).commUse = s.commUse := rfl
@[simp] theorem State.setGrid_noticed (s : State) (g : Grid) : (s.setGrid g).noticed = s.noticed := rfl
@[simp] theorem State.setGrid_queuesOn (s : State) (g : Grid) : (s.setGrid g).queuesOn = s.queuesOn := rfl
@[simp] theorem State.setGrid_window (s : State) (g : Grid) : (s.setGrid g).window = s.window := rfl
@[simp] theorem State.setGrid_started (s : State) (g : Grid) : (s.setGrid g).started = s.started := rfl
@[simp] theorem State.setGrid_resident (s : State) (g : Grid) : (s.setGrid g).resident = s.resident := rfl
@[simp] theorem State.setGrid_lastServed (s : State) (g : Grid) : (s.setGrid g).lastServed = s.lastServed := rfl
@[simp] theorem State.setGrid_waited (s : State) (g : Grid) : (s.setGrid g).waited = s.waited := rfl
@[simp] theorem State.setGrid_popQ (s : State) (g : Grid) : (s.setGrid g).popQ = s.popQ := rfl
@[simp] theorem State.setGrid_pushQ (s : State) (g : Grid) : (s.setGrid g).pushQ = s.pushQ := rfl
@[simp] theorem State.setGrid_popping (s : State) (g : Grid) : (s.setGrid g).popping = s.popping := rfl
@[simp] theorem State.setGrid_freed (s : State) (g : Grid) : (s.setGrid g).freed = s.freed := rfl
@[simp] theorem State.setGrid_feedLast (s : State) (g : Grid) : (s.setGrid g).feedLast = s.feedLast := rfl
@[simp] theorem State.setGrid_streams (s : State) (g : Grid) : (s.setGrid g).streams = s.streams := rfl
@[simp] theorem State.setGrid_vocs (s : State) (g : Grid) : (s.setGrid g).vocs = s.vocs := rfl
@[simp] theorem State.setGrid_bkHeld (s : State) (g : Grid) : (s.setGrid g).bkHeld = s.bkHeld := rfl
@[simp] theorem State.setGrid_rma (s : State) (g : Grid) : (s.setGrid g).rma = s.rma := rfl
@[simp] theorem State.setGrid_softErrors (s : State) (g : Grid) : (s.setGrid g).softErrors = s.softErrors := rfl
@[simp] theorem State.setGrid_lanesNow (s : State) (g : Grid) : (s.setGrid g).lanesNow = s.lanesNow := rfl
@[simp] theorem State.setGrid_outbox (s : State) (g : Grid) : (s.setGrid g).outbox = s.outbox := rfl
@[simp] theorem State.setGrid_freeCtr (s : State) (g : Grid) : (s.setGrid g).freeCtr = s.freeCtr := rfl
@[simp] theorem State.setGrid_nextGrid (s : State) (g : Grid) : (s.setGrid g).nextGrid = s.nextGrid := rfl
@[simp] theorem State.setGrid_sched (s : State) (g : Grid) : (s.setGrid g).sched = s.sched := rfl

/-! ### Another core -/

@[simp] theorem State.setCore_cur (s : State) (c : Nat) (x : Core) : (s.setCore c x).cur = s.cur := rfl
@[simp] theorem State.setCore_rest (s : State) (c : Nat) (x : Core) : (s.setCore c x).rest = s.rest := rfl
@[simp] theorem State.setCore_teams (s : State) (c : Nat) (x : Core) : (s.setCore c x).teams = s.teams := rfl
@[simp] theorem State.setCore_grids (s : State) (c : Nat) (x : Core) : (s.setCore c x).grids = s.grids := rfl
@[simp] theorem State.setCore_mem (s : State) (c : Nat) (x : Core) : (s.setCore c x).mem = s.mem := rfl
@[simp] theorem State.setCore_poison (s : State) (c : Nat) (x : Core) : (s.setCore c x).poison = s.poison := rfl
@[simp] theorem State.setCore_stale (s : State) (c : Nat) (x : Core) : (s.setCore c x).stale = s.stale := rfl
@[simp] theorem State.setCore_gtc (s : State) (c : Nat) (x : Core) : (s.setCore c x).gtc = s.gtc := rfl
@[simp] theorem State.setCore_regs (s : State) (c : Nat) (x : Core) : (s.setCore c x).regs = s.regs := rfl
@[simp] theorem State.setCore_power (s : State) (c : Nat) (x : Core) : (s.setCore c x).power = s.power := rfl
@[simp] theorem State.setCore_flash (s : State) (c : Nat) (x : Core) : (s.setCore c x).flash = s.flash := rfl
@[simp] theorem State.setCore_running (s : State) (c : Nat) (x : Core) : (s.setCore c x).running = s.running := rfl
@[simp] theorem State.setCore_writer (s : State) (c : Nat) (x : Core) : (s.setCore c x).writer = s.writer := rfl
@[simp] theorem State.setCore_newPart (s : State) (c : Nat) (x : Core) : (s.setCore c x).newPart = s.newPart := rfl
@[simp] theorem State.setCore_newImage (s : State) (c : Nat) (x : Core) : (s.setCore c x).newImage = s.newImage := rfl
@[simp] theorem State.setCore_selfTestFailed (s : State) (c : Nat) (x : Core) : (s.setCore c x).selfTestFailed = s.selfTestFailed := rfl
@[simp] theorem State.setCore_config (s : State) (c : Nat) (x : Core) : (s.setCore c x).config = s.config := rfl
@[simp] theorem State.setCore_eventLog (s : State) (c : Nat) (x : Core) : (s.setCore c x).eventLog = s.eventLog := rfl
@[simp] theorem State.setCore_sensors (s : State) (c : Nat) (x : Core) : (s.setCore c x).sensors = s.sensors := rfl
@[simp] theorem State.setCore_watts (s : State) (c : Nat) (x : Core) : (s.setCore c x).watts = s.watts := rfl
@[simp] theorem State.setCore_effecters (s : State) (c : Nat) (x : Core) : (s.setCore c x).effecters = s.effecters := rfl
@[simp] theorem State.setCore_hostLink (s : State) (c : Nat) (x : Core) : (s.setCore c x).hostLink = s.hostLink := rfl
@[simp] theorem State.setCore_portLink (s : State) (c : Nat) (x : Core) : (s.setCore c x).portLink = s.portLink := rfl
@[simp] theorem State.setCore_linkDown (s : State) (c : Nat) (x : Core) : (s.setCore c x).linkDown = s.linkDown := rfl
@[simp] theorem State.setCore_exports (s : State) (c : Nat) (x : Core) : (s.setCore c x).exports = s.exports := rfl
@[simp] theorem State.setCore_fabErrors (s : State) (c : Nat) (x : Core) : (s.setCore c x).fabErrors = s.fabErrors := rfl
@[simp] theorem State.setCore_clockOff (s : State) (c : Nat) (x : Core) : (s.setCore c x).clockOff = s.clockOff := rfl
@[simp] theorem State.setCore_fabCounts (s : State) (c : Nat) (x : Core) : (s.setCore c x).fabCounts = s.fabCounts := rfl
@[simp] theorem State.setCore_fabQueries (s : State) (c : Nat) (x : Core) : (s.setCore c x).fabQueries = s.fabQueries := rfl
@[simp] theorem State.setCore_fabWaiting (s : State) (c : Nat) (x : Core) : (s.setCore c x).fabWaiting = s.fabWaiting := rfl
@[simp] theorem State.setCore_comms (s : State) (c : Nat) (x : Core) : (s.setCore c x).comms = s.comms := rfl
@[simp] theorem State.setCore_awayComms (s : State) (c : Nat) (x : Core) : (s.setCore c x).awayComms = s.awayComms := rfl
@[simp] theorem State.setCore_hostComms (s : State) (c : Nat) (x : Core) : (s.setCore c x).hostComms = s.hostComms := rfl
@[simp] theorem State.setCore_awayGrids (s : State) (c : Nat) (x : Core) : (s.setCore c x).awayGrids = s.awayGrids := rfl
@[simp] theorem State.setCore_ckpts (s : State) (c : Nat) (x : Core) : (s.setCore c x).ckpts = s.ckpts := rfl
@[simp] theorem State.setCore_commUse (s : State) (c : Nat) (x : Core) : (s.setCore c x).commUse = s.commUse := rfl
@[simp] theorem State.setCore_noticed (s : State) (c : Nat) (x : Core) : (s.setCore c x).noticed = s.noticed := rfl
@[simp] theorem State.setCore_queuesOn (s : State) (c : Nat) (x : Core) : (s.setCore c x).queuesOn = s.queuesOn := rfl
@[simp] theorem State.setCore_window (s : State) (c : Nat) (x : Core) : (s.setCore c x).window = s.window := rfl
@[simp] theorem State.setCore_started (s : State) (c : Nat) (x : Core) : (s.setCore c x).started = s.started := rfl
@[simp] theorem State.setCore_resident (s : State) (c : Nat) (x : Core) : (s.setCore c x).resident = s.resident := rfl
@[simp] theorem State.setCore_lastServed (s : State) (c : Nat) (x : Core) : (s.setCore c x).lastServed = s.lastServed := rfl
@[simp] theorem State.setCore_waited (s : State) (c : Nat) (x : Core) : (s.setCore c x).waited = s.waited := rfl
@[simp] theorem State.setCore_popQ (s : State) (c : Nat) (x : Core) : (s.setCore c x).popQ = s.popQ := rfl
@[simp] theorem State.setCore_pushQ (s : State) (c : Nat) (x : Core) : (s.setCore c x).pushQ = s.pushQ := rfl
@[simp] theorem State.setCore_popping (s : State) (c : Nat) (x : Core) : (s.setCore c x).popping = s.popping := rfl
@[simp] theorem State.setCore_freed (s : State) (c : Nat) (x : Core) : (s.setCore c x).freed = s.freed := rfl
@[simp] theorem State.setCore_feedLast (s : State) (c : Nat) (x : Core) : (s.setCore c x).feedLast = s.feedLast := rfl
@[simp] theorem State.setCore_streams (s : State) (c : Nat) (x : Core) : (s.setCore c x).streams = s.streams := rfl
@[simp] theorem State.setCore_vocs (s : State) (c : Nat) (x : Core) : (s.setCore c x).vocs = s.vocs := rfl
@[simp] theorem State.setCore_bkHeld (s : State) (c : Nat) (x : Core) : (s.setCore c x).bkHeld = s.bkHeld := rfl
@[simp] theorem State.setCore_rma (s : State) (c : Nat) (x : Core) : (s.setCore c x).rma = s.rma := rfl
@[simp] theorem State.setCore_softErrors (s : State) (c : Nat) (x : Core) : (s.setCore c x).softErrors = s.softErrors := rfl
@[simp] theorem State.setCore_lanesNow (s : State) (c : Nat) (x : Core) : (s.setCore c x).lanesNow = s.lanesNow := rfl
@[simp] theorem State.setCore_outbox (s : State) (c : Nat) (x : Core) : (s.setCore c x).outbox = s.outbox := rfl
@[simp] theorem State.setCore_freeCtr (s : State) (c : Nat) (x : Core) : (s.setCore c x).freeCtr = s.freeCtr := rfl
@[simp] theorem State.setCore_nextGrid (s : State) (c : Nat) (x : Core) : (s.setCore c x).nextGrid = s.nextGrid := rfl
@[simp] theorem State.setCore_sched (s : State) (c : Nat) (x : Core) : (s.setCore c x).sched = s.sched := rfl

/-! ### A later unpredictable value -/

@[simp] theorem State.freeNext_cur (s : State)  : (s.freeNext).cur = s.cur := rfl
@[simp] theorem State.freeNext_rest (s : State)  : (s.freeNext).rest = s.rest := rfl
@[simp] theorem State.freeNext_teams (s : State)  : (s.freeNext).teams = s.teams := rfl
@[simp] theorem State.freeNext_grids (s : State)  : (s.freeNext).grids = s.grids := rfl
@[simp] theorem State.freeNext_cores (s : State)  : (s.freeNext).cores = s.cores := rfl
@[simp] theorem State.freeNext_mem (s : State)  : (s.freeNext).mem = s.mem := rfl
@[simp] theorem State.freeNext_poison (s : State)  : (s.freeNext).poison = s.poison := rfl
@[simp] theorem State.freeNext_stale (s : State)  : (s.freeNext).stale = s.stale := rfl
@[simp] theorem State.freeNext_gtc (s : State)  : (s.freeNext).gtc = s.gtc := rfl
@[simp] theorem State.freeNext_regs (s : State)  : (s.freeNext).regs = s.regs := rfl
@[simp] theorem State.freeNext_power (s : State)  : (s.freeNext).power = s.power := rfl
@[simp] theorem State.freeNext_flash (s : State)  : (s.freeNext).flash = s.flash := rfl
@[simp] theorem State.freeNext_running (s : State)  : (s.freeNext).running = s.running := rfl
@[simp] theorem State.freeNext_writer (s : State)  : (s.freeNext).writer = s.writer := rfl
@[simp] theorem State.freeNext_newPart (s : State)  : (s.freeNext).newPart = s.newPart := rfl
@[simp] theorem State.freeNext_newImage (s : State)  : (s.freeNext).newImage = s.newImage := rfl
@[simp] theorem State.freeNext_selfTestFailed (s : State)  : (s.freeNext).selfTestFailed = s.selfTestFailed := rfl
@[simp] theorem State.freeNext_config (s : State)  : (s.freeNext).config = s.config := rfl
@[simp] theorem State.freeNext_eventLog (s : State)  : (s.freeNext).eventLog = s.eventLog := rfl
@[simp] theorem State.freeNext_sensors (s : State)  : (s.freeNext).sensors = s.sensors := rfl
@[simp] theorem State.freeNext_watts (s : State)  : (s.freeNext).watts = s.watts := rfl
@[simp] theorem State.freeNext_effecters (s : State)  : (s.freeNext).effecters = s.effecters := rfl
@[simp] theorem State.freeNext_hostLink (s : State)  : (s.freeNext).hostLink = s.hostLink := rfl
@[simp] theorem State.freeNext_portLink (s : State)  : (s.freeNext).portLink = s.portLink := rfl
@[simp] theorem State.freeNext_linkDown (s : State)  : (s.freeNext).linkDown = s.linkDown := rfl
@[simp] theorem State.freeNext_exports (s : State)  : (s.freeNext).exports = s.exports := rfl
@[simp] theorem State.freeNext_fabErrors (s : State)  : (s.freeNext).fabErrors = s.fabErrors := rfl
@[simp] theorem State.freeNext_clockOff (s : State)  : (s.freeNext).clockOff = s.clockOff := rfl
@[simp] theorem State.freeNext_fabCounts (s : State)  : (s.freeNext).fabCounts = s.fabCounts := rfl
@[simp] theorem State.freeNext_fabQueries (s : State)  : (s.freeNext).fabQueries = s.fabQueries := rfl
@[simp] theorem State.freeNext_fabWaiting (s : State)  : (s.freeNext).fabWaiting = s.fabWaiting := rfl
@[simp] theorem State.freeNext_comms (s : State)  : (s.freeNext).comms = s.comms := rfl
@[simp] theorem State.freeNext_awayComms (s : State)  : (s.freeNext).awayComms = s.awayComms := rfl
@[simp] theorem State.freeNext_hostComms (s : State)  : (s.freeNext).hostComms = s.hostComms := rfl
@[simp] theorem State.freeNext_awayGrids (s : State)  : (s.freeNext).awayGrids = s.awayGrids := rfl
@[simp] theorem State.freeNext_ckpts (s : State)  : (s.freeNext).ckpts = s.ckpts := rfl
@[simp] theorem State.freeNext_commUse (s : State)  : (s.freeNext).commUse = s.commUse := rfl
@[simp] theorem State.freeNext_noticed (s : State)  : (s.freeNext).noticed = s.noticed := rfl
@[simp] theorem State.freeNext_queuesOn (s : State)  : (s.freeNext).queuesOn = s.queuesOn := rfl
@[simp] theorem State.freeNext_window (s : State)  : (s.freeNext).window = s.window := rfl
@[simp] theorem State.freeNext_started (s : State)  : (s.freeNext).started = s.started := rfl
@[simp] theorem State.freeNext_resident (s : State)  : (s.freeNext).resident = s.resident := rfl
@[simp] theorem State.freeNext_lastServed (s : State)  : (s.freeNext).lastServed = s.lastServed := rfl
@[simp] theorem State.freeNext_waited (s : State)  : (s.freeNext).waited = s.waited := rfl
@[simp] theorem State.freeNext_popQ (s : State)  : (s.freeNext).popQ = s.popQ := rfl
@[simp] theorem State.freeNext_pushQ (s : State)  : (s.freeNext).pushQ = s.pushQ := rfl
@[simp] theorem State.freeNext_popping (s : State)  : (s.freeNext).popping = s.popping := rfl
@[simp] theorem State.freeNext_freed (s : State)  : (s.freeNext).freed = s.freed := rfl
@[simp] theorem State.freeNext_feedLast (s : State)  : (s.freeNext).feedLast = s.feedLast := rfl
@[simp] theorem State.freeNext_streams (s : State)  : (s.freeNext).streams = s.streams := rfl
@[simp] theorem State.freeNext_vocs (s : State)  : (s.freeNext).vocs = s.vocs := rfl
@[simp] theorem State.freeNext_bkHeld (s : State)  : (s.freeNext).bkHeld = s.bkHeld := rfl
@[simp] theorem State.freeNext_rma (s : State)  : (s.freeNext).rma = s.rma := rfl
@[simp] theorem State.freeNext_softErrors (s : State)  : (s.freeNext).softErrors = s.softErrors := rfl
@[simp] theorem State.freeNext_lanesNow (s : State)  : (s.freeNext).lanesNow = s.lanesNow := rfl
@[simp] theorem State.freeNext_outbox (s : State)  : (s.freeNext).outbox = s.outbox := rfl
@[simp] theorem State.freeNext_nextGrid (s : State)  : (s.freeNext).nextGrid = s.nextGrid := rfl
@[simp] theorem State.freeNext_sched (s : State)  : (s.freeNext).sched = s.sched := rfl

/-! ### A scalar register of the current wave -/

@[simp] theorem State.putS_rest (s : State) (r : Nat) (v : Word64) : (s.putS r v).rest = s.rest := rfl
@[simp] theorem State.putS_teams (s : State) (r : Nat) (v : Word64) : (s.putS r v).teams = s.teams := rfl
@[simp] theorem State.putS_grids (s : State) (r : Nat) (v : Word64) : (s.putS r v).grids = s.grids := rfl
@[simp] theorem State.putS_cores (s : State) (r : Nat) (v : Word64) : (s.putS r v).cores = s.cores := rfl
@[simp] theorem State.putS_mem (s : State) (r : Nat) (v : Word64) : (s.putS r v).mem = s.mem := rfl
@[simp] theorem State.putS_poison (s : State) (r : Nat) (v : Word64) : (s.putS r v).poison = s.poison := rfl
@[simp] theorem State.putS_stale (s : State) (r : Nat) (v : Word64) : (s.putS r v).stale = s.stale := rfl
@[simp] theorem State.putS_gtc (s : State) (r : Nat) (v : Word64) : (s.putS r v).gtc = s.gtc := rfl
@[simp] theorem State.putS_regs (s : State) (r : Nat) (v : Word64) : (s.putS r v).regs = s.regs := rfl
@[simp] theorem State.putS_power (s : State) (r : Nat) (v : Word64) : (s.putS r v).power = s.power := rfl
@[simp] theorem State.putS_flash (s : State) (r : Nat) (v : Word64) : (s.putS r v).flash = s.flash := rfl
@[simp] theorem State.putS_running (s : State) (r : Nat) (v : Word64) : (s.putS r v).running = s.running := rfl
@[simp] theorem State.putS_writer (s : State) (r : Nat) (v : Word64) : (s.putS r v).writer = s.writer := rfl
@[simp] theorem State.putS_newPart (s : State) (r : Nat) (v : Word64) : (s.putS r v).newPart = s.newPart := rfl
@[simp] theorem State.putS_newImage (s : State) (r : Nat) (v : Word64) : (s.putS r v).newImage = s.newImage := rfl
@[simp] theorem State.putS_selfTestFailed (s : State) (r : Nat) (v : Word64) : (s.putS r v).selfTestFailed = s.selfTestFailed := rfl
@[simp] theorem State.putS_config (s : State) (r : Nat) (v : Word64) : (s.putS r v).config = s.config := rfl
@[simp] theorem State.putS_eventLog (s : State) (r : Nat) (v : Word64) : (s.putS r v).eventLog = s.eventLog := rfl
@[simp] theorem State.putS_sensors (s : State) (r : Nat) (v : Word64) : (s.putS r v).sensors = s.sensors := rfl
@[simp] theorem State.putS_watts (s : State) (r : Nat) (v : Word64) : (s.putS r v).watts = s.watts := rfl
@[simp] theorem State.putS_effecters (s : State) (r : Nat) (v : Word64) : (s.putS r v).effecters = s.effecters := rfl
@[simp] theorem State.putS_hostLink (s : State) (r : Nat) (v : Word64) : (s.putS r v).hostLink = s.hostLink := rfl
@[simp] theorem State.putS_portLink (s : State) (r : Nat) (v : Word64) : (s.putS r v).portLink = s.portLink := rfl
@[simp] theorem State.putS_linkDown (s : State) (r : Nat) (v : Word64) : (s.putS r v).linkDown = s.linkDown := rfl
@[simp] theorem State.putS_exports (s : State) (r : Nat) (v : Word64) : (s.putS r v).exports = s.exports := rfl
@[simp] theorem State.putS_fabErrors (s : State) (r : Nat) (v : Word64) : (s.putS r v).fabErrors = s.fabErrors := rfl
@[simp] theorem State.putS_clockOff (s : State) (r : Nat) (v : Word64) : (s.putS r v).clockOff = s.clockOff := rfl
@[simp] theorem State.putS_fabCounts (s : State) (r : Nat) (v : Word64) : (s.putS r v).fabCounts = s.fabCounts := rfl
@[simp] theorem State.putS_fabQueries (s : State) (r : Nat) (v : Word64) : (s.putS r v).fabQueries = s.fabQueries := rfl
@[simp] theorem State.putS_fabWaiting (s : State) (r : Nat) (v : Word64) : (s.putS r v).fabWaiting = s.fabWaiting := rfl
@[simp] theorem State.putS_comms (s : State) (r : Nat) (v : Word64) : (s.putS r v).comms = s.comms := rfl
@[simp] theorem State.putS_awayComms (s : State) (r : Nat) (v : Word64) : (s.putS r v).awayComms = s.awayComms := rfl
@[simp] theorem State.putS_hostComms (s : State) (r : Nat) (v : Word64) : (s.putS r v).hostComms = s.hostComms := rfl
@[simp] theorem State.putS_awayGrids (s : State) (r : Nat) (v : Word64) : (s.putS r v).awayGrids = s.awayGrids := rfl
@[simp] theorem State.putS_ckpts (s : State) (r : Nat) (v : Word64) : (s.putS r v).ckpts = s.ckpts := rfl
@[simp] theorem State.putS_commUse (s : State) (r : Nat) (v : Word64) : (s.putS r v).commUse = s.commUse := rfl
@[simp] theorem State.putS_noticed (s : State) (r : Nat) (v : Word64) : (s.putS r v).noticed = s.noticed := rfl
@[simp] theorem State.putS_queuesOn (s : State) (r : Nat) (v : Word64) : (s.putS r v).queuesOn = s.queuesOn := rfl
@[simp] theorem State.putS_window (s : State) (r : Nat) (v : Word64) : (s.putS r v).window = s.window := rfl
@[simp] theorem State.putS_started (s : State) (r : Nat) (v : Word64) : (s.putS r v).started = s.started := rfl
@[simp] theorem State.putS_resident (s : State) (r : Nat) (v : Word64) : (s.putS r v).resident = s.resident := rfl
@[simp] theorem State.putS_lastServed (s : State) (r : Nat) (v : Word64) : (s.putS r v).lastServed = s.lastServed := rfl
@[simp] theorem State.putS_waited (s : State) (r : Nat) (v : Word64) : (s.putS r v).waited = s.waited := rfl
@[simp] theorem State.putS_popQ (s : State) (r : Nat) (v : Word64) : (s.putS r v).popQ = s.popQ := rfl
@[simp] theorem State.putS_pushQ (s : State) (r : Nat) (v : Word64) : (s.putS r v).pushQ = s.pushQ := rfl
@[simp] theorem State.putS_popping (s : State) (r : Nat) (v : Word64) : (s.putS r v).popping = s.popping := rfl
@[simp] theorem State.putS_freed (s : State) (r : Nat) (v : Word64) : (s.putS r v).freed = s.freed := rfl
@[simp] theorem State.putS_feedLast (s : State) (r : Nat) (v : Word64) : (s.putS r v).feedLast = s.feedLast := rfl
@[simp] theorem State.putS_streams (s : State) (r : Nat) (v : Word64) : (s.putS r v).streams = s.streams := rfl
@[simp] theorem State.putS_vocs (s : State) (r : Nat) (v : Word64) : (s.putS r v).vocs = s.vocs := rfl
@[simp] theorem State.putS_bkHeld (s : State) (r : Nat) (v : Word64) : (s.putS r v).bkHeld = s.bkHeld := rfl
@[simp] theorem State.putS_rma (s : State) (r : Nat) (v : Word64) : (s.putS r v).rma = s.rma := rfl
@[simp] theorem State.putS_softErrors (s : State) (r : Nat) (v : Word64) : (s.putS r v).softErrors = s.softErrors := rfl
@[simp] theorem State.putS_lanesNow (s : State) (r : Nat) (v : Word64) : (s.putS r v).lanesNow = s.lanesNow := rfl
@[simp] theorem State.putS_outbox (s : State) (r : Nat) (v : Word64) : (s.putS r v).outbox = s.outbox := rfl
@[simp] theorem State.putS_freeCtr (s : State) (r : Nat) (v : Word64) : (s.putS r v).freeCtr = s.freeCtr := rfl
@[simp] theorem State.putS_nextGrid (s : State) (r : Nat) (v : Word64) : (s.putS r v).nextGrid = s.nextGrid := rfl
@[simp] theorem State.putS_sched (s : State) (r : Nat) (v : Word64) : (s.putS r v).sched = s.sched := rfl
@[simp] theorem State.putS_cur (s : State) (r : Nat) (v : Word64) : (s.putS r v).cur = s.cur.setS r v := rfl

/-! ### A lane of a wave -/

@[simp] theorem Wave.setLane_s (w : Wave) (l : Nat) (x : Lane) : (w.setLane l x).s = w.s := rfl
@[simp] theorem Wave.setLane_vEmpty (w : Wave) (l : Nat) (x : Lane) : (w.setLane l x).vEmpty = w.vEmpty := rfl
@[simp] theorem Wave.setLane_sEmpty (w : Wave) (l : Nat) (x : Lane) : (w.setLane l x).sEmpty = w.sEmpty := rfl
@[simp] theorem Wave.setLane_unkS (w : Wave) (l : Nat) (x : Lane) : (w.setLane l x).unkS = w.unkS := rfl
@[simp] theorem Wave.setLane_alloc (w : Wave) (l : Nat) (x : Lane) : (w.setLane l x).alloc = w.alloc := rfl
@[simp] theorem Wave.setLane_wgrp (w : Wave) (l : Nat) (x : Lane) : (w.setLane l x).wgrp = w.wgrp := rfl
@[simp] theorem Wave.setLane_watch (w : Wave) (l : Nat) (x : Lane) : (w.setLane l x).watch = w.watch := rfl
@[simp] theorem Wave.setLane_rejoin (w : Wave) (l : Nat) (x : Lane) : (w.setLane l x).rejoin = w.rejoin := rfl
@[simp] theorem Wave.setLane_pbase (w : Wave) (l : Nat) (x : Lane) : (w.setLane l x).pbase = w.pbase := rfl
@[simp] theorem Wave.setLane_bank (w : Wave) (l : Nat) (x : Lane) : (w.setLane l x).bank = w.bank := rfl
@[simp] theorem Wave.setLane_keys (w : Wave) (l : Nat) (x : Lane) : (w.setLane l x).keys = w.keys := rfl
@[simp] theorem Wave.setLane_wct (w : Wave) (l : Nat) (x : Lane) : (w.setLane l x).wct = w.wct := rfl
@[simp] theorem Wave.setLane_step (w : Wave) (l : Nat) (x : Lane) : (w.setLane l x).step = w.step := rfl
@[simp] theorem Wave.setLane_dbg (w : Wave) (l : Nat) (x : Lane) : (w.setLane l x).dbg = w.dbg := rfl
@[simp] theorem Wave.setLane_counts (w : Wave) (l : Nat) (x : Lane) : (w.setLane l x).counts = w.counts := rfl
@[simp] theorem Wave.setLane_ovr (w : Wave) (l : Nat) (x : Lane) : (w.setLane l x).ovr = w.ovr := rfl
@[simp] theorem Wave.setLane_key (w : Wave) (l : Nat) (x : Lane) : (w.setLane l x).key = w.key := rfl
@[simp] theorem Wave.setLane_core (w : Wave) (l : Nat) (x : Lane) : (w.setLane l x).core = w.core := rfl
@[simp] theorem Wave.setLane_place (w : Wave) (l : Nat) (x : Lane) : (w.setLane l x).place = w.place := rfl
@[simp] theorem Wave.setLane_width (w : Wave) (l : Nat) (x : Lane) : (w.setLane l x).width = w.width := rfl
@[simp] theorem Wave.setLane_memb (w : Wave) (l : Nat) (x : Lane) : (w.setLane l x).memb = w.memb := rfl
@[simp] theorem Wave.setLane_rct (w : Wave) (l : Nat) (x : Lane) : (w.setLane l x).rct = w.rct := rfl
@[simp] theorem Wave.setLane_dct (w : Wave) (l : Nat) (x : Lane) : (w.setLane l x).dct = w.dct := rfl
@[simp] theorem Wave.setLane_tm (w : Wave) (l : Nat) (x : Lane) : (w.setLane l x).tm = w.tm := rfl
@[simp] theorem Wave.setLane_priv (w : Wave) (l : Nat) (x : Lane) : (w.setLane l x).priv = w.priv := rfl
@[simp] theorem Wave.setLane_walker (w : Wave) (l : Nat) (x : Lane) : (w.setLane l x).walker = w.walker := rfl
@[simp] theorem Wave.setLane_cause (w : Wave) (l : Nat) (x : Lane) : (w.setLane l x).cause = w.cause := rfl
@[simp] theorem Wave.setLane_bp (w : Wave) (l : Nat) (x : Lane) : (w.setLane l x).bp = w.bp := rfl
@[simp] theorem Wave.setLane_bpSkip (w : Wave) (l : Nat) (x : Lane) : (w.setLane l x).bpSkip = w.bpSkip := rfl
@[simp] theorem Wave.setLane_bankS (w : Wave) (l : Nat) (x : Lane) : (w.setLane l x).bankS = w.bankS := rfl
@[simp] theorem Wave.setLane_mon (w : Wave) (l : Nat) (x : Lane) : (w.setLane l x).mon = w.mon := rfl
@[simp] theorem Wave.setLane_copies (w : Wave) (l : Nat) (x : Lane) : (w.setLane l x).copies = w.copies := rfl
@[simp] theorem Wave.setLane_ivals (w : Wave) (l : Nat) (x : Lane) : (w.setLane l x).ivals = w.ivals := rfl
@[simp] theorem Wave.setLane_hwm (w : Wave) (l : Nat) (x : Lane) : (w.setLane l x).hwm = w.hwm := rfl
@[simp] theorem Wave.setLane_tgt (w : Wave) (l : Nat) (x : Lane) : (w.setLane l x).tgt = w.tgt := rfl
@[simp] theorem Wave.setLane_ownGen (w : Wave) (l : Nat) (x : Lane) : (w.setLane l x).ownGen = w.ownGen := rfl
@[simp] theorem Wave.setLane_signedGen (w : Wave) (l : Nat) (x : Lane) : (w.setLane l x).signedGen = w.signedGen := rfl
@[simp] theorem Wave.setLane_prog (w : Wave) (l : Nat) (x : Lane) : (w.setLane l x).prog = w.prog := rfl
@[simp] theorem Wave.setLane_pend (w : Wave) (l : Nat) (x : Lane) : (w.setLane l x).pend = w.pend := rfl
@[simp] theorem Wave.setLane_nextPend (w : Wave) (l : Nat) (x : Lane) : (w.setLane l x).nextPend = w.nextPend := rfl
@[simp] theorem Wave.setLane_pw (w : Wave) (l : Nat) (x : Lane) : (w.setLane l x).pw = w.pw := rfl
@[simp] theorem Wave.setLane_fab (w : Wave) (l : Nat) (x : Lane) : (w.setLane l x).fab = w.fab := rfl
@[simp] theorem Wave.setLane_fabFail (w : Wave) (l : Nat) (x : Lane) : (w.setLane l x).fabFail = w.fabFail := rfl
@[simp] theorem Wave.setLane_fabSeq (w : Wave) (l : Nat) (x : Lane) : (w.setLane l x).fabSeq = w.fabSeq := rfl
@[simp] theorem Wave.setLane_fabAt (w : Wave) (l : Nat) (x : Lane) : (w.setLane l x).fabAt = w.fabAt := rfl
@[simp] theorem Wave.setLane_fabCounted (w : Wave) (l : Nat) (x : Lane) : (w.setLane l x).fabCounted = w.fabCounted := rfl
@[simp] theorem Wave.setLane_mustFence (w : Wave) (l : Nat) (x : Lane) : (w.setLane l x).mustFence = w.mustFence := rfl
@[simp] theorem Wave.setLane_slot (w : Wave) (l : Nat) (x : Lane) : (w.setLane l x).slot = w.slot := rfl
@[simp] theorem Wave.setLane_why (w : Wave) (l : Nat) (x : Lane) : (w.setLane l x).why = w.why := rfl
@[simp] theorem Wave.setLane_ck (w : Wave) (l : Nat) (x : Lane) : (w.setLane l x).ck = w.ck := rfl
@[simp] theorem Wave.setLane_spec (w : Wave) (l : Nat) (x : Lane) : (w.setLane l x).spec = w.spec := rfl
@[simp] theorem Wave.setLane_specMemb (w : Wave) (l : Nat) (x : Lane) : (w.setLane l x).specMemb = w.specMemb := rfl
@[simp] theorem Wave.setLane_hold (w : Wave) (l : Nat) (x : Lane) : (w.setLane l x).hold = w.hold := rfl
@[simp] theorem Wave.setLane_heldCmix (w : Wave) (l : Nat) (x : Lane) : (w.setLane l x).heldCmix = w.heldCmix := rfl
@[simp] theorem Wave.setLane_heldPoison (w : Wave) (l : Nat) (x : Lane) : (w.setLane l x).heldPoison = w.heldPoison := rfl
@[simp] theorem Wave.setLane_declined (w : Wave) (l : Nat) (x : Lane) : (w.setLane l x).declined = w.declined := rfl
@[simp] theorem Wave.setLane_task (w : Wave) (l : Nat) (x : Lane) : (w.setLane l x).task = w.task := rfl
@[simp] theorem Wave.setLane_nonspec (w : Wave) (l : Nat) (x : Lane) : (w.setLane l x).nonspec = w.nonspec := rfl
@[simp] theorem Wave.setLane_redeliver (w : Wave) (l : Nat) (x : Lane) : (w.setLane l x).redeliver = w.redeliver := rfl
@[simp] theorem Wave.setLane_batch (w : Wave) (l : Nat) (x : Lane) : (w.setLane l x).batch = w.batch := rfl
@[simp] theorem Wave.setLane_escalated (w : Wave) (l : Nat) (x : Lane) : (w.setLane l x).escalated = w.escalated := rfl
@[simp] theorem Wave.setLane_escHost (w : Wave) (l : Nat) (x : Lane) : (w.setLane l x).escHost = w.escHost := rfl
@[simp] theorem Wave.setLane_trapPend (w : Wave) (l : Nat) (x : Lane) : (w.setLane l x).trapPend = w.trapPend := rfl
@[simp] theorem Wave.setLane_snSeq (w : Wave) (l : Nat) (x : Lane) : (w.setLane l x).snSeq = w.snSeq := rfl
@[simp] theorem Wave.setLane_regErr (w : Wave) (l : Nat) (x : Lane) : (w.setLane l x).regErr = w.regErr := rfl

/-! ### A scalar register of a wave -/

@[simp] theorem Wave.setS_lanes (w : Wave) (r : Nat) (v : Word64) : (w.setS r v).lanes = w.lanes := rfl
@[simp] theorem Wave.setS_vEmpty (w : Wave) (r : Nat) (v : Word64) : (w.setS r v).vEmpty = w.vEmpty := rfl
@[simp] theorem Wave.setS_sEmpty (w : Wave) (r : Nat) (v : Word64) : (w.setS r v).sEmpty = w.sEmpty := rfl
@[simp] theorem Wave.setS_unkS (w : Wave) (r : Nat) (v : Word64) : (w.setS r v).unkS = w.unkS := rfl
@[simp] theorem Wave.setS_alloc (w : Wave) (r : Nat) (v : Word64) : (w.setS r v).alloc = w.alloc := rfl
@[simp] theorem Wave.setS_wgrp (w : Wave) (r : Nat) (v : Word64) : (w.setS r v).wgrp = w.wgrp := rfl
@[simp] theorem Wave.setS_watch (w : Wave) (r : Nat) (v : Word64) : (w.setS r v).watch = w.watch := rfl
@[simp] theorem Wave.setS_rejoin (w : Wave) (r : Nat) (v : Word64) : (w.setS r v).rejoin = w.rejoin := rfl
@[simp] theorem Wave.setS_pbase (w : Wave) (r : Nat) (v : Word64) : (w.setS r v).pbase = w.pbase := rfl
@[simp] theorem Wave.setS_bank (w : Wave) (r : Nat) (v : Word64) : (w.setS r v).bank = w.bank := rfl
@[simp] theorem Wave.setS_keys (w : Wave) (r : Nat) (v : Word64) : (w.setS r v).keys = w.keys := rfl
@[simp] theorem Wave.setS_wct (w : Wave) (r : Nat) (v : Word64) : (w.setS r v).wct = w.wct := rfl
@[simp] theorem Wave.setS_step (w : Wave) (r : Nat) (v : Word64) : (w.setS r v).step = w.step := rfl
@[simp] theorem Wave.setS_dbg (w : Wave) (r : Nat) (v : Word64) : (w.setS r v).dbg = w.dbg := rfl
@[simp] theorem Wave.setS_counts (w : Wave) (r : Nat) (v : Word64) : (w.setS r v).counts = w.counts := rfl
@[simp] theorem Wave.setS_ovr (w : Wave) (r : Nat) (v : Word64) : (w.setS r v).ovr = w.ovr := rfl
@[simp] theorem Wave.setS_key (w : Wave) (r : Nat) (v : Word64) : (w.setS r v).key = w.key := rfl
@[simp] theorem Wave.setS_core (w : Wave) (r : Nat) (v : Word64) : (w.setS r v).core = w.core := rfl
@[simp] theorem Wave.setS_place (w : Wave) (r : Nat) (v : Word64) : (w.setS r v).place = w.place := rfl
@[simp] theorem Wave.setS_width (w : Wave) (r : Nat) (v : Word64) : (w.setS r v).width = w.width := rfl
@[simp] theorem Wave.setS_memb (w : Wave) (r : Nat) (v : Word64) : (w.setS r v).memb = w.memb := rfl
@[simp] theorem Wave.setS_rct (w : Wave) (r : Nat) (v : Word64) : (w.setS r v).rct = w.rct := rfl
@[simp] theorem Wave.setS_dct (w : Wave) (r : Nat) (v : Word64) : (w.setS r v).dct = w.dct := rfl
@[simp] theorem Wave.setS_tm (w : Wave) (r : Nat) (v : Word64) : (w.setS r v).tm = w.tm := rfl
@[simp] theorem Wave.setS_priv (w : Wave) (r : Nat) (v : Word64) : (w.setS r v).priv = w.priv := rfl
@[simp] theorem Wave.setS_walker (w : Wave) (r : Nat) (v : Word64) : (w.setS r v).walker = w.walker := rfl
@[simp] theorem Wave.setS_cause (w : Wave) (r : Nat) (v : Word64) : (w.setS r v).cause = w.cause := rfl
@[simp] theorem Wave.setS_bp (w : Wave) (r : Nat) (v : Word64) : (w.setS r v).bp = w.bp := rfl
@[simp] theorem Wave.setS_bpSkip (w : Wave) (r : Nat) (v : Word64) : (w.setS r v).bpSkip = w.bpSkip := rfl
@[simp] theorem Wave.setS_bankS (w : Wave) (r : Nat) (v : Word64) : (w.setS r v).bankS = w.bankS := rfl
@[simp] theorem Wave.setS_mon (w : Wave) (r : Nat) (v : Word64) : (w.setS r v).mon = w.mon := rfl
@[simp] theorem Wave.setS_copies (w : Wave) (r : Nat) (v : Word64) : (w.setS r v).copies = w.copies := rfl
@[simp] theorem Wave.setS_ivals (w : Wave) (r : Nat) (v : Word64) : (w.setS r v).ivals = w.ivals := rfl
@[simp] theorem Wave.setS_hwm (w : Wave) (r : Nat) (v : Word64) : (w.setS r v).hwm = w.hwm := rfl
@[simp] theorem Wave.setS_tgt (w : Wave) (r : Nat) (v : Word64) : (w.setS r v).tgt = w.tgt := rfl
@[simp] theorem Wave.setS_ownGen (w : Wave) (r : Nat) (v : Word64) : (w.setS r v).ownGen = w.ownGen := rfl
@[simp] theorem Wave.setS_signedGen (w : Wave) (r : Nat) (v : Word64) : (w.setS r v).signedGen = w.signedGen := rfl
@[simp] theorem Wave.setS_prog (w : Wave) (r : Nat) (v : Word64) : (w.setS r v).prog = w.prog := rfl
@[simp] theorem Wave.setS_pend (w : Wave) (r : Nat) (v : Word64) : (w.setS r v).pend = w.pend := rfl
@[simp] theorem Wave.setS_nextPend (w : Wave) (r : Nat) (v : Word64) : (w.setS r v).nextPend = w.nextPend := rfl
@[simp] theorem Wave.setS_pw (w : Wave) (r : Nat) (v : Word64) : (w.setS r v).pw = w.pw := rfl
@[simp] theorem Wave.setS_fab (w : Wave) (r : Nat) (v : Word64) : (w.setS r v).fab = w.fab := rfl
@[simp] theorem Wave.setS_fabFail (w : Wave) (r : Nat) (v : Word64) : (w.setS r v).fabFail = w.fabFail := rfl
@[simp] theorem Wave.setS_fabSeq (w : Wave) (r : Nat) (v : Word64) : (w.setS r v).fabSeq = w.fabSeq := rfl
@[simp] theorem Wave.setS_fabAt (w : Wave) (r : Nat) (v : Word64) : (w.setS r v).fabAt = w.fabAt := rfl
@[simp] theorem Wave.setS_fabCounted (w : Wave) (r : Nat) (v : Word64) : (w.setS r v).fabCounted = w.fabCounted := rfl
@[simp] theorem Wave.setS_mustFence (w : Wave) (r : Nat) (v : Word64) : (w.setS r v).mustFence = w.mustFence := rfl
@[simp] theorem Wave.setS_slot (w : Wave) (r : Nat) (v : Word64) : (w.setS r v).slot = w.slot := rfl
@[simp] theorem Wave.setS_why (w : Wave) (r : Nat) (v : Word64) : (w.setS r v).why = w.why := rfl
@[simp] theorem Wave.setS_ck (w : Wave) (r : Nat) (v : Word64) : (w.setS r v).ck = w.ck := rfl
@[simp] theorem Wave.setS_spec (w : Wave) (r : Nat) (v : Word64) : (w.setS r v).spec = w.spec := rfl
@[simp] theorem Wave.setS_specMemb (w : Wave) (r : Nat) (v : Word64) : (w.setS r v).specMemb = w.specMemb := rfl
@[simp] theorem Wave.setS_hold (w : Wave) (r : Nat) (v : Word64) : (w.setS r v).hold = w.hold := rfl
@[simp] theorem Wave.setS_heldCmix (w : Wave) (r : Nat) (v : Word64) : (w.setS r v).heldCmix = w.heldCmix := rfl
@[simp] theorem Wave.setS_heldPoison (w : Wave) (r : Nat) (v : Word64) : (w.setS r v).heldPoison = w.heldPoison := rfl
@[simp] theorem Wave.setS_declined (w : Wave) (r : Nat) (v : Word64) : (w.setS r v).declined = w.declined := rfl
@[simp] theorem Wave.setS_task (w : Wave) (r : Nat) (v : Word64) : (w.setS r v).task = w.task := rfl
@[simp] theorem Wave.setS_nonspec (w : Wave) (r : Nat) (v : Word64) : (w.setS r v).nonspec = w.nonspec := rfl
@[simp] theorem Wave.setS_redeliver (w : Wave) (r : Nat) (v : Word64) : (w.setS r v).redeliver = w.redeliver := rfl
@[simp] theorem Wave.setS_batch (w : Wave) (r : Nat) (v : Word64) : (w.setS r v).batch = w.batch := rfl
@[simp] theorem Wave.setS_escalated (w : Wave) (r : Nat) (v : Word64) : (w.setS r v).escalated = w.escalated := rfl
@[simp] theorem Wave.setS_escHost (w : Wave) (r : Nat) (v : Word64) : (w.setS r v).escHost = w.escHost := rfl
@[simp] theorem Wave.setS_trapPend (w : Wave) (r : Nat) (v : Word64) : (w.setS r v).trapPend = w.trapPend := rfl
@[simp] theorem Wave.setS_snSeq (w : Wave) (r : Nat) (v : Word64) : (w.setS r v).snSeq = w.snSeq := rfl
@[simp] theorem Wave.setS_regErr (w : Wave) (r : Nat) (v : Word64) : (w.setS r v).regErr = w.regErr := rfl

/-! ### A vector element of a lane -/

@[simp] theorem Lane.setV_tid (x : Lane) (r : Nat) (e : Elem) : (x.setV r e).tid = x.tid := rfl
@[simp] theorem Lane.setV_vpc (x : Lane) (r : Nat) (e : Elem) : (x.setV r e).vpc = x.vpc := rfl
@[simp] theorem Lane.setV_blk (x : Lane) (r : Nat) (e : Elem) : (x.setV r e).blk = x.blk := rfl
@[simp] theorem Lane.setV_blkEnd (x : Lane) (r : Nat) (e : Elem) : (x.setV r e).blkEnd = x.blkEnd := rfl
@[simp] theorem Lane.setV_bad (x : Lane) (r : Nat) (e : Elem) : (x.setV r e).bad = x.bad := rfl
@[simp] theorem Lane.setV_st (x : Lane) (r : Nat) (e : Elem) : (x.setV r e).st = x.st := rfl
@[simp] theorem Lane.setV_iss (x : Lane) (r : Nat) (e : Elem) : (x.setV r e).iss = x.iss := rfl
@[simp] theorem Lane.setV_p (x : Lane) (r : Nat) (e : Elem) : (x.setV r e).p = x.p := rfl
@[simp] theorem Lane.setV_old (x : Lane) (r : Nat) (e : Elem) : (x.setV r e).old = x.old := rfl
@[simp] theorem Lane.setV_flags (x : Lane) (r : Nat) (e : Elem) : (x.setV r e).flags = x.flags := rfl
@[simp] theorem Lane.setV_draws (x : Lane) (r : Nat) (e : Elem) : (x.setV r e).draws = x.draws := rfl
@[simp] theorem Lane.setV_accepted (x : Lane) (r : Nat) (e : Elem) : (x.setV r e).accepted = x.accepted := rfl
@[simp] theorem Lane.setV_proposed (x : Lane) (r : Nat) (e : Elem) : (x.setV r e).proposed = x.proposed := rfl
@[simp] theorem Lane.setV_sh0 (x : Lane) (r : Nat) (e : Elem) : (x.setV r e).sh0 = x.sh0 := rfl
@[simp] theorem Lane.setV_sh1 (x : Lane) (r : Nat) (e : Elem) : (x.setV r e).sh1 = x.sh1 := rfl
@[simp] theorem Lane.setV_written (x : Lane) (r : Nat) (e : Elem) : (x.setV r e).written = x.written := rfl
@[simp] theorem Lane.setV_arr (x : Lane) (r : Nat) (e : Elem) : (x.setV r e).arr = x.arr := rfl
@[simp] theorem Lane.setV_unk (x : Lane) (r : Nat) (e : Elem) : (x.setV r e).unk = x.unk := rfl
@[simp] theorem Lane.setV_unkP (x : Lane) (r : Nat) (e : Elem) : (x.setV r e).unkP = x.unkP := rfl
@[simp] theorem Lane.setV_bankP (x : Lane) (r : Nat) (e : Elem) : (x.setV r e).bankP = x.bankP := rfl
@[simp] theorem Lane.setV_bankBar (x : Lane) (r : Nat) (e : Elem) : (x.setV r e).bankBar = x.bankBar := rfl
@[simp] theorem Lane.setV_bankPos (x : Lane) (r : Nat) (e : Elem) : (x.setV r e).bankPos = x.bankPos := rfl

/-! ### A draw of a lane -/

@[simp] theorem Lane.addDraw_tid (x : Lane) (k : Nat) : (x.addDraw k).tid = x.tid := rfl
@[simp] theorem Lane.addDraw_vpc (x : Lane) (k : Nat) : (x.addDraw k).vpc = x.vpc := rfl
@[simp] theorem Lane.addDraw_blk (x : Lane) (k : Nat) : (x.addDraw k).blk = x.blk := rfl
@[simp] theorem Lane.addDraw_blkEnd (x : Lane) (k : Nat) : (x.addDraw k).blkEnd = x.blkEnd := rfl
@[simp] theorem Lane.addDraw_bad (x : Lane) (k : Nat) : (x.addDraw k).bad = x.bad := rfl
@[simp] theorem Lane.addDraw_st (x : Lane) (k : Nat) : (x.addDraw k).st = x.st := rfl
@[simp] theorem Lane.addDraw_iss (x : Lane) (k : Nat) : (x.addDraw k).iss = x.iss := rfl
@[simp] theorem Lane.addDraw_p (x : Lane) (k : Nat) : (x.addDraw k).p = x.p := rfl
@[simp] theorem Lane.addDraw_v (x : Lane) (k : Nat) : (x.addDraw k).v = x.v := rfl
@[simp] theorem Lane.addDraw_old (x : Lane) (k : Nat) : (x.addDraw k).old = x.old := rfl
@[simp] theorem Lane.addDraw_flags (x : Lane) (k : Nat) : (x.addDraw k).flags = x.flags := rfl
@[simp] theorem Lane.addDraw_accepted (x : Lane) (k : Nat) : (x.addDraw k).accepted = x.accepted := rfl
@[simp] theorem Lane.addDraw_proposed (x : Lane) (k : Nat) : (x.addDraw k).proposed = x.proposed := rfl
@[simp] theorem Lane.addDraw_sh0 (x : Lane) (k : Nat) : (x.addDraw k).sh0 = x.sh0 := rfl
@[simp] theorem Lane.addDraw_sh1 (x : Lane) (k : Nat) : (x.addDraw k).sh1 = x.sh1 := rfl
@[simp] theorem Lane.addDraw_written (x : Lane) (k : Nat) : (x.addDraw k).written = x.written := rfl
@[simp] theorem Lane.addDraw_arr (x : Lane) (k : Nat) : (x.addDraw k).arr = x.arr := rfl
@[simp] theorem Lane.addDraw_unk (x : Lane) (k : Nat) : (x.addDraw k).unk = x.unk := rfl
@[simp] theorem Lane.addDraw_unkP (x : Lane) (k : Nat) : (x.addDraw k).unkP = x.unkP := rfl
@[simp] theorem Lane.addDraw_bankP (x : Lane) (k : Nat) : (x.addDraw k).bankP = x.bankP := rfl
@[simp] theorem Lane.addDraw_bankBar (x : Lane) (k : Nat) : (x.addDraw k).bankBar = x.bankBar := rfl
@[simp] theorem Lane.addDraw_bankPos (x : Lane) (k : Nat) : (x.addDraw k).bankPos = x.bankPos := rfl

end Sys2Proof.Machine
end

