-- ==== Sys2Proof/Laws/Memory.lean ====
section
/-! SUPPORT. Maps by number and memory: what a read gives after a write, and that every operation which changes memory
keeps its canonical form. -/

namespace Sys2Proof.Machine

/-! ### Maps -/

theorem mget_mput (m : Map α) (k j : Nat) (v : α) : mget (mput m k v) j = if k = j then some v else mget m j := by
  induction m with
  | nil => rfl
  | cons x r ih =>
    obtain ⟨a, b⟩ := x
    unfold mput
    by_cases h1 : k < a
    · simp [h1, mget]
    · by_cases h2 : k = a
      · subst h2
        by_cases h3 : k = j <;> simp [mget, h3]
      · simp only [h1, h2, if_false, mget, ih]
        by_cases h4 : a = j
        · subst h4; simp [h2]
        · simp [h4]

theorem mget_mdel (m : Map α) (k j : Nat) : mget (mdel m k) j = if k = j then none else mget m j := by
  induction m with
  | nil => simp [mdel, mget]
  | cons x r ih =>
    obtain ⟨a, b⟩ := x
    unfold mdel
    by_cases h : a = k
    · subst h
      by_cases h2 : a = j
      · subst h2; simpa using ih
      · simp [ih, mget, h2]
    · simp only [h, if_false, mget, ih]
      by_cases h3 : a = j
      · subst h3
        have h' : ¬ k = a := fun e => h e.symm
        simp [h']
      · simp [h3]

theorem mgetD_mputD [DecidableEq α] (d : α) (m : Map α) (k j : Nat) (v : α) :
    mgetD (mputD d m k v) j d = if k = j then v else mgetD m j d := by
  unfold mgetD mputD
  by_cases hv : v = d
  · subst hv
    by_cases h : k = j <;> simp [mget_mdel, h]
  · by_cases h : k = j <;> simp [hv, mget_mput, h]

/-! ### Reads after writes -/

theorem Memory.read_write (m : List Host.Cell) (a loc : Nat) (b : Byte) :
    Memory.read (Memory.write m a b) loc = if a = loc then b else Memory.read m loc := mgetD_mputD 0 m a loc b

@[simp] theorem Memory.read_write_same (m : List Host.Cell) (a : Nat) (b : Byte) :
    Memory.read (Memory.write m a b) a = b := by simp [Memory.read_write]

theorem Memory.read_write_other (m : List Host.Cell) (a loc : Nat) (b : Byte) (h : a ≠ loc) :
    Memory.read (Memory.write m a b) loc = Memory.read m loc := by simp [Memory.read_write, h]

@[simp] theorem Memory.read_nil (loc : Nat) : Memory.read [] loc = 0 := rfl

/-- A list of bytes written leaves every other location alone. -/
theorem Memory.read_foldl_other (bs : List (Nat × Byte)) (m : List Host.Cell) (loc : Nat) (h : loc ∉ bs.map Prod.fst) :
    Memory.read (bs.foldl (fun m b => Memory.write m b.1 b.2) m) loc = Memory.read m loc := by
  induction bs generalizing m with
  | nil => rfl
  | cons b r ih =>
    simp only [List.map_cons, List.mem_cons, not_or] at h
    rw [List.foldl_cons, ih _ h.2, Memory.read_write_other _ _ _ _ (Ne.symm h.1)]

/-- Each byte of a list with distinct locations is read back. -/
theorem Memory.read_foldl_mem (bs : List (Nat × Byte)) (m : List Host.Cell) (hn : (bs.map Prod.fst).Nodup) (b : Nat × Byte)
    (h : b ∈ bs) : Memory.read (bs.foldl (fun m b => Memory.write m b.1 b.2) m) b.1 = b.2 := by
  induction bs generalizing m with
  | nil => simp at h
  | cons c r ih =>
    simp only [List.map_cons, List.nodup_cons] at hn
    rcases List.mem_cons.mp h with e | e
    · subst e
      rw [List.foldl_cons, Memory.read_foldl_other _ _ _ hn.1, Memory.read_write_same]
    · exact ih _ hn.2 e

/-! ### The canonical form -/

/-- The canonical form, by pairs: addresses rise strictly, and no byte is that of an unlisted location. -/
theorem Memory.wf_iff (m : List Host.Cell) :
    Memory.wf m = true ↔ m.Pairwise (fun x y => x.1 < y.1) ∧ ∀ c ∈ m, c.2 ≠ 0 := by
  induction m with
  | nil => simp [Memory.wf]
  | cons x r ih =>
    obtain ⟨a, b⟩ := x
    cases r with
    | nil => simp [Memory.wf]
    | cons y r =>
      obtain ⟨a', b'⟩ := y
      have hw : Memory.wf ((a, b) :: (a', b') :: r) = (decide (a < a') && b != 0 && Memory.wf ((a', b') :: r)) := rfl
      rw [hw]
      simp only [Bool.and_eq_true, decide_eq_true_eq, bne_iff_ne, ih]
      constructor
      · rintro ⟨⟨h1, h2⟩, h3, h4⟩
        have h5 := List.pairwise_cons.mp h3
        refine ⟨List.pairwise_cons.mpr ⟨?_, h3⟩, ?_⟩
        · intro z hz
          rcases List.mem_cons.mp hz with e | e
          · subst e; exact h1
          · exact Nat.lt_trans h1 (h5.1 z e)
        · intro c hc
          rcases List.mem_cons.mp hc with e | e
          · subst e; exact h2
          · exact h4 c e
      · rintro ⟨h1, h2⟩
        have h5 := List.pairwise_cons.mp h1
        exact ⟨⟨h5.1 _ (List.mem_cons_self ..), h2 _ (List.mem_cons_self ..)⟩, h5.2,
          fun c hc => h2 c (List.mem_cons_of_mem _ hc)⟩

theorem mem_mput (m : Map α) (k : Nat) (v : α) (x : Nat × α) (h : x ∈ mput m k v) : x = (k, v) ∨ x ∈ m := by
  induction m with
  | nil => simpa [mput] using h
  | cons y r ih =>
    obtain ⟨j, z⟩ := y
    unfold mput at h
    split at h
    · simpa using h
    · split at h
      · simp only [List.mem_cons] at h ⊢
        tauto
      · simp only [List.mem_cons] at h ⊢
        rcases h with h | h
        · tauto
        · have := ih h; tauto

theorem mem_mdel (m : Map α) (k : Nat) (x : Nat × α) (h : x ∈ mdel m k) : x ∈ m := by
  induction m with
  | nil => simp [mdel] at h
  | cons y r ih =>
    obtain ⟨j, z⟩ := y
    unfold mdel at h
    split at h
    · exact List.mem_cons_of_mem _ (ih h)
    · simp only [List.mem_cons] at h ⊢
      rcases h with h | h
      · exact .inl h
      · exact .inr (ih h)

theorem pairwise_mput (m : Map α) (k : Nat) (v : α) (h : m.Pairwise (fun x y => x.1 < y.1)) :
    (mput m k v).Pairwise (fun x y => x.1 < y.1) := by
  induction m with
  | nil => simp [mput]
  | cons y r ih =>
    obtain ⟨j, z⟩ := y
    have h' := List.pairwise_cons.mp h
    unfold mput
    split
    · rename_i hk
      refine List.pairwise_cons.mpr ⟨?_, h⟩
      intro x hx
      rcases List.mem_cons.mp hx with e | e
      · subst e; exact hk
      · exact Nat.lt_trans hk (h'.1 x e)
    · split
      · rename_i hk
        subst hk
        exact List.pairwise_cons.mpr ⟨h'.1, h'.2⟩
      · rename_i h1 h2
        refine List.pairwise_cons.mpr ⟨?_, ih h'.2⟩
        intro x hx
        rcases mem_mput r k v x hx with e | e
        · subst e; simp only; omega
        · exact h'.1 x e

theorem pairwise_mdel (m : Map α) (k : Nat) (h : m.Pairwise (fun x y => x.1 < y.1)) :
    (mdel m k).Pairwise (fun x y => x.1 < y.1) := by
  induction m with
  | nil => simp [mdel]
  | cons y r ih =>
    obtain ⟨j, z⟩ := y
    have h' := List.pairwise_cons.mp h
    unfold mdel
    split
    · exact ih h'.2
    · exact List.pairwise_cons.mpr ⟨fun x hx => h'.1 x (mem_mdel r k x hx), ih h'.2⟩

/-- A byte written keeps the canonical form. -/
theorem Memory.wf_write (m : List Host.Cell) (a : Nat) (b : Byte) (h : Memory.wf m = true) :
    Memory.wf (Memory.write m a b) = true := by
  rw [Memory.wf_iff] at h ⊢
  unfold Memory.write mputD
  split
  · exact ⟨pairwise_mdel m a h.1, fun c hc => h.2 c (mem_mdel m a c hc)⟩
  · rename_i hb
    refine ⟨pairwise_mput m a b h.1, fun c hc => ?_⟩
    rcases mem_mput m a b c hc with e | e
    · subst e; exact hb
    · exact h.2 c e

/-- Bytes written one after another keep it. -/
theorem Memory.wf_foldl (l : List α) (loc : α → Nat) (val : α → Byte) (m : List Host.Cell) (h : Memory.wf m = true) :
    Memory.wf (l.foldl (fun m x => Memory.write m (loc x) (val x)) m) = true := by
  induction l generalizing m with
  | nil => exact h
  | cons x r ih => exact ih _ (Memory.wf_write m _ _ h)

/-- Leaving out bytes keeps it. -/
theorem Memory.wf_filter (m : List Host.Cell) (p : Host.Cell → Bool) (h : Memory.wf m = true) :
    Memory.wf (m.filter p) = true := by
  rw [Memory.wf_iff] at h ⊢
  exact ⟨h.1.filter p, fun c hc => h.2 c (List.mem_of_mem_filter hc)⟩

/-! ### Operations of the machine -/

/-- Bytes that become visible keep it (R224). -/
theorem State.wf_makeVisible (s : State) (bs : List (Nat × Byte)) (h : Memory.wf s.mem = true) :
    Memory.wf (s.makeVisible bs).mem = true := Memory.wf_foldl bs Prod.fst Prod.snd s.mem h

/-- A write by an agent keeps it. -/
theorem State.wf_agentWrite (s : State) (loc : Nat) (bs : List Byte) (h : Memory.wf s.mem = true) :
    Memory.wf (s.agentWrite loc bs).mem = true := s.wf_makeVisible _ h

/-- A location outside the bytes that become visible reads as before. -/
theorem State.read_makeVisible_other (s : State) (bs : List (Nat × Byte)) (loc : Nat) (h : loc ∉ bs.map Prod.fst) :
    Memory.read (s.makeVisible bs).mem loc = Memory.read s.mem loc := Memory.read_foldl_other bs s.mem loc h

/-- A location among them reads as the byte. -/
theorem State.read_makeVisible_mem (s : State) (bs : List (Nat × Byte)) (hn : (bs.map Prod.fst).Nodup) (b : Nat × Byte)
    (h : b ∈ bs) : Memory.read (s.makeVisible bs).mem b.1 = b.2 := Memory.read_foldl_mem bs s.mem hn b h

/-- A fold of state operations that leave memory alone leaves it alone. -/
theorem State.mem_foldl (l : List α) (f : State → α → State) (hf : ∀ s x, (f s x).mem = s.mem) (s : State) :
    (l.foldl f s).mem = s.mem := by
  induction l generalizing s with
  | nil => rfl
  | cons x r ih => rw [List.foldl_cons, ih, hf]

@[simp] theorem State.putTile_mem (s : State) (core k : Nat) (t : Tile) : (s.putTile core k t).mem = s.mem := rfl

theorem State.addWaves_mem (s : State) (ws : List Wave) : (s.addWaves ws).mem = s.mem := by
  unfold State.addWaves
  split <;> rfl

/-- A saved team's scratchpad is written back (R294). -/
theorem State.wf_putTeam (s : State) (t : Team) (core : Nat) (r : Room) (h : Memory.wf s.mem = true) :
    Memory.wf (s.putTeam t core r).mem = true := by
  unfold State.putTeam
  dsimp only
  rw [State.addWaves_mem, State.setCore_mem]
  refine Memory.wf_foldl _ _ _ _ ?_
  rw [State.mem_foldl _ _ (fun s k => State.putTile_mem s _ _ _)]
  exact h

/-- A word placed for the next fetch keeps it. -/
theorem State.wf_placeWord (s : State) (w : Nat) (h : Memory.wf s.mem = true) : Memory.wf (s.placeWord w).mem = true :=
  Memory.wf_foldl _ _ _ _ h

/-- The memory at reset has it. -/
theorem Memory.wf_reset : Memory.wf State.reset.mem = true := rfl

end Sys2Proof.Machine
end

