-- ==== Sys2Proof/Laws/Issue.lean ====
section
/-! SUPPORT. What an issue does: the gate passes where the instruction is ready, a result that retires is the effect
with the issuing set moved on, and a result that traps is the trap's entry. -/

namespace Sys2Proof.Machine

/-! ### Lanes -/

theorem Wave.lane_setLane (w : Wave) (l k : Nat) (x : Lane) :
    (w.setLane l x).lane k = if k = l ∧ l < w.lanes.length then x else w.lane k := by
  unfold Wave.lane Wave.setLane
  by_cases h : k = l
  · subst h
    by_cases hk : k < w.lanes.length <;> simp [hk]
  · have h' : l ≠ k := fun e => h e.symm
    simp [h, h']

theorem Wave.lane_modLane (w : Wave) (l k : Nat) (f : Lane → Lane) :
    (w.modLane l f).lane k = if k = l ∧ l < w.lanes.length then f (w.lane l) else w.lane k :=
  w.lane_setLane l k _

@[simp] theorem Wave.length_modLane (w : Wave) (l : Nat) (f : Lane → Lane) :
    (w.modLane l f).lanes.length = w.lanes.length := by simp [Wave.modLane, Wave.setLane]

theorem Wave.length_modLanes (w : Wave) (ls : List Nat) (f : Lane → Lane) :
    (w.modLanes ls f).lanes.length = w.lanes.length := by
  unfold Wave.modLanes
  induction ls generalizing w with
  | nil => rfl
  | cons a r ih => simp [ih]

theorem Wave.lane_modLanes_not_mem (w : Wave) (ls : List Nat) (f : Lane → Lane) (k : Nat) (h : k ∉ ls) :
    (w.modLanes ls f).lane k = w.lane k := by
  unfold Wave.modLanes
  induction ls generalizing w with
  | nil => rfl
  | cons a r ih =>
    simp only [List.mem_cons, not_or] at h
    simp [ih _ h.2, Wave.lane_modLane, h.1]

theorem Wave.lane_modLanes_mem (w : Wave) (ls : List Nat) (f : Lane → Lane) (k : Nat) (hn : ls.Nodup) (h : k ∈ ls)
    (hk : k < w.lanes.length) : (w.modLanes ls f).lane k = f (w.lane k) := by
  unfold Wave.modLanes
  induction ls generalizing w with
  | nil => simp at h
  | cons a r ih =>
    simp only [List.nodup_cons] at hn
    rcases List.mem_cons.mp h with e | e
    · subst e
      have := (w.modLane k f).lane_modLanes_not_mem r f k hn.1
      unfold Wave.modLanes at this
      simp only [List.foldl_cons, this, Wave.lane_modLane, hk, and_self, if_true]
    · have hne : k ≠ a := fun x => hn.1 (x ▸ e)
      simp only [List.foldl_cons]
      rw [ih _ hn.2 e (by simpa using hk), Wave.lane_modLane]
      simp [hne]

/-! ### Retiring changes only where lanes stand -/

theorem Lane.sansPos_set (x : Lane) (a b c : Nat) (d : Bool) :
    Lane.sansPos { x with vpc := a, blk := b, blkEnd := c, bad := d } = x.sansPos := rfl

theorem Wave.sansPos_modLane (w : Wave) (l : Nat) (f : Lane → Lane) (hf : ∀ x, (f x).sansPos = x.sansPos) :
    (w.modLane l f).lanes.map Lane.sansPos = w.lanes.map Lane.sansPos := by
  apply List.ext_getElem (by simp)
  intro n h1 h2
  simp only [List.getElem_map, Wave.modLane, Wave.setLane, List.getElem_set]
  split
  · rename_i e
    subst e
    have : l < w.lanes.length := by simpa using h2
    simp [hf, Wave.lane, List.getD, this]
  · rfl

theorem Wave.sansIssue_modLane (w : Wave) (l : Nat) (f : Lane → Lane) (hf : ∀ x, (f x).sansPos = x.sansPos) :
    (w.modLane l f).sansIssue = w.sansIssue := by
  have h := w.sansPos_modLane l f hf
  have e : w.modLane l f = { w with lanes := (w.modLane l f).lanes } := rfl
  rw [e]
  simp only [Wave.sansIssue, h]

theorem Wave.sansIssue_modLanes (w : Wave) (ls : List Nat) (f : Lane → Lane) (hf : ∀ x, (f x).sansPos = x.sansPos) :
    (w.modLanes ls f).sansIssue = w.sansIssue := by
  unfold Wave.modLanes
  induction ls generalizing w with
  | nil => rfl
  | cons a r ih => simp only [List.foldl_cons, ih, w.sansIssue_modLane a f hf]

/-! ### A wave of which only the lanes and the override change -/

/-- The same wave but for its lanes and the lanes of the override. -/
def Wave.Alike (w v : Wave) : Prop := ∃ ls o, v = { w with lanes := ls, ovr := o }

theorem Wave.Alike.refl (w : Wave) : w.Alike w := ⟨w.lanes, w.ovr, rfl⟩
theorem Wave.Alike.trans {a b c : Wave} (h : a.Alike b) (k : b.Alike c) : a.Alike c := by
  obtain ⟨l, o, rfl⟩ := h
  obtain ⟨l', o', rfl⟩ := k
  exact ⟨l', o', rfl⟩
theorem Wave.Alike.wgrp {a b : Wave} (h : a.Alike b) : b.wgrp = a.wgrp := by obtain ⟨l, o, rfl⟩ := h; rfl
theorem Wave.Alike.pw {a b : Wave} (h : a.Alike b) : b.pw = a.pw := by obtain ⟨l, o, rfl⟩ := h; rfl
theorem Wave.Alike.counts {a b : Wave} (h : a.Alike b) : b.counts = a.counts := by obtain ⟨l, o, rfl⟩ := h; rfl

/-- Fetching does not depend on where lanes stand. -/
theorem Wave.Alike.header {a b : Wave} (h : a.Alike b) (s : State) (off : Nat) : s.header b off = s.header a off := by
  obtain ⟨l, o, rfl⟩ := h; rfl

/-! ### Checks and fetches depend on the current wave by its pending writes alone -/

theorem State.gridOf_withCur (s : State) (v w : Wave) : (s.withCur v).gridOf w = s.gridOf w := rfl
theorem State.teamOf_withCur (s : State) (v w : Wave) : (s.withCur v).teamOf w = s.teamOf w := rfl
theorem State.translate_withCur (s : State) (v : Wave) (c a va : Nat) : (s.withCur v).translate c a va = s.translate c a va := rfl
theorem poisonCheck_withCur (s : State) (v w : Wave) (need : AccNeed) (atomic : Bool) (a : Access) :
    poisonCheck (s.withCur v) w need atomic a = poisonCheck s w need atomic a := by
  unfold poisonCheck; rfl
theorem checkAccess_withCur (s : State) (v w : Wave) (need : AccNeed) (space tid ea n : Nat) :
    checkAccess (s.withCur v) w false need space tid ea n = checkAccess s w false need space tid ea n := by
  unfold checkAccess
  simp only [State.gridOf_withCur, State.teamOf_withCur, State.translate_withCur, poisonCheck_withCur, Bool.false_eq_true, if_false]
  rfl
theorem State.eitherUnit_withCur (s : State) (v : Wave) (g l n : Nat) (x : Word64) :
    (s.withCur v).eitherUnit g l n x = s.eitherUnit g l n x := rfl
theorem State.wholeBytes_withCur (s : State) (v : Wave) (h : v.pw = s.cur.pw) (ls : List Nat) :
    (s.withCur v).wholeBytes ls = s.wholeBytes ls := by
  unfold State.wholeBytes State.partBytes State.waves
  simp only [List.flatMap_cons, State.withCur_cur, State.withCur_rest, h]
  rfl
theorem State.header_withCur (s : State) (v w : Wave) (h : v.pw = s.cur.pw) (off : Nat) :
    (s.withCur v).header w off = s.header w off := by
  unfold State.header State.headerBy State.fetchBy
  simp only [checkAccess_withCur, State.eitherUnit_withCur, State.wholeBytes_withCur s v h]
  rfl

theorem Wave.alike_modLanes (w : Wave) (ls : List Nat) (f : Lane → Lane) : w.Alike (w.modLanes ls f) := by
  unfold Wave.modLanes
  induction ls generalizing w with
  | nil => exact .refl w
  | cons a r ih => exact Wave.Alike.trans ⟨_, w.ovr, rfl⟩ (ih (w.modLane a f))

theorem Wave.alike_enter (w : Wave) (ls : List Nat) (h len : Nat) : w.Alike (w.enter ls h len) :=
  (w.alike_modLanes ls (fun x => { x with vpc := h + 1, blk := h, blkEnd := h + len, bad := false })).trans ⟨_, _, rfl⟩

/-! ### Moving on -/

theorem Wave.sansIssue_enter (w : Wave) (ls : List Nat) (h len : Nat) : (w.enter ls h len).sansIssue = w.sansIssue :=
  w.sansIssue_modLanes ls (fun x => { x with vpc := h + 1, blk := h, blkEnd := h + len, bad := false }) (fun _ => rfl)

theorem Wave.sansIssue_passInto (s : State) (w : Wave) (ls : List Nat) (h : Nat) :
    (s.passInto w ls h).sansIssue = w.sansIssue := by
  unfold State.passInto
  split
  · exact w.sansIssue_enter ..
  · exact w.sansIssue_modLanes ls (fun x => { x with vpc := h + 1, blk := h, blkEnd := h + 1, bad := true }) (fun _ => rfl)

theorem Wave.sansIssue_advanceLane (s : State) (w : Wave) (l : Nat) : (s.advanceLane w l).sansIssue = w.sansIssue := by
  unfold State.advanceLane
  split
  · exact w.sansIssue_modLane l _ (fun _ => rfl)
  · exact w.sansIssue_passInto ..

theorem Wave.sansIssue_clearGroups (w : Wave) (b : Bool) : (w.clearGroups b).sansIssue = w.sansIssue := by
  unfold Wave.clearGroups
  dsimp only
  split
  · rfl
  · split <;> rfl

theorem Wave.sansIssue_advance (s : State) (w : Wave) (ls : List Nat) : (s.advance w ls).sansIssue = w.sansIssue := by
  unfold State.advance
  rw [Wave.sansIssue_clearGroups]
  induction ls generalizing w with
  | nil => rfl
  | cons a r ih => simp only [List.foldl_cons, ih, w.sansIssue_advanceLane s a]

/-- The written-groups mask changes where a block was entered and every unexited lane stands in one block (R51), and nothing else
of the wave changes. -/
theorem Wave.clearGroups_eq (w : Wave) (b : Bool) :
    ((b = true ∧ w.oneBlock) → w.clearGroups b = { w with wgrp := 0 }) ∧ (¬ (b = true ∧ w.oneBlock) → w.clearGroups b = w) := by
  unfold Wave.clearGroups Wave.oneBlock
  dsimp only
  cases hl : w.liveLanes with
  | nil => simp
  | cons l r =>
    have key : (∀ x ∈ l :: r, ∀ k ∈ l :: r, (w.lane k).blk = (w.lane x).blk) ↔
        r.all (fun k => (w.lane k).blk == (w.lane l).blk) = true := by
      simp only [List.all_eq_true, beq_iff_eq]
      refine ⟨fun h k hk => h l (by simp) k (by simp [hk]), fun h => ?_⟩
      have h' : ∀ k ∈ l :: r, (w.lane k).blk = (w.lane l).blk := by
        intro k hk
        rcases List.mem_cons.mp hk with e | e
        · rw [e]
        · exact h k e
      exact fun x hx k hk => (h' k hk).trans (h' x hx).symm
    rw [key]
    dsimp only
    generalize r.all (fun k => (w.lane k).blk == (w.lane l).blk) = q
    cases b <;> cases q <;> simp

theorem Wave.lanes_clearGroups (w : Wave) (b : Bool) : (w.clearGroups b).lanes = w.lanes := by
  unfold Wave.clearGroups
  dsimp only
  split
  · rfl
  · split <;> rfl

theorem Wave.ovr_clearGroups (w : Wave) (b : Bool) : (w.clearGroups b).ovr = w.ovr := by
  unfold Wave.clearGroups
  dsimp only
  split
  · rfl
  · split <;> rfl

theorem Wave.alike_advanceLane (s : State) (w : Wave) (l : Nat) : w.Alike (s.advanceLane w l) := by
  unfold State.advanceLane State.passInto
  split
  · exact ⟨_, w.ovr, rfl⟩
  · split
    · exact w.alike_enter ..
    · rename_i h _
      exact (w.alike_modLanes [l] (fun x => { x with vpc := (w.lane l).blkEnd + 1 + 1, blk := (w.lane l).blkEnd + 1, blkEnd := (w.lane l).blkEnd + 1 + 1, bad := true })).trans ⟨_, _, rfl⟩

theorem Wave.alike_foldl (s : State) (w : Wave) (ls : List Nat) : w.Alike (ls.foldl s.advanceLane w) := by
  induction ls generalizing w with
  | nil => exact .refl w
  | cons a r ih => exact (w.alike_advanceLane s a).trans (ih _)

theorem Wave.length_advanceLane (s : State) (w : Wave) (l : Nat) : (s.advanceLane w l).lanes.length = w.lanes.length := by
  have := congrArg (fun x : Wave => x.lanes.length) (w.sansIssue_advanceLane s l)
  simpa [Wave.sansIssue] using this

/-- Where a lane stands that retires the instruction at which it stands, by the headers that it may pass into (R16, R49). -/
def Lane.onward (hd : Nat → Header) (x : Lane) : Lane :=
  if x.vpc < x.blkEnd then { x with vpc := x.vpc + 1 }
  else
    match hd (x.blkEnd + 1) with
    | .ok len => { x with vpc := x.blkEnd + 1 + 1, blk := x.blkEnd + 1, blkEnd := x.blkEnd + 1 + len, bad := false }
    | _ => { x with vpc := x.blkEnd + 1 + 1, blk := x.blkEnd + 1, blkEnd := x.blkEnd + 1 + 1, bad := true }

theorem Wave.lane_advanceLane (s : State) (w : Wave) (l k : Nat) : (s.advanceLane w l).lane k =
    if k = l ∧ l < w.lanes.length then (w.lane l).onward (s.header w) else w.lane k := by
  unfold State.advanceLane Lane.onward
  by_cases hv : (w.lane l).vpc < (w.lane l).blkEnd
  · simp only [hv, if_true]
    exact w.lane_modLane l k (fun x => { x with vpc := x.vpc + 1 })
  · simp only [hv, if_false]
    unfold State.passInto
    cases s.header w ((w.lane l).blkEnd + 1) with
    | ok len => exact w.lane_modLane l k (fun x => { x with vpc := (w.lane l).blkEnd + 1 + 1, blk := (w.lane l).blkEnd + 1, blkEnd := (w.lane l).blkEnd + 1 + len, bad := false })
    | _ => exact w.lane_modLane l k (fun x => { x with vpc := (w.lane l).blkEnd + 1 + 1, blk := (w.lane l).blkEnd + 1, blkEnd := (w.lane l).blkEnd + 1 + 1, bad := true })

theorem Wave.mem_ovr_advanceLane (s : State) (w : Wave) (l k : Nat) : k ∈ (s.advanceLane w l).ovr ↔
    k ∈ w.ovr ∧ ¬ (k = l ∧ (w.lane l).blkEnd ≤ (w.lane l).vpc) := by
  unfold State.advanceLane
  by_cases hv : (w.lane l).vpc < (w.lane l).blkEnd
  · have e : (w.modLane l (fun x => { x with vpc := x.vpc + 1 })).ovr = w.ovr := rfl
    simp only [hv, if_true, e]
    have : ¬ (w.lane l).blkEnd ≤ (w.lane l).vpc := by omega
    simp [this]
  · have hv' : (w.lane l).blkEnd ≤ (w.lane l).vpc := by omega
    have key : k ∈ w.ovr.filter (fun x => !([l] : List Nat).contains x) ↔ k ∈ w.ovr ∧ ¬ (k = l ∧ (w.lane l).blkEnd ≤ (w.lane l).vpc) := by
      simp [hv']
    simp only [hv, if_false]
    unfold State.passInto
    rw [← key]
    split <;> exact Iff.rfl

/-- Lanes that retire: each listed lane moves on, the others stay, and a lane that enters a block leaves the override. -/
theorem Wave.foldl_advanceLane (s : State) (w : Wave) (ls : List Nat) (hn : ls.Nodup) (k : Nat) :
    ((ls.foldl s.advanceLane w).lane k = if k ∈ ls ∧ k < w.lanes.length then (w.lane k).onward (s.header w) else w.lane k) ∧
    (k ∈ (ls.foldl s.advanceLane w).ovr ↔ k ∈ w.ovr ∧ ¬ (k ∈ ls ∧ (w.lane k).blkEnd ≤ (w.lane k).vpc)) := by
  induction ls generalizing w with
  | nil => simp
  | cons a r ih =>
    simp only [List.nodup_cons] at hn
    have ih := ih (s.advanceLane w a) hn.2
    have hh : s.header (s.advanceLane w a) = s.header w := funext ((w.alike_advanceLane s a).header s)
    rw [w.length_advanceLane s a, w.lane_advanceLane s a k, w.mem_ovr_advanceLane s a k, hh] at ih
    simp only [List.foldl_cons, List.mem_cons]
    by_cases e : k = a
    · subst e
      rw [ih.1, ih.2]
      simp [hn.1]
    · rw [ih.1, ih.2]
      simp [e]

theorem Wave.lane_advance (s : State) (w : Wave) (ls : List Nat) (hn : ls.Nodup) (k : Nat) :
    (s.advance w ls).lane k = if k ∈ ls ∧ k < w.lanes.length then (w.lane k).onward (s.header w) else w.lane k := by
  have hc : (s.advance w ls).lane k = (ls.foldl s.advanceLane w).lane k := by
    unfold State.advance Wave.lane
    rw [Wave.lanes_clearGroups]
  rw [hc, (w.foldl_advanceLane s ls hn k).1]

/-! ### The counts of the override -/

theorem mgetD_foldl_mputD (f : Nat → Nat) (ls : List Nat) (m : Map Nat) (p : Nat) :
    mgetD (ls.foldl (fun m u => mputD 0 m u (f u)) m) p 0 = if p ∈ ls then f p else mgetD m p 0 := by
  induction ls generalizing m with
  | nil => rfl
  | cons a r ih =>
    rw [List.foldl_cons, ih, mgetD_mputD]
    by_cases h : p ∈ r
    · simp [h]
    · by_cases e : a = p
      · subst e; simp
      · have e' : p ≠ a := fun x => e x.symm
        simp [h, e, e']

theorem Wave.recount_counts (w : Wave) (v : Nat) (before : List Nat) (p : Nat) :
    mgetD (w.recount v before).counts p 0 =
      if p ∈ (w.recount v before).readyPcs ∧ p ≠ v ∧ p ∈ before then mgetD w.counts p 0 + 1 else 0 := by
  have e : (w.recount v before).readyPcs = w.readyPcs := rfl
  rw [e]
  show mgetD (w.readyPcs.foldl (fun m u => mputD 0 m u (if u == v then 0 else if before.contains u then mgetD w.counts u 0 + 1 else 0)) []) p 0 = _
  rw [mgetD_foldl_mputD (fun u => if u == v then 0 else if before.contains u then mgetD w.counts u 0 + 1 else 0)]
  by_cases h : p ∈ w.readyPcs <;> by_cases h2 : p = v <;> by_cases h3 : p ∈ before <;> simp [h, h2, h3, mgetD, mget]

theorem nodup_issuingSet (w : Wave) : w.issuingSet.Nodup := by
  have h : w.ready.Nodup := by
    unfold Wave.ready
    split
    · exact List.nodup_nil
    · exact List.nodup_range.filter _
  unfold Wave.issuingSet
  split
  · exact List.nodup_nil
  · exact h.filter _

theorem State.nextBlock_eq (u : State) (x : Lane) (h : x.blkEnd ≤ x.vpc) : x.onward (u.header u.cur) = u.nextBlock x := by
  unfold Lane.onward State.nextBlock
  exact (if_neg (by omega)).trans rfl

/-- RETIRING, without a step trap: the effect stays, and the lanes that are not kept move on; counts and override go on. -/
theorem State.retires_retire (s u : State) (i : Instr) (before iss : List Nat) (jumped : Bool) (keep : List Nat)
    (hn : iss.Nodup) :
    Moves u (u.retire i s.at_ before iss false jumped keep) (iss.filter (fun l => !keep.contains l)) (jumped = true) ∧
    Counted s u (u.retire i s.at_ before iss false jumped keep) before (iss.filter (fun l => !keep.contains l)) := by
  by_cases he : u.cur.lanes.isEmpty
  · have e : u.retire i s.at_ before iss false jumped keep = u := by simp [State.retire, he]
    rw [e]
    have hl : u.cur.lanes = [] := List.isEmpty_iff.mp he
    have ho : ¬ u.cur.oneBlock := by simp [Wave.oneBlock, Wave.liveLanes, Wave.idx, hl]
    exact ⟨⟨rfl, fun l _ hk => by simp [hl] at hk, fun l _ hk => by simp [hl] at hk, fun _ _ => rfl, fun _ h => absurd h ho,
      fun _ => rfl⟩, ⟨fun h => absurd hl h, fun h => absurd hl h⟩⟩
  generalize hls : iss.filter (fun l => !keep.contains l) = ls
  have hnd : ls.Nodup := hls ▸ hn.filter _
  obtain ⟨w2, hw2⟩ : ∃ w2, w2 = (u.advance u.cur ls).clearGroups jumped := ⟨_, rfl⟩
  obtain ⟨b, y, p, hc⟩ : ∃ b y p, (u.retire i s.at_ before iss false jumped keep) =
      { u with cur := ({ w2 with bpSkip := b, why := y, prog := p } : Wave).recount s.at_ before } := by
    refine ⟨(u.advance u.cur ls).bpSkip && before.isEmpty,
      if (u.advance u.cur ls).trapPend.isSome then (u.advance u.cur ls).why else Why.none,
      (u.advance u.cur ls).prog.filter (fun p => before.isEmpty || p.tm != (u.advance u.cur ls).tm || p.offset != s.at_), ?_⟩
    unfold State.retire
    simp only [he, hls, Bool.false_eq_true, if_false, Bool.not_false, Bool.true_or, if_true, hw2]
  have hlanes : w2.lanes = (ls.foldl u.advanceLane u.cur).lanes := by
    rw [hw2, Wave.lanes_clearGroups]
    exact Wave.lanes_clearGroups ..
  have hovr : w2.ovr = (ls.foldl u.advanceLane u.cur).ovr := by
    rw [hw2, Wave.ovr_clearGroups]
    exact Wave.ovr_clearGroups ..
  have hlane : ∀ l, (u.retire i s.at_ before iss false jumped keep).cur.lane l =
      if l ∈ ls ∧ l < u.cur.lanes.length then (u.cur.lane l).onward (u.header u.cur) else u.cur.lane l := by
    intro l
    rw [hc, ← (u.cur.foldl_advanceLane u ls hnd l).1]
    unfold Wave.lane
    show w2.lanes.getD l Lane.zero = _
    rw [hlanes]
  have hsame : w2.sansIssue = u.cur.sansIssue := by rw [hw2, Wave.sansIssue_clearGroups, Wave.sansIssue_advance]
  have halike : u.cur.Alike (ls.foldl u.advanceLane u.cur) := u.cur.alike_foldl u ls
  -- the mask
  have hb : (ls.any (fun l => !decide ((u.cur.lane l).vpc < (u.cur.lane l).blkEnd)) = true) ↔ u.cur.someEnds ls := by
    simp [Wave.someEnds, List.any_eq_true]
  have hone : ∀ (v : Wave), v.lanes = w2.lanes → (v.oneBlock ↔ w2.oneBlock) := by
    intro v hv
    have h1 : v.liveLanes = w2.liveLanes := by unfold Wave.liveLanes Wave.idx Wave.lane; rw [hv]
    have h2 : ∀ l, v.lane l = w2.lane l := by intro l; unfold Wave.lane; rw [hv]
    unfold Wave.oneBlock
    simp only [h1, h2]
  have hmask : ((jumped = true ∨ u.cur.someEnds ls) → w2.oneBlock → w2.wgrp = 0) ∧
      (¬ ((jumped = true ∨ u.cur.someEnds ls) ∧ w2.oneBlock) → w2.wgrp = u.cur.wgrp) := by
    have h1 := (ls.foldl u.advanceLane u.cur).clearGroups_eq (ls.any (fun l => !decide ((u.cur.lane l).vpc < (u.cur.lane l).blkEnd)))
    have h2 := (u.advance u.cur ls).clearGroups_eq jumped
    have e1 : (u.advance u.cur ls) = (ls.foldl u.advanceLane u.cur).clearGroups (ls.any (fun l => !decide ((u.cur.lane l).vpc < (u.cur.lane l).blkEnd))) := rfl
    rw [← hw2] at h2
    rw [← e1, hb] at h1
    have o1 := hone (ls.foldl u.advanceLane u.cur) hlanes.symm
    have o2 := hone (u.advance u.cur ls) (by rw [hw2, Wave.lanes_clearGroups])
    rw [o1] at h1
    rw [o2] at h2
    have hw := halike.wgrp
    by_cases hj : jumped = true <;> by_cases hs : u.cur.someEnds ls <;> by_cases ho : w2.oneBlock <;>
      simp only [hj, hs, ho, true_and, and_true, and_false, or_true, or_false, not_true, not_false_eq_true,
        forall_const, IsEmpty.forall_iff, Bool.false_eq_true] at h1 h2 ⊢ <;>
      (try rw [h2]) <;> (try rw [h1]) <;> simp [hw]
  refine ⟨⟨?_, fun l h hk hv => ?_, fun l h hk hv => ?_, fun l h => ?_, ?_, ?_⟩, ⟨fun _ p' => ?_, fun _ l => ?_⟩⟩
  · rw [hc]
    simp only [State.sansIssue]
    rw [← hsame]
    rfl
  · rw [hlane, if_pos ⟨h, hk⟩, Lane.onward, if_pos hv]
  · rw [hlane, if_pos ⟨h, hk⟩, u.nextBlock_eq _ hv]
  · rw [hlane, if_neg (fun x => h x.1)]
  · rw [hc]; intro h ho; exact hmask.1 h ((hone _ rfl).mp ho)
  · rw [hc]; intro h; exact hmask.2 (fun x => h ⟨x.1, (hone _ rfl).mpr x.2⟩)
  · rw [hc]
    have := ({ w2 with bpSkip := b, why := y, prog := p } : Wave).recount_counts s.at_ before p'
    refine this.trans ?_
    have e : w2.counts = u.cur.counts := by
      have g : ∀ (w : Wave) (b : Bool), (w.clearGroups b).counts = w.counts := by
        intro w b; unfold Wave.clearGroups; dsimp only; split
        · rfl
        · split <;> rfl
      rw [hw2, g]
      exact (g _ _).trans halike.counts
    show (if _ then mgetD w2.counts p' 0 + 1 else 0) = _
    rw [e]
  · rw [hc]
    show l ∈ w2.ovr.filter (fun x => _) ↔ _
    rw [List.mem_filter, hovr, (u.cur.foldl_advanceLane u ls hnd l).2]
    have e : ∀ v : Wave, v.ready = (({ w2 with bpSkip := b, why := y, prog := p } : Wave).recount s.at_ before).ready →
      (v.ready.contains l = true ↔ l ∈ (({ w2 with bpSkip := b, why := y, prog := p } : Wave).recount s.at_ before).ready) := by
      intro v hv; rw [hv]; simp
    constructor
    · rintro ⟨⟨h1, h2⟩, h3⟩
      exact ⟨h1, (e ({ w2 with bpSkip := b, why := y, prog := p } : Wave) rfl).mp h3, h2⟩
    · rintro ⟨h1, h2, h3⟩
      exact ⟨⟨h1, h3⟩, (e ({ w2 with bpSkip := b, why := y, prog := p } : Wave) rfl).mpr h2⟩

/-! ### The gate -/

theorem overAllotment_none (i : Instr) (s : State) (h : Allotted i s) : overAllotment s (Instr.operands s i) = none := by
  unfold overAllotment
  rw [List.findSome?_eq_none_iff]
  intro o ho
  have := h o ho
  by_cases k1 : o.kind = 1
  · simp [k1]
  · have := this k1
    by_cases k2 : o.kind = 2 <;> simp [k1, k2] at this ⊢ <;> omega

theorem emptyReg_none (i : Instr) (s : State) (h : AllFull i s) (o : Opd) (ho : o ∈ Instr.operands s i) :
    emptyReg s.cur o = none := by
  unfold emptyReg
  rw [List.find?_eq_none]
  intro r hr
  simp only [List.mem_map, List.mem_range] at hr
  obtain ⟨k, hk, rfl⟩ := hr
  have := h o ho k hk
  split
  · rename_i e; simp [this.1 e]
  · rename_i e; simp [this.2 e]
  · simp

/-- A READY INSTRUCTION passes the gate, with the issuing set and the active lanes (R18, R28, R32, R69). -/
theorem gate_ready (i : Instr) (s : State) (h : Ready i s) : gate i s = .go s.cur.issuingSet (active i s) := by
  obtain ⟨hl, ha, hf, hw, hr, ht, -, -, -, hact⟩ := h
  have hne : s.cur.issuingSet ≠ [] := by
    intro e; exact hact (by simp [active, e])
  have he : emptyTrap s.cur (Instr.operands s i) = none := by
    unfold emptyTrap
    rw [List.findSome?_eq_none_iff]
    intro o ho
    simp [emptyReg_none i s hf o ho]
  have hm : mustWait s.cur (Instr.operands s i) = false := by
    unfold mustWait
    rw [List.any_eq_false]
    intro o ho
    simp [emptyReg_none i s hf o ho]
  have hd : (Instr.usesBank i && !dstsInWindow s.cur (Instr.operands s i)) = false := by
    by_cases hb : Instr.usesBank i = true
    · have hw := hw hb
      simp only [hb, Bool.true_and, Bool.not_eq_false', dstsInWindow, List.all_eq_true]
      intro o ho
      by_cases hk : o.kind = 0
      · by_cases hd : o.dst = true
        · simp only [hd, hk, beq_self_eq_true, Bool.and_self, Bool.not_true, Bool.false_or, List.all_eq_true,
            List.mem_range]
          exact hw o ho hd hk
        · simp [hd]
      · simp [hk]
    · simp [hb]
  have hq : (active i s).filter (readsError s.cur i (Instr.operands s i) (active i s)) = [] := by
    rw [List.filter_eq_nil_iff]
    intro l _
    simp [readsError, hr]
  unfold gate
  simp only [List.isEmpty_iff, hne, if_false, hl, Bool.not_true, Bool.false_eq_true, overAllotment_none i s ha, he, hd, hm]
  show (match (if readsBadTile s i (active i s) then active i s
      else (active i s).filter (readsError s.cur i (Instr.operands s i) (active i s))) with
    | [] => Gate.go s.cur.issuingSet (active i s) | ls => Gate.regError ls) = _
  rw [ht, if_neg (by simp), hq]

theorem netEntries_dbg (s : State) (i : Instr) (act : List Nat) (h : s.cur.dbg = false) : s.netEntries i act = [] := by
  simp [State.netEntries, h]

@[simp] theorem runBody_eq (i : Instr) (s : State) (iss act : List Nat) (body : List Nat → List Nat → State → Res)
    (h : s.cur.dbg = false) : runBody i s iss act body = body iss act s := by
  unfold runBody
  simp [netEntries_dbg s i act h]

theorem taskWide_none (s : State) (i : Instr) (h : s.cur.task = none) : s.taskWide i = s := by
  have e : ({ s with cur := { s.cur with task := s.cur.task.map (fun t => { t with wide := true }) } } : State) = s := by
    simp only [h, Option.map_none]
    cases s with | mk cur => cases cur; simp_all
  unfold State.taskWide
  split <;> first | exact e | rfl

theorem taskWide_dbg (s : State) (i : Instr) : (s.taskWide i).cur.dbg = s.cur.dbg := by
  unfold State.taskWide; split <;> rfl

/-- A READY INSTRUCTION runs its body, and what becomes of the result is `settle`. -/
theorem issue_ready (i : Instr) (s : State) (body : List Nat → List Nat → State → Res) (h : Ready i s) :
    issue i s body = .next (settle i s s.cur.issuingSet (active i s) (body s.cur.issuingSet (active i s) (s.taskWide i))) := by
  have hg := gate_ready i s h
  obtain ⟨-, -, -, -, -, -, hs, hd, -, hact⟩ := h
  have hp : performs 0 i = true := rfl
  unfold issue issueState
  simp [hg, hp, hs, hact, runBody_eq, taskWide_dbg, hd]

/-- THE RESULT RETIRES: the instruction issues with that effect, and the kept lanes stay. -/
theorem issue_done (i : Instr) (s u : State) (keep : List Nat) (body : List Nat → List Nat → State → Res) (h : Ready i s)
    (hb : body s.cur.issuingSet (active i s) (s.taskWide i) = .done u keep) :
    ∃ t, issue i s body = .next t ∧ Retires s u t (s.cur.issuingSet.filter (fun l => !keep.contains l)) False := by
  refine ⟨_, issue_ready i s body h, ?_⟩
  obtain ⟨-, -, -, -, -, -, hs, -, hst, -⟩ := h
  rw [hb]
  unfold settle
  simp only [hs, hst, Bool.false_and]
  have hr := State.retires_retire s u i (if u.cur.tm == s.cur.tm then s.cur.readyPcs else []) s.cur.issuingSet false keep (nodup_issuingSet _)
  refine ⟨by simpa [State.at_] using hr.1, fun e => ?_⟩
  have := hr.2
  simpa [e, State.at_] using this

theorem issue_jump (i : Instr) (s u : State) (keep : List Nat) (body : List Nat → List Nat → State → Res) (h : Ready i s)
    (hb : body s.cur.issuingSet (active i s) (s.taskWide i) = .jump u keep) :
    ∃ t, issue i s body = .next t ∧ Retires s u t (s.cur.issuingSet.filter (fun l => !keep.contains l)) True := by
  refine ⟨_, issue_ready i s body h, ?_⟩
  obtain ⟨-, -, -, -, -, -, hs, -, hst, -⟩ := h
  rw [hb]
  unfold settle
  simp only [hs, hst, Bool.false_and]
  have hr := State.retires_retire s u i s.cur.readyPcs s.cur.issuingSet true keep (nodup_issuingSet _)
  exact ⟨by simpa [State.at_] using hr.1, fun _ => hr.2⟩

/-- THE RESULT TRAPS: the next state is that of the trap's entry. -/
theorem issue_trap (i : Instr) (s u : State) (t : TrapReq) (body : List Nat → List Nat → State → Res) (h : Ready i s)
    (hb : body s.cur.issuingSet (active i s) (s.taskWide i) = .trap u t) :
    issue i s body = .next (({ u with cur := { u.cur with bpSkip := false } }).takeTrap (t.info s.at_ (encode i))) := by
  rw [issue_ready i s body h, hb]
  unfold settle
  simp only [h.2.2.2.2.2.2.1]
  rfl

/-- The body retires every lane: the instruction completes with its effect. -/
theorem completes_of_done (i : Instr) (s u : State) (body : List Nat → List Nat → State → Res) (h : Ready i s)
    (he : exec i s = issue i s body)
    (hb : body s.cur.issuingSet (active i s) (s.taskWide i) = .done u []) : Completes i s u := by
  obtain ⟨t, ht, hr⟩ := issue_done i s u [] body h hb
  refine ⟨t, by rw [he, ht], ?_⟩
  have e : s.cur.issuingSet.filter (fun l => !([] : List Nat).contains l) = s.cur.issuingSet := by
    apply List.filter_eq_self.mpr; simp
  rwa [e] at hr

end Sys2Proof.Machine
end

