-- ==== Sys2Proof/Laws/Registers.lean ====
section
/-! SUPPORT. Registers: what a read gives after a write, and what a write leaves as it was. -/

namespace Sys2Proof.Machine

/-! ### Elements, scalars, predicates and draws -/

theorem Lane.getV_setV (x : Lane) (r k : Nat) (e : Elem) : (x.setV r e).getV k = if r = k then e else x.getV k :=
  mgetD_mputD 0 x.v r k e

theorem Wave.getS_setS (w : Wave) (r k : Nat) (v : Word64) : (w.setS r v).getS k = if r = k then v else w.getS k :=
  mgetD_mputD 0 w.s r k v

theorem Lane.getDraw_addDraw (x : Lane) (k j : Nat) :
    (x.addDraw k).getDraw j = if k = j then x.getDraw k + 1 else x.getDraw j := mgetD_mputD 0 x.draws k j _

theorem State.coreAt_setCore (s : State) (c k : Nat) (x : Core) : (s.setCore c x).coreAt k = if c = k then x else s.coreAt k := by
  unfold State.coreAt State.setCore mgetD
  simp only [mget_mput]
  split <;> rfl

/-! ### A vector element of a wave -/

theorem Wave.lane_touch (w : Wave) (r l : Nat) : (w.touch r).lane l = w.lane l := rfl

theorem Wave.lane_watched (w : Wave) (l : Nat) (rs : List Nat) (k : Nat) : (w.watched l rs).lane k = w.lane k := by
  unfold Wave.watched; split <;> rfl

theorem Lane.getV_putOld (x : Lane) (r k : Nat) (e : Elem) : (x.putOld r e).getV k = if r = k then e else x.getV k :=
  x.getV_setV r k e

/-- A vector element written: the lane holds it, and every other lane is as it was. -/
theorem Wave.lane_putV (w : Wave) (l r k : Nat) (e : Elem) :
    (w.putV l r e).lane k = if k = l ∧ l < w.lanes.length then (w.lane l).putOld r e else w.lane k := by
  unfold Wave.putV Wave.storeV
  rw [Wave.lane_watched, Wave.lane_touch, Wave.lane_modLane]
  split <;> rfl

theorem Wave.getV_putV (w : Wave) (l r k j : Nat) (e : Elem) (hl : l < w.lanes.length) :
    ((w.putV l r e).lane k).getV j = if k = l ∧ r = j then e else (w.lane k).getV j := by
  rw [Wave.lane_putV]
  by_cases h : k = l
  · subst h
    simp [hl, Lane.getV_putOld]
  · simp [h]

/-- Scalars, allotment, keys, rejoin masks and every other part of a wave that a vector write does not name. -/
theorem Wave.putV_frame (w : Wave) (l r : Nat) (e : Elem) :
    (w.putV l r e).s = w.s ∧ (w.putV l r e).vEmpty = w.vEmpty ∧ (w.putV l r e).sEmpty = w.sEmpty ∧
    (w.putV l r e).alloc = w.alloc ∧ (w.putV l r e).rejoin = w.rejoin ∧ (w.putV l r e).keys = w.keys ∧
    (w.putV l r e).key = w.key ∧ (w.putV l r e).pw = w.pw ∧ (w.putV l r e).pend = w.pend ∧ (w.putV l r e).tm = w.tm ∧
    (w.putV l r e).lanes.length = w.lanes.length := by
  unfold Wave.putV Wave.storeV Wave.watched
  dsimp only
  split <;> split <;> refine ⟨rfl, rfl, rfl, rfl, rfl, rfl, rfl, rfl, rfl, rfl, ?_⟩ <;> simp [Wave.touch]

/-- A lane of which nothing is written stays as it was. -/
theorem Wave.lane_writeX_other (w : Wave) (wide : Bool) (l r v k : Nat) (h : k ≠ l) :
    (w.writeX false wide l r v).lane k = w.lane k := by
  unfold Wave.writeX Wave.writeV
  cases wide <;> simp [Wave.lane_putV, h]

/-- The same of a write in several lanes. -/
theorem Wave.lane_writeLanes_other (w : Wave) (wide : Bool) (r : Nat) (ls : List Nat) (f : Nat → Nat) (k : Nat) (h : k ∉ ls) :
    (w.writeLanes false wide r ls f).lane k = w.lane k := by
  unfold Wave.writeLanes
  induction ls generalizing w with
  | nil => rfl
  | cons a t ih =>
    simp only [List.mem_cons, not_or] at h
    rw [List.foldl_cons, ih _ h.2, Wave.lane_writeX_other _ _ _ _ _ _ h.1]

/-! ### Predicates -/

/-- A predicate write changes the lanes listed, and in them the predicates alone. -/
theorem Wave.lane_writePreds_other (w : Wave) (p : Nat) (ls : List Nat) (f : Nat → Bool) (k : Nat) (h : k ∉ ls) :
    (w.writePreds p ls f).lane k = w.lane k := by
  unfold Wave.writePreds
  induction ls generalizing w with
  | nil => rfl
  | cons a t ih =>
    simp only [List.mem_cons, not_or] at h
    rw [List.foldl_cons, ih _ h.2, Wave.lane_modLane]
    simp [h.1]

theorem Lane.setPred_frame (x : Lane) (p : Nat) (b : Bool) :
    (x.setPred p b).v = x.v ∧ (x.setPred p b).flags = x.flags ∧ (x.setPred p b).st = x.st ∧ (x.setPred p b).tid = x.tid ∧
    (x.setPred p b).vpc = x.vpc := by
  unfold Lane.setPred
  split <;> exact ⟨rfl, rfl, rfl, rfl, rfl⟩

end Sys2Proof.Machine
end

