-- ==== Sys2Proof/Laws/Exec.lean ====
section
/-! SUPPORT. What the dispatch does: every instruction of a program is an issue with a body of its own, and an issue always
answers a next state. -/

namespace Sys2Proof.Machine

/-- Every instruction that a program holds is issued, with a body of its own. -/
theorem exec_issue (i : Instr) (h : i.isEvent = false) :
    ∃ body : State → List Nat → List Nat → State → Res, ∀ s, exec i s = issue i s (body s) := by
  cases i <;> first | exact ⟨_, fun _ => rfl⟩ | cases h

/-- No instruction of a program stops the machine. -/
theorem exec_next (i : Instr) (h : i.isEvent = false) (s : State) : ∃ t, exec i s = .next t := by
  obtain ⟨body, hb⟩ := exec_issue i h
  exact ⟨_, hb s⟩

/-- An issue in a wave with no ready lane changes nothing. -/
theorem exec_idle (i : Instr) (h : i.isEvent = false) (s : State) (hi : s.cur.issuingSet = []) : exec i s = .next s := by
  obtain ⟨body, hb⟩ := exec_issue i h
  rw [hb]
  unfold issue issueState gate
  simp [hi]

/-- A word that is not legal traps before any other check (R69). -/
theorem exec_illegal (i : Instr) (h : i.isEvent = false) (s : State) (hs : s.cur.spec = 0) (hi : s.cur.issuingSet ≠ [])
    (hl : legalHere s i = false) : Traps i s s (trapOf 1 s.cur.issuingSet) := by
  obtain ⟨body, hb⟩ := exec_issue i h
  unfold Traps
  rw [hb]
  unfold issue issueState gate
  simp [hi, hl, settle, hs, State.at_, trapOf]

end Sys2Proof.Machine
end

