-- ==== Sys2Proof/Laws/Sort.lean ====
section
/-! SUPPORT. The order of lists (R39, R99): a sorted list holds the same elements, in order. -/

namespace Sys2Proof.Machine

theorem insertBy_perm (le : α → α → Bool) (x : α) (l : List α) : (insertBy le x l).Perm (x :: l) := by
  induction l with
  | nil => exact .refl _
  | cons y r ih =>
    unfold insertBy
    split
    · exact .refl _
    · exact (ih.cons y).trans (.swap x y r)

/-- No element is lost or made. -/
theorem sortBy_perm (le : α → α → Bool) (l : List α) : (sortBy le l).Perm l := by
  induction l with
  | nil => exact .refl _
  | cons x r ih => exact (insertBy_perm le x (sortBy le r)).trans (ih.cons x)

@[simp] theorem mem_sortBy (le : α → α → Bool) (l : List α) (x : α) : x ∈ sortBy le l ↔ x ∈ l := (sortBy_perm le l).mem_iff
@[simp] theorem length_sortBy (le : α → α → Bool) (l : List α) : (sortBy le l).length = l.length := (sortBy_perm le l).length_eq

theorem pairwise_insertBy (le : α → α → Bool) (total : ∀ a b, le a b = false → le b a = true)
    (trans : ∀ a b c, le a b = true → le b c = true → le a c = true) (x : α) (l : List α)
    (h : l.Pairwise (fun a b => le a b = true)) : (insertBy le x l).Pairwise (fun a b => le a b = true) := by
  induction l with
  | nil => simp [insertBy]
  | cons y r ih =>
    have h' := List.pairwise_cons.mp h
    unfold insertBy
    split
    · rename_i hxy
      refine List.pairwise_cons.mpr ⟨fun z hz => ?_, h⟩
      rcases List.mem_cons.mp hz with e | e
      · exact e ▸ hxy
      · exact trans x y z hxy (h'.1 z e)
    · rename_i hxy
      refine List.pairwise_cons.mpr ⟨fun z hz => ?_, ih h'.2⟩
      rcases List.mem_cons.mp ((insertBy_perm le x r).mem_iff.mp hz) with e | e
      · exact e ▸ total x y (by simpa using hxy)
      · exact h'.1 z e

/-- The sorted list is in order. -/
theorem pairwise_sortBy (le : α → α → Bool) (total : ∀ a b, le a b = false → le b a = true)
    (trans : ∀ a b c, le a b = true → le b c = true → le a c = true) (l : List α) :
    (sortBy le l).Pairwise (fun a b => le a b = true) := by
  induction l with
  | nil => exact .nil
  | cons x r ih => exact pairwise_insertBy le total trans x _ ih

/-- The lanes in the order of `$tid` are the lanes. -/
@[simp] theorem Wave.mem_byTid (w : Wave) (ls : List Nat) (l : Nat) : l ∈ w.byTid ls ↔ l ∈ ls := mem_sortBy _ _ _

/-- They rise in `$tid`. -/
theorem Wave.byTid_sorted (w : Wave) (ls : List Nat) : (w.byTid ls).Pairwise (fun a b => (w.lane a).tid ≤ (w.lane b).tid) := by
  have h := pairwise_sortBy (fun a b => decide ((w.lane a).tid ≤ (w.lane b).tid))
    (fun a b e => by simp only [decide_eq_false_iff_not, decide_eq_true_eq] at *; omega)
    (fun a b c e f => by simp only [decide_eq_true_eq] at *; omega) ls
  exact h.imp (fun e => by simpa using e)

end Sys2Proof.Machine
end

