-- ==== Sys2Proof/Laws/Transfer.lean ====
section
/-! SUPPORT. Control transfers: the accesses of several lanes that all pass, lanes that enter blocks, and an instruction that
transfers its active lanes. -/

namespace Sys2Proof.Machine

theorem mem_issuingSet_lt {w : Wave} {l : Nat} (hm : l ∈ w.issuingSet) : l < w.lanes.length := by
  unfold Wave.issuingSet at hm
  split at hm
  · simp at hm
  · have := List.mem_of_mem_filter hm
    unfold Wave.ready at this
    split at this
    · simp at this
    · have := List.mem_of_mem_filter this
      simpa [Wave.idx] using this

/-- An active lane is a lane of the wave and of the issuing set. -/
theorem mem_active {i : Instr} {s : State} {l : Nat} (h : l ∈ active i s) : l < s.cur.lanes.length ∧ l ∈ s.cur.issuingSet := by
  have hm := List.mem_of_mem_filter h
  exact ⟨mem_issuingSet_lt hm, hm⟩

theorem nodup_active (i : Instr) (s : State) : (active i s).Nodup := (nodup_issuingSet _).filter _

theorem minNat_const (l : List Nat) (c : Nat) (h : ∀ x ∈ l, x = c) (hn : l ≠ []) : minNat l = some c := by
  unfold minNat
  have key : ∀ (l : List Nat), (∀ x ∈ l, x = c) → List.foldl (fun b x => match b with | none => some x | some y => some (min x y)) (some c) l = some c := by
    intro l; induction l with
    | nil => intro _; rfl
    | cons a r ih => intro h; simp only [List.foldl_cons]; rw [h a (by simp)]; simp; exact ih (fun x hx => h x (by simp [hx]))
  cases l with
  | nil => exact absurd rfl hn
  | cons a r => simp only [List.foldl_cons]; rw [h a (by simp)]; exact key r (fun x hx => h x (by simp [hx]))

theorem verdict_ok (rs : List (Nat × LaneAcc)) (h : ∀ r ∈ rs, ∃ a, r.2 = .ok a) : verdict rs = .ok := by
  unfold verdict
  have hm : missesOf rs = [] := by
    unfold missesOf
    rw [List.filterMap_eq_nil_iff]
    intro r hr
    obtain ⟨a, ha⟩ := h r hr
    simp [ha]
  rw [hm]
  by_cases hn : rs = []
  · subst hn; rfl
  · have : minNat (rs.map (fun r => r.2.order)) = some 100 := by
      apply minNat_const
      · intro x hx
        simp only [List.mem_map] at hx
        obtain ⟨r, hr, rfl⟩ := hx
        obtain ⟨a, ha⟩ := h r hr
        simp [ha, LaneAcc.order]
      · simp [hn]
    simp [this]

/-- Accesses that all pass the checks let the instruction go on. -/
theorem failed_none (s : State) (act : List Nat) (ea : Nat → Nat) (rs : List (Nat × LaneAcc)) (all : Bool)
    (h : ∀ r ∈ rs, ∃ a, r.2 = .ok a) : failed s act ea rs all = none := by
  unfold failed
  rw [verdict_ok rs h]

theorem foldl_enter_sansIssue (w : Wave) (ls : List Nat) (h len : Nat → Nat) :
    (ls.foldl (fun w l => w.enter [l] (h l) (len l)) w).sansIssue = w.sansIssue := by
  induction ls generalizing w with
  | nil => rfl
  | cons a r ih => simp only [List.foldl_cons]; rw [ih, Wave.sansIssue_enter]
theorem Wave.lane_enter_one (w : Wave) (l k h len : Nat) : (w.enter [l] h len).lane k =
    if k = l ∧ l < w.lanes.length then { w.lane l with vpc := h + 1, blk := h, blkEnd := h + len, bad := false } else w.lane k :=
  w.lane_modLane l k (fun x => { x with vpc := h + 1, blk := h, blkEnd := h + len, bad := false })
theorem Wave.length_enter_one (w : Wave) (l h len : Nat) : (w.enter [l] h len).lanes.length = w.lanes.length :=
  w.length_modLane l (fun x => { x with vpc := h + 1, blk := h, blkEnd := h + len, bad := false })
theorem foldl_enter_lane (w : Wave) (ls : List Nat) (h len : Nat → Nat) (hn : ls.Nodup) (k : Nat) :
    (k ∉ ls → (ls.foldl (fun w l => w.enter [l] (h l) (len l)) w).lane k = w.lane k) ∧
    (k ∈ ls → k < w.lanes.length → (ls.foldl (fun w l => w.enter [l] (h l) (len l)) w).lane k =
      { w.lane k with vpc := h k + 1, blk := h k, blkEnd := h k + len k, bad := false }) := by
  induction ls generalizing w with
  | nil => simp
  | cons a r ih =>
    simp only [List.nodup_cons] at hn
    simp only [List.foldl_cons, List.mem_cons, not_or]
    have ih := ih (w.enter [a] (h a) (len a)) hn.2
    rw [Wave.length_enter_one] at ih
    by_cases e : k = a
    · subst e
      refine ⟨fun x => absurd rfl x.1, fun _ hk => ?_⟩
      rw [ih.1 hn.1, Wave.lane_enter_one]; simp [hk]
    · refine ⟨fun x => by rw [ih.1 x.2, Wave.lane_enter_one]; simp [e], fun x hk => ?_⟩
      rw [ih.2 (x.resolve_left e) hk, Wave.lane_enter_one]; simp [e]

theorem foldl_pairs (act : List Nat) (g : Nat → Target) (h len : Nat → Nat) (w : Wave)
   (hg : ∀ l ∈ act, g l = .ok (h l) (len l)) :
   (act.map (fun l => (l, g l))).foldl (fun w p => match p.2 with | .ok h len => w.enter [p.1] h len | .no _ => w) w =
   act.foldl (fun w l => w.enter [l] (h l) (len l)) w := by
  induction act generalizing w with
  | nil => rfl
  | cons a r ih =>
    simp only [List.map_cons, List.foldl_cons]
    rw [hg a (by simp)]
    exact ih _ (fun l hl => hg l (by simp [hl]))

theorem transfer_ok (s s' : State) (act : List Nat) (tgt : Nat → Int) (h len : Nat → Nat)
    (hh : ∀ l ∈ act, s.header s.cur (h l) = .ok (len l)) (ht : ∀ l ∈ act, tgt l = h l) :
    transferAll s s' act tgt = .jump { s' with cur := act.foldl (fun w l => w.enter [l] (h l) (len l)) s'.cur } act := by
  have hg : ∀ l ∈ act, s.target (tgt l) = .ok (h l) (len l) := by
    intro l hl
    unfold State.target
    rw [ht l hl]
    simp [hh l hl]
  unfold transferAll
  dsimp only
  rw [failed_none]
  · exact congrArg (fun w => Res.jump { s' with cur := w } act)
      (foldl_pairs act (fun l => s.target (tgt l)) h len s'.cur hg)
  · intro r hr
    simp only [List.map_map, List.mem_map, Function.comp] at hr
    obtain ⟨l, hl, rfl⟩ := hr
    rw [hg l hl]
    exact ⟨_, rfl⟩

theorem foldl_enter_alike (w : Wave) (ls : List Nat) (h len : Nat → Nat) :
    w.Alike (ls.foldl (fun w l => w.enter [l] (h l) (len l)) w) := by
  induction ls generalizing w with
  | nil => exact .refl w
  | cons a r ih => exact (w.alike_enter [a] (h a) (len a)).trans (ih _)

theorem foldl_enter_ovr (w : Wave) (ls : List Nat) (h len : Nat → Nat) (k : Nat) :
    k ∈ (ls.foldl (fun w l => w.enter [l] (h l) (len l)) w).ovr ↔ k ∈ w.ovr ∧ k ∉ ls := by
  induction ls generalizing w with
  | nil => simp
  | cons a r ih =>
    simp only [List.foldl_cons, List.mem_cons, not_or]
    rw [ih]
    have e : k ∈ (w.enter [a] (h a) (len a)).ovr ↔ k ∈ w.ovr ∧ k ≠ a := by
      show k ∈ w.ovr.filter (fun l => !([a] : List Nat).contains l) ↔ _
      simp
    rw [e, and_assoc]

/-- The state after a transfer whose lanes have entered their blocks, `v` being the wave then, told from the state `u` before. -/
theorem transfers_of_retires (i : Instr) (s u t : State) (v : Wave) (h len : Nat → Nat) (hr : Ready i s)
    (hl : u.cur.lanes.length = s.cur.lanes.length) (hal : u.cur.Alike v) (hsi : v.sansIssue = u.cur.sansIssue)
    (hov : ∀ k, k ∈ v.ovr ↔ k ∈ u.cur.ovr ∧ k ∉ active i s)
    (hin : ∀ k ∈ active i s, v.lane k = { u.cur.lane k with vpc := h k + 1, blk := h k, blkEnd := h k + len k, bad := false })
    (hout : ∀ k, k ∉ active i s → v.lane k = u.cur.lane k)
    (ht : exec i s = .next t)
    (hR : Retires s (u.withCur v) t (s.cur.issuingSet.filter (fun l => !(active i s).contains l)) True) :
    Transfers i s u h len := by
  obtain ⟨hM, hC⟩ := hR
  have hnb : ∀ x : Lane, (u.withCur v).nextBlock x = u.nextBlock x := by
    intro x
    unfold State.nextBlock
    dsimp only
    rw [show (u.withCur v).header (u.withCur v).cur (x.blkEnd + 1) = u.header u.cur (x.blkEnd + 1) from
      (u.header_withCur v v hal.pw _).trans (hal.header u _)]
  have hlen : v.lanes.length = u.cur.lanes.length := by
    have := congrArg (fun x : Wave => x.lanes.length) hsi
    simpa [Wave.sansIssue] using this
  have htm : v.tm = u.cur.tm := by obtain ⟨l, o, rfl⟩ := hal; rfl
  have hne : v.lanes ≠ [] := by
    intro e
    obtain ⟨l, hl'⟩ := List.exists_mem_of_ne_nil _ hr.2.2.2.2.2.2.2.2.2
    have := (mem_active hl').1
    rw [← hl, ← hlen, e] at this
    simp at this
  have hmem : ∀ l, l ∈ s.cur.issuingSet.filter (fun l => !(active i s).contains l) ↔ l ∈ s.cur.issuingSet ∧ l ∉ active i s := by
    intro l; simp
  refine ⟨t, ht, ?_, fun l hl' => ?_, fun l hi hna => ?_, fun l hni => ?_, fun ho => hM.cleared (.inl trivial) ho,
    fun ho => ?_, fun e => ⟨fun p => ?_, fun l => ?_⟩⟩
  · rw [hM.same]
    simp only [State.sansIssue, State.withCur_cur, hsi]
    rfl
  · rw [hM.stays l (fun x => ((hmem l).mp x).2 hl')]
    exact hin l hl'
  · have e : (u.withCur v).cur.lane l = u.cur.lane l := hout l hna
    have hlt : l < (u.withCur v).cur.lanes.length := by
      show l < v.lanes.length
      rw [hlen, hl]; exact mem_issuingSet_lt hi
    by_cases hv : (u.cur.lane l).vpc < (u.cur.lane l).blkEnd
    · rw [if_pos hv, ← e]
      exact hM.moved l ((hmem l).mpr ⟨hi, hna⟩) hlt (by rw [e]; exact hv)
    · rw [if_neg hv, ← hnb, ← e]
      exact hM.passes l ((hmem l).mpr ⟨hi, hna⟩) hlt (by rw [e]; omega)
  · rw [hM.stays l (fun x => hni ((hmem l).mp x).1)]
    exact hout l (fun x => hni (mem_active x).2)
  · rw [hM.kept (fun x => ho x.2)]
    exact hal.wgrp
  · have := (hC (htm.trans e)).counts hne p
    rw [this]
    simp only [State.withCur_cur, hal.counts]
  · have := (hC (htm.trans e)).overrides hne l
    rw [this]
    simp only [State.withCur_cur, hov l, hmem l]
    by_cases ha : l ∈ active i s
    · simp [ha]
    · rw [hout l ha]
      simp only [ha, not_false_eq_true, and_true, true_and]

/-- A body that enters blocks in its active lanes transfers them (R92). -/
theorem transfers_of_jump (i : Instr) (s u : State) (h len : Nat → Nat) (body : List Nat → List Nat → State → Res) (hr : Ready i s)
   (he : exec i s = issue i s body) (hl : u.cur.lanes.length = s.cur.lanes.length)
   (hb : body s.cur.issuingSet (active i s) (s.taskWide i) =
     .jump { u with cur := (active i s).foldl (fun w l => w.enter [l] (h l) (len l)) u.cur } (active i s)) : Transfers i s u h len := by
  obtain ⟨t, ht, hR⟩ := issue_jump i s _ _ body hr hb
  have hln := fun k => foldl_enter_lane u.cur (active i s) h len (nodup_active i s) k
  exact transfers_of_retires i s u t _ h len hr hl (foldl_enter_alike u.cur (active i s) h len)
    (foldl_enter_sansIssue u.cur (active i s) h len) (foldl_enter_ovr u.cur (active i s) h len)
    (fun k hk => (hln k).2 hk (by rw [hl]; exact (mem_active hk).1)) (fun k hk => (hln k).1 hk) (by rw [he, ht]) hR

end Sys2Proof.Machine
end

