-- ==== Sys2Proof/Tests/Slice0.lean ====
section
/-! SUPPORT. Tests: words of the specification, ill-formed terms, and a small state in which the hypotheses of each
statement are met. -/

namespace Sys2Proof.Tests

open Sys2Proof.Machine

set_option maxRecDepth 100000

/-! ### A small machine: one grid, one team, one wave of 16 lanes at word 1 of its code -/

/-- A page of 64 KiB at the physical address that equals its virtual one, readable, writable and executable. -/
def page (a : Nat) : TlbEntry := { asid := 0, size := 0, va := a, w0 := BitVec.ofNat 64 (a + 0x1F), w1 := 0 }
/-- A block header (R48). -/
def hdr (n : Nat) : Nat := 0xFE * 2 ^ 56 + n * 2 ^ 46
/-- Memory with 64-bit words at an address. -/
def withWords (m : List Host.Cell) (a : Nat) (ws : List Nat) : List Host.Cell :=
  let bs := ws.flatMap (fun w => leBytes 8 w)
  (List.range bs.length).foldl (fun m k => Memory.write m (a + k) (bs.getD k 0)) m
/-- Two blocks of code, of three words and of two, a dispatch table that names the second, and a handler. -/
def mem0 : List Host.Cell := withWords (withWords (withWords [] 0x10000 [hdr 3, 0, 0, 0, hdr 2]) 0x10100 [4]) 0x10200 [hdr 2]
def grid0 : Grid :=
  { Grid.zero with
    p := { LaunchPkt.zero with code := 0x10000, codeLen := 8, table := 0x10100, tabLen := 2, scratch := 4096, acc := 4 },
    ctx := { Ctx.zero with status := 0x30000, trapSeg := 0x10200, trapLen := 4, trapArea := 0x20000, stack := 256 },
    nextTeam := 1 }
def lane0 (l : Nat) : Lane :=
  { Lane.zero with tid := l, vpc := 1, blk := 0, blkEnd := 3, st := .run, v := if l = 0 then [] else [(0, BitVec.ofNat 32 l)] }
def wave0 : Wave := { Wave.nobody with lanes := [lane0 0, lane0 1, lane0 2, lane0 3, lane0 4, lane0 5, lane0 6, lane0 7, lane0 8, lane0 9, lane0 10, lane0 11,
    lane0 12, lane0 13, lane0 14, lane0 15], slot := true, s := [(2, 0xFFFF), (6, 0xFFFF)] }
def team0 : Team := { Team.zero with waves := 1 }
def core0 : Core := { Core.zero with tlb := [page 0x10000, page 0x20000] }
def st0 : State :=
  { State.reset with cur := wave0, grids := [grid0], teams := [team0], cores := [(0, core0)], power := .p0, mem := mem0,
                     gtc := 1000 }

/-- Guard p15, which always holds. -/
def gT : BitVec 5 := 15
def fA (ty : Ty) : FmtA := { g := gT, vd := 4, va := 0, vb := 2, ma := false, mb := false, ty := ty, minor := 0, rnd := 0, sat := false, p := false }
def fB (ty : Ty) : FmtB := { g := gT, vd := 4, va := 0, vb := 2, vc := 6, ma := false, mb := false, mc := false, ty := ty, rnd := 0, p := false, minor := 0 }
def fD : FmtD := { g := gT, rd := 4, minor := 0, p := false, imm := 7 }
def fS (ty : Ty) : FmtS := { g := gT, sd := 4, sa := 5, sb := 6, ma := false, mb := false, ty := ty, minor := 0, i := false, imm := 0 }
def fSV : FmtSV := { g := gT, sr := 4, vr := 2, m := false, p := false, ty := .u32, minor := 0, lane := 15 }
def fJ : FmtJ := { g := gT, reg := 0, m := false, k := 0, off := 0 }

/-- The small machine with another wave, or with scalar registers of its own. -/
def withWave (f : Wave → Wave) : State := { st0 with cur := f wave0 }
def withS (xs : List (Nat × Nat)) : State := withWave (fun w => { w with s := xs.map (fun x => (x.1, BitVec.ofNat 64 x.2)) })
/-- Only the listed lanes hold predicate 0, which the guard of `g0` asks for. -/
def g0 : BitVec 5 := 0
def onlyLane (l : Nat) (w : Wave) : Wave := w.modLane l (fun x => { x with p := 1 })

/-- Instructions that are ready, by evaluation. -/
theorem all_ready (l : List Instr) (s : State) (h : l.all (fun i => decide (Ready i s)) = true) : ∀ i ∈ l, Ready i s :=
  fun i hi => of_decide_eq_true (List.all_eq_true.mp h i hi)

/-! ### Registers (R52 to R96, R131 to R152) -/

def intInstrs : List Instr :=
  [.vadd (fA .u32), .vsub (fA .s32), .vmul (fA .u64), .vmulh (fA .s32), .vmin (fA .s64), .vmax (fA .u32), .vabsd (fA .s32),
   .vmad (fB .s64), .vand (fA .u32), .vor (fA .u64), .vxor (fA .u32), .vshl (fA .u64), .vshr (fA .u32), .vsar (fA .s64),
   .vrot { fA .u32 with minor := 1 }, .vsel (fB .u64), .vext (fB .s32), .vins (fB .u32), .vaddc (fA .u32), .vcmp { fA .s64 with minor := 5 },
   .vmovi fD, .vtos fSV, .stov { fSV with lane := 0 }]
def unaryInstrs : List Instr :=
  [Instr.vnot, .vclz, .vpopc, .vbrev, .vmov].map (fun c => c { fA .u64 with vb := 0 })
theorem test_ready_integer : ∀ i ∈ intInstrs ++ unaryInstrs, Ready i st0 := all_ready _ _ (by decide)

def laneInstrs : List Instr :=
  [.vshfl (fB .u32), .vbcast (fA .u64), .vvote { fA .u32 with va := 1, minor := 3 }, .vvote { fA .u32 with va := 1, minor := 2, vd := 40 },
   .vcompact (fA .u32), .vred (fA .s32), .vscan { fA .u64 with minor := 13 }]
theorem test_ready_lanes : ∀ i ∈ laneInstrs, Ready i st0 := all_ready _ _ (by decide)
/-- Every active lane, the last one too, is a member of the mask. -/
theorem test_lanes_members : (∀ l ∈ active (.vshfl (fB .u32)) st0, tbit (st0.cur.getS 6) l = true) ∧
    (∀ l ∈ st0.cur.issuingSet, tbit (st0.cur.getS 2) l = true) ∧ 15 ∈ st0.cur.issuingSet := by decide

/-- No lane is a member of the mask in a register that holds 0. -/
theorem test_lanes_strangers : (∀ i ∈ [Instr.vshfl { fB .u32 with vc := 8 }, .vvote { fA .u32 with va := 1, vb := 8 }, .vcompact { fA .u32 with vb := 8 },
    .vred { fA .u32 with vb := 8 }, .vscan { fA .u32 with vb := 8 }], Ready i st0) ∧ tbit (st0.cur.getS 8) 15 = false ∧
    15 ∈ active (.vshfl { fB .u32 with vc := 8 }) st0 := ⟨all_ready _ _ (by decide), by decide, by decide⟩

def scalarInstrs : List Instr :=
  [.sadd (fS .u32), .ssub { fS .s64 with sb := 0, i := true, imm := 0x7FFFF }, .smul (fS .s32), .smad (fS .u64), .sand (fS .u64),
   .sor (fS .u32), .sxor (fS .u32), .sshl (fS .u64), .sshr (fS .u32), .ssar (fS .s32), .smov { fS .u64 with sb := 0 },
   .scmp { fS .s32 with minor := 5 }, .smovi { fD with minor := 2 }]
theorem test_ready_scalar : ∀ i ∈ scalarInstrs, Ready i st0 := all_ready _ _ (by decide)

def floatInstrs : List Instr :=
  [.fadd (fA .f32), .fsub (fA .f64), .fmul { fA .f32 with rnd := 3 }, .fmin (fA .f64), .fmax (fA .f32), .hadd2 (fA .f16), .hmul2 (fA .bf16),
   .ffma { fB .f64 with rnd := 3 }, .hfma2 (fB .bf16), .fdot2 (fB .f16), .fcmp { fA .f64 with minor := 7 }, .fscale (fA .f64)]
def floatUnary : List Instr :=
  ([Instr.fclass, .fround, .fexp, .fman, .frcp, .frsq, .fsqrt].map (fun c => c { fA .f64 with vb := 0 })) ++
  ([Instr.fex2, .flg2, .fsin2, .fcos2].map (fun c => c { fA .f16 with vb := 0 })) ++
  [.fcvt { fA .u32 with vb := 0, minor := 0x13, rnd := 4 }, .fcvt { fA .u32 with vb := 0, minor := 0x61 }, .fcvti { fA .u32 with vb := 0, minor := 0x71 },
   .icvtf { fA .u32 with vb := 0, minor := 0x1E }]
theorem test_ready_float : ∀ i ∈ floatInstrs ++ floatUnary, Ready i st0 := all_ready _ _ (by decide)
/-- Numbers, a quiet and a signalling NaN of each format, and the codes of an integer. -/
theorem test_float_codes : finiteCode fF64 0x7FEFFFFFFFFFFFFF ∧ finiteCode fF32 0x7F7FFFFF ∧ finiteCode fF16 0x7BFF ∧ finiteCode fBf16 0x80 ∧
    nanCode fF32 0x7FC00001 ∧ sigCode fF32 0x7F800001 ∧ nanCode fF64 0x7FF8000000000000 ∧ sigCode fF64 0x7FF0000000000001 ∧
    ¬ nanCode fF32 0x7F800000 ∧ fmtOf 0 = fF64 ∧ fmtOf 3 = fBf16 ∧ finiteCode (fmtOf 2) 1 := by unfold sigCode nanCode finiteCode; decide
def fFstat : FmtA := { fA .u32 with vb := 0 }
theorem test_ready_fstat : Ready (.fstat fFstat) st0 ∧ st0.flagsDue st0.cur (active (.fstat fFstat) st0) = false := by decide

/-- `br` to the second block, `call`, `ret` and `brd` through the table's first entry. -/
def fBr : FmtJ := { fJ with off := 3 }
theorem test_ready_br : Ready (.br fBr) st0 ∧ st0.header st0.cur 4 = .ok 2 ∧ (4 : Int) = st0.at_ + fBr.off.toInt := by decide
def jumpInstrs : List Instr := [.call { fBr with reg := 2 }, .exit fJ, .join { fJ with reg := 2, k := 7 }, .joinAct { fJ with k := 7 }, .wait { fJ with k := 7 }]
theorem test_ready_jumps : ∀ i ∈ jumpInstrs, Ready i st0 := all_ready _ _ (by decide)
/-- The register that names the target, 0 in every lane. -/
def fRet : FmtJ := { fJ with reg := 2 }
theorem test_ready_ret : Ready (.ret fRet) st0 ∧ st0.header st0.cur 0 = .ok 3 ∧
    ∀ l ∈ active (.ret fRet) st0, 0 = (st0.cur.readV false l 2).toNat := by decide
theorem test_ready_brd : Ready (.brd fRet) st0 ∧
    ∀ l ∈ active (.brd fRet) st0, tableEntry st0 (st0.cur.lane l).tid (st0.cur.readV false l 2).toNat = .ok 4 := by decide

/-- Targets that are none: before the segment, at a word that is no header, and of some lanes; a table that names such a word. -/
theorem test_astray : (∀ i ∈ [Instr.br { fJ with off := 1 }, .call { fJ with off := 1 }], Ready i st0) ∧ st0.header st0.cur 2 = .bad ∧
    (st0.at_ : Int) + (fJ.off + 1).toInt = 2 := ⟨all_ready _ _ (by decide), by decide, by decide⟩
theorem test_before_segment : Ready (.br { fJ with off := -2 }) st0 ∧ (st0.at_ : Int) + ({ fJ with off := -2 } : FmtJ).off.toInt < 0 := by decide
theorem test_ret_astray : Ready (.ret fJ) st0 ∧
    (active (.ret fJ) st0).filter (fun l => st0.header st0.cur (st0.cur.readV false l 0).toNat == .bad) = [1, 2, 3, 5, 6, 7, 8, 9, 10, 11, 12, 13, 14, 15] ∧
    st0.header st0.cur 4 = .ok 2 := by decide
def stTable : State := { st0 with mem := withWords mem0 0x10100 [2] }
theorem test_brd_astray : Ready (.brd fRet) stTable ∧ st0.header st0.cur 2 = .bad ∧
    ∀ l ∈ active (.brd fRet) stTable, tableEntry stTable (stTable.cur.lane l).tid (stTable.cur.readV false l 2).toNat = .ok 2 := by decide

/-- A mask of lane 0 armed: the lane's `wait` completes it; a mask of every lane armed: one lane's `wait` parks. -/
def armed (e : BitVec 64) (w : Wave) : Wave := { onlyLane 0 w with rejoin := w.rejoin.set 7 ⟨true, e, 0⟩ }
def fWait : FmtJ := { fJ with g := g0, k := 7 }
theorem test_unarmed : (st0.cur.rejoin.getD 7 Rejoin.zero).armed = false := by decide
def stParks : State := withWave (armed 0xFFFF)
def stMeets : State := withWave (armed 1)
theorem test_wait_parks : Ready (.wait fWait) stParks ∧ active (.wait fWait) stParks = [0] ∧
    (stParks.cur.rejoin.getD 7 Rejoin.zero).armed = true ∧ stParks.cur.tm = false := by decide
theorem test_wait_meets : Ready (.wait fWait) stMeets ∧ active (.wait fWait) stMeets = [0] ∧
    (stMeets.cur.rejoin.getD 7 Rejoin.zero).armed = true ∧ stMeets.cur.tm = false := by decide
theorem test_wait_covers : (1#64) &&& ~~~(0 ||| maskOf [0]) = 0 ∧ (0xFFFF#64) &&& ~~~(0 ||| maskOf [0]) ≠ 0 := by decide

/-- A `join` of no lane meets at once; every other lane is parked on the mask 6 when lane 0 waits on the mask 7, which asks for lane 1. -/
theorem test_join_meets : Ready (.join { fJ with reg := 8, k := 7 }) st0 ∧ st0.cur.getS 8 &&& maskOf st0.cur.liveLanes = 0 ∧
    st0.cur.getS 2 &&& maskOf st0.cur.liveLanes ≠ 0 ∧ maskOf (active (.joinAct { fJ with k := 7 }) st0) &&& maskOf st0.cur.liveLanes ≠ 0 := by decide
def parkRest (x : Lane) : Lane := if x.tid = 0 then x else { x with st := .parked 6 }
def stStuck : State :=
  withWave (fun w => let v := armed 2 w; { v with rejoin := v.rejoin.set 6 ⟨true, 1, 0xFFFE⟩, lanes := v.lanes.map parkRest })
theorem test_wait_stuck : Ready (.wait fWait) stStuck ∧ active (.wait fWait) stStuck = [0] ∧
    (stStuck.cur.rejoin.getD 7 Rejoin.zero).armed = true ∧ (2#64) &&& ~~~(0 ||| maskOf [0]) ≠ 0 ∧
    (stStuck.cur.liveLanes.all (fun l => match ((stStuck.cur.modLanes [0] (fun x => { x with st := .parked 7 })).lane l).st with
      | .parked _ => true | _ => false)) = true ∧
    (stParks.cur.lane 1).st = .run := by decide

/-- `exit` by one lane of the wave, and by all. -/
def fExit : FmtJ := { fJ with g := g0 }
theorem test_exit_one : Ready (.exit fExit) (withWave (onlyLane 3)) ∧ (withWave (onlyLane 3)).stickyCheck [3] = none ∧
    (withWave (onlyLane 3)).cvTick.cvTrapAny (List.range 16) = none ∧
    (withWave (onlyLane 3)).cvTick.engineRoom ((withWave (onlyLane 3)).cvTick.cvExitIssues wave0.key [3]) = true ∧
    4 ∈ (withWave (onlyLane 3)).cur.liveLanes ∧ active (.exit fExit) (withWave (onlyLane 3)) = [3] := by decide
def fenced : State := match st0.cvTick.fenceStep none with | .ready u => u | _ => st0
theorem test_exit_all : (∀ l ∈ st0.cur.liveLanes, l ∈ active (.exit fJ) st0) ∧ st0.cvTick.fenceStep none = .ready fenced ∧
    fenced.cur.task = none ∧ fenced.cur.pend = [] ∧ fenced.producing = false ∧ st0.stickyCheck (List.range 16) = none ∧
    st0.cvTick.cvTrapAny st0.cur.issuingSet = none ∧ fenced.engineRoom (fenced.cvExitIssues wave0.key (List.range 16)) = true := by decide

/-! ### Memory (R97 to R103, R227 to R240) -/

/-- Scalar registers 4 and 5: the scratchpad window, and a class-2 address of the page at 0x20000. -/
def stM : State := withS [(4, 0xFFFFFF0000000000), (5, 0x20000)]
/-- The last word of the scratchpad. -/
def fM : FmtM := { g := gT, rd := 4, base := 32, scalar := true, m := false, width := 2, space := 1, cache := 0, scope := 0, off := 4092 }
def accM : Access := ⟨(List.range 4).map (fun k => scrLoc 0 (4092 + k)), 0, false, false, 0⟩
def memInstrs : List Instr :=
  [.ld fM, .st fM, .sld fM, .sst fM, .lda { fM with width := 0 }, .pf { fM with rd := 0, width := 0 }, .fence { g := gT, order := 3, scope := 5 },
   .fence { g := gT, order := 2, scope := 4 }]
theorem test_ready_memory : ∀ i ∈ memInstrs, Ready i stM := all_ready _ _ (by decide)
theorem test_access_load : (∀ l ∈ active (.ld fM) stM,
    checkAccess stM stM.cur false needLoad 1 (stM.cur.lane l).tid (stM.cur.effAddr fM l) 4 = .ok accM) ∧
    checkAccess stM stM.cur false needLoad 1 (stM.cur.lane (stM.cur.lowestTid (active (.sld fM) stM))).tid (stM.cur.effAddr fM 0) 4 =
      .ok accM := by decide
theorem test_access_store : ∀ l ∈ active (.st fM) stM,
    checkAccess stM stM.cur false needStore 1 (stM.cur.lane l).tid (stM.cur.effAddr fM l) 4 = .ok accM := by decide
/-- In walker mode, a physical access to the last page but one. -/
def stWalk : State := withWave (fun w => { w with walker := true, s := [(4, 0x20000)] })
theorem test_access_walker : Ready (.ld { fM with space := 0, off := 0 }) stWalk ∧
    walkerAccess stWalk needLoad 0x20000 4 = .ok ⟨(List.range 4).map (0x20000 + ·), 0, false, false, 0⟩ := by decide
/-- One lane stores, the wave holds no store of a speculation. -/
def stM1 : State := withWave (fun w => { onlyLane 3 w with s := [(4, 0xFFFFFF0000000000)] })
def fM1 : FmtM := { fM with g := g0 }
theorem test_store_one : Ready (.st fM1) stM1 ∧ active (.st fM1) stM1 = [3] ∧ accM.locs.Nodup ∧ stM1.cur.hold = [] ∧
    checkAccess stM1 stM1.cur false needStore 1 3 (stM1.cur.effAddr fM1 3) 4 = .ok accM := by decide

/-- A load of lane 15 into v9 is pending. -/
def pend0 : Pend :=
  { id := 0, scalar := none, elems := [⟨15, 9, 77, ⟨[], false, false, []⟩⟩], regs := [9], spec := false, fabric := false, moves := false, before := 0,
    counted := false }
def stPend : State := withWave (fun w => { w with pend := [pend0], vEmpty := [9], why := .regs })
theorem test_load_return : stPend.findWave stPend.cur.key = some stPend.cur ∧ stPend.cur.pend[0]? = some pend0 ∧
    stPend.cur.pend.find? (fun q => q.id == pend0.id && !q.fabric) = some pend0 ∧ pend0.scalar = none ∧ pend0.lateLocs = [] ∧
    (∀ e ∈ pend0.elems, e.src.late = false ∧ e.lane < stPend.cur.lanes.length) ∧ (pend0.elems.map (fun e => (e.lane, e.reg))).Nodup := by decide
/-- Behind it a scalar load of class 3, which is read when it returns. -/
def pend1 : Pend :=
  { pend0 with id := 1, scalar := some (127, 0, ⟨[0x20000], true, true, []⟩), elems := [⟨15, 8, 0, ⟨[0x20001], true, false, []⟩⟩], regs := [8] }
def stPend2 : State := withWave (fun w => { w with pend := [pend0, pend1], vEmpty := [8, 9], sEmpty := [127] })
theorem test_late_return : stPend2.cur.pend[1]? = some pend1 ∧ stPend2.cur.pend.find? (fun q => q.id == pend1.id && !q.fabric) = some pend1 ∧
    pend1.lateLocs ≠ [] ∧ ∀ q ∈ stPend2.cur.pend, q.id < pend1.id → ∀ loc ∈ q.lateLocs, loc ∉ pend1.lateLocs := by decide

def fSort : FmtSort := { g := gT, va := 0, ma := false, desc := true, mask := 1 }
def fGrow : FmtGrow := { g := gT, pd := 3, try_ := true, n := 15 }
def fGrowW : FmtGrow := { fGrow with pd := 0, try_ := false, n := 1 }
/-- Where the core's register file is full: four waves of the largest allotment. -/
def stFull : State :=
  { st0 with rest := (List.range 63).map (fun k => { wave0 with key := ⟨1, 0, k⟩, width := 64, alloc := 1024, lanes := [lane0 0] }) }
theorem test_grow_ready : ∀ i ∈ [Instr.grow fGrow, .grow fGrowW, .sortk fSort], Ready i st0 := all_ready _ _ (by decide)
theorem test_grow_fits : st0.cur.alloc + 64 * 15 = 1024 ∧
    15 * unitsPerGroup st0.cur.width ≤ st0.unitsFree 0 ∧ (st0.coreAt 0).growQ = [] := by decide
theorem test_grow_full : Ready (.grow fGrow) stFull ∧ ¬ 15 * unitsPerGroup stFull.cur.width ≤ stFull.unitsFree 0 := by decide
/-- A wave that stands at a `grow` and is the first in the queue. -/
def stGrow : State :=
  { st0 with mem := withWords mem0 0x10008 [(encode (.grow fGrowW)).toNat], cores := [(0, { core0 with growQ := [wave0.key] })] }
theorem test_grow_served : Ready (.grow fGrowW) stGrow ∧ (stGrow.coreAt 0).growQ.head? = some stGrow.cur.key ∧
    stGrow.findWave stGrow.cur.key = some stGrow.cur ∧ stGrow.standsAt stGrow.cur = some (.grow fGrowW) := by decide
def stWide : State := withWave (fun w => { w with alloc := 128 })
theorem test_shrink : Ready (.shrink fGrowW) stWide ∧ 64 + 64 * 1 ≤ stWide.cur.alloc ∧ stWide.cur.vEmpty = [] ∧
    ∀ x ∈ stWide.cur.lanes, x.written = [] := by decide

/-- Alone in its team; and beside a wave that has not arrived. -/
def stTwo : State := { st0 with rest := [{ wave0 with key := ⟨0, 0, 1⟩ }] }
def sorting (s : State) : State := s.withCur (s.cur.modLanes (List.range 16) (fun x => { x with st := .sort }))
theorem test_sort : (sorting st0).sortReady 0 0 = true ∧ (sorting st0).sortQuiet fSort 0 0 = true ∧ Ready (.sortk fSort) stTwo ∧
    (sorting stTwo).sortReady 0 0 = false ∧ active (.sortk fSort) st0 = List.range 16 := by decide
def stLate : State := withWave (fun w => { w with counts := [(1, Config.overrideBound)] })
theorem test_override : stLate.cur.overdue = some 1 := by decide
def stSlot : State :=
  { st0 with cur := { wave0 with slot := false }, cores := [(0, { core0 with ableQ := [wave0.key] })] }
theorem test_slot : (stSlot.coreAt 0).ableQ = [stSlot.cur.key] ∧ stSlot.findWave stSlot.cur.key = some stSlot.cur ∧
    stSlot.cur.able = true ∧ stSlot.slotsHeld 0 < Config.slotsPerCore := by decide

/-- Atomics of one lane, and of every lane, on the last word of the scratchpad. -/
def fAt : FmtAtom := { g := gT, vd := 8, base := 32, scalar := true, vb := 0, ma := false, mb := false, op := 0, wide := false, order := 0, scope := 0 }
def stA : State := withWave (fun w => { onlyLane 3 w with s := [(4, 0xFFFFFF0000000FFC)] })
theorem test_atomic : (∀ i ∈ [Instr.atom fAt, .red { fAt with vd := 0 }, .atom { fAt with scope := 5, order := 3 }], Ready i stA) ∧
    nonDet stA fAt false = false ∧ stA.cur.task = none ∧ stA.progress = [] ∧ stA.lanesNow = none := ⟨all_ready _ _ (by decide), by decide, by decide, by decide, by decide⟩
theorem test_atomic_access : ∀ l ∈ active (.atom fAt) stA,
    checkAccess stA stA.cur false needAtom 0 (stA.cur.lane l).tid (stA.cur.atomAddr fAt l) 4 = .ok accM := by decide
def fAt1 : FmtAtom := { fAt with g := g0 }
theorem test_atomic_one : Ready (.atom fAt1) stA ∧ active (.atom fAt1) stA = [3] ∧ stA.cur.pw = [] ∧ accM.locs.length = atomSize fAt1 ∧
    checkAccess stA stA.cur false needAtom 0 3 (stA.cur.atomAddr fAt1 3) 4 = .ok accM := by decide
/-- An acquire at `.pod` after an atomic that begins with a release there. -/
def stFenced (s : State) : State := match s.fenceStep none with | .ready u => u | _ => s
theorem test_fence_done : stM.released stM.cur = true ∧ stM.fenceStep none = .ready (stFenced stM) ∧ (stFenced stM).released (stFenced stM).cur = true := by
  decide
def podAtom : State × List (Nat × Nat) := (stFenced stA).atomAll { fAt with scope := 5, order := 3 } ((List.range 16).map (fun l => (l, accM)))
theorem test_atomic_acquire : stA.fenceStep none = .ready (stFenced stA) ∧
    (podAtom.1.progressed podAtom.2).fenceStep none = .ready (stFenced (podAtom.1.progressed podAtom.2)) := by decide

/-- A store of two bytes of which the second is named; a drain, a write of class 3, and a reduction. -/
def pwStore : PWrite := ⟨[(0x20000, 5), (0x20001, 6)], .store, false, false⟩
def stW (e : PWrite) : State := withWave (fun w => { w with pw := [e] })
theorem test_write_ack : (stW pwStore).findWave wave0.key = some (stW pwStore).cur ∧ (stW pwStore).cur.pw = [pwStore] ∧
    (pwStore.bytes.map Prod.fst).Nodup ∧ (stW pwStore).cur.pend = [] ∧ (pwStore.bytes.drop 1).take 1 = [(0x20001, 6)] ∧
    (stW { pwStore with kind := .drain }).cur.pw = [{ pwStore with kind := .drain }] ∧
    (stW { pwStore with fb := true }).cur.pw = [{ pwStore with fb := true }] ∧
    (stW { pwStore with kind := .rmw 0 false 1 0x400 0 }).cur.pw = [{ pwStore with kind := .rmw 0 false 1 0x400 0 }] := by decide

def fSrc : FmtSrc := { g := gT, sa := 5, ma := false }
def fMw : FmtDstSrc := { g := gT, sd := 7, sa := 5, ma := false }
theorem test_mon : Ready (.mon fSrc) stM ∧ checkAccess stM stM.cur false needMon 0 0 0x20000 1 =
    .ok ⟨[0x20000], 0, false, false, 0⟩ := by decide
/-- Monitors that are lost, off, triggered, past the deadline, and watching; the deadline is register 5. -/
def stMon (m : Monitor) (dl : Nat) : State := withWave (fun w => { w with mon := m, s := [(5, BitVec.ofNat 64 dl)] })
def monOn : Monitor := { armed := true, line := 0x20000, trig := false, lost := false }
def stLost : State := stMon { monOn with lost := true } 0
def stTrig : State := stMon { monOn with trig := true } 0
theorem test_mwait_ends : Ready (.mwait fMw) stLost ∧ stLost.cur.mon.lost = true := by decide
theorem test_mwait_off : Ready (.mwait fMw) (stMon Monitor.off 0) := by decide
theorem test_mwait_trig : Ready (.mwait fMw) stTrig ∧ stTrig.cur.mon.armed = true ∧ stTrig.cur.mon.trig = true := by decide
theorem test_mwait_past : Ready (.mwait fMw) (stMon monOn 1000) ∧ (stMon monOn 1000).gtc = 1000 := by decide
theorem test_mwait_future : Ready (.mwait fMw) (stMon monOn 1001) ∧ (stMon monOn 1001).gtc < 1001 := by decide
theorem test_mwait_never : Ready (.mwait fMw) (stMon monOn 0) := by decide
def stSleep (trig : Bool) (dl : Nat) : State :=
  withWave (fun w => { w.modLane 15 (fun x => { x with st := .mwait 7 dl }) with mon := { monOn with trig := trig } })
theorem test_monitor_events : (stSleep true 0).findWave wave0.key = some (stSleep true 0).cur ∧ (stSleep true 0).cur.asleep = [(15, 7, 0)] ∧
    (stSleep false 2000).findWave wave0.key = some (stSleep false 2000).cur ∧ (stSleep false 2000).cur.asleep = [(15, 7, 2000)] := by decide

/-! ### The Turnstile and the matrix engine (R157 to R179, R242 to R246) -/

/-- The last names of the team and of the grid. -/
def fBar (n : BitVec 6) : FmtBar := { g := gT, sa := 0, ma := false, n := n }
def fBmask : FmtBar := { g := gT, sa := 2, ma := false, n := 47 }
theorem test_ready_bar : ∀ i ∈ [Instr.barr (fBar 47), .barr (fBar 63), .barw (fBar 47), .bara (fBar 63), .bmask fBmask], Ready i st0 :=
  all_ready _ _ (by decide)
theorem test_bar_member : st0.stickyCheck (List.range 16) = none ∧ st0.cvTick.cvTrapAny st0.cur.issuingSet = none ∧
    (st0.cvTick.teamOf st0.cvTick.cur).hasMember 47 0 = true ∧ (st0.cvTick.teamOf st0.cvTick.cur).hasMember 63 0 = true ∧
    st0.cvTick.released st0.cvTick.cur = true ∧
    BitVec.ofNat 32 ((st0.cur.getS 2).toNat % 2 ^ (st0.teamOf st0.cur).waves) ≠ 0 ∧
    (∀ x ∈ st0.wavesOf (st0.teamOf st0.cur), ∀ y ∈ x.lanes, 47 ∉ y.arr) := by decide
/-- The wave is no member of the name 46; lanes have arrived at 47; a mask of no wave; a status with an enabled flag. -/
def stBars : State :=
  { st0 with cur := { (wave0.modLane 15 (fun x => { x with arr := [47], flags := 2 })) with s := [(2, 1)] },
             grids := [{ grid0 with trapen := 3 }], teams := [{ team0 with bar := team0.bar.set 46 { team0.name 46 with mask := 2 } }] }
theorem test_bar_stranger : (∀ i ∈ [Instr.barr (fBar 46), .bmask fBmask, .bmask { fBmask with sa := 9 }], Ready i stBars) ∧
    (stBars.cvTick.teamOf stBars.cvTick.cur).hasMember 46 0 = false ∧
    (stBars.teamOf stBars.cur).hasMember 47 stBars.cur.key.wave = true ∧ 47 ∈ (stBars.cur.lane 15).arr ∧
    BitVec.ofNat 32 ((stBars.cur.getS 9).toNat % 2 ^ (stBars.teamOf stBars.cur).waves) = 0 :=
  ⟨all_ready _ _ (by decide), by decide, by decide, by decide, by decide⟩
theorem test_sticky : (∀ i ∈ [Instr.barr (fBar 47), .barw (fBar 47), .bara (fBar 63), .exit fJ], Ready i stBars) ∧ stBars.cur.tm = false ∧
    stBars.flagsDue stBars.cur (List.range 16) = false ∧
    (List.range 16).filter (fun l => (stBars.cur.lane l).flags &&& BitVec.ofNat 6 (stBars.gridOf stBars.cur).trapen.toNat != 0) = [15] :=
  ⟨all_ready _ _ (by decide), by decide, by decide, by decide⟩
/-- A second wave has not arrived at the name 47. -/
theorem test_bar_not_full : ∃ t ∈ stTwo.teams, t.grid = 0 ∧ t.idx = 0 ∧ ∃ w ∈ stTwo.wavesOf t, t.hasMember 47 w.key.wave = true ∧
    ∃ x ∈ w.lanes, x.live = true ∧ 47 ∉ x.arr := by decide
/-- Every lane has arrived at the name 47, lane 0 waits there and lane 1 at another name; and a mask of no wave, with no arrival. -/
def stArrived : State :=
  { st0 with cur := { wave0 with lanes := wave0.lanes.map (fun x => { x with
      arr := [47], st := if x.tid = 0 then .bar 47 0 false false else if x.tid = 1 then .bar 46 3 false false else .run }) } }
theorem test_bar_full : stArrived.scopeTeams 0 0 47 = [team0] ∧ 47 < team0.bar.length ∧ team0.savedWaves = [] ∧ stArrived.barGen 0 0 47 = 0 ∧
    (stArrived.waves.map Wave.key).Nodup ∧ (∀ w ∈ stArrived.waves, w.opens = []) ∧ (∀ w ∈ stArrived.teamWaves 0 0, ∀ x ∈ w.lanes, 47 ∈ x.arr) ∧
    (∃ w ∈ stArrived.teamWaves 0 0, ∃ x ∈ w.lanes, x.st = .bar 47 0 false false) ∧
    ∀ w ∈ stArrived.teamWaves 0 0, ∀ x ∈ w.lanes, (match x.st with | .bar 47 0 true _ => false | _ => true) = true := by decide
theorem test_bmask_none : Ready (.bmask { fBmask with sa := 9 }) st0 ∧ BitVec.ofNat 32 ((st0.cur.getS 9).toNat % 2 ^ (st0.teamOf st0.cur).waves) = 0 ∧
    ∀ x ∈ st0.wavesOf (st0.teamOf st0.cur), ∀ y ∈ x.lanes, 47 ∉ y.arr := by decide

/-- Declarations of 16 members from thread 0, in register 5. -/
def fCv : FmtKey := { g := gT, sa := 5, ma := false, k := 7 }
def cvDecl : Cv := { Cv.zero with gen := 1, st := .declared, s := 16, b := 0 }
def stCv (c : Cv) : State :=
  { st0 with cur := { wave0 with s := [(5, 16)], ownGen := wave0.ownGen.set 7 (some 1) }, teams := [team0.setCv 7 c] }
def word16 : FmtX := { g := gT, va := 0, vb := 16, acc := 3, cv := 7, shape := 8, fa := 2, fb := 2, fc := 15, ma := false, mb := false, z := true }
def stSigned : State := stCv { cvDecl with word := some (signWord (encode (.mma word16)), 0), signed := [15] }
theorem test_cvdecl_ready : Ready (.cvdecl fCv) (stCv Cv.zero) ∧ declLegal 16 ((stCv Cv.zero).gridOf (stCv Cv.zero).cur).threads = true := by decide
theorem test_cvdecl_again : Ready (.cvdecl fCv) (stCv cvDecl) ∧ ((stCv cvDecl).cvOf 7).st = .declared ∧ ((stCv cvDecl).cvOf 7).word = none := by decide
theorem test_cvdecl_adopts : Ready (.cvdecl fCv) stSigned ∧ (stSigned.cvOf 7).word ≠ none ∧ (stSigned.cvOf 7).s = 16 ∧ (stSigned.cvOf 7).b = 0 ∧
    stSigned.cvTick.cvTrap 7 stSigned.cur.issuingSet = none := by decide
/-- Every member signs; and only the thread 15. -/
def stDecl : State := stCv cvDecl
theorem test_mma_last : Ready (.mma word16) stDecl ∧ stDecl.cvTick.cvTrap 7 stDecl.cur.issuingSet = none ∧
    signCheck word16 false 0 (signWord (encode (.mma word16))) stDecl.cur.issuingSet (active (.mma word16) stDecl) stDecl.cvTick = none ∧
    stDecl.cvTick.engineFull = false ∧
    stDecl.engineFull = false := by decide
def stOne : State := { stDecl with cur := onlyLane 15 stDecl.cur }
def word1 : FmtX := { word16 with g := g0 }
theorem test_mma_first : Ready (.mma word1) stOne ∧ active (.mma word1) stOne = [15] ∧
    signCheck word1 false 0 (signWord (encode (.mma word1))) stOne.cur.issuingSet [15] stOne.cvTick = none := by decide
def wordS : FmtX := { word16 with vb := 64 }
theorem test_mmas : Ready (.mmas wordS) stDecl ∧
    signCheck wordS true (stDecl.cur.getS 8).toNat (signWord (encode (.mmas wordS))) stDecl.cur.issuingSet (active (.mmas wordS) stDecl) stDecl.cvTick =
      none := by decide
/-- `mmaw` on a register without a generation of the wave's own, and on one whose generation is done. -/
def fMmaw : FmtCv := { g := gT, k := 7 }
def stDone : State := stCv { cvDecl with st := .done, done := [(1, 4)] }
theorem test_mmaw_none : Ready (.mmaw fMmaw) st0 ∧ st0.cur.ownOf 7 = none := by decide
theorem test_mmaw_done : Ready (.mmaw fMmaw) stDone ∧ stDone.cur.ownOf 7 = some 1 ∧ (stDone.cvTick.cvOf 7).timedMask 1 = none ∧
    mget (stDone.cvTick.cvOf 7).done 1 = some 4 := by decide
/-- The generation of the wave's own has timed out. -/
def stTimed : State := stCv { cvDecl with st := .timedOut, timed := [(1, 0x8000)] }
theorem test_mmaw_timed : (∀ i ∈ [Instr.mmaw fMmaw, .cvdecl fCv], Ready i stTimed) ∧ stTimed.cvTick.cur.ownOf 7 = some 1 ∧
    (stTimed.cvTick.cvOf 7).timedMask 1 = some 0x8000 := ⟨all_ready _ _ (by decide), by decide, by decide⟩
/-- The generation is issued; one that the thread 15 has signed, and a declaration of another size; a size of 9. -/
def stIssued : State := stCv { cvDecl with st := .issued }
theorem test_cv_waits : (∀ i ∈ [Instr.mmaw fMmaw, .cvdecl fCv], Ready i stIssued) ∧ stIssued.cvTick.cvTrap 7 stIssued.cur.issuingSet = none ∧
    (stIssued.cvTick.cvOf 7).st = .issued ∧ stIssued.cvTick.cur.ownOf 7 = some 1 ∧ mget (stIssued.cvTick.cvOf 7).done 1 = none ∧
    (stIssued.cvTick.cvOf 7).timedMask 1 = none := ⟨all_ready _ _ (by decide), by decide, by decide, by decide, by decide, by decide⟩
def stSize (n : Nat) : State := { stSigned with cur := { stSigned.cur with s := [(5, BitVec.ofNat 64 n)] } }
theorem test_cvdecl_other : Ready (.cvdecl fCv) (stSize 8) ∧ declLegal 8 (stSigned.gridOf stSigned.cur).threads = true ∧
    (stSize 8).cvTick.cvTrap 7 (stSize 8).cur.issuingSet = none ∧ ((stSize 8).cvTick.cvOf 7).s = 16 := by decide
theorem test_cvdecl_illegal : Ready (.cvdecl fCv) (stSize 9) ∧ declLegal 9 (stSigned.gridOf stSigned.cur).threads = false ∧
    (stSize 9).cvTick.cvTrap 7 (stSize 9).cur.issuingSet = none := by decide

/-- The engine's queue of the core with one operation. -/
def eMma : EngEntry := { who := wave0.key, tile := 3, op := .mma { word16 with g := 0 } false 0 7 1 16 0 [] 0 [] none, wild := 0 }
/-- An integer operation of 8 members, of which the rank 7 alone has signed. -/
def wordI : FmtX := { word16 with fa := 7, fb := 8, fc := 11, shape := 9, z := false }
def fragI : Frag := { rank := 7, tid := 7, a := List.replicate 32 0xFF7F80FF, b := List.replicate 32 0x80FF017F, alt := [], late := [] }
def eInt : EngEntry := { eMma with op := .mma wordI false 0 7 1 8 0 [fragI] 0 [] none }
def stInt : State := { st0 with cores := [(0, { core0 with engine := [eInt] })] }
theorem test_integer_operation : (stInt.coreAt 0).engine[0]? = some eInt ∧ engineReady (stInt.coreAt 0).engine 0 = true ∧ eInt.wild = 0 ∧
    wordI.fc = 11 ∧ wordI.fa = 7 ∧ wordI.fb = 8 ∧ wordI.shape = 9 := by decide
def stEng (e : EngEntry) : State := { stCv { cvDecl with st := .issued } with cores := [(0, { core0 with engine := [e] })] }
theorem test_engine : ((stEng eMma).coreAt 0).engine[0]? = some eMma ∧ engineReady ((stEng eMma).coreAt 0).engine 0 = true := by decide
def eZero : EngEntry := { who := wave0.key, tile := 3, op := .acczero 15, wild := 0 }
theorem test_engine_zero : ((stEng eZero).coreAt 0).engine[0]? = some eZero ∧ engineReady ((stEng eZero).coreAt 0).engine 0 = true ∧
    ((stEng eZero).teamAt 0 0).core = 0 := by decide
theorem test_timeout : (stSigned.teamAt 0 0).saved = false ∧ ((stSigned.teamAt 0 0).cvAt 7).st = .declared ∧
    ((stSigned.teamAt 0 0).cvAt 7).word ≠ none ∧ stSigned.teamAt 0 0 ∈ stSigned.teams ∧ 7 < (stSigned.teamAt 0 0).cv.length := by decide

def fG : FmtG := { g := gT }
def fTile (fmt : BitVec 4) : FmtTile := { g := gT, reg := 5, m := false, sc := 0, sb := 0, acc := 3, fmt := fmt, scale := false, sat := false, off := 0 }
def tileInstrs : List Instr :=
  [.orf fG, .spfence fG, .acczero { fTile 15 with reg := 0 }, .accld (fTile 11), .accst (fTile 15), .accstReg { fTile 1 with reg := 0, sb := 2 }]
/-- A tile of 4096 elements of four bytes lies in the page at 0x20000. -/
def stTile : State := withS [(5, 0x20000)]
theorem test_ready_tile : ∀ i ∈ tileInstrs, Ready i stTile := all_ready _ _ (by decide)
theorem test_tile_state : stTile.engineFull = false ∧ stTile.cur.vEmpty = [] ∧ stTile.cur.pw = [] ∧ stTile.drains stTile.cur = false ∧
    drainTag 15 (stTile.tagAhead 3) = true ∧ drainTag 1 (stTile.tagAhead 3) = true ∧ stTile.cur.task = none ∧
    (stTile.cur.getS 2).toNat + stTile.cur.width ≤ 64 := by decide
theorem test_tile_range : (match tileRange stTile (fTile 11) needAccld (List.range 16), tileRange stTile (fTile 15) needAccst (List.range 16) with
    | .ok _, .ok _ => true | _, _ => false) = true := by decide +kernel
/-- A store and a drain that are still pending, and an empty register. -/
theorem test_fences_wait : Ready (.orf fG) (stW pwStore) ∧ pwStore.kind ≠ .drain ∧ (stW pwStore).cur.vEmpty = [] ∧
    Ready (.orf fG) (withWave (fun w => { w with vEmpty := [63] })) ∧ Ready (.spfence fG) (stW { pwStore with kind := .drain }) ∧
    (stW { pwStore with kind := .drain }).drains (stW { pwStore with kind := .drain }).cur = true :=
  ⟨by decide, by decide, by decide, by decide, by decide, by decide⟩

/-! ### Tensor records, quantisation and copies (R180 to R194, R215 to R223) -/

/-- An access that passes, by evaluation. -/
theorem passes_of (x : LaneAcc) (p : Access → Bool) (h : (match x with | .ok a => p a | _ => false) = true) :
    ∃ a, x = .ok a ∧ p a = true := by
  cases x with
  | ok a => exact ⟨a, rfl, h⟩
  | trap => cases h
  | miss => cases h
  | fault => cases h

/-- The bytes of a tensor record of one dimension of 32 elements: base, format, element size, scale base, Hadamard size. -/
def recBytes (base fmt size sbase had : Nat) : List Byte :=
  leBytes 8 base ++ leBytes 8 (fmt + 16 + 32 * 2 ^ 32 + 2 ^ 40) ++ leBytes 4 32 ++ List.replicate 20 0 ++ leBytes 8 size ++
  List.replicate 40 0 ++ leBytes 8 sbase ++ List.replicate 8 0 ++ leBytes 4 0x3F800000 ++ List.replicate 12 0 ++ leBytes 8 had ++
  List.replicate 64 0
/-- Records 29 (binary32 with a Hadamard block of 16), 30 (binary32) and 31 (8 bits, with scale codes), all in the cache. -/
def stRec : State :=
  { st0 with
    teams := [{ team0 with recs := ((team0.recs.set 29 (some 0x20000)).set 30 (some 0x20100)).set 31 (some 0x20200) }],
    cores := [(0, { core0 with rcache := [(recTag 0 0x20000, recBytes 0x21000 1 4 0 1), (recTag 0 0x20100, recBytes 0x22000 1 4 0 0),
      (recTag 0 0x20200, recBytes 0x23000 4 1 0x24000 0)] })] }
def fQ (d s : BitVec 5) : FmtQblk := { g := gT, sa := 5, ma := false, sb := 5, mb := false, dst := d, src := s, flag := false }
def recAt (k : Nat) : Rec := match stRec.useRec [] [] k [0, 0, 0, 0, 0, 0] with | .ok (r, _) => r | .error _ => recOf []
theorem test_records : (∀ k ∈ [29, 30, 31], stRec.useRec stRec.cur.issuingSet (List.range 16) k [0, 0, 0, 0, 0, 0] = .ok (recAt k, stRec)) := by
  decide
theorem test_ready_quant : ∀ i ∈ [Instr.qblk (fQ 31 30), .dqblk (fQ 30 31), .hadm (fQ 29 30)], Ready i stRec := all_ready _ _ (by decide)
theorem test_quant_legal : (QKind.quant false).legal 0x400 (recAt 31) (recAt 30) [0, 0, 0, 0, 0, 0] = true ∧
    QKind.dequant.legal 0x400 (recAt 30) (recAt 31) [0, 0, 0, 0, 0, 0] = true ∧
    (QKind.had false).legal 0x400 (recAt 29) (recAt 30) [0, 0, 0, 0, 0, 0] = true ∧
    (recAt 31).mixes 0x400 = false ∧ (recAt 31).ro = false ∧ stRec.cur.task = none := by decide
theorem test_quant_reads : ∀ x ∈ (QKind.quant false).reads (recAt 31) (recAt 30) [0, 0, 0, 0, 0, 0],
    ∃ a, stRec.tileAcc (List.range 16) needTileR x.1 x.2 = .ok a ∧ (!a.locs.any stRec.isPoisoned) = true := fun x hx =>
  passes_of _ _ (List.all_eq_true.mp (by decide : ((QKind.quant false).reads (recAt 31) (recAt 30) [0, 0, 0, 0, 0, 0]).all (fun x =>
    match stRec.tileAcc (List.range 16) needTileR x.1 x.2 with | .ok a => !a.locs.any stRec.isPoisoned | _ => false) = true) x hx)
theorem test_quant_writes : ∀ x ∈ (QKind.quant false).others (recAt 31) [0, 0, 0, 0, 0, 0],
    ∃ a, stRec.tileAcc (List.range 16) x.1 x.2.1 x.2.2 = .ok a ∧ (!a.locs.any stRec.isPoisoned) = true := fun x hx =>
  passes_of _ _ (List.all_eq_true.mp (by decide : ((QKind.quant false).others (recAt 31) [0, 0, 0, 0, 0, 0]).all (fun x =>
    match stRec.tileAcc (List.range 16) x.1 x.2.1 x.2.2 with | .ok a => !a.locs.any stRec.isPoisoned | _ => false) = true) x hx)

/-- A record whose threshold is minus infinity, under an enabled trap; a staged tile that waits, before and behind its statistics. -/
def stThresh (trapen : Word64) : State :=
  let bs := recBytes 0x23000 4 1 0x24000 0
  { stRec with cores := [(0, { core0 with rcache := [(recTag 0 0x20100, recBytes 0x22000 1 4 0 0),
      (recTag 0 0x20200, bs.take 0x6C ++ leBytes 4 0xFF800000 ++ bs.drop 0x70)] })], grids := [{ grid0 with trapen := trapen }] }
def fQd : FmtQblk := { fQ 31 30 with flag := true }
def recThresh : Rec := match (stThresh 0).useRec [] [] 31 [0, 0, 0, 0, 0, 0] with | .ok (r, _) => r | .error _ => recOf []
theorem test_quant_range : Ready (.qblk fQd) (stThresh 0x200) ∧ tbit ((stThresh 0x200).gridOf (stThresh 0x200).cur).trapen 9 = true ∧
    ((QKind.quant true).stage (stThresh 0x200) (List.range 16) recThresh (recAt 30) [0, 0, 0, 0, 0, 0]).passes (fF32.decode recThresh.thresh) = true := by
  decide +kernel
theorem test_quant_writes_some : ((QKind.quant false).stage stRec (List.range 16) (recAt 31) (recAt 30) [0, 0, 0, 0, 0, 0]).writes ≠ [] := by
  decide +kernel
/-- Another wave is before it in the staging buffer's line; a tile beyond the tensor; and the parts of the instruction that wait. -/
def stQueued : State := { stRec with cores := [(0, { stRec.coreAt 0 with stageQ := [⟨0, 0, 5⟩] })] }
theorem test_quant_line : stQueued.joinStage.2 = true ∧ stRec.joinStage.2 = false := by decide
def stBeyond : State := { stRec with cur := { stRec.cur with s := [(5, 32)] } }
theorem test_quant_none : (match stBeyond.useRec [] [] 31 [32, 0, 0, 0, 0, 0] with | .ok (r, _) => r == recAt 31 | .error _ => false) = true ∧
    Ready (.qblk { fQ 31 30 with sb := 6 }) { stBeyond with cur := { stBeyond.cur with s := [(5, 32)] } } ∧
    ((QKind.quant false).stage stBeyond (List.range 16) (recAt 31) (recAt 30) [32, 0, 0, 0, 0, 0]).writes = [] ∧
    ((QKind.quant false).stage stBeyond (List.range 16) (recAt 31) (recAt 30) [32, 0, 0, 0, 0, 0]).n = 0 := by decide +kernel
def stStaged (stats : List Nat) : State :=
  { stRec with cur := { stRec.cur with prog := [⟨1, false, [(4, 2), (10, 0x23000)] ++ stats.map (fun l => (256, l))⟩] } }
theorem test_quant_ends : Ready (.qblk (fQ 31 30)) (stStaged []) ∧ (stStaged []).progress = [(4, 2), (10, 0x23000)] ∧ (stStaged []).cur.pw = [] ∧
    (stStaged [0x25000, 0x2501F]).progress = [(4, 2), (10, 0x23000), (256, 0x25000), (256, 0x2501F)] := by decide

def fTrec : FmtTrec := { g := gT, sa := 5, ma := false, rec_ := 31, off := 0x20000 }
def fSclq : FmtSclq := { g := gT, vd := 4, va := 0, vb := 2, ma := false, mb := false, fmt := 6 }
theorem test_ready_records : ∀ i ∈ [Instr.trec fTrec, .rfence fG, .sclq fSclq], Ready i st0 := all_ready _ _ (by decide)
theorem test_record_loads : (match st0.loadRec (List.range 16) 0x20000 with | .ok _ => true | .error _ => false) = true := by decide
theorem test_rfence : st0.passed st0.cur.wct = true := by decide

/-- One row of 32 elements of four bytes: 32 registers of lane 0. -/
def fVld : FmtVldt := { g := gT, reg := 32, sa := 5, ma := false, sb := 5, mb := false, rec_ := 30, md := false }
theorem test_ready_tiles : (∀ i ∈ [Instr.vldt fVld, .vstt fVld], Ready i stRec) ∧
    tileGate (recAt 30) 30 32 stRec.cur.issuingSet stRec = none := ⟨all_ready _ _ (by decide), by decide⟩
theorem test_tile_access : tileFailed stRec (recAt 30) [0, 1] (tileAccs stRec (recAt 30) [0, 0, 0, 0, 0, 0] needStore [0, 1]) = none ∧
    tileFailed stRec (recAt 30) [0, 1] (tileAccs stRec (recAt 30) [0, 0, 0, 0, 0, 0] needLoad [0, 1]) = none := by decide
/-- The last byte of the row is inside the tensor, and the second row is none of the tile. -/
theorem test_tile_bytes : (recAt 30).size = 4 ∧ tileRt (recAt 30) = 32 ∧ tileQ (recAt 30) 16 = 1 ∧ (recAt 30).e1 = 1 ∧
    (recAt 30).inside (coordsAt [0, 0, 0, 0, 0, 0] (127 / 4) 0) = true ∧ (recAt 30).inside (coordsAt [32, 0, 0, 0, 0, 0] 0 0) = false := by decide

/-- A transfer of 16 bytes with every slot but the last in use, one of no byte, and one of two rows. -/
def copyBusy : Copy := {
  ticket := 0, promise := 0, rows := [], regDst := [], before := 0, dropped := [], priv := false, counted := false, written := [], torn := [],
  phase := .waiting }
def stCpy : State := withWave (fun w => { w with
  s := [(4, 0x20000), (5, 0x20100), (6, 16), (8, 16 + 2 * 2 ^ 32), (9, 32 + 32 * 2 ^ 32)], copies := List.replicate 15 (some copyBusy) ++ [none] })
def fCpy : FmtCpy := { g := gT, sd := 10, sa := 4, sb := 5, sc := 6, ma := false, mb := false, mc := false }
def fCpys : FmtCpy := { fCpy with sc := 8 }
def rows1 : List CopyRow := [⟨0x20000, 0x20100, 16⟩]
theorem test_cpy : (∀ i ∈ [Instr.cpy fCpy, .cpy { fCpy with sc := 7 }, .cpys fCpys], Ready i stCpy) ∧ copyRows stCpy.cur fCpy false = some rows1 ∧
    copyRows stCpy.cur fCpys true = some [⟨0x20000, 0x20100, 16⟩, ⟨0x20020, 0x20120, 16⟩] ∧ copyTrap false rows1 = none ∧
    copyRows stCpy.cur { fCpy with sc := 7 } false = some [⟨0x20000, 0x20100, 0⟩] ∧ copyTrap false [⟨0x20000, 0x20100, 0⟩] = none ∧
    (List.range 16).find? (fun q => Copy.isFree (stCpy.cur.copies.getD q none)) = some 15 ∧ stCpy.ownDst rows1 = [] :=
  ⟨all_ready _ _ (by decide), by decide, by decide, by decide, by decide, by decide, by decide, by decide⟩
/-- A length of 2^32, strides of no row, the stack aperture, an absolute map address of a wave that is not privileged, and a register
pair that is none; and a destination among the wave's own registers. -/
def stBadCpy : State := withWave (fun w => { w with
  s := [(4, 0xFFFFFE0000000000), (5, 0x20100), (6, 2 ^ 32), (7, 16), (8, 16 + 3 * 2 ^ 32), (10, 8 * 2 ^ 60)] })
theorem test_cpy_refused : (∀ i ∈ [Instr.cpy fCpy, .cpy { fCpy with sc := 7 }, .cpy { fCpy with sa := 10, sc := 7 }, .cpys { fCpys with sc := 9 }, .cpys { fCpys with sc := 127 }], Ready i stBadCpy) ∧
    (stBadCpy.cur.getS 6).toNat = 2 ^ 32 ∧ (stBadCpy.cur.getS 4).toNat < 0xFFFFFE0000000000 + 2 ^ 32 ∧
    0xFFFFFE0000000000 < (stBadCpy.cur.getS 4).toNat + 16 ∧ stBadCpy.cur.privileged = false ∧ (stBadCpy.cur.getS 10).toNat / 2 ^ 60 = 8 ∧
    (copyRows stBadCpy.cur { fCpy with sc := 7 } false).isSome = true ∧ (copyRows stBadCpy.cur { fCpy with sa := 10, sc := 7 } false).isSome = true :=
  ⟨all_ready _ _ (by decide), by decide, by decide, by decide, by decide, by decide, by decide, by decide⟩
/-- A destination of 16 bytes in v9 of the wave's own lanes 0 to 3. -/
def stOwnCpy : State := withWave (fun w => { w with s := [(4, 9 * 2 ^ 60 + 9 * 2 ^ 8), (5, 0x20100), (6, 16)] })
def rowsOwn : List CopyRow := [⟨9 * 2 ^ 60 + 9 * 2 ^ 8, 0x20100, 16⟩]
theorem test_cpy_own : Ready (.cpy fCpy) stOwnCpy ∧ copyRows stOwnCpy.cur fCpy false = some rowsOwn ∧ copyTrap false rowsOwn = none ∧
    stOwnCpy.ownDst rowsOwn = [9] ∧ 9 ∉ stOwnCpy.cur.vEmpty := by decide
/-- Copies in slot 15: issued, started, and done with a lane asleep on it. -/
def stSlot15 (ph : CopyPhase) : State :=
  withWave (fun w => { w with copies := w.copies.set 15 (some { copyBusy with ticket := 2047, promise := 2047, rows := rows1, phase := ph }), s := [(5, 2047)] })
def fCw : FmtDstSrc := { g := gT, sd := 0, sa := 5, ma := false }
def stCwait : State := stSlot15 .waiting
def stCdone : State := stSlot15 (.complete 7)
theorem test_cpyw_wait : (∀ i ∈ [Instr.cpyw fCw, .cpywWait fCw, .cpywRe { fCw with sd := 7 }], Ready i stCwait) ∧
    stCwait.cpywDecide false 2047 (List.range 16) = .sleep (some 2047) ∧ stCwait.cpywDecide true 2047 (List.range 16) = .sleep none :=
  ⟨all_ready _ _ (by decide), by decide, by decide⟩
theorem test_cpyw_pass : Ready (.cpywWait fCw) stCdone ∧ stCdone.cpywDecide true 2047 (List.range 16) = .pass (some (15, 7)) := by decide
def stCpast : State := { stCwait with gtc := 2047 }
theorem test_cpyw_promise : Ready (.cpyw fCw) stCpast ∧ stCpast.cur.copies.getD 15 none = stCwait.cur.copies.getD 15 none ∧
    (2047 : Nat) ≤ stCpast.gtc ∧ (2047 : Word64).toNat % 16 = 15 := by decide
/-- The moves of the 16 bytes. -/
def moves16 : List (CopyByte × CopyByte × Nat) := (List.range 16).map (fun k => (.mem (0x20000 + k), .mem (0x20100 + k), 0x20100 + k))
theorem test_copy_start : stCwait.findWave wave0.key = some stCwait.cur ∧ stCwait.passed stCwait.cur.wct = true ∧
    copyPlan stCwait { stCwait.cur with tm := false, priv := false } rows1 = .ok (moves16, false) := ⟨by decide, by decide, rfl⟩
def stCstart : State := stSlot15 (.started moves16)
theorem test_copy_complete : stCstart.findWave stCstart.cur.key = some stCstart.cur ∧ 15 < stCstart.cur.copies.length ∧
    (∀ m ∈ moves16, ∀ n ∈ moves16, m.1 ≠ n.2.1) ∧ (moves16.map (fun m => m.1)).Nodup ∧ stCstart.cur.cpySleepers = [] ∧
    (stCstart.waves.all (fun x => x.copies.all (fun c => match c with | some d => d.torn.isEmpty | none => true))) = true := by decide
def stCsleep : State := withWave (fun w => w.modLane 15 (fun x => { x with st := .cpyw false 2047 }))
theorem test_copy_wake : stCsleep.findWave stCsleep.cur.key = some stCsleep.cur ∧ stCsleep.cur.cpySleepers = [(15, false, 2047)] ∧
    stCsleep.cur.spec = 0 ∧ stCsleep.cur.copies.getD 15 none = none := by decide

/-! ### System instructions, traps, translation, proposals, collectives (R205 to R214, R250 to R299, R335 to R343) -/

theorem test_ready_system : ∀ i ∈ [Instr.nop fG, .trap { g := gT, imm := 7 }, .brk { g := gT, sa := 2, ma := false, k := 3 },
    .rdsr { g := gT, rd := 4, vec := true, num := 0 }, .rdsr { g := gT, rd := 4, vec := false, num := 0x20 }], Ready i st0 :=
  all_ready _ _ (by decide)
theorem test_rdsr_values : st0.sreg 0 0 = some 0 ∧ st0.sreg 0x20 0 = some 0x300 ∧ st0.sreg 33 0 = none := by decide
/-- Register 4 holds the defined bits of `$trapen`, register 5 both bits that `wsw` may write. -/
def stSys : State := withWave (fun w => { w with s := [(4, 0x33F), (5, 6)], priv := true })
def fWsw : FmtWsw := { g := gT, sd := 7, sa := 5, sb := 5, ma := false, mb := false }
theorem test_wrsr : Ready (.wrsr { g := gT, sa := 4, ma := false, num := 0x20 }) stSys ∧
    stSys.cur.getS 4 &&& 0x33F = stSys.cur.getS 4 := by decide
theorem test_wsw : Ready (.wsw fWsw) stSys ∧ stSys.cur.getS 5 &&& ~~~6 = 0 ∧ stSys.cur.privileged = true := by decide

/-- In trap mode, at word 1 of the handler, with a record of zeros: every lane returns to word 0. -/
def inTrap (w : Wave) : Wave :=
  { w with tm := true, cause := 21, lanes := w.lanes.map (fun x => { x with vpc := 1, blk := 0, blkEnd := 2 }) }
def stTm : State := withWave inTrap
def backAt : List RetPos := (List.range 16).map (fun l => ⟨l, 1, 0, 3, false, true⟩)
def toSret (x : Lane) : Lane := { x with st := .sret }
theorem test_sret : Ready (.sret fG) stTm ∧ stTm.cur.tm = true ∧ stTm.cur.fabFail = [] ∧
    (stTm.cur.modLanes (List.range 16) toSret).atSret = true ∧
    stTm.returnPositions (stTm.cur.modLanes (List.range 16) toSret) = .ok backAt := ⟨by decide, by decide, by decide, by decide, rfl⟩
/-- The record puts lane 15 beyond the segment. -/
def stAstray : State := { stTm with mem := withWords mem0 0x20078 [2 ^ 35] }
theorem test_sret_astray : Ready (.sret fG) stAstray ∧ stAstray.cur.pend = [] ∧
    stAstray.returnPositions (stAstray.cur.modLanes (List.range 16) toSret) = .error 8 ∧
    (match stAstray.recordAccess (stAstray.cur.modLanes (List.range 16) toSret) false with | .ok _ => true | _ => false) = true :=
  ⟨by decide, by decide, rfl, by decide⟩
/-- Lane 15 stands one word further. -/
def stTmOne : State := withWave (fun w => (inTrap w).modLane 15 (fun x => { x with vpc := 2 }))
theorem test_sret_waits : Ready (.sret fG) stTmOne ∧ stTmOne.cur.tm = true ∧ active (.sret fG) stTmOne = List.range 15 ∧
    (stTmOne.cur.modLanes (List.range 15) toSret).atSret = false := by decide
/-- The page of the record is not in the TLB. -/
def stTmMiss : State := { stTm with cores := [(0, { core0 with tlb := [page 0x10000] })] }
theorem test_sret_misses : Ready (.sret fG) stTmMiss ∧ (stTmMiss.cur.modLanes (List.range 16) toSret).atSret = true ∧
    stTmMiss.returnMisses (stTmMiss.cur.modLanes (List.range 16) toSret) = [0x20000] ∧
    stTm.returnMisses (stTm.cur.modLanes (List.range 16) toSret) = [] ∧
    stAstray.returnMisses (stAstray.cur.modLanes (List.range 16) toSret) = [] := by decide
theorem test_sret_esc : Ready (.sretEsc fG) stTm ∧ stTm.cur.tm = true := by decide
def stEsc : State := withWave (fun w => { inTrap w with escalated := true, escHost := true })
def stEscHard : State := withWave (fun w => { inTrap w with escalated := true })
theorem test_decision : stEsc.findWave stEsc.cur.key = some stEsc.cur ∧ stEsc.cur.escalated = true ∧ stEsc.cur.fabFail = [] ∧
    stEsc.grids.find? (fun x => x.id == stEsc.cur.key.grid) = some grid0 ∧ grid0.ended = none ∧
    stEsc.cur.escHost = true ∧
    stEsc.returnPositions stEsc.cur = .ok backAt := ⟨by decide, by decide, by decide, by decide, by decide, by decide, rfl⟩
theorem test_decision_hardware : stEscHard.findWave stEscHard.cur.key = some stEscHard.cur ∧ stEscHard.cur.escHost = false ∧ stEscHard.cur.cause ≠ 6 := by decide
theorem test_decision_early : st0.findWave wave0.key = some wave0 ∧ wave0.escalated = false := by decide

/-- A trap outside trap mode, and one in it. -/
def trap7 : TrapInfo := ⟨7, 1, 0, 0, 0, [], 1, 0, [], false, 0⟩
theorem test_trap_entry : st0.cur.tm = false ∧ st0.cur.spec = 0 ∧ st0.cur.pend = [] ∧ trap7.esc = false ∧
    (st0.gridOf st0.cur).ctx.trapLen ≠ 0 ∧ st0.header { st0.cur with tm := true } 0 = .ok 2 := by decide
theorem test_trap_record : ∃ a, st0.recordAccess st0.cur false = .ok a ∧ (a.locs.length == 2048) = true := passes_of _ _ (by decide)
theorem test_double_trap : stTm.cur.tm = true ∧ stTm.cur.pend = [] ∧
    ∃ a, stTm.recordAccess stTm.cur false = .ok a ∧ (a.locs.length == 2048) = true := ⟨by decide, by decide, passes_of _ _ (by decide)⟩

/-- The record's page may not be written. -/
def stNoRec : State := { st0 with cores := [(0, { core0 with tlb := [page 0x10000, { page 0x20000 with w0 := 0x20017 }] })] }
theorem test_record_fails : (match stNoRec.recordAccess stNoRec.cur false with | .trap _ c _ => c == 7 | _ => false) = true ∧ stNoRec.cur.pend = [] := by
  decide
/-- A wave that steps; one whose lane 3 alone stores, with the Safety Net's area at 0x20000; one with two breakpoints where it stands; and
one of which lane 15 waits with lane 3. -/
def stStep : State := withWave (fun w => { w with step := true })
abbrev at1 (i : Instr) (s : State) : Prop := legalHere s i = true ∧ Allotted i s ∧ AllFull i s ∧ InWindow i s ∧ s.cur.regErr = [] ∧
  readsBadTile s i (active i s) = false ∧ s.cur.spec = 0 ∧ s.cur.tm = false ∧ active i s ≠ []
theorem test_step_bit : at1 (.nop fG) stStep ∧ at1 (.vmovi fD) stStep ∧ stStep.cur.step = true ∧ stStep.cur.dbg = false ∧
    stStep.cur.trapPend = none := ⟨by decide, by decide, by decide, by decide, by decide⟩
def stNet : State :=
  { withWave (fun w => { onlyLane 3 w with dbg := true, snSeq := 4097, s := [(5, 77), (8, 0x2FFFC)] }) with
    grids := [{ grid0 with ctx := { grid0.ctx with netArea := 0x20000 } }] }
def fNet : FmtM := { fM with g := g0, base := 64, space := 0, off := 0, rd := 0 }
theorem test_net : at1 (.vmovi fD) stNet ∧ at1 (.smovi { fD with rd := 5 }) stNet ∧ at1 (.cpywRe { g := gT, sd := 7, sa := 5, ma := false }) stNet ∧
    stNet.cur.dbg = true ∧ stNet.cur.step = false ∧ stNet.progress = [] ∧ stNet.cur.fabAt = [] ∧
    (stNet.netPlaces 0).map (fun p => match p.2 with | .ok a => a.locs.length | _ => 0) = [320] :=
  ⟨by decide, by decide, by decide, by decide, by decide, by decide, by decide, by decide⟩
theorem test_net_store : at1 (.st fNet) stNet ∧ active (.st fNet) stNet = [3] ∧ accBytes fNet = 4 ∧ stNet.cur.effAddr fNet 3 = 0x2FFFC ∧
    (match checkAccess stNet stNet.cur true { needStore with stamp := false } 0 3 0x2FFF8 8, checkAccess stNet stNet.cur false needStore 0 3 0x2FFFC 4 with
      | .ok a, .ok b => a.locs.length == 8 && b.locs.length == 4 | _, _ => false) = true :=
  ⟨by decide, by decide, by decide, by decide, by decide⟩
def stBreak : State := withWave (fun w => { w with bp := [0, 0x100000001, 0x100000001, 0x100000002] })
theorem test_break : stBreak.sched = [] ∧ stBreak.mayIssue = true ∧ stBreak.unitsTurn = false ∧ stBreak.cur.overdue = none ∧ stBreak.midAtom = false ∧
    stBreak.preHeld.isNone = true ∧ stBreak.preFabric.isNone = true ∧ stBreak.preFence.isNone = true ∧ stBreak.preHeader.isNone = true ∧
    stBreak.at_ = 1 ∧ stBreak.cur.bpSkip = false ∧ stBreak.cur.tm = false := by decide
def stWakes : State := withWave (fun w => { w.modLane 15 (fun x => { x with st := .mwait 7 0, iss := 0x8008 }) with step := true })
theorem test_step_after_wait : stWakes.findWave stWakes.cur.key = some stWakes.cur ∧ stWakes.cur.step = true ∧ stWakes.cur.tm = false ∧
    stWakes.cur.trapPend = none ∧ stWakes.cur.lanes.length ≤ 64 ∧ tbit (stWakes.cur.lane 15).iss 3 = true := by decide

/-- An odd pair, a register beyond the allotment, an empty mode-1 source, a guard that no lane holds. -/
def vEmpty0 : State := withWave (fun w => { w with vEmpty := [0] })
theorem test_checks : st0.cur.issuingSet ≠ [] ∧ st0.cur.spec = 0 ∧ legalHere st0 (.vadd { fA .u64 with vd := 5 }) = false ∧
    legalHere st0 (.vadd { fA .u32 with vd := 64 }) = true ∧
    overAllotment st0 (Instr.operands st0 (.vadd { fA .u32 with vd := 64 })) = some 64 ∧
    legalHere vEmpty0 (.vadd { fA .u32 with ma := true }) = true ∧ Allotted (.vadd { fA .u32 with ma := true }) vEmpty0 ∧
    emptyTrap vEmpty0.cur (Instr.operands vEmpty0 (.vadd { fA .u32 with ma := true })) = some 0 := by decide
theorem test_no_active : legalHere st0 (.vadd { fA .u32 with g := g0 }) = true ∧ Allotted (.vadd { fA .u32 with g := g0 }) st0 ∧
    AllFull (.vadd { fA .u32 with g := g0 }) st0 ∧ InWindow (.vadd { fA .u32 with g := g0 }) st0 ∧ st0.cur.step = false ∧
    active (.vadd { fA .u32 with g := g0 }) st0 = [] ∧ Instr.checksWhole (.vadd (fA .u32)) = false := by decide

/-- A misaligned address, one beyond the scratchpad, one that the page does not let be written. -/
def stMis : State := withS [(4, 0x20001)]
theorem test_misaligned : Ready (.ld { fM with space := 0, off := 0 }) stMis ∧
    (active (.ld { fM with space := 0, off := 0 }) stMis).filter (fun l => stMis.cur.effAddr { fM with space := 0, off := 0 } l % 4 != 0) ≠ [] ∧
    missesOf (laneAccesses stMis needLoad 0 4 (active (.ld { fM with space := 0, off := 0 }) stMis)
      (stMis.cur.effAddr { fM with space := 0, off := 0 })) = [] := by
  decide
def fOut : FmtM := { fM with off := 4096 }
theorem test_beyond : (∀ i ∈ [Instr.ld fOut, .st fOut], Ready i stM) ∧
    verdict (laneAccesses stM needLoad 1 4 (active (.ld fOut) stM) (stM.cur.effAddr fOut)) =
      .trap 7 (List.range 16) 0 ((List.range 16).map (·, 7)) ∧
    verdict (laneAccesses stM needStore 1 4 (stM.cur.byTid (active (.st fOut) stM)) (stM.cur.effAddr fOut)) =
      .trap 7 (List.range 16) 0 ((List.range 16).map (·, 7)) := ⟨all_ready _ _ (by decide), by decide, by decide⟩
def privInstrs : List Instr :=
  [.tlbw { fCpy with sd := 0 }, .tlbiVa fSrc, .tlbiAsid fSrc, .tlbiAll { fSrc with sa := 0 },
   .migrate { g := gT, sd := 7, sa := 5, sb := 0, ma := false, mb := false, named := false }, .wsw { fWsw with sb := 6 }]
def stUser : State := withS [(6, 6)]
theorem test_unprivileged : (∀ i ∈ privInstrs, Ready i stUser) ∧ stUser.cur.privileged = false ∧
    stUser.cur.getS 6 &&& ~~~6 = 0 ∧ tbit (stUser.cur.getS 6) 2 = true := ⟨all_ready _ _ (by decide), by decide, by decide, by decide⟩
theorem test_sret_outside : (∀ i ∈ [Instr.sret fG, .sretEsc fG], Ready i st0) ∧ st0.cur.tm = false :=
  ⟨all_ready _ _ (by decide), by decide⟩

/-- A privileged wave with the words of a fill: the page at 0x30000, a leaf, and no leaf. -/
def stPriv : State := { withS [(4, 0x30000), (5, 0x3001F), (7, 0)] with cur := { (withS [(4, 0x30000), (5, 0x3001F), (7, 0)]).cur with priv := true } }
def fTlbw : FmtCpy := { fCpy with sd := 0, sc := 7 }
theorem test_tlbw : (∀ i ∈ [Instr.tlbw fTlbw, .tlbw { fTlbw with sb := 7 }], Ready i stPriv) ∧ stPriv.cur.privileged = true ∧
    tlbwLegal (stPriv.cur.getS 4).toNat = true ∧ leafValid 0 (stPriv.cur.getS 5) (stPriv.cur.getS 7) = true ∧
    leafValid 0 (stPriv.cur.getS 7) 0 = false := ⟨all_ready _ _ (by decide), by decide, by decide, by decide, by decide⟩
theorem test_tlbi : (∀ i ∈ [Instr.tlbiVa { fSrc with sa := 4 }, .tlbiAsid { fSrc with sa := 4 }, .tlbiAll { fSrc with sa := 0 }], Ready i stPriv) ∧
    stPriv.cur.privileged = true ∧ stPriv.accessesDone = true ∧ (stPriv.cur.getS 4).toNat % 16 = 0 :=
  ⟨all_ready _ _ (by decide), by decide, by decide, by decide⟩
/-- Tables at 0x40000 that map the page 0x50000, and a miss on it; and a miss under an empty table. -/
def memWalk : List Host.Cell :=
  withWords (withWords (withWords (withWords mem0 0x40000 [0x42001, 0]) 0x42000 [0x44001, 0]) 0x44000 [0x46001, 0]) 0x46050 [0x5001F, 0]
def stMiss (root : Nat) : State := { st0 with mem := memWalk, cores := [(0, { core0 with misses := [⟨0, root, 0x50000, none, false⟩] })] }
theorem test_walk : (stMiss 0x40000).hostWalks = false ∧
    ((stMiss 0x40000).coreAt 0).misses.find? (fun x => x.failed.isNone && !x.host) = some ⟨0, 0x40000, 0x50000, none, false⟩ ∧
    (stMiss 0x40000).walk 0x40000 0x50000 = .leaf 0 0x5001F 0 ∧ leafValid 0 0x5001F 0 = true ∧
    (stMiss 0x60000).walk 0x60000 0x50000 = .absent ∧
    ((stMiss 0x60000).coreAt 0).tlb.find? (fun e => e.covers 0 0x50000) = none := by decide

/-! ### The fault service and the host -/

/-- The page of the address in register 4 is known to have no entry; the run-ahead of such a load; and one with its last further page. -/
def stPf : State := { withS [(4, 0x50000)] with cores := [(0, { core0 with misses := [⟨0, 0, 0x50000, some false, false⟩] })] }
def fPf : FmtM := { fM with space := 0, off := 8 }
theorem test_page_fault : Ready (.ld fPf) stPf ∧ stPf.cur.pend = [] ∧ (∀ c ∈ stPf.cur.copies, c = none) ∧
    verdict (laneAccesses stPf needLoad 0 4 (active (.ld fPf) stPf) (stPf.cur.effAddr fPf)) =
      .fault [(0x50000, false)] ((List.range 16).map (·, 6)) := by decide
def aheadBatch (pages : Nat) : Batch :=
  { pages := (List.range pages).map (fun k => (0x100000 + 0x10000 * k, false)), base := 1, first := 0x100000, lanes := [0], laneCause := [],
    offset := 0, issued := 2047, running := true }
def stAhead (pages : Nat) : State :=
  { stPf with cur := { stPf.cur with spec := 1, batch := some (aheadBatch pages), ck := some stPf.cur.toArch } }
theorem test_run_ahead : legalHere (stAhead 32) (.ld fPf) = true ∧ Allotted (.ld fPf) (stAhead 32) ∧ AllFull (.ld fPf) (stAhead 32) ∧
    (stAhead 32).cur.regErr = [] ∧ (stAhead 32).cur.spec = 1 ∧ active (.ld fPf) (stAhead 32) = List.range 16 ∧
    (∀ l ∈ (stAhead 32).cur.issuingSet, guardUnknown (stAhead 32).cur (.ld fPf) l = false) ∧
    stopsBefore (stAhead 32) (.ld fPf) (stAhead 32).cur.issuingSet (List.range 16) = [] ∧
    verdict (laneAccesses (stAhead 32) needLoad 0 4 (List.range 16) ((stAhead 32).cur.effAddr fPf)) =
      .fault [(0x50000, false)] ((List.range 16).map (·, 6)) ∧
    (aheadBatch 32).pages.length < (aheadBatch 32).base + 32 ∧ (aheadBatch 33).base + 32 ≤ (aheadBatch 33).pages.length := by decide
theorem test_run_ahead_ends : (Instr.exit fJ).isEvent = false ∧ (stAhead 1).cur.issuingSet ≠ [] ∧ rowOne (.exit fJ) = false ∧ legalHere (stAhead 1) (.exit fJ) = true ∧
    Allotted (.exit fJ) (stAhead 1) ∧ AllFull (.exit fJ) (stAhead 1) ∧ InWindow (.exit fJ) (stAhead 1) ∧
    readsBadTile (stAhead 1) (.exit fJ) (active (.exit fJ) (stAhead 1)) = false ∧
    legalHere (stAhead 1) (.vadd { fA .u64 with vd := 5 }) = false ∧ (stAhead 1).cur.ready ≠ [] ∧ (stAhead 1).cur.ck = some stPf.cur.toArch := by decide

def batch0 : Batch := { pages := [(0x50000, false)], base := 1, first := 0x50004, lanes := [15], laneCause := [], offset := 1, issued := 0, running := false }
def stBatch : State := withWave (fun w => { w with batch := some batch0, why := .pageFault })
theorem test_batch : stBatch.findWave stBatch.cur.key = some stBatch.cur ∧ stBatch.cur.batch = some batch0 ∧ batch0.running = false := by decide
def stCfault : State := stSlot15 (.faulted 0x20100 true)
theorem test_copy_fault : stCfault.findWave wave0.key = some stCfault.cur ∧
    stCfault.cur.copies.getD 15 none = some { copyBusy with ticket := 2047, promise := 2047, rows := rows1, phase := .faulted 0x20100 true } := by decide
def req0 (k : FabKind) : FabReq :=
  { src := 1, dst := 0, core := 511, from_ := ⟨3, 0, 0⟩, tag := 1, inc := 0, key := 4095, contract := 0x400, cmix := false, deadline := 2000,
    interval := 0, replay := false, spec := false, kind := k }
def stWaiting : State := { st0 with fabWaiting := [req0 (.load [0x50000])] }
theorem test_fabric_waits : stWaiting.fabWaiting[0]? = some (req0 (.load [0x50000])) ∧
    (∀ x ∈ stWaiting.fabWaiting, x = req0 (.load [0x50000])) ∧ stWaiting.fabWaiting.Nodup := by decide
def stRecWait : State := withWave (fun w => { w with trapPend := some trap7, why := .trapRecord })
theorem test_record_fault : stRecWait.findWave stRecWait.cur.key = some stRecWait.cur ∧ stRecWait.cur.trapPend = some trap7 ∧
    stRecWait.cur.why = .trapRecord := by decide
theorem test_physical : physValid 0x5FFFFFFFFF = true ∧ physValid 0x6000000000 = false ∧ physValid 0x8000000000000 = true ∧
    physValid 0xC000000000000 = false ∧ mapKind 0x5FFFFFFFFF ≠ 8 := by decide
def stHost : State := { st0 with hostLink := true }
theorem test_host : stHost.hostLink = true ∧ stHost.inRecovery = false ∧ tlbwLegal 0x30000 = true ∧ leafValid (tlbwSize 0x30000) 0x3001F 0 = true := by decide

/-! ### Proposals and collectives -/

/-- Lane 15 has written the last register of the window, and its proposal is taken. -/
def stProp : State :=
  withWave (fun w => { w.modLane 15 (fun x => { x with written := [63], sh0 := [(63, 99)], v := [(0, 0x3F800000), (2, 0x3F000000)], draws := [(6, 0xFFFFFFFF)] })
    with alloc := 128, pbase := 64 })
def fAcc : FmtAccept := { g := gT, va := 0, vb := 2, ma := false, mb := false, expl := true }
theorem test_proposals : (∀ i ∈ [Instr.accept fAcc, .accept { fAcc with vb := 0, expl := false }, .pbclr fG, .pbcnt { g := gT, vd := 63 },
    .rng { g := gT, vd := 63, k := 7, form := 2, p := false }, .rngk { g := gT, sa := 5, ma := false, k := 7 }], Ready i stProp) ∧
    stProp.cur.vEmpty = [] := ⟨all_ready _ _ (by decide), by decide⟩
theorem test_accept_takes : (fF32.fcmp stProp.contract 2 0x3F000000 0x3F800000).1 = true ∧
    (stProp.cur.readX false false 15 0) = 0x3F800000 ∧ (stProp.cur.readX false false 15 2) = 0x3F000000 := by decide
theorem test_pbsel : Ready (.pbsel { g := gT, n := 64 }) stWide ∧ ∀ x ∈ stWide.cur.lanes, x.written = [] := by decide
theorem test_pbsel_open : Ready (.pbsel { g := gT, n := 64 }) stProp ∧ (stProp.cur.lane 15).written ≠ [] := by decide

/-- The wave is member 0 of the last communicator; member 1 is on device 1. -/
def comm0 : Comm :=
  { slot := 255, use := 65535, members := [(0, 0, 0, 0), (0, 0, 0, 1)], contract := 0x400, scope := 4, votes := [], outcomes := [],
    contribs := [], reduced := [], running := [], exited := [], lost := [], stalled := [], stalledRed := [] }
def memb0 : Memb := { Memb.unbound with comm := some (255, 65535) }
def stComm (c : Comm) (m : Memb) (f : Wave → Wave) : State :=
  { st0 with comms := [c], cur := f { wave0 with memb := wave0.memb.set 7 m, s := [(5, 0xFFFFFF)] } }
theorem test_cbrj : Ready (.cbrj { g := gT, sa := 5, ma := false, k := 7 }) (stComm comm0 Memb.unbound id) ∧
    (stComm comm0 Memb.unbound id).commByHandle 0xFFFFFF = some comm0 ∧ (stComm comm0 Memb.unbound id).rankIn comm0 wave0.key = some 0 ∧
    ((stComm comm0 Memb.unbound id).cur.membAt 7).pending = false := by decide
def fCbr : FmtCbr := { g := gT, pn := 14, or_ := true, t := true, k := 7, off := 3 }
theorem test_cbr : (∀ i ∈ [Instr.cbr fCbr, .cbr { fCbr with t := false, or_ := false }], Ready i (stComm comm0 memb0 id)) ∧
    (stComm comm0 memb0 id).commOf memb0 = some comm0 ∧ (stComm comm0 memb0 id).target 4 = .ok 4 2 ∧
    (stComm comm0 memb0 id).producing = false ∧ (∀ l ∈ (stComm comm0 memb0 id).cur.liveLanes, l ∈ (stComm comm0 memb0 id).cur.issuingSet) :=
  ⟨all_ready _ _ (by decide), by decide, by decide, by decide, by decide⟩
/-- A handle that names none, and one of which the wave is no member; a register that is not bound; a lane outside the issuing set; a
target that is none. -/
theorem test_cbr_refused : (∀ i ∈ [Instr.cbrj { g := gT, sa := 5, ma := false, k := 7 }, .cbr fCbr], Ready i st0) ∧
    st0.commByHandle (st0.cur.getS 5).toNat = none ∧
    (stComm { comm0 with members := [(0, 0, 1, 0)] } memb0 id).rankIn { comm0 with members := [(0, 0, 1, 0)] } wave0.key = none ∧
    st0.commOf (st0.cur.membAt 7) = none := ⟨all_ready _ _ (by decide), by decide, by decide, by decide⟩
theorem test_cbr_astray : Ready (.cbr { fCbr with off := 1 }) (stComm comm0 memb0 id) ∧ (stComm comm0 memb0 id).header wave0 2 = .bad ∧
    ((stComm comm0 memb0 id).at_ : Int) + ({ fCbr with off := 1 } : FmtCbr).off.toInt = 2 := by decide
def stPart : State := stComm comm0 memb0 (fun w => w.modLane 15 (fun x => { x with vpc := 2 }))
theorem test_cbr_part : Ready (.cbr fCbr) stPart ∧ 15 ∈ stPart.cur.liveLanes ∧ 15 ∉ stPart.cur.issuingSet := by decide
/-- Both members have voted. -/
def commVoted : Comm := { comm0 with votes := [⟨0, 0, true, false⟩, ⟨0, 1, false, false⟩] }
theorem test_outcome : (stComm commVoted memb0 id).comms.find? (fun x => x.slot == 255) = some commVoted ∧ commVoted.outcomes = [] ∧
    commVoted.voteOf 0 0 = some (true, false) ∧ commVoted.voteOf 0 1 = some (false, false) := by decide
/-- The wave runs ahead from the hinted direction; the outcome is false; it has not come. -/
def membAhead (t : Bool) : Memb := { memb0 with vote := some t, pending := true, tgt := 4, tgtLen := 2 }
def commOut : Comm := { commVoted with outcomes := [(0, false, false, false)] }
def ahead (w : Wave) : Wave := { w with spec := 2, specMemb := 7, ck := some w.toArch, hold := [⟨[(0x20000, 5)], false, false⟩] }
theorem test_deliver : ((stComm commOut (membAhead false) ahead).outcomeFor (stComm commOut (membAhead false) ahead).cur 7 = some (false, false)) ∧
    ((stComm commOut (membAhead true) ahead).outcomeFor (stComm commOut (membAhead true) ahead).cur 7 = some (false, false)) ∧
    (stComm commOut (membAhead true) ahead).cur.spec = 2 ∧ (stComm commOut (membAhead true) ahead).cur.specMemb = 7 ∧
    (stComm commOut (membAhead true) ahead).cur.memb.length = 8 ∧ (stComm commOut (membAhead true) ahead).cur.declined = false := by decide
theorem test_stall : (stComm commVoted (membAhead true) ahead).findWave wave0.key = some (stComm commVoted (membAhead true) ahead).cur ∧
    (stComm commVoted (membAhead true) ahead).outcomeFor (stComm commVoted (membAhead true) ahead).cur 7 = none ∧
    (stComm commVoted (membAhead true) ahead).commOf ((stComm commVoted (membAhead true) ahead).cur.membAt 7) = some commVoted := by decide
theorem test_member_lost : comm0.members[1]? = some (0, 0, 0, 1) ∧ 1 ≠ st0.config.devNum := by decide

/-- A reduction that is done; and one of two members of this device whose sources and destinations are disjoint. -/
def redDone0 : RedDone := { gen := 0, mismatch := false, flags := [(0, 32)], wtime := 0, lost := false }
def membRed : Memb := { memb0 with h := 1, red := true }
def fCred : FmtCred := { g := gT, sa := 4, sb := 5, sc := 6, ma := false, mb := false, mc := false, k := 7, kind := 0, op := 0, fmt := 1 }
theorem test_creduce : Ready (.creduce fCred) (stComm { comm0 with reduced := [redDone0] } membRed id) ∧
    (stComm { comm0 with reduced := [redDone0] } membRed id).commOf membRed = some { comm0 with reduced := [redDone0] } ∧
    (stComm { comm0 with reduced := [redDone0] } membRed id).passed 0 = true ∧
    (stComm { comm0 with reduced := [redDone0] } membRed id).cur.task = none := by decide
/-- The generation is under way, with the bytes of the other member still to be written. -/
def commRuns : Comm := { comm0 with running := [{ done := redDone0, pieces := [(1, [(0x20000, 5)])], times := [(0, 7)] }] }
theorem test_creduce_early : Ready (.creduce fCred) (stComm commRuns membRed id) ∧ (stComm commRuns membRed id).commOf membRed = some commRuns ∧
    commRuns.reduced = [] ∧ membRed.rank = 0 ∧ (stComm commRuns membRed id).passed 7 = true := by decide
/-- A member contributes 2^28 elements of no byte of this device's; one on whose generation another member has stalled; one whose
generation did not agree. -/
def membH (h : Nat) : Memb := { memb0 with h := h }
def stCred (c : Comm) (m : Memb) : State := stComm c m (fun w => { w with s := [(4, 0x20000), (5, 0x20100), (6, 1)] })
theorem test_creduce_contributes : Ready (.creduce fCred) (stCred comm0 (membH 0xFFFFFFFF)) ∧
    (stCred comm0 (membH 0xFFFFFFFF)).commOf (membH 0xFFFFFFFF) = some comm0 ∧ (membH 0xFFFFFFFF).red = false ∧
    ((stCred comm0 (membH 0xFFFFFFFF)).redCheck (List.range 16) (0x20100, 4) (0x20000, 4)).isNone = true ∧ redSize 1 = 4 ∧
    (stCred { comm0 with stalledRed := [0xFFFFFFFF] } (membH 0xFFFFFFFF)).commOf (membH 0xFFFFFFFF) = some { comm0 with stalledRed := [0xFFFFFFFF] } ∧
    (stCred { comm0 with reduced := [{ redDone0 with mismatch := true }] } membRed).commOf membRed =
      some { comm0 with reduced := [{ redDone0 with mismatch := true }] } := by decide
def give (r : Nat) : Contrib :=
  { gen := 0, rank := r, kind := 0, op := 0, fmt := 11, count := 1, src := (List.range 4).map (0x20000 + 16 * r + ·), bytes := [], early := [],
    dst := (List.range 4).map (0x20100 + 16 * r + ·) }
def commRed : Comm := { comm0 with members := [(0, 0, 0, 0), (0, 0, 1, 0)], contribs := [give 0, give 1] }
theorem test_generation : (stComm commRed memb0 id).comms.find? (fun x => x.slot == 255) = some commRed ∧ commRed.reduced = [] ∧ commRed.running = [] ∧
    (∀ r < 2, commRed.contribs.find? (fun x => x.gen == 0 && x.rank == r) = some (give r)) ∧
    ((List.range 2).flatMap (fun r => (give r).dst)).Nodup ∧ ∀ r < 2, ∀ l ∈ (give r).dst, l ∉ (give r).src := by decide
theorem test_integers : fmtInt 11 = true := rfl
def stRstall : State := stComm comm0 membRed (fun w => { w with why := .reduction })
theorem test_red_stall : stRstall.findWave stRstall.cur.key = some stRstall.cur ∧ stRstall.cur.why = .reduction ∧
    (List.range 8).find? (fun j => (stRstall.cur.membAt j).red) = some 7 ∧ stRstall.commOf (stRstall.cur.membAt 7) = some comm0 ∧
    comm0.reduced = [] := by decide

/-! ### A vocabulary that is accepted (R382) -/

/-- The 256 bytes as tokens: header, classes, strings, token table, byte table. -/
def voc0 : List Byte :=
  leBytes 4 0x5643424A ++ (leBytes 4 1 ++ (leBytes 4 256 ++ (leBytes 4 0 ++ (leBytes 4 2384 ++ (leBytes 4 64 ++ (leBytes 4 336 ++
  (leBytes 4 80 ++ (leBytes 4 64 ++ (leBytes 4 3408 ++ (List.replicate 40 0 ++
  ((List.range 256).map (BitVec.ofNat 8 ·) ++ ((List.range 256).flatMap (fun k => leBytes 4 k ++ leBytes 4 1) ++ (List.range 256).flatMap (leBytes 4)))))))))))))

/-- A check of each step of a list. -/
def walkAll (p : Nat → List Byte → Bool) (step n k : Nat) (l : List Byte) : Bool :=
  match n with
  | 0 => true
  | n + 1 => p k l && walkAll p step n (k + 1) (l.drop step)

theorem walkAll_at (p : Nat → List Byte → Bool) (step : Nat) : ∀ (n k : Nat) (l : List Byte), walkAll p step n k l = true →
    ∀ i < n, p (k + i) (l.drop (step * i)) = true := by
  intro n
  induction n with
  | zero => intro k l _ i hi; omega
  | succ n ih =>
    intro k l h i hi
    simp only [walkAll, Bool.and_eq_true] at h
    cases i with
    | zero => simpa using h.1
    | succ i =>
      have := ih (k + 1) (l.drop step) h.2 i (by omega)
      rw [List.drop_drop, show step + step * i = step * (i + 1) by rw [Nat.mul_succ]; omega, show k + 1 + i = k + (i + 1) by omega] at this
      exact this

def entryIs (k : Nat) (l : List Byte) : Bool := leNat (l.take 4) == k && leNat ((l.drop 4).take 4) == 1
def byteIs (k : Nat) (l : List Byte) : Bool := l.take 1 == [BitVec.ofNat 8 k]

theorem voc_entries : walkAll entryIs 8 256 0 (voc0.drop 336) = true := by decide +kernel
theorem voc_bytes : walkAll byteIs 1 256 0 (voc0.drop 80) = true := by decide +kernel
theorem voc_table : words32 256 (voc0.drop 2384) = List.range 256 := by decide +kernel
theorem voc_length : voc0.length = 3408 := by decide +kernel
theorem voc_header : imgNat voc0 0 4 = 0x5643424A ∧ imgNat voc0 4 2 = 1 ∧ imgNat voc0 6 2 = 0 ∧ imgNat voc0 8 4 = 256 ∧
    imgNat voc0 0xC 4 = 0 ∧ imgNat voc0 0x10 4 = 2384 ∧ imgNat voc0 0x14 4 = 64 ∧ imgNat voc0 0x18 4 = 336 ∧
    imgNat voc0 0x1C 4 = 80 ∧ imgNat voc0 0x20 4 = 64 ∧ imgNat voc0 0x24 4 = 3408 ∧ imgNat voc0 0x28 24 = 0 ∧
    imgNat voc0 73 7 = 0 := by decide +kernel

theorem voc_entry (b : Nat) (h : b < 256) : imgNat voc0 (336 + 8 * b) 4 = b ∧ imgNat voc0 (336 + 8 * b + 4) 4 = 1 := by
  have := walkAll_at _ _ _ _ _ voc_entries b h
  simpa [entryIs, imgNat, List.drop_drop] using this

theorem voc_string (b : Nat) (h : b < 256) : vocString voc0 b = [BitVec.ofNat 8 b] := by
  have := walkAll_at _ _ _ _ _ voc_bytes b h
  simp only [byteIs, List.drop_drop, Nat.zero_add, Nat.one_mul, beq_iff_eq] at this
  simp [vocString, voc_header, voc_entry b h, this]

theorem voc_tab : vocTab voc0 = ⟨256, List.range 256, [], (voc0.drop 64).take 8, imgNat voc0 72 1⟩ := by
  simp only [vocTab, voc_header, voc_table]
  rfl

theorem test_vocabulary : vocOk voc0 = true := by
  have e := voc_entry
  have t := voc_string
  simp only [vocOk, voc_tab, voc_header, voc_length]
  simp only [Bool.and_eq_true, List.all_eq_true, List.mem_range, decide_eq_true_eq, beq_iff_eq]
  refine ⟨⟨⟨⟨⟨⟨?_, fun id h => ?_⟩, fun b h => h⟩, fun b h => ?_⟩, ?_⟩, ?_⟩, ?_⟩
  · simp [voc_header]
  · simp [e id h]
    omega
  · simpa [List.getD, h] using t b h
  · simp
  · simp
  · simp

/-! ### The fabric (R303 to R326) -/

/-- Register 4 names an address of device 1, register 5 the next word; `n` requests of the wave are under way. -/
def out0 : FabOut :=
  { req := req0 (.load [0]), sent := true, uses := [⟨15, 15, 0, 9, 4, []⟩], pend := some 0, offset := 1, word := 0, seq := 0, held := false,
    resent := false, spec := false, tm := false, before := 0, loads := 0 }
def toOne (r : FabReq) : FabReq := { r with src := 0, dst := 1, core := 0 }
def outTo (k : FabKind) (us : List FabUse) : FabOut := { out0 with req := toOne (req0 k), uses := us }
def withFab (os : List FabOut) : State :=
  { st0 with config := { st0.config with present := [0, 1] },
             cur := { wave0 with s := [(4, 2 ^ 52 + 0x50000)], fab := os, fabSeq := 1 } }
def fFab : FmtM := { g := gT, rd := 4, base := 32, scalar := true, m := false, width := 2, space := 0, cache := 0, scope := 0, off := 0 }
def fFat : FmtAtom := { fAt with scope := 0 }
def fabOne : State := withFab (List.replicate 7 (outTo (.load [0]) []))
def fabFull : State := withFab (List.replicate 8 (outTo (.load [0]) []))
theorem test_ready_fabric : (∀ i ∈ [Instr.fld fFab, .fst fFab, .fatom fFat], Ready i fabOne) ∧ (∀ i ∈ [Instr.fld fFab, .fst fFab], Ready i fabFull) ∧
    fabOne.fabAgain fabOne.cur.issuingSet = none ∧ nonDet fabOne fFat true = false :=
  ⟨all_ready _ _ (by decide), all_ready _ _ (by decide), by decide, by decide⟩
theorem test_fabric_address : fabOne.fabCheck 4 (List.range 16) (fabOne.cur.effAddr fFab) = none ∧
    fabOne.fabCheck 4 (List.range 16) (fabOne.cur.atomAddr fFat) = none ∧ fabFull.fabCheck 4 (List.range 16) (fabFull.cur.effAddr fFab) = none := by
  decide
/-- One slot is free: the request is sent; with every slot taken it waits. -/
def loadOut (s : State) : FabOut := s.newOut (.fld fFab) (2 ^ 52 + 0x50000) (.load [0x50000, 0x50001, 0x50002, 0x50003]) [] none
def sending (s : State) : State := (s.withCur { s.cur with fab := s.cur.fab ++ [loadOut s], fabSeq := s.cur.fabSeq + 1 }).fabPump s.cur.key
theorem test_slots : (sending fabOne).cur.fab.all (fun o => o.seq != 1 || o.sent) = true ∧
    (sending fabFull).cur.fab.any (fun o => o.seq == 1 && !o.sent) = true := by decide
def ffenced : State := match st0.fenceStep none with | .ready u => u | _ => st0
theorem test_ffence : Ready (.ffence fG) st0 ∧ st0.fenceStep none = .ready ffenced := by decide

/-- The target: an export of the tables that map the page 0x50000. -/
def stExp : State := { st0 with mem := memWalk, exports := [(4095, { asid := 0, root := 0x40000, r := true, w := true })] }
def storeReq : FabReq := req0 (.store [(0x50000, 7), (0x5FFFF, 8)])
theorem test_request : stExp.reaches 1 = true ∧ stExp.fabWaiting = [] ∧ mgetD stExp.clockOff 1 0 = 0 ∧
    (req0 (.load [0x50000, 0x5FFFF])).dst = stExp.config.devNum ∧ (req0 (.load [0x50000])).src ≠ stExp.config.devNum ∧
    stExp.gtc ≤ storeReq.deadline ∧ (stExp.fabCount 1 ⟨3, 0, 0⟩ 0).reported = false ∧ stExp.walk 0x40000 0x50000 = .leaf 0 0x5001F 0 ∧
    mget st0.exports 4095 = none ∧ tbit (0x5001F : Word64) 5 = false ∧ tbit (0x5001F : Word64) 2 = true ∧ tbit (0x5001F : Word64) 3 = true ∧
    (∀ a ∈ [0x50000, 0x5FFFF], physValid (leafPhys 0 0x5001F a) = true ∧ stExp.isPoisoned (leafPhys 0 0x5001F a) = false) ∧
    ([(0x50000, (7 : Byte)), (0x5FFFF, 8)].map (fun b => leafPhys 0 0x5001F b.1)).Nodup ∧ stExp.fabQueries = [] := by decide
theorem test_expired : ({ storeReq with deadline := 999 } : FabReq).deadline < stExp.gtc := by decide
theorem test_count_query : 1 ≠ st0.config.devNum ∧ st0.fabWaiting = [] ∧ st0.fabQueries = [] ∧ st0.reaches 1 = true := by decide
/-- A load, and a replayed store, towards device 1. -/
def useOne : FabUse := ⟨15, 15, 2 ^ 52, 9, 4, []⟩
def fabLoad : State := withFab [outTo (.load [0]) [useOne]]
def fabStore : State := withFab [outTo (.store [(0, 1)]) []]
theorem test_response : fabLoad.outOf 0 1 0 = some (fabLoad.cur, outTo (.load [0]) [useOne]) ∧
    fabLoad.findWave wave0.key = some fabLoad.cur ∧ fabStore.outOf 0 1 0 = some (fabStore.cur, outTo (.store [(0, 1)]) []) ∧
    fabStore.findWave wave0.key = some fabStore.cur ∧ 1 ≠ fabLoad.config.devNum ∧ fabLoad.gtc ≤ 2000 ∧
    fabLoad.reaches 1 = true := by decide
theorem test_timeout_store : fabStore.cur.fab.find? (fun x => x.sent && x.req.tag == 1 && !x.held) = some (outTo (.store [(0, 1)]) []) := by decide
theorem test_leaves : 1 ≠ fabLoad.config.devNum ∧ 1 ∈ fabLoad.config.present := by decide

/-! ### Feeds and tasks (R287 to R291, R364 to R367) -/

/-- Feed 255 with two records of 16 bytes at the index where the numbers wrap; `tail` says how many there are. -/
def feedMem (m : List Host.Cell) (flags tail head free : Nat) : List Host.Cell :=
  withWords m 0x71FE0 [0x80000, 2 + 32 * 2 ^ 32 + flags * 2 ^ 48, tail + head * 2 ^ 32, free]
def stFeed (flags tail head free : Nat) (f : Wave → Wave) : State :=
  { st0 with mem := feedMem mem0 flags tail head free, regs := { st0.regs with ftbase := 0x70000 }, grids := [{ grid0 with det := 2 }],
             cur := f { onlyLane 15 wave0 with s := [(4, 255), (5, 0x20000), (6, 2)] } }
def emptyFeed : State := stFeed 1 0xFFFFFFFF 0xFFFFFFFF 0xFFFFFFFF id
def fQpush : FmtQpush := { g := g0, sa := 4, sb := 5, sc := 6, ma := false, mb := false, mc := false, try_ := true, pd := 14 }
def pushRange : List LaneAcc := rangeAcc emptyFeed emptyFeed.cur false needPush 0 15 0x20000 64
theorem test_qpush : Ready (.qpush fQpush) emptyFeed ∧ (emptyFeed.fdesc 255).valid = true ∧ (emptyFeed.fdesc 255).entries = 2 ∧
    (emptyFeed.fdesc 255).room = 2 ∧ (emptyFeed.fdesc 255).rsize = 32 ∧ emptyFeed.pushQ = [] ∧ emptyFeed.released emptyFeed.cur = true ∧
    (emptyFeed.cur.lane (emptyFeed.cur.lowestTid (active (.qpush fQpush) emptyFeed))).tid = 15 := by decide
theorem test_qpush_source : (rangeFailed emptyFeed [15] 0x20000 pushRange).isNone = true ∧
    emptyFeed.timesOk 255 (splitRecs 2 32 (emptyFeed.rangeBytes emptyFeed.cur pushRange)) = true := by decide
/-- A feed that is not valid, one beyond the last, more records than it holds, a misaligned source, times that fall. -/
def badFeed (xs : List (Nat × Nat)) : State := stFeed 1 0xFFFFFFFF 0xFFFFFFFF 0xFFFFFFFF (fun w => { w with s := xs.map (fun x => (x.1, BitVec.ofNat 64 x.2)) })
theorem test_push_refused : (∀ x ∈ [[(4, 254), (6, 1)], [(4, 256)], [(4, 255), (6, 3)], [(4, 255), (5, 0x20008), (6, 2)]],
    ∀ i ∈ [Instr.qpush fQpush], decide (Ready i (badFeed x)) = true) ∧ ((badFeed []).fdesc 254).valid = false := ⟨by decide, by decide⟩
def stFalls : State := { stFeed 3 1 1 1 (fun w => { w with s := [(4, 255), (5, 0x20000), (6, 1)] }) with feedLast := [(255, (1, 5))] }
theorem test_push_falls : Ready (.qpush fQpush) stFalls ∧ (rangeFailed stFalls [15] 0x20000
    (rangeAcc stFalls stFalls.cur false needPush 0 15 0x20000 32)).isNone = true ∧
    stFalls.timesOk 255 (splitRecs 1 32 (stFalls.rangeBytes stFalls.cur (rangeAcc stFalls stFalls.cur false needPush 0 15 0x20000 32))) = false := by decide
theorem test_feed_write : (∀ r ∈ [List.replicate 32 (1 : Byte)], r.length = (emptyFeed.fdesc 255).rsize) ∧
    (∀ i < 2, emptyFeed.fdAddr 255 + 32 ≤ 0x80000 + 32 * i) ∧ (emptyFeed.fdesc 255).ring = 0x80000 := by decide
def fullFeed : State := stFeed 1 0 0xFFFFFFFF 0xFFFFFFFF id
def fQpop : FmtQpop := { g := g0, vd := 56, sa := 4, sb := 5, ma := false, mb := false, pd := 14 }
theorem test_qpop : Ready (.qpop fQpop) fullFeed ∧ (fullFeed.popCheck fQpop false fullFeed.cur.issuingSet [15]).isNone = true ∧
    fullFeed.popTurn 255 = true ∧ active (.qpop fQpop) fullFeed = [15] ∧ (fullFeed.fdesc 255).unclaimed = 1 := by decide
def orderedFeed (f : Wave → Wave) : State := stFeed 3 0 0xFFFFFFFF 0xFFFFFFFF f
theorem test_qpop_ordered : Ready (.qpopO fQpop) (orderedFeed id) ∧
    ((orderedFeed id).popCheck fQpop true (orderedFeed id).cur.issuingSet [15]).isNone = true ∧ (orderedFeed id).cur.pend = [] ∧
    (orderedFeed id).producing = false ∧ (orderedFeed id).cur.redeliver = none ∧ (orderedFeed id).popTurn 255 = true ∧
    (orderedFeed id).cur.task = none := by decide
/-- A pop from no feed, into registers beyond the allotment, and an ordered one of a feed that is not ordered. -/
theorem test_pop_refused : (∀ i ∈ [Instr.qpop fQpop, .qpopO fQpop], Ready i (badFeed [(4, 256)])) ∧
    (∀ i ∈ [Instr.qpop { fQpop with vd := 60 }, .qpopO { fQpop with vd := 60 }], Ready i fullFeed) ∧ fullFeed.cur.alloc < 60 + 32 / 4 ∧
    Ready (.qpopO fQpop) fullFeed ∧ (fullFeed.fdesc 255).ordered = false ∧ 56 + 32 / 4 ≤ fullFeed.cur.alloc :=
  ⟨all_ready _ _ (by decide), all_ready _ _ (by decide), by decide, by decide, by decide, by decide⟩
def task0 : Task := { feed := 255, idx := 0xFFFFFFFF, sig := [], wrote := [], wide := false }
def stTask : State := orderedFeed (fun w => { w with task := some task0, nonspec := true })
theorem test_qdone : Ready (.qdone fG) stTask ∧ stTask.cur.task = some task0 ∧ (stTask.fdesc 255).free = 0xFFFFFFFF ∧
    stTask.released stTask.cur = true := by decide
def stOldest : State :=
  orderedFeed (fun w => { w with task := some task0, spec := 3, ck := some w.toArch, hold := [⟨[(0x20000, 5)], false, false⟩], why := .oldest })
theorem test_turns : stOldest.findWave stOldest.cur.key = some stOldest.cur ∧ stOldest.cur.spec = 3 ∧ stOldest.cur.task = some task0 ∧
    (stOldest.fdesc 255).free = 0xFFFFFFFF := by decide
def qpopWord : Word64 := encode (.qpop fQpop)
def stRecord : State :=
  { st0 with cur := { wave0 with s := [(4, 255), (5, 2000)], why := .record }, mem := withWords mem0 0x10008 [qpopWord.toNat] }
theorem test_qpop_deadline : stRecord.findWave stRecord.cur.key = some stRecord.cur ∧ stRecord.cur.why = .record ∧
    stRecord.fetch stRecord.cur stRecord.at_ = .word qpopWord ∧ decode qpopWord = some (.qpop fQpop) ∧ fQpop.pd ≠ 15 ∧
    stRecord.cur.getS 5 ≠ 0 := by decide

/-! ### Queues, launches, teams, packets (R292 to R297, R346 to R363) -/

/-- Queue 1023 of two entries at index 0xFFFFFFFF, resident on die 3, with one packet at 0x90080 and a settings block at
0xA0000. -/
def queueMem (ws set_ : List Nat) : List Host.Cell :=
  withWords (withWords (withWords mem0 0x6FFC0 [0x90000, 2 + 8 * 2 ^ 40 + 2 ^ 48, 0xFFFFFFFF * 2 ^ 32]) 0x90080 ws) 0xA0000 set_
def stQueue (ws set_ : List Nat) : State :=
  { st0 with mem := queueMem ws set_, regs := { st0.regs with qtbase := 0x60000 }, resident := [(3, [1023])], noticed := [(1023, 0)],
             grids := [], teams := [], cur := Wave.nobody }
def settings0 : List Nat := [0x30000, 0x400000, 0, 0, 0x10200, 4, 0x20000]
def launchWords (contract : Nat) : List Nat :=
  [1, 0, 0, 0, 0x10000, 8 + 2 * 2 ^ 32, 0x10100, 0, 0xA0000, 0, 7 + contract * 2 ^ 32 + 16 * 2 ^ 48, 1 + 2 ^ 32,
   1 + 2 ^ 32 + 64 * 2 ^ 48, 4096 + 4 * 2 ^ 32]
def stLaunch (contract : Nat) : State := stQueue (launchWords contract) settings0
theorem test_launch : (stLaunch 0x400).startable 1023 0xFFFFFFFF = true ∧ (stLaunch 0x400).pktKind 1023 0xFFFFFFFF = 1 ∧
    ((stLaunch 0x400).startServed 1023 0xFFFFFFFF).launchCheck 1023 0xFFFFFFFF = none ∧
    ((stLaunch 0x500).startServed 1023 0xFFFFFFFF).launchCheck 1023 0xFFFFFFFF = some 1 ∧ (stLaunch 0x400).grids = [] := by decide
/-- A grid whose first team is to be placed on core 511. -/
def gridQ : Grid := { grid0 with queue := 1023, pkt := 0xFFFFFFFF, nextTeam := 0 }
def stPlace : State := { stQueue [] [] with grids := [gridQ] }
def room0 : Room := ⟨0, 0, [(511, 0)]⟩
theorem test_place : stPlace.power = .p0 ∧ stPlace.placeNext 511 = some gridQ ∧ stPlace.newRoom gridQ 511 = some room0 := by decide
def teamSaved : Team := { team0 with saved := true, savedWaves := [wave0] }
def stResume : State := { stQueue [] [] with grids := [{ gridQ with nextTeam := 1 }], teams := [teamSaved] }
theorem test_resume : stResume.teams.find? (fun x => x.grid == 0 && x.idx == 0) = some teamSaved ∧ stResume.served 1023 511 = true ∧
    (stResume.gridAt 0).queue = 1023 ∧ stResume.savedRoom teamSaved 511 = some room0 ∧
    stResume.mayGo (stResume.gridAt 0, some teamSaved) 511 = true := by decide
/-- The team's own wave, privileged, moves it to core 510; and a saved team of another grid. -/
def fMig (n : Bool) : FmtMig := { g := gT, sd := 7, sa := 4, sb := if n then 5 else 0, ma := false, mb := false, named := n }
def stMig : State :=
  { stPlace with cur := { wave0 with s := [(4, 3 + 126 * 4), (5, 1023 * 2 ^ 32)], priv := true, key := ⟨2, 0, 0⟩ },
                 grids := [{ gridQ with nextTeam := 1 }, { grid0 with id := 2 }], teams := [teamSaved, { team0 with grid := 2 }] }
theorem test_migrate_saved : Ready (.migrate (fMig true)) stMig ∧ stMig.cur.privileged = true ∧ stMig.migLegal (fMig true) = true ∧
    stMig.migTeam (fMig true) = some teamSaved ∧ (stMig.roomOn (stMig.gridAt 0).p 510 teamSaved.allots 0).isSome = true ∧ stMig.cool (stMig.gridAt 0) 510 = true ∧
    (match stMig.migRoom teamSaved 510 with | .ok _ => true | .error _ => false) = true := by decide
def taken : State × Bool := stMig.takeTeam 2 0
theorem test_migrate_own : Ready (.migrate (fMig false)) stMig ∧ stMig.migTeam (fMig false) = some { team0 with grid := 2 } ∧ taken.2 = true ∧
    (taken.1.roomOn (taken.1.gridAt 2).p 510 (taken.1.teamAt 2 0).allots 0).isSome = true ∧ stMig.cool (stMig.gridAt 2) 510 = true ∧ (taken.1.teamAt 2 0).savedEngine = [] ∧
    (match stMig.migRoom { team0 with grid := 2 } 510 with | .ok _ => true | .error _ => false) = true := by decide
def stOver : State := { stQueue [] [] with grids := [{ gridQ with nextTeam := 1 }] }
theorem test_over : stOver.grids.find? (fun x => x.id == 0) = some { gridQ with nextTeam := 1 } ∧ stOver.gridOver { gridQ with nextTeam := 1 } = true ∧
    stOver.mayComplete { gridQ with nextTeam := 1 } = true := by decide

/-- A feed append, and the packets that set a level, a token, a class. -/
def stAppend : State :=
  { stQueue [2, 0, 0, 0, 255 + 2 ^ 32, 0x20000] [] with
    mem := feedMem (queueMem [2, 0, 0, 0, 255 + 2 ^ 32, 0x20000] []) 1 0xFFFFFFFF 0xFFFFFFFF 0xFFFFFFFF,
    regs := { st0.regs with qtbase := 0x60000, ftbase := 0x70000 } }
theorem test_append : stAppend.startsAs 1023 0xFFFFFFFF 2 = true ∧ (stAppend.startServed 1023 0xFFFFFFFF).appendOk 1023 0xFFFFFFFF = true ∧
    ((stAppend.startServed 1023 0xFFFFFFFF).fdesc 255).valid = true ∧ ((stAppend.startServed 1023 0xFFFFFFFF).fdesc 255).room = 2 ∧
    ((stAppend.startServed 1023 0xFFFFFFFF).fdesc 255).ordered = false ∧ stAppend.pushQ = [] := by decide
theorem test_append_times : (stAppend.startServed 1023 0xFFFFFFFF).timesOk 255 (splitRecs 1 32 ((stAppend.startServed 1023 0xFFFFFFFF).readN 0x20000 32)) = true := by
  decide
theorem test_completion_apart : (stAppend.qdesc 1023).pktAddr 0xFFFFFFFF = 0x90080 ∧ stAppend.qdAddr 1023 = 0x6FFC0 := by decide
def starts (k : Nat) (ws : List Nat) : Bool := (stQueue ws []).startsAs 1023 0xFFFFFFFF k && (stQueue ws []).headerOk 1023 0xFFFFFFFF
theorem test_packets : starts 4 [4, 0, 0, 0, 2] = true ∧ starts 5 [5, 0, 0, 0, 1023 + 2 ^ 16] = true ∧ starts 5 [5] = true ∧
    starts 6 [6, 0, 0, 0, 7] = true ∧ ((stQueue [5, 0, 0, 0, 1023 + 2 ^ 16] []).qdesc 1023).valid = true := by decide
theorem test_packet_fields : (stQueue [4, 0, 0, 0, 2] []).pkt 1023 0xFFFFFFFF 0x20 1 = 2 ∧ (stQueue [4, 0, 0, 0, 2] []).pkt 1023 0xFFFFFFFF 0x21 95 = 0 ∧
    (stQueue [5, 0, 0, 0, 1023 + 2 ^ 16] []).pkt 1023 0xFFFFFFFF 0x22 1 = 1 ∧ (stQueue [5, 0, 0, 0, 1023 + 2 ^ 16] []).pkt 1023 0xFFFFFFFF 0x23 93 = 0 := by
  decide
/-- Grid control: a checkpoint of grid 7 at the last name, its end, and a restore. -/
def gridNamed : Grid := { gridQ with p := { grid0.p with launch := 7 }, nextTeam := 1 }
def ckptWords (op name : Nat) : List Nat := [7, 0, 0, 0, op + name * 2 ^ 8 + 7 * 2 ^ 32, 0xB0000, 0x1000, 0xA0000]
def stGridCtl (op name : Nat) : State := { stQueue (ckptWords op name) settings0 with grids := [gridNamed], ckpts := [(0, ⟨gridNamed, 63, [teamSaved], []⟩)], nextGrid := 9 }
theorem test_checkpoint : (stGridCtl 1 63).startsAs 1023 0xFFFFFFFF 7 = true ∧ (stGridCtl 1 63).pkt 1023 0xFFFFFFFF 0x20 1 = 1 ∧
    (stGridCtl 1 63).gridOk 1023 0xFFFFFFFF = true ∧ (stGridCtl 1 63).bufOk 1023 0xFFFFFFFF = true ∧
    (stGridCtl 1 63).pkt 1023 0xFFFFFFFF 0x21 1 = 63 ∧ (stGridCtl 1 63).target_ 1023 0xFFFFFFFF = some gridNamed := by decide
theorem test_end : (stGridCtl 3 0).startsAs 1023 0xFFFFFFFF 7 = true ∧ (stGridCtl 3 0).pkt 1023 0xFFFFFFFF 0x20 1 = 3 ∧
    (stGridCtl 3 0).gridOk 1023 0xFFFFFFFF = true ∧ (stGridCtl 3 0).target_ 1023 0xFFFFFFFF = some gridNamed := by decide
theorem test_restore : (stGridCtl 2 0).startsAs 1023 0xFFFFFFFF 7 = true ∧ (stGridCtl 2 0).pkt 1023 0xFFFFFFFF 0x20 1 = 2 ∧
    (stGridCtl 2 0).gridOk 1023 0xFFFFFFFF = true ∧ (stGridCtl 2 0).bufOk 1023 0xFFFFFFFF = true ∧
    (stGridCtl 2 0).settingsOk ((stGridCtl 2 0).pkt 1023 0xFFFFFFFF 0x38 8) = true ∧
    mget (stGridCtl 2 0).ckpts ((stGridCtl 2 0).readNat 0xB0000 8) = some ⟨gridNamed, 63, [teamSaved], []⟩ ∧
    (stGridCtl 2 0).checkFrom3 1023 gridNamed.p = none ∧ gridNamed.id ≠ 9 := by decide
theorem test_unknown : (stQueue [0] []).power = .p0 ∧ (stQueue [0] []).isResident 1023 = true ∧ (stQueue [0] []).inWindow 1023 0xFFFFFFFF = true ∧
    (stQueue [0] []).pktStarted 1023 0xFFFFFFFF = false ∧ (stQueue [0] []).pktKind 1023 0xFFFFFFFF = 0 ∧ (stQueue [8] []).pktKind 1023 0xFFFFFFFF = 8 := by
  decide
/-- A communicator of two waves of this device, with its table at 0xA0000 and its record at 0xC0000; and its release. -/
def commWords : List Nat := [3, 0, 0, 0, 0xA0000, 2 + 4 * 2 ^ 32, 0xC0000]
def stSetUp : State := stQueue commWords [0, 0, 0, 1]
theorem test_set_up : stSetUp.startsAs 1023 0xFFFFFFFF 3 = true ∧ stSetUp.hostComms = [] ∧
    tbit (stSetUp.startServed 1023 0xFFFFFFFF).regs.fmode 3 = false ∧ stSetUp.pkt 1023 0xFFFFFFFF 0x2D 1 % 2 = 0 ∧
    stSetUp.pkt 1023 0xFFFFFFFF 0x30 8 % 32 = 0 ∧ (stSetUp.startServed 1023 0xFFFFFFFF).setUpOk 1023 0xFFFFFFFF = true ∧
    (List.range 2).map ((stSetUp.startServed 1023 0xFFFFFFFF).memberAt 0xA0000) = [(0, 0, 0, 0), (0, 0, 1, 0)] ∧
    (match (stSetUp.startServed 1023 0xFFFFFFFF).setUpCheck 1023 0xFFFFFFFF [] [(0, 0, 0, 0), (0, 0, 1, 0)] with
      | .ok (_, c) => c == 0x400 | .error _ => false) = true := by decide
def stSetUpHost : State := { stSetUp with regs := { stSetUp.regs with fmode := 8 } }
theorem test_set_up_host : stSetUpHost.startsAs 1023 0xFFFFFFFF 3 = true ∧ stSetUpHost.hostComms = [] ∧
    tbit (stSetUpHost.startServed 1023 0xFFFFFFFF).regs.fmode 3 = true := by decide
def stRelease : State := { stQueue [3, 0, 0, 0, 0, 2 ^ 40, 0xC0000] [] with
  mem := withWords (queueMem [3, 0, 0, 0, 0, 2 ^ 40, 0xC0000] []) 0xC0000 [0xFFFFFF], comms := [comm0] }
theorem test_release : stRelease.startsAs 1023 0xFFFFFFFF 3 = true ∧ stRelease.pkt 1023 0xFFFFFFFF 0x2D 1 = 1 ∧ stRelease.headerOk 1023 0xFFFFFFFF = true ∧
    stRelease.pkt 1023 0xFFFFFFFF 0x20 8 = 0 ∧ stRelease.pkt 1023 0xFFFFFFFF 0x38 72 = 0 ∧ physValid 0xC0000 = true ∧
    (stRelease.startServed 1023 0xFFFFFFFF).recordComm 0xC0000 = some comm0 ∧ (stRelease.startServed 1023 0xFFFFFFFF).commBusy comm0 = false ∧
    (stRelease.startServed 1023 0xFFFFFFFF).commAt 255 65535 = some comm0 := by decide
/-- A communicator without a member here, and its set-up with what the device of its members reports. -/
def commAway : Comm := { comm0 with members := [(0, 0, 0, 1)] }
def stAway : State := { stRelease with comms := [], awayComms := [commAway] }
theorem test_release_away : (stAway.startServed 1023 0xFFFFFFFF).recordComm 0xC0000 = some commAway ∧
    (stAway.startServed 1023 0xFFFFFFFF).commAt 255 65535 = none ∧ (stAway.startServed 1023 0xFFFFFFFF).commBusy commAway = false := by decide
def stSetAway : State := { stQueue commWords [0, 256, 0, 257] with config := { st0.config with present := [0, 1] } }
theorem test_set_up_away : (stSetAway.startServed 1023 0xFFFFFFFF).setUpOk 1023 0xFFFFFFFF = true ∧
    (List.range 2).map ((stSetAway.startServed 1023 0xFFFFFFFF).memberAt 0xA0000) = [(0, 0, 0, 1), (0, 0, 1, 1)] ∧
    (match (stSetAway.startServed 1023 0xFFFFFFFF).setUpCheck 1023 0xFFFFFFFF [(1, 0xFFFF001F)] [(0, 0, 0, 1), (0, 0, 1, 1)] with
      | .ok (_, c) => c == 0x400 | .error _ => false) = true ∧
    (stSetAway.startServed 1023 0xFFFFFFFF).useFor [(1, 0xFFFF001F)] 1 [(0, 0, 0, 1), (0, 0, 1, 1)] = 0xFFFF := by decide

/-! ### Host registers, Barker, power (R344, R345, R347, R368 to R395) -/

/-- Booted, with the host's link up, both ports up and Barker enabled. -/
def stRun (s : State) : State :=
  let r : DevRegs := { s.regs with bootst := 16, bkctl := 7, bkwin := 0x100000, bkwlen := 0x1000, bkvoc := [0, 0, 0, 2] }
  { s with hostLink := true, portLink := (true, true), regs := r }
theorem test_host_registers : (stRun (stQueue [] [])).hostReaches = true ∧ (stRun (stQueue [] [])).running_ = true ∧
    ((stRun (stQueue [] [])).qdesc 1023).valid = true ∧ 3 < Config.dies ∧ (stQueue [] []).power = .p0 := by decide
/-- One core with a headroom of 1, at the two bounds of the package power and above them. -/
def stWatts (n : Nat) : State := { st0 with cores := [(511, { core0 with headroom := 1 })], watts := n }
theorem test_watts : [2660, 2661, 2800, 2801].map (fun n => (stWatts n).headroom 511) = [1, 0, 0, 0] := by decide
/-- Stream 4095, open on vocabulary 3. -/
def stream0 : Stream :=
  { Stream.closed 65535 with
    isOpen := true, conn := 1, port := 1, tag := 5, slot := 3, feed := 255, reqs := [true], ready := [65], readyAt := 900 }
def stBk : State :=
  { stRun emptyFeed with streams := [(4095, stream0)], vocs := [(3, { image := voc0, old := none })],
                         cur := { onlyLane 15 wave0 with lanes := (onlyLane 15 wave0).lanes.map (fun x => { x with v := [(0, 66), (2, 0xFFFFFFF)] }) } }
def fDtk : FmtDtk := { g := g0, va := 0, vb := 2, ma := false, mb := false }
theorem test_dtk : stBk.progress = [] ∧ stBk.lanesNow = none ∧ (∀ i ∈ [Instr.dtk fDtk, .dtkEnd fDtk], Ready i stBk) ∧
    (stBk.tokenLane false 15 0xFFFFFFF 66).isSome = true ∧
    (stBk.tokenLane true 15 0xFFFFFFF 66).isSome = true := ⟨by decide, by decide, all_ready _ _ (by decide), by decide, by decide⟩
def stLoad : State := { stBk with regs := { stBk.regs with bkvoc := [0, 0, 0, 1] } }
theorem test_vocabulary_load : stLoad.vocState 3 = 1 ∧ stLoad.regs.bkvoc.length = 4 := by decide
/-- A request of one byte on the open stream. -/
def msg0 : List Byte := leBytes 4 0x03014B42 ++ leBytes 4 255 ++ leBytes 4 5 ++ leBytes 4 1 ++ [65]
def counted (rud : Bool) : State := (stBk.bkCount 0 1).bkCount 3 (if rud then 1 else 0)
theorem test_barker : stBk.running_ = true ∧ tbit stBk.regs.bkctl 0 = true ∧ (reqHdr false msg0).ok = true ∧
    (counted false).reqStatus 1 (reqHdr false msg0) 17 = none ∧ (counted false).streamFor 1 5 = some 4095 ∧
    (reqHdr false msg0).feed = 255 := by decide
theorem test_barker_fits : recordCount ((((counted false).fdesc 255).rsize - 16) / 4) (tokenise voc0 [65]).1.length ≤ ((counted false).fdesc 255).entries := by
  decide
/-- The same by RUD; for a vocabulary that is not loaded; and of more ids than two records of four hold. -/
theorem test_barker_refused : (reqHdr true msg0).ok = false ∧ (counted false).reqStatus 2 { reqHdr false msg0 with slot := 2 } 17 = some 2 ∧
    2 < recordCount 4 (List.replicate 9 (65 : Byte)).length := by decide
theorem test_barker_off : tbit st0.regs.bkctl 0 = false := by decide
def heldRecs : List (List Byte) := [List.replicate 32 1]
def stHeld : State := { stBk with pushQ := [(255, .barker heldRecs 17)], bkHeld := 17 }
theorem test_barker_append : stHeld.firstAppender 255 = some (.barker heldRecs 17) ∧ heldRecs.length ≤ (stHeld.fdesc 255).room ∧
    (stHeld.fdesc 255).valid = true ∧ (∀ r ∈ heldRecs, r.length = (stHeld.fdesc 255).rsize) ∧
    ({ stHeld.leavePushQ 255 (.barker heldRecs 17) with bkHeld := 0 } : State).timesOk 255 heldRecs = true := by decide
/-- No feed there; records of another size. -/
def stNoFeed : State := { st0 with pushQ := [(255, .barker heldRecs 17)] }
theorem test_barker_drops : stNoFeed.firstAppender 255 = some (.barker heldRecs 17) ∧ (stNoFeed.fdesc 255).valid = false ∧
    ∃ r ∈ [List.replicate 48 (1 : Byte)], r.length ≠ (stHeld.fdesc 255).rsize := by decide
theorem test_bulk : stBk.running_ = true ∧ stBk.rma = [] ∧ ¬ (stBk.regs.bkwin.toNat ≤ 0xFFFFF) ∧ physValid 0x100FFF = true ∧ stBk.regs.bkwin.toNat ≤ 0x100FFF ∧
    0x100FFF + 1 ≤ stBk.regs.bkwin.toNat + stBk.regs.bkwlen.toNat := by decide
theorem test_flush : stBk.streams = [(4095, stream0)] ∧ stream0.isOpen = true ∧ stream0.ready ≠ [] ∧ (stBk.streamAt 4095).isOpen = true := by decide

def flash1 : Flash := { fw := ⟨1, true, [1]⟩, cfg := ⟨9, true, []⟩ }
def flash2 : Flash := { fw := ⟨2, true, [2]⟩, cfg := ⟨1, true, []⟩ }
def stPower (p : Power) (a b : Flash) : State := { st0 with power := p, flash := (a, b) }
theorem test_boot : (stPower .standby flash1 flash2).power = .standby ∧ flash1.fw.version < flash2.fw.version ∧ flash2.valid = true ∧
    Flash.empty.valid = false ∧ (stPower .standby flash1 flash2).selfTestFailed = [] := by decide
theorem test_running_grid : ∃ g ∈ (stPower .p0 flash1 flash2).grids, g.ended = none := ⟨grid0, by decide, by decide⟩
theorem test_off : ({ State.reset with power := .standby } : State).power = .standby ∧ State.reset.power = .off := by decide
def stP1 : State := { stRun (stQueue [] []) with power := .p1 }
theorem test_wake : stP1.power = .p1 ∧ tbit stP1.regs.bootst 4 = true ∧ (1023, 0) ∈ stP1.noticed ∧ (stP1.qdesc 1023).valid = true ∧
    (stP1.qdesc 1023).ahead 0 ≠ 0 := by decide
theorem test_writer : (stPower .p0 flash1 flash2).writer = none ∧
    tbit ({ (stRun st0).regs with bootst := 32 } : DevRegs).bootst 5 = true ∧ tbit st0.regs.bootst 6 = false ∧ ({ stPower .p0 flash1 flash2 with writer := some false } : State).writer = some false := by decide

/-! ### The machine as a whole -/

theorem reset_inv : Machine.Inv State.reset := rfl
/-- The word 0, which is no instruction, and a `nop`. -/
def stNop : State := { st0 with mem := withWords mem0 0x10008 [0xE078000000000000] }
theorem test_step : st0.sched = [] ∧ st0.mayIssue = true ∧ st0.unitsTurn = false ∧ stNop.unitsTurn = false ∧ st0.cur.overdue = none ∧ st0.before.isNone = true ∧
    st0.fetch st0.cur st0.at_ = .word 0 ∧ stNop.mayIssue = true ∧ stNop.before.isNone = true ∧
    stNop.fetch stNop.cur stNop.at_ = .word 0xE078000000000000 := by decide
/-- A registers-only instruction that passes (the frame). -/
theorem test_frame : (rowOne (.vadd (fA .u32))) = true ∧ st0.cur.tm = false ∧ st0.cur.step = false ∧ st0.cur.pw = [] := by decide
theorem test_round_trip : Instr.wellFormed (.vadd (fA .u32)) = true := by decide

/-! ### Words of the specification: each instruction's own encoding, read back -/

/-- R56 to R58, R64. -/
def wordsVector : List (Word64 × Instr) := [
  (0x1078140580000000, .vadd { g := 15, vd := 10, va := 11, vb := 0, ma := false, mb := false, ty := .u32, minor := 0, rnd := 0, sat := false, p := false }),
  (0x1178140601D10010, .vsub { g := 15, vd := 10, va := 12, vb := 14, ma := true, mb := false, ty := .s32, minor := 0, rnd := 0, sat := true, p := false }),
  (0x1278140601D00E08, .vaddc { g := 15, vd := 10, va := 12, vb := 14, ma := true, mb := false, ty := .u32, minor := 14, rnd := 0, sat := false, p := true }),
  (0x1378140601D20000, .vmul { g := 15, vd := 10, va := 12, vb := 14, ma := true, mb := false, ty := .u64, minor := 0, rnd := 0, sat := false, p := false }),
  (0x1478140601D10000, .vmulh { g := 15, vd := 10, va := 12, vb := 14, ma := true, mb := false, ty := .s32, minor := 0, rnd := 0, sat := false, p := false }),
  (0x1678140601D30000, .vmin { g := 15, vd := 10, va := 12, vb := 14, ma := true, mb := false, ty := .s64, minor := 0, rnd := 0, sat := false, p := false }),
  (0x1778140601D00000, .vmax { g := 15, vd := 10, va := 12, vb := 14, ma := true, mb := false, ty := .u32, minor := 0, rnd := 0, sat := false, p := false }),
  (0x1878140601D10000, .vabsd { g := 15, vd := 10, va := 12, vb := 14, ma := true, mb := false, ty := .s32, minor := 0, rnd := 0, sat := false, p := false }),
  (0x1978140601D20000, .vand { g := 15, vd := 10, va := 12, vb := 14, ma := true, mb := false, ty := .u64, minor := 0, rnd := 0, sat := false, p := false }),
  (0x1A78140601D00000, .vor { g := 15, vd := 10, va := 12, vb := 14, ma := true, mb := false, ty := .u32, minor := 0, rnd := 0, sat := false, p := false }),
  (0x1B78140601D00000, .vxor { g := 15, vd := 10, va := 12, vb := 14, ma := true, mb := false, ty := .u32, minor := 0, rnd := 0, sat := false, p := false }),
  (0x1D78140601D20000, .vshl { g := 15, vd := 10, va := 12, vb := 14, ma := true, mb := false, ty := .u64, minor := 0, rnd := 0, sat := false, p := false }),
  (0x1E78140601D00000, .vshr { g := 15, vd := 10, va := 12, vb := 14, ma := true, mb := false, ty := .u32, minor := 0, rnd := 0, sat := false, p := false }),
  (0x1F78140601D30000, .vsar { g := 15, vd := 10, va := 12, vb := 14, ma := true, mb := false, ty := .s64, minor := 0, rnd := 0, sat := false, p := false }),
  (0x2078140601D00100, .vrot { g := 15, vd := 10, va := 12, vb := 14, ma := true, mb := false, ty := .u32, minor := 1, rnd := 0, sat := false, p := false }),
  (0x1C78140600120000, .vnot { g := 15, vd := 10, va := 12, vb := 0, ma := true, mb := false, ty := .u64, minor := 0, rnd := 0, sat := false, p := false }),
  (0x2178140600100000, .vclz { g := 15, vd := 10, va := 12, vb := 0, ma := true, mb := false, ty := .u32, minor := 0, rnd := 0, sat := false, p := false }),
  (0x2278140600120000, .vpopc { g := 15, vd := 10, va := 12, vb := 0, ma := true, mb := false, ty := .u64, minor := 0, rnd := 0, sat := false, p := false }),
  (0x2378140600100000, .vbrev { g := 15, vd := 10, va := 12, vb := 0, ma := true, mb := false, ty := .u32, minor := 0, rnd := 0, sat := false, p := false }),
  (0x2878140600120000, .vmov { g := 15, vd := 10, va := 12, vb := 0, ma := true, mb := false, ty := .u64, minor := 0, rnd := 0, sat := false, p := false }),
  (0x1578140601C08360, .vmad { g := 15, vd := 10, va := 12, vb := 14, vc := 16, ma := false, mb := true, mc := true, ty := .s64, rnd := 0, p := false, minor := 0 }),
  (0x2478140601C08320, .vext { g := 15, vd := 10, va := 12, vb := 14, vc := 16, ma := false, mb := true, mc := true, ty := .s32, rnd := 0, p := false, minor := 0 }),
  (0x2578140601C08300, .vins { g := 15, vd := 10, va := 12, vb := 14, vc := 16, ma := false, mb := true, mc := true, ty := .u32, rnd := 0, p := false, minor := 0 }),
  (0x2678140601C08340, .vsel { g := 15, vd := 10, va := 12, vb := 14, vc := 16, ma := false, mb := true, mc := true, ty := .u64, rnd := 0, p := false, minor := 0 }),
  (0x2A78140601C08343, .vshfl { g := 15, vd := 10, va := 12, vb := 14, vc := 16, ma := false, mb := true, mc := true, ty := .u64, rnd := 0, p := false, minor := 3 }),
  (0x2778020501800200, .vcmp { g := 15, vd := 1, va := 10, vb := 12, ma := false, mb := false, ty := .u32, minor := 2, rnd := 0, sat := false, p := false }),
  (0x297FFC02FFFFFFFF, .vmovi { g := 15, rd := 1022, minor := 0, p := true, imm := 4294967295 }),
  (0x2B7814060FF20000, .vbcast { g := 15, vd := 10, va := 12, vb := 127, ma := true, mb := false, ty := .u64, minor := 0, rnd := 0, sat := false, p := false }),
  (0x2C781C078FE00300, .vvote { g := 15, vd := 14, va := 15, vb := 127, ma := false, mb := false, ty := .u32, minor := 3, rnd := 0, sat := false, p := false }),
  (0x2D78140601D00D00, .vscan { g := 15, vd := 10, va := 12, vb := 14, ma := true, mb := false, ty := .u32, minor := 13, rnd := 0, sat := false, p := false }),
  (0x2E781C0681640200, .vred { g := 15, vd := 14, va := 13, vb := 11, ma := false, mb := false, ty := .f32, minor := 2, rnd := 0, sat := false, p := false }),
  (0x2F7814070FE00000, .vcompact { g := 15, vd := 10, va := 14, vb := 127, ma := false, mb := false, ty := .u32, minor := 0, rnd := 0, sat := false, p := false })]
theorem test_words_vector : wordsVector.all (fun p => decode p.1 == some p.2 && encode p.2 == p.1) = true := by decide

/-- R58, R59, R65. -/
def wordsScalar : List (Word64 × Instr) := [
  (0x3078A16312000000, .sadd { g := 15, sd := 10, sa := 11, sb := 12, ma := false, mb := true, ty := .s32, minor := 0, i := false, imm := 0 }),
  (0x3178A16314000000, .ssub { g := 15, sd := 10, sa := 11, sb := 12, ma := false, mb := true, ty := .u64, minor := 0, i := false, imm := 0 }),
  (0x3278A16316000000, .smul { g := 15, sd := 10, sa := 11, sb := 12, ma := false, mb := true, ty := .s64, minor := 0, i := false, imm := 0 }),
  (0x3378A16310000000, .smad { g := 15, sd := 10, sa := 11, sb := 12, ma := false, mb := true, ty := .u32, minor := 0, i := false, imm := 0 }),
  (0x3478A16314000000, .sand { g := 15, sd := 10, sa := 11, sb := 12, ma := false, mb := true, ty := .u64, minor := 0, i := false, imm := 0 }),
  (0x3578A16310000000, .sor { g := 15, sd := 10, sa := 11, sb := 12, ma := false, mb := true, ty := .u32, minor := 0, i := false, imm := 0 }),
  (0x3678A16314000000, .sxor { g := 15, sd := 10, sa := 11, sb := 12, ma := false, mb := true, ty := .u64, minor := 0, i := false, imm := 0 }),
  (0x3778A0E004080002, .sshl { g := 15, sd := 10, sa := 7, sb := 0, ma := false, mb := false, ty := .u64, minor := 0, i := true, imm := 2 }),
  (0x3878A16310000000, .sshr { g := 15, sd := 10, sa := 11, sb := 12, ma := false, mb := true, ty := .u32, minor := 0, i := false, imm := 0 }),
  (0x3978A16316000000, .ssar { g := 15, sd := 10, sa := 11, sb := 12, ma := false, mb := true, ty := .s64, minor := 0, i := false, imm := 0 }),
  (0x3A78A16024000000, .smov { g := 15, sd := 10, sa := 11, sb := 0, ma := true, mb := false, ty := .u64, minor := 0, i := false, imm := 0 }),
  (0x3B7816000000FFFF, .smovi { g := 15, rd := 11, minor := 0, p := false, imm := 65535 }),
  (0x3C78E160065FFFFF, .scmp { g := 15, sd := 14, sa := 11, sb := 0, ma := false, mb := false, ty := .s64, minor := 5, i := true, imm := 524287 }),
  (0x3D7FF1FF4400003F, .vtos { g := 15, sr := 127, vr := 1022, m := true, p := false, ty := .u64, minor := 0, lane := 63 }),
  (0x3E7FF1FF54000000, .stov { g := 15, sr := 127, vr := 1022, m := true, p := true, ty := .u64, minor := 0, lane := 0 })]
theorem test_words_scalar : wordsScalar.all (fun p => decode p.1 == some p.2 && encode p.2 == p.1) = true := by decide

/-- R56, R57, R66. -/
def wordsFloat : List (Word64 × Instr) := [
  (0x4078140601D50060, .fadd { g := 15, vd := 10, va := 12, vb := 14, ma := true, mb := false, ty := .f64, minor := 0, rnd := 3, sat := false, p := false }),
  (0x4278140601D40000, .fmul { g := 15, vd := 10, va := 12, vb := 14, ma := true, mb := false, ty := .f32, minor := 0, rnd := 0, sat := false, p := false }),
  (0x4478140601D50000, .fmin { g := 15, vd := 10, va := 12, vb := 14, ma := true, mb := false, ty := .f64, minor := 0, rnd := 0, sat := false, p := false }),
  (0x4578140601D40000, .fmax { g := 15, vd := 10, va := 12, vb := 14, ma := true, mb := false, ty := .f32, minor := 0, rnd := 0, sat := false, p := false }),
  (0x4978140601D50020, .fscale { g := 15, vd := 10, va := 12, vb := 14, ma := true, mb := false, ty := .f64, minor := 0, rnd := 1, sat := false, p := false }),
  (0x5778140601D60000, .hadd2 { g := 15, vd := 10, va := 12, vb := 14, ma := true, mb := false, ty := .f16, minor := 0, rnd := 0, sat := false, p := false }),
  (0x5878140601D70000, .hmul2 { g := 15, vd := 10, va := 12, vb := 14, ma := true, mb := false, ty := .bf16, minor := 0, rnd := 0, sat := false, p := false }),
  (0x4178240782240000, .fsub { g := 15, vd := 18, va := 15, vb := 17, ma := false, mb := false, ty := .f32, minor := 0, rnd := 0, sat := false, p := false }),
  (0x43780E0080401888, .ffma { g := 15, vd := 7, va := 1, vb := 2, vc := 3, ma := false, mb := false, mc := false, ty := .f32, rnd := 1, p := false, minor := 0 }),
  (0x4678060A03040000, .fcmp { g := 15, vd := 3, va := 20, vb := 24, ma := false, mb := false, ty := .f32, minor := 0, rnd := 0, sat := false, p := false }),
  (0x4778140600150000, .fclass { g := 15, vd := 10, va := 12, vb := 0, ma := true, mb := false, ty := .f64, minor := 0, rnd := 0, sat := false, p := false }),
  (0x4878140600140040, .fround { g := 15, vd := 10, va := 12, vb := 0, ma := true, mb := false, ty := .f32, minor := 0, rnd := 2, sat := false, p := false }),
  (0x4A78140600150000, .fexp { g := 15, vd := 10, va := 12, vb := 0, ma := true, mb := false, ty := .f64, minor := 0, rnd := 0, sat := false, p := false }),
  (0x4B78140600140000, .fman { g := 15, vd := 10, va := 12, vb := 0, ma := true, mb := false, ty := .f32, minor := 0, rnd := 0, sat := false, p := false }),
  (0x5078140600160000, .flg2 { g := 15, vd := 10, va := 12, vb := 0, ma := true, mb := false, ty := .f16, minor := 0, rnd := 0, sat := false, p := false }),
  (0x5178140600150000, .frcp { g := 15, vd := 10, va := 12, vb := 0, ma := true, mb := false, ty := .f64, minor := 0, rnd := 0, sat := false, p := false }),
  (0x5278140600160000, .frsq { g := 15, vd := 10, va := 12, vb := 0, ma := true, mb := false, ty := .f16, minor := 0, rnd := 0, sat := false, p := false }),
  (0x5378140600150060, .fsqrt { g := 15, vd := 10, va := 12, vb := 0, ma := true, mb := false, ty := .f64, minor := 0, rnd := 3, sat := false, p := false }),
  (0x5478140600140000, .fsin2 { g := 15, vd := 10, va := 12, vb := 0, ma := true, mb := false, ty := .f32, minor := 0, rnd := 0, sat := false, p := false }),
  (0x5578140600160000, .fcos2 { g := 15, vd := 10, va := 12, vb := 0, ma := true, mb := false, ty := .f16, minor := 0, rnd := 0, sat := false, p := false }),
  (0x4C783C0600004190, .fcvt { g := 15, vd := 30, va := 12, vb := 0, ma := false, mb := false, ty := .u32, minor := 65, rnd := 4, sat := true, p := false }),
  (0x4D7814060010E010, .fcvti { g := 15, vd := 10, va := 12, vb := 0, ma := true, mb := false, ty := .u32, minor := 224, rnd := 0, sat := true, p := false }),
  (0x4E78140600101B00, .icvtf { g := 15, vd := 10, va := 12, vb := 0, ma := true, mb := false, ty := .u32, minor := 27, rnd := 0, sat := false, p := false }),
  (0x4F78240900040000, .fex2 { g := 15, vd := 18, va := 18, vb := 0, ma := false, mb := false, ty := .f32, minor := 0, rnd := 0, sat := false, p := false }),
  (0x5678140601C083E8, .fdot2 { g := 15, vd := 10, va := 12, vb := 14, vc := 16, ma := false, mb := true, mc := true, ty := .bf16, rnd := 1, p := false, minor := 0 }),
  (0x5978140601C083D8, .hfma2 { g := 15, vd := 10, va := 12, vb := 14, vc := 16, ma := false, mb := true, mc := true, ty := .f16, rnd := 3, p := false, minor := 0 }),
  (0x5A78500000000000, .fstat { g := 15, vd := 40, va := 0, vb := 0, ma := false, mb := false, ty := .u32, minor := 0, rnd := 0, sat := false, p := false })]
theorem test_words_float : wordsFloat.all (fun p => decode p.1 == some p.2 && encode p.2 == p.1) = true := by decide

/-- R61, R67, R104, R38. -/
def wordsControl : List (Word64 × Instr) := [
  (0x60100000FFFFFFE9, .br { g := 2, reg := 0, m := false, k := 0, off := 4294967273 }),
  (0x6178280000000000, .brd { g := 15, reg := 20, m := false, k := 0, off := 0 }),
  (0x62783C007FFFFFFF, .call { g := 15, reg := 30, m := false, k := 0, off := 2147483647 }),
  (0x63783D0000000000, .ret { g := 15, reg := 30, m := true, k := 0, off := 0 }),
  (0x64780A2000000000, .join { g := 15, reg := 5, m := false, k := 1, off := 0 }),
  (0x647800E100000000, .joinAct { g := 15, reg := 0, m := false, k := 7, off := 0 }),
  (0x657800E000000000, .wait { g := 15, reg := 0, m := false, k := 7, off := 0 }),
  (0x66F8000000000000, .exit { g := 31, reg := 0, m := false, k := 0, off := 0 }),
  (0xE678390000000000, .grow { g := 15, pd := 3, try_ := true, n := 2 }),
  (0xE778078000000000, .shrink { g := 15, pd := 0, try_ := false, n := 15 }),
  (0xE878500003800000, .sortk { g := 15, va := 40, ma := false, desc := false, mask := 7 })]
theorem test_words_control : wordsControl.all (fun p => decode p.1 == some p.2 && encode p.2 == p.1) = true := by decide

/-- R60, R67, R231, R234, R239, R240, R243. -/
def wordsMemory : List (Word64 × Instr) := [
  (0x70081A0408000000, .ld { g := 1, rd := 13, base := 8, scalar := false, m := false, width := 2, space := 0, cache := 0, scope := 0, off := 0 }),
  (0x71082C0408000000, .st { g := 1, rd := 22, base := 8, scalar := false, m := false, width := 2, space := 0, cache := 0, scope := 0, off := 0 }),
  (0x727808004C000000, .sld { g := 15, rd := 4, base := 0, scalar := true, m := false, width := 3, space := 0, cache := 0, scope := 0, off := 0 }),
  (0x7378FFFC6FFFFFFF, .sst { g := 15, rd := 127, base := 1016, scalar := true, m := true, width := 3, space := 3, cache := 3, scope := 3, off := 1048575 }),
  (0x747FFDFC41000000, .lda { g := 15, rd := 1022, base := 1016, scalar := true, m := false, width := 0, space := 1, cache := 0, scope := 0, off := 0 }),
  (0x7578000F00400000, .pf { g := 15, rd := 0, base := 30, scalar := false, m := false, width := 0, space := 0, cache := 1, scope := 0, off := 0 }),
  (0x801050504070C600, .atom { g := 2, vd := 40, base := 160, scalar := true, vb := 7, ma := false, mb := false, op := 6, wide := false, order := 1, scope := 4 }),
  (0x8110002442904A00, .red { g := 2, vd := 0, base := 72, scalar := true, vb := 41, ma := false, mb := false, op := 2, wide := false, order := 2, scope := 4 }),
  (0x8278000000000E00, .fence { g := 15, order := 3, scope := 4 }),
  (0x8378010000000000, .mon { g := 15, sa := 8, ma := false }),
  (0x847952C000000000, .mwait { g := 15, sd := 21, sa := 22, ma := false }),
  (0xB378062000000000, .barr { g := 15, sa := 0, ma := false, n := 49 }),
  (0xB478062000000000, .barw { g := 15, sa := 0, ma := false, n := 49 }),
  (0xB578062000000000, .bara { g := 15, sa := 0, ma := false, n := 49 }),
  (0xB678506000000000, .bmask { g := 15, sa := 5, ma := false, n := 3 })]
theorem test_words_memory : wordsMemory.all (fun p => decode p.1 == some p.2 && encode p.2 == p.1) = true := by decide

/-- R62, R158, R172, R173. -/
def wordsMatrix : List (Word64 × Instr) := [
  (0x9078160000000000, .cvdecl { g := 15, sa := 11, ma := false, k := 0 }),
  (0x91790050000033F2, .mma { g := 15, va := 128, vb := 160, acc := 0, cv := 0, shape := 0, fa := 3, fb := 3, fc := 15, ma := false, mb := false, z := true }),
  (0x92788050022136F0, .mmas { g := 15, va := 64, vb := 160, acc := 2, cv := 1, shape := 1, fa := 3, fb := 6, fc := 15, ma := false, mb := false, z := false }),
  (0x937800E000000000, .mmaw { g := 15, k := 7 }),
  (0x9478000000000000, .orf { g := 15 }),
  (0x9878000000000000, .spfence { g := 15 }),
  (0x95780C00002F8200, .accld { g := 15, reg := 6, m := false, sc := 0, sb := 0, acc := 5, fmt := 15, scale := false, sat := false, off := 512 }),
  (0x9678100000008010, .accst { g := 15, reg := 8, m := false, sc := 0, sb := 0, acc := 0, fmt := 1, scale := false, sat := false, off := 16 }),
  (0x967880000C009000, .accstReg { g := 15, reg := 64, m := false, sc := 0, sb := 3, acc := 0, fmt := 1, scale := false, sat := false, off := 0 }),
  (0x97780000001F8000, .acczero { g := 15, reg := 0, m := false, sc := 0, sb := 0, acc := 3, fmt := 15, scale := false, sat := false, off := 0 })]
theorem test_words_matrix : wordsMatrix.all (fun p => decode p.1 == some p.2 && encode p.2 == p.1) = true := by decide

/-- R185, R188, R189, R194, R206, R207, R215, R220. -/
def wordsRecords : List (Word64 × Instr) := [
  (0xA0780C1800000000, .trec { g := 15, sa := 6, ma := false, rec_ := 3, off := 0 }),
  (0xA178000000000000, .rfence { g := 15 }),
  (0xA278080A08200000, .qblk { g := 15, sa := 4, ma := false, sb := 5, mb := false, dst := 1, src := 0, flag := true }),
  (0xA378FFFCFF800000, .dqblk { g := 15, sa := 127, ma := true, sb := 126, mb := false, dst := 31, src := 30, flag := false }),
  (0xA478FEFDFFA00000, .hadm { g := 15, sa := 127, ma := false, sb := 126, mb := true, dst := 31, src := 30, flag := true }),
  (0xA578100200A06000, .sclq { g := 15, vd := 8, va := 4, vb := 5, ma := false, mb := false, fmt := 6 }),
  (0x7679001014000000, .vldt { g := 15, reg := 128, sa := 4, ma := false, sb := 5, mb := false, rec_ := 0, md := false }),
  (0x7778801014280000, .vstt { g := 15, reg := 64, sa := 4, ma := false, sb := 5, mb := false, rec_ := 2, md := true }),
  (0xB079E10106000000, .cpy { g := 15, sd := 30, sa := 8, sb := 4, sc := 12, ma := false, mb := false, mc := false }),
  (0xB179F10108100000, .cpys { g := 15, sd := 31, sa := 8, sb := 4, sc := 16, ma := false, mb := false, mc := true }),
  (0xB27803C000000000, .cpyw { g := 15, sd := 0, sa := 30, ma := false }),
  (0xB27803C400000000, .cpywWait { g := 15, sd := 0, sa := 30, ma := false }),
  (0xB279E3C800000000, .cpywRe { g := 15, sd := 30, sa := 30, ma := false }),
  (0xEA78002081800000, .tlbw { g := 15, sd := 0, sa := 1, sb := 2, sc := 3, ma := false, mb := false, mc := false }),
  (0xEB7800A000000000, .tlbiVa { g := 15, sa := 5, ma := false }),
  (0xEB7800A400000000, .tlbiAsid { g := 15, sa := 5, ma := false }),
  (0xEB78000800000000, .tlbiAll { g := 15, sa := 0, ma := false })]
theorem test_words_records : wordsRecords.all (fun p => decode p.1 == some p.2 && encode p.2 == p.1) = true := by decide

/-- R252 to R263, R336. -/
def wordsProposal : List (Word64 × Instr) := [
  (0xD078800000000000, .pbsel { g := 15, n := 64 }),
  (0xD178000C03E40000, .accept { g := 15, va := 24, vb := 31, ma := false, mb := false, expl := true }),
  (0xD278000000000000, .pbclr { g := 15 }),
  (0xD378500000000000, .pbcnt { g := 15, vd := 40 }),
  (0xD47828D000000000, .rng { g := 15, vd := 20, k := 3, form := 1, p := false }),
  (0xD57810C000000000, .rngk { g := 15, sa := 8, ma := false, k := 6 }),
  (0xC6780C0000000000, .cbrj { g := 15, sa := 6, ma := false, k := 0 }),
  (0xC578C800FFFFFFF4, .cbr { g := 15, pn := 1, or_ := true, t := false, k := 2, off := 4294967284 }),
  (0xC47870C241030000, .creduce { g := 15, sa := 7, sb := 6, sc := 9, ma := false, mb := false, mc := false, k := 1, kind := 0, op := 0, fmt := 3 })]
theorem test_words_proposal : wordsProposal.all (fun p => decode p.1 == some p.2 && encode p.2 == p.1) = true := by decide

/-- R311, R313, R318, R365 to R367, R384. -/
def wordsFabric : List (Word64 × Instr) := [
  (0xC078400408000000, .fld { g := 15, rd := 32, base := 8, scalar := false, m := false, width := 2, space := 0, cache := 0, scope := 0, off := 0 }),
  (0xC1082A1448002000, .fst { g := 1, rd := 21, base := 40, scalar := true, m := false, width := 2, space := 0, cache := 0, scope := 0, off := 8192 }),
  (0xC278180401000000, .fatom { g := 15, vd := 12, base := 8, scalar := false, vb := 16, ma := false, mb := false, op := 0, wide := false, order := 0, scope := 0 }),
  (0xC378000000000000, .ffence { g := 15 }),
  (0xB77800A183800000, .qpush { g := 15, sa := 5, sb := 6, sc := 7, ma := false, mb := false, mc := false, try_ := false, pd := 0 }),
  (0xB878501430600000, .qpop { g := 15, vd := 40, sa := 5, sb := 6, ma := false, mb := false, pd := 3 }),
  (0xB878501401F00000, .qpopO { g := 15, vd := 40, sa := 5, sb := 0, ma := false, mb := false, pd := 15 }),
  (0xB978000000000000, .qdone { g := 15 }),
  (0xBA78501480000000, .dtk { g := 15, va := 40, vb := 41, ma := false, mb := false }),
  (0xBA78501490000000, .dtkEnd { g := 15, va := 40, vb := 41, ma := false, mb := false })]
theorem test_words_fabric : wordsFabric.all (fun p => decode p.1 == some p.2 && encode p.2 == p.1) = true := by decide

/-- R280 to R284, R295, R298. -/
def wordsSystem : List (Word64 × Instr) := [
  (0xE078000000000000, .nop { g := 15 }),
  (0xE178000000000007, .trap { g := 15, imm := 7 }),
  (0xE2780A0000000000, .brk { g := 15, sa := 5, ma := false, k := 0 }),
  (0xE378000000000000, .sret { g := 15 }),
  (0xE378000000000001, .sretEsc { g := 15 }),
  (0xE4782A0000000009, .rdsr { g := 15, rd := 21, vec := false, num := 9 }),
  (0xE478130000000000, .rdsr { g := 15, rd := 9, vec := true, num := 0 }),
  (0xE5780A0000000020, .wrsr { g := 15, sa := 5, ma := false, num := 32 }),
  (0xE978308140000000, .wsw { g := 15, sd := 3, sa := 4, sb := 5, ma := false, mb := false }),
  (0xEC78208000000000, .migrate { g := 15, sd := 2, sa := 4, sb := 0, ma := false, mb := false, named := false })]
theorem test_words_system : wordsSystem.all (fun p => decode p.1 == some p.2 && encode p.2 == p.1) = true := by decide


/-! ### Ill-formed terms: one for each check -/

def fM0 : FmtM := { fM with space := 0, off := 0 }
def fTl (fmt : BitVec 4) : FmtTile := { g := gT, reg := 5, m := false, sc := 0, sb := 0, acc := 3, fmt := fmt, scale := false, sat := false, off := 0 }
def fXb : FmtX := { g := gT, va := 0, vb := 16, acc := 2, cv := 7, shape := 8, fa := 2, fb := 2, fc := 15, ma := false, mb := false, z := true }
def fAtm : FmtAtom := { g := gT, vd := 8, base := 32, scalar := true, vb := 0, ma := false, mb := false, op := 0, wide := false, order := 0, scope := 0 }

/-- Types, minors, odd pairs, rounding, modifiers and unused fields of format A. -/
def illA : List Instr := [
  .vadd (fA .f32), .vadd { fA .u32 with minor := 1 }, .vadd { fA .u64 with vd := 5 }, .vadd { fA .u64 with va := 1 }, .vadd { fA .u64 with vb := 3 },
  .vadd { fA .u32 with rnd := 1 }, .vmin { fA .u32 with sat := true }, .vaddc (fA .s32), .vaddc { fA .u32 with minor := 15 }, .vmulh (fA .u64),
  .vand (fA .s32), .vnot (fA .u32), .vnot { fA .u32 with vb := 0, mb := true }, .vnot { fA .u64 with vb := 0, vd := 5 }, .vnot { fA .u64 with vb := 0, va := 5 },
  .vnot { fA .u32 with vb := 0, sat := true }, .vnot { fA .u32 with vb := 0, rnd := 1 }, .vsar (fA .u32), .vrot { fA .u32 with minor := 2 },
  .vcmp { fA .u32 with vd := 15 }, .vcmp { fA .u32 with minor := 6 }, .vcmp (fA .f32), .vcmp { fA .u64 with va := 1 }, .vcmp { fA .u64 with vb := 1 },
  .vcmp { fA .u32 with rnd := 1 }, .vcmp { fA .u32 with sat := true }, .vcmp { fA .u32 with p := true }, .vbcast { fA .u32 with vb := 128 }, .vbcast (fA .s32),
  .vbcast { fA .u32 with minor := 1 }, .vbcast { fA .u64 with vd := 1 }, .vbcast { fA .u32 with sat := true }, .vbcast { fA .u32 with rnd := 1 },
  .vvote { fA .u32 with minor := 4 }, .vvote { fA .u32 with va := 16 }, .vvote { fA .u32 with vb := 128 }, .vvote { fA .u32 with ma := true },
  .vvote { fA .u32 with vd := 15 }, .vvote { fA .u32 with p := true }, .vvote (fA .s32), .vscan { fA .s32 with minor := 3 }, .vscan { fA .u32 with minor := 6 },
  .vscan { fA .u32 with minor := 16 }, .vscan { fA .u32 with vb := 128 }, .vscan (fA .f16), .vred { fA .f32 with minor := 3 }, .vred { fA .u32 with minor := 6 },
  .vcompact { fA .u32 with va := 16 }, .vcompact { fA .u32 with vb := 128 }, .vcompact { fA .u32 with minor := 1 }]
/-- Floating point and conversions. -/
def illF : List Instr := [
  .fadd (fA .u32), .fadd { fA .f32 with rnd := 4 }, .fadd { fA .f32 with sat := true }, .fmin { fA .f32 with rnd := 1 }, .fcmp { fA .f32 with minor := 8 }, .fcmp (fA .u32),
  .fclass { fA .f64 with vb := 0, va := 1 }, .fround { fA .f32 with vb := 0, rnd := 4 }, .fscale { fA .f64 with vd := 1 }, .fex2 { fA .f64 with vb := 0 },
  .frcp { fA .bf16 with vb := 0 }, .fsqrt { fA .f32 with vb := 0, rnd := 4 }, .hadd2 (fA .f32), .fdot2 (fB .f32), .ffma { fB .f64 with vc := 7 }, .ffma { fB .f32 with minor := 1 },
  .fcvt { fA .u32 with vb := 0, minor := 0x11 }, .fcvt { fA .u32 with vb := 0, minor := 0x01, rnd := 4 }, .fcvt { fA .u32 with vb := 0, minor := 0x61, rnd := 1 },
  .fcvt { fA .u32 with vb := 0, minor := 0x01, vd := 5 }, .fcvt { fA .u32 with vb := 0, minor := 0x10, va := 1 }, .fcvt { fA .s32 with vb := 0, minor := 0x13 },
  .fcvt (fA .u32), .fcvt { fA .u32 with vb := 0, minor := 0x13, rnd := 5 }, .fcvti { fA .u32 with vb := 0, minor := 0x61 }, .fcvti { fA .u32 with vb := 0, minor := 0xF1 },
  .fcvti { fA .u32 with vb := 0, minor := 0x74 }, .fcvti { fA .u32 with vb := 0, minor := 0x71, rnd := 4 }, .icvtf { fA .u32 with vb := 0, minor := 0x4B },
  .icvtf { fA .u32 with vb := 0, minor := 0x16 }, .icvtf { fA .u32 with vb := 0, minor := 0x1F }, .icvtf { fA .u32 with vb := 0, minor := 0x1B, sat := true },
  .icvtf { fA .u32 with vb := 0, minor := 0x1B, rnd := 4 }, .fstat (fA .u32), .fstat { fA .u32 with vb := 0, va := 1 }, .fstat { fA .u32 with vb := 0, ma := true },
  .fstat { fA .u32 with vb := 0, p := true }]
/-- Formats B, D, S, SV and J. -/
def illB : List Instr := [
  .vmad (fB .f32), .vmad { fB .u32 with minor := 1 }, .vmad { fB .u32 with rnd := 1 }, .vmad { fB .u64 with vd := 5 }, .vmad { fB .u64 with va := 5 },
  .vmad { fB .u64 with vb := 5 }, .vmad { fB .u64 with vc := 5 }, .vext (fB .u64), .vins (fB .s32), .vsel (fB .s32), .vshfl { fB .u32 with vc := 128 }, .vshfl (fB .s32),
  .vmovi { fD with minor := 1 }, .smovi { fD with minor := 3 }, .smovi { fD with p := true }, .smovi { fD with rd := 128 }, .sadd (fS .f32), .sadd { fS .u32 with minor := 1 },
  .sadd { fS .u32 with i := true }, .sadd { fS .u32 with i := true, sb := 0, mb := true }, .sadd { fS .u32 with imm := 1 }, .sand (fS .s32), .ssar (fS .u32),
  .smov { fS .u32 with sb := 0, i := true }, .smov { fS .u32 with sb := 0, imm := 1 }, .smov (fS .u32), .smov { fS .u32 with sb := 0, mb := true },
  .scmp { fS .u32 with sd := 15 }, .scmp { fS .u32 with minor := 6 }, .vtos { fSV with p := true }, .vtos { fSV with minor := 1 }, .vtos { fSV with ty := .s32 },
  .vtos { fSV with ty := .u64, vr := 3 }, .stov fSV, .stov { fSV with lane := 0, minor := 1 }, .stov { fSV with lane := 0, ty := .f32 },
  .stov { fSV with lane := 0, ty := .u64, vr := 3 }, .br { fJ with reg := 1 }, .br { fJ with m := true }, .br { fJ with k := 1 }, .brd { fJ with k := 1 }, .ret { fJ with off := 1 },
  .call { fJ with m := true }, .call { fJ with k := 1 }, .join { fJ with reg := 128 }, .join { fJ with off := 1 }, .joinAct { fJ with reg := 1 }, .wait { fJ with m := true },
  .wait { fJ with off := 1 }, .exit { fJ with reg := 1 }, .exit { fJ with m := true }, .exit { fJ with k := 1 }, .exit { fJ with off := 1 }]
/-- Memory, atomics, barriers, allotment. -/
def illM : List Instr := [
  .ld { fM0 with width := 5 }, .ld { fM0 with width := 3, rd := 5 }, .ld { fM0 with width := 4, rd := 6 }, .ld { fM0 with base := 33 }, .ld { fM0 with scalar := false, base := 33 },
  .sld { fM0 with rd := 128 }, .sld { fM0 with scalar := false }, .sld { fM0 with base := 33 }, .sld { fM0 with width := 4 }, .lda { fM0 with width := 0, rd := 5 }, .lda fM0,
  .lda { fM0 with width := 0, cache := 1 }, .lda { fM0 with width := 0, scope := 1 }, .lda { fM0 with width := 0, base := 33 }, .pf { fM0 with width := 0 },
  .pf { fM0 with rd := 0 }, .pf { fM0 with rd := 0, width := 0, scope := 1 }, .pf { fM0 with rd := 0, width := 0, base := 33 },
  .grow { g := gT, pd := 3, try_ := true, n := 0 }, .grow { g := gT, pd := 15, try_ := true, n := 1 }, .grow { g := gT, pd := 3, try_ := false, n := 1 },
  .shrink { g := gT, pd := 0, try_ := false, n := 0 }, .shrink { g := gT, pd := 0, try_ := true, n := 1 }, .shrink { g := gT, pd := 3, try_ := false, n := 1 },
  .sortk { g := g0, va := 0, ma := false, desc := false, mask := 0 }, .atom { fAtm with op := 10 }, .atom { fAtm with op := 0x13 }, .atom { fAtm with wide := true, vd := 9 },
  .atom { fAtm with wide := true, vb := 1 }, .atom { fAtm with op := 9, wide := true, vb := 2 }, .atom { fAtm with base := 33 }, .atom { fAtm with scope := 6 }, .red fAtm,
  .red { fAtm with vd := 0, op := 8 }, .red { fAtm with vd := 0, op := 9 }, .red { fAtm with vd := 0, order := 1 }, .red { fAtm with vd := 0, order := 3 },
  .red { fAtm with vd := 0, scope := 6 }, .fence { g := gT, order := 0, scope := 4 }, .fence { g := gT, order := 3, scope := 6 }, .barr { g := gT, sa := 1, ma := false, n := 0 },
  .barw { g := gT, sa := 1, ma := false, n := 0 }, .bara { g := gT, sa := 0, ma := true, n := 0 }]
/-- Matrix, records, copies, translation. -/
def illX : List Instr := [
  .mma { fXb with acc := 64 }, .mma { fXb with fa := 0, fb := 0, fc := 0, shape := 10, acc := 3 }, .mma { fXb with shape := 9 }, .mma { fXb with shape := 3 }, .mma { fXb with fb := 3 },
  .mma { fXb with fc := 1 }, .mma { fXb with fa := 0, fb := 0, fc := 0, shape := 10, va := 1 }, .mma { fXb with fa := 0, fb := 0, fc := 0, shape := 10, vb := 1 },
  .mmas { fXb with vb := 12 }, .mmas { fXb with fa := 0, fb := 0, fc := 0, shape := 10, va := 1 }, .mmas { fXb with acc := 64 },
  .accld { fTl 15 with acc := 64 }, .accld (fTl 0), .accld { fTl 15 with reg := 128 }, .accld (fTl 2), .accld { fTl 15 with sc := 1 }, .accld { fTl 15 with sb := 1 },
  .accld { fTl 15 with scale := true }, .accld { fTl 15 with sat := true }, .accst { fTl 1 with reg := 128 }, .accst (fTl 6), .accst { fTl 1 with sb := 1 },
  .accst { fTl 1 with sc := 1 }, .accst { fTl 11 with scale := true }, .accst { fTl 1 with sat := true }, .accstReg (fTl 2), .accstReg { fTl 1 with off := 1 },
  .accstReg { fTl 1 with sat := true }, .accstReg { fTl 1 with sc := 1 }, .accstReg { fTl 11 with scale := true }, .acczero (fTl 15), .acczero { fTl 15 with reg := 0, m := true },
  .acczero { fTl 1 with reg := 0 }, .acczero { fTl 15 with reg := 0, sc := 1 }, .acczero { fTl 15 with reg := 0, sb := 1 }, .acczero { fTl 15 with reg := 0, scale := true },
  .acczero { fTl 15 with reg := 0, sat := true }, .acczero { fTl 15 with reg := 0, off := 1 },
  .dqblk { g := gT, sa := 5, ma := false, sb := 5, mb := false, dst := 1, src := 0, flag := true }, .sclq { g := gT, vd := 4, va := 0, vb := 2, ma := false, mb := false, fmt := 3 },
  .vldt { g := gT, reg := 32, sa := 5, ma := false, sb := 5, mb := false, rec_ := 30, md := true }, .cpyw { g := gT, sd := 1, sa := 5, ma := false },
  .cpywWait { g := gT, sd := 1, sa := 5, ma := false }, .tlbw { g := gT, sd := 1, sa := 4, sb := 5, sc := 6, ma := false, mb := false, mc := false },
  .tlbiAll { g := gT, sa := 5, ma := false }, .tlbiAll { g := gT, sa := 0, ma := true }]
/-- Proposals, collectives, fabric, queues, system; and an event, which has no word. -/
def illY : List Instr := [
  .pbsel { g := gT, n := 63 }, .accept { g := gT, va := 0, vb := 2, ma := false, mb := false, expl := false }, .accept { g := gT, va := 0, vb := 0, ma := false, mb := true, expl := false },
  .rng { g := gT, vd := 4, k := 0, form := 3, p := false }, .cbr { g := g0, pn := 0, or_ := false, t := false, k := 0, off := 0 },
  .creduce { g := g0, sa := 4, sb := 5, sc := 6, ma := false, mb := false, mc := false, k := 0, kind := 0, op := 0, fmt := 1 },
  .creduce { g := gT, sa := 4, sb := 5, sc := 6, ma := false, mb := false, mc := false, k := 0, kind := 1, op := 3, fmt := 1 },
  .creduce { g := gT, sa := 4, sb := 5, sc := 6, ma := false, mb := false, mc := false, k := 0, kind := 0, op := 0, fmt := 4 },
  .creduce { g := gT, sa := 4, sb := 5, sc := 6, ma := false, mb := false, mc := false, k := 0, kind := 2, op := 1, fmt := 1 },
  .creduce { g := gT, sa := 4, sb := 5, sc := 6, ma := false, mb := false, mc := false, k := 0, kind := 3, op := 0, fmt := 15 },
  .fld { fM0 with space := 1 }, .fld { fM0 with cache := 1 }, .fst { fM0 with scope := 1 }, .fst { fM0 with width := 5 }, .fld { fM0 with base := 33 },
  .fatom { fAtm with order := 1 }, .fatom { fAtm with scope := 4 }, .fatom { fAtm with op := 10 }, .sret { g := g0 }, .sretEsc { g := g0 },
  .rdsr { g := gT, rd := 128, vec := false, num := 9 }, .migrate { g := gT, sd := 2, sa := 4, sb := 1, ma := false, mb := false, named := false },
  .migrate { g := gT, sd := 2, sa := 4, sb := 0, ma := false, mb := true, named := false },
  .qpush { g := gT, sa := 5, sb := 6, sc := 7, ma := false, mb := false, mc := false, try_ := true, pd := 15 },
  .qpush { g := gT, sa := 5, sb := 6, sc := 7, ma := false, mb := false, mc := false, try_ := false, pd := 1 },
  .qpop { g := gT, vd := 40, sa := 5, sb := 6, ma := false, mb := false, pd := 15 }, .qpopO { g := gT, vd := 40, sa := 5, sb := 0, ma := false, mb := true, pd := 15 },
  .qdone { g := g0 }, .issueOverride]
theorem test_ill_formed : (illA ++ illF ++ illB ++ illM ++ illX ++ illY).all (fun i => !i.wellFormed) = true := by decide
/-- Words that are not instructions: majors that are never assigned or unassigned, a header, reserved bits of each format. -/
theorem test_words_refused : [0, 0xFF00000000000000, 0xFE00400000000000, 0x3F00000000000000, 0xC700000000000000, 0x1078140580000001, 0x2978000400000000,
    0x3078A16300100000, 0x6079000000000000, 0x7778800000000001, 0x91790050000033F3, 0xE078000000000001, 0xE378000000000002, 0xBA78501480000001].all
      (fun w => decode w == none) = true := by decide
/-- What the wave's width and the grid's contract forbid at issue. -/
theorem test_issue_legality : legalHere st0 (.vtos { fSV with lane := 16 }) = false ∧ legalHere st0 (.vtos fSV) = true ∧
    legalHere { st0 with grids := [{ grid0 with p := { grid0.p with contract := 0x100 } }] } (.mma { fXb with fa := 4, fb := 4, shape := 9 }) = false ∧
    legalHere st0 (.mma { fXb with fa := 4, fb := 4, shape := 9 }) = true := by decide

/-! ### Values that the specification prints -/

/-- The known answers of R258. -/
theorem test_philox : philox (0, 0, 0, 0) 0 0 = (0x6627E8D5, 0xE169C58D, 0xBC57AC4C, 0x9B00DBD8) ∧
    philox (0xFFFFFFFF, 0xFFFFFFFF, 0xFFFFFFFF, 0xFFFFFFFF) 0xFFFFFFFF 0xFFFFFFFF = (0x408F276D, 0x41C83B0E, 0xA20BC7C6, 0x6D5451FD) ∧
    philox (0x243F6A88, 0x85A308D3, 0x13198A2E, 0x03707344) 0xA4093822 0x299F31D0 = (0xD16CFE09, 0x94FDCCEB, 0x5001E420, 0x24126EA1) := by decide +kernel
/-- The table of R114: ties, an exact value, a saturated one. -/
theorem test_dp8 : dp8Quantise (.fin false 129 (-7)) false = (0x07, flInexact) ∧ dp8Quantise (.fin false 17 (-4)) false = (0x04, 0) ∧
    dp8Quantise (.fin false 11 (-4)) false = (0x13, flInexact) ∧ dp8Quantise (.fin false 7 (-2)) false = (0x01, flInexact) ∧
    dp8Quantise (.fin true 5 (-1)) false = (0x88, flSat) := by decide +kernel
/-- The example of R116: (1 - 2^-25) x 2^-126 rounds to the smallest normal, is not tiny, and is flushed by no contract. -/
theorem test_not_tiny : fF32.round true .rn false (2 ^ 25 - 1) (-151) = (0x00800000, flInexact, false) := by decide
/-- By hand: 2 - 2^-23 and 2^-24 meet halfway below 2, and the carry goes into the exponent; so does one at the top of binary16. -/
theorem test_round_carries : fF32.fadd 0x400 .rn 0x3FFFFFFF 0x33800000 = (0x40000000, flInexact) ∧
    fF16.fadd 0x400 .rn 0x7BFF 0x4C00 = (0x7C00, flOverflow ||| flInexact) := by decide
/-- A `nop` placed where the next step fetches runs as the first instruction, and its lanes go on behind the block. -/
theorem test_fetch_word : (match step (State.reset.withFetchWord 64 0xE078000000000000) with
    | .next t => t.waves.any (fun w => (w.lane 3).vpc == 3)
    | _ => false) = true := by decide +kernel

end Sys2Proof.Tests
end

namespace Sys2Proof.Machine

/-! ### A step (R18, R44) -/

/-- With nothing scheduled and outside the turn of the units, a wave that may issue does so, and gives up its turn. -/
theorem step_mayIssue (s : State) (hsched : s.sched = []) (hmay : s.mayIssue = true) (hturn : s.unitsTurn = false) :
    step s = andThen (andThen s.issueNow State.passTurn) State.settled := by
  unfold step runStep
  simp only [hsched, hmay, hturn, Bool.not_false, Bool.and_self, if_true]

/-- No override is due and nothing comes before the issue: the fetched word runs. -/
theorem State.issueNow_fetchRun (s : State) (hovr : s.cur.ovr ≠ [] ∨ s.cur.overdue = none) (hbefore : s.before = none) :
    s.issueNow = s.fetchRun := by
  have hdue : (s.cur.ovr.isEmpty && s.cur.overdue.isSome) = false := by
    rcases hovr with h | h <;> simp [h]
  unfold State.issueNow
  simp [hdue, hbefore]

/-- A fetched word that decodes runs; one that does not is illegal (R69). -/
theorem State.fetchRun_word (s : State) (x : Word64) (h : s.fetch s.cur s.at_ = .word x) :
    (∀ i, decode x = some i → s.fetchRun = exec i s) ∧
    (decode x = none → s.fetchRun = .next (s.preTrap (illegal s.cur.issuingSet) x)) := by
  unfold State.fetchRun
  rw [h]
  exact ⟨fun i hi => by simp only [hi], fun hx => by simp only [hx]⟩

/-- Settles O60: the step is the issue, which is the run of the fetched word. -/
theorem stepRunsDecodedInstruction : Obligations.StepRunsDecodedInstruction := by
  intro s x hsched hmay hturn hovr hbefore hfetch
  have hstep := step_mayIssue s hsched hmay hturn
  obtain ⟨hrun, hillegal⟩ := s.fetchRun_word x hfetch
  rw [s.issueNow_fetchRun hovr hbefore] at hstep
  constructor
  · intro i hi
    rw [hstep, hrun i hi]
    cases exec i s <;> rfl
  · intro hx
    rw [hstep, hillegal hx]
    rfl

end Sys2Proof.Machine

namespace Sys2Proof.Machine

/-! ### Results of a body, as the statements name them -/

/-- The body retires every lane but those kept: the instruction issues with its effect, and the kept lanes stay. -/
theorem completesBut_of_done (i : Instr) (s u : State) (keep : List Nat) (body : List Nat → List Nat → State → Res)
    (h : Ready i s) (he : exec i s = issue i s body)
    (hb : body s.cur.issuingSet (active i s) (s.taskWide i) = .done u keep) : CompletesBut i s u keep := by
  obtain ⟨t, ht, hr⟩ := issue_done i s u keep body h hb
  exact ⟨t, he.trans ht, hr⟩

/-- The body traps: the instruction does. -/
theorem traps_of_trap (i : Instr) (s u : State) (t : TrapReq) (body : List Nat → List Nat → State → Res)
    (h : Ready i s) (he : exec i s = issue i s body)
    (hb : body s.cur.issuingSet (active i s) (s.taskWide i) = .trap u t) : Traps i s u t :=
  he.trans (issue_trap i s u t body h hb)

/-! ### Lanes that move on, as a state -/

theorem Wave.lane_congr {v w : Wave} (h : v.lanes = w.lanes) (l : Nat) : v.lane l = w.lane l := by
  unfold Wave.lane; rw [h]

theorem Wave.liveLanes_congr {v w : Wave} (h : v.lanes = w.lanes) : v.liveLanes = w.liveLanes := by
  unfold Wave.liveLanes Wave.idx Wave.lane; rw [h]

theorem Wave.oneBlock_congr {v w : Wave} (h : v.lanes = w.lanes) : v.oneBlock ↔ w.oneBlock := by
  unfold Wave.oneBlock
  rw [Wave.liveLanes_congr h]
  simp only [Wave.lane_congr h]

theorem Wave.someEnds_iff_any (w : Wave) (ls : List Nat) :
    ls.any (fun l => !decide ((w.lane l).vpc < (w.lane l).blkEnd)) = true ↔ w.someEnds ls := by
  simp [Wave.someEnds, List.any_eq_true]

/-- A lane that is not at the end of its block goes one word further (R16). -/
theorem Lane.onward_within (x : Lane) (hd : Nat → Header) (h : x.vpc < x.blkEnd) : x.onward hd = { x with vpc := x.vpc + 1 } :=
  if_pos h

/-- Lanes that retire where they stand have moved on, and nothing else has changed (R16, R51). -/
theorem State.moves_advance (s : State) (w : Wave) (ls : List Nat) (hn : ls.Nodup) (hpw : w.pw = s.cur.pw) :
    Moves (s.withCur w) (s.withCur (s.advance w ls)) ls False := by
  have hlane := w.lane_advance s ls hn
  have hhead : (s.withCur w).header w = s.header w := funext (s.header_withCur w w hpw)
  have hmask := (ls.foldl s.advanceLane w).clearGroups_eq (ls.any (fun l => !decide ((w.lane l).vpc < (w.lane l).blkEnd)))
  change (_ → s.advance w ls = _) ∧ (_ → s.advance w ls = _) at hmask
  have hone : (s.advance w ls).oneBlock ↔ (ls.foldl s.advanceLane w).oneBlock := Wave.oneBlock_congr (Wave.lanes_clearGroups _ _)
  rw [w.someEnds_iff_any, ← hone] at hmask
  exact {
    same := congrArg (fun v => ({ s with cur := v } : State)) (w.sansIssue_advance s ls)
    moved := fun l hl hk hv => by
      change (s.advance w ls).lane l = _
      rw [hlane, if_pos ⟨hl, hk⟩]
      exact (w.lane l).onward_within (s.header w) hv
    passes := fun l hl hk hv => by
      change (s.advance w ls).lane l = _
      rw [hlane, if_pos ⟨hl, hk⟩, ← hhead]
      exact (s.withCur w).nextBlock_eq (w.lane l) hv
    stays := fun l hl => by
      change (s.advance w ls).lane l = _
      rw [hlane, if_neg (fun h => hl h.1)]; rfl
    cleared := fun h ho => by
      change (s.advance w ls).wgrp = 0
      rw [hmask.1 ⟨h.resolve_left id, ho⟩]
    kept := fun h => by
      change (s.advance w ls).wgrp = w.wgrp
      rw [hmask.2 (fun hc => h ⟨.inr hc.1, hc.2⟩)]
      exact (w.alike_foldl s ls).wgrp }

end Sys2Proof.Machine

namespace Sys2Proof.Machine

/-! ### Rejoin masks (R21, R22, R95) -/

/-- The lanes parked on a mask (R21). -/
def Wave.parkedOn (w : Wave) (k : Nat) : List Nat := w.idx.filter (fun l => (w.lane l).st == .parked k)

theorem Wave.nodup_parkedOn (w : Wave) (k : Nat) : (w.parkedOn k).Nodup := List.nodup_range.filter _

/-- The wave once the lanes parked on a mask run again and the mask is cleared. -/
def Wave.freeParked (w : Wave) (k : Nat) : Wave :=
  { w.modLanes (w.parkedOn k) (fun x => { x with st := .run }) with rejoin := w.rejoin.set k Rejoin.zero }

theorem Wave.modLanes_setRejoin (w : Wave) (r : List Rejoin) (ls : List Nat) (f : Lane → Lane) :
    ({ w with rejoin := r } : Wave).modLanes ls f = { w.modLanes ls f with rejoin := r } := by
  unfold Wave.modLanes
  induction ls generalizing w with
  | nil => rfl
  | cons a t ih => exact ih (w.modLane a f)

theorem Wave.modLanes_spec (w : Wave) (ls : List Nat) (f : Lane → Lane) : (w.modLanes ls f).spec = w.spec := by
  obtain ⟨xs, o, h⟩ := w.alike_modLanes ls f
  rw [h]

theorem Wave.modLanes_step (w : Wave) (ls : List Nat) (f : Lane → Lane) : (w.modLanes ls f).step = w.step := by
  obtain ⟨xs, o, h⟩ := w.alike_modLanes ls f
  rw [h]

theorem Wave.modLanes_tm (w : Wave) (ls : List Nat) (f : Lane → Lane) : (w.modLanes ls f).tm = w.tm := by
  obtain ⟨xs, o, h⟩ := w.alike_modLanes ls f
  rw [h]

/-- The mask as it stands. -/
def Wave.mask (w : Wave) (k : Nat) : Rejoin := w.rejoin.getD k Rejoin.zero

theorem Wave.mask_set (w : Wave) (k : Nat) (j : Rejoin) (hk : k < w.rejoin.length) :
    ({ w with rejoin := w.rejoin.set k j } : Wave).mask k = j := by
  simp [Wave.mask, List.getD, hk]

/-- While an expected lane is still to arrive, the check changes nothing. -/
theorem State.rejoinCheck_waits (s : State) (k : Nat) (h : (s.cur.mask k).e &&& ~~~(s.cur.mask k).a ≠ 0) :
    s.rejoinCheck k = s := by
  unfold State.rejoinCheck
  have hc : ¬((s.cur.mask k).armed && (s.cur.mask k).e &&& ~~~(s.cur.mask k).a == 0) = true := by
    simpa using fun _ => h
  exact if_neg hc

/-- Without the step bit no step trap follows a wait (R282). -/
theorem State.stepAfterWait_noStep (s : State) (old w : Wave) (ls : List Nat) (h : old.step = false) :
    s.stepAfterWait old w ls = w := if_pos (by simp [h])

theorem State.wake_freeParked (s : State) (w : Wave) (k : Nat) :
    s.wake { w with rejoin := w.rejoin.set k Rejoin.zero } (w.parkedOn k) = s.advance (w.freeParked k) (w.parkedOn k) := by
  unfold State.wake
  rw [Wave.modLanes_setRejoin]
  rfl

/-- A complete mask: the lanes parked on it run again, retire, and the mask is cleared (R21). -/
theorem State.rejoinCheck_complete (s : State) (k : Nat) (harmed : (s.cur.mask k).armed = true)
    (h : (s.cur.mask k).e &&& ~~~(s.cur.mask k).a = 0) (hspec : s.cur.spec = 0) (hstep : s.cur.step = false) :
    s.rejoinCheck k = s.withCur (s.advance (s.cur.freeParked k) (s.cur.parkedOn k)) := by
  unfold State.rejoinCheck
  have hc : ((s.cur.mask k).armed && (s.cur.mask k).e &&& ~~~(s.cur.mask k).a == 0) = true := by simp [harmed, h]
  refine (if_pos hc).trans (congrArg s.withCur ?_)
  rw [if_pos (by simp [hspec]), s.stepAfterWait_noStep _ _ _ hstep]
  exact s.wake_freeParked s.cur k

theorem State.moves_rejoinCheck (s : State) (k : Nat) (harmed : (s.cur.mask k).armed = true)
    (h : (s.cur.mask k).e &&& ~~~(s.cur.mask k).a = 0) (hspec : s.cur.spec = 0) (hstep : s.cur.step = false) :
    Moves (s.withCur (s.cur.freeParked k)) (s.rejoinCheck k) (s.cur.parkedOn k) False := by
  rw [s.rejoinCheck_complete k harmed h hspec hstep]
  exact s.moves_advance _ _ (s.cur.nodup_parkedOn k) (s.cur.alike_modLanes _ _).pw

/-! ### `join` -/

/-- The wave with mask `k` armed for the unexited lanes of a set (R95). -/
def Wave.armed (w : Wave) (k : Nat) (m : BitVec 64) : Wave :=
  { w with rejoin := w.rejoin.set k ⟨true, m &&& maskOf w.liveLanes, (w.mask k).a⟩ }

theorem State.arm_eq (s : State) (k : Nat) (m : BitVec 64) : s.arm k m = (s.withCur (s.cur.armed k m)).rejoinCheck k := rfl

theorem Wave.armed_freeParked (w : Wave) (k : Nat) (m : BitVec 64) : (w.armed k m).freeParked k = w.freeParked k := by
  unfold Wave.freeParked Wave.armed
  rw [Wave.modLanes_setRejoin, List.set_set]
  rfl

/-- Arming a mask (R95): lanes are still expected, or all have arrived and the parked lanes go on. -/
theorem completes_join (i : Instr) (s : State) (k : Nat) (m : BitVec 64) (body : List Nat → List Nat → State → Res)
    (hk : k < s.cur.rejoin.length) (h : Ready i s) (he : exec i s = issue i s body)
    (hb : body s.cur.issuingSet (active i s) (s.taskWide i) = .done (s.arm k m) []) :
    let e := m &&& maskOf s.cur.liveLanes
    (e &&& ~~~(s.cur.mask k).a ≠ 0 → Completes i s (s.withCur (s.cur.armed k m))) ∧
    (e &&& ~~~(s.cur.mask k).a = 0 →
      ∃ u, Moves (s.withCur (s.cur.freeParked k)) u (s.cur.parkedOn k) False ∧ Completes i s u) := by
  have hmask : (s.withCur (s.cur.armed k m)).cur.mask k = ⟨true, m &&& maskOf s.cur.liveLanes, (s.cur.mask k).a⟩ :=
    s.cur.mask_set k _ hk
  have hc := completes_of_done i s _ body h he hb
  rw [State.arm_eq] at hc
  obtain ⟨-, -, -, -, -, -, hspec, -, hstep, -⟩ := h
  refine ⟨fun hwait => ?_, fun hall => ⟨_, ?_, hc⟩⟩
  · rwa [State.rejoinCheck_waits _ _ (by rw [hmask]; exact hwait)] at hc
  · have hm := (s.withCur (s.cur.armed k m)).moves_rejoinCheck k (by rw [hmask]) (by rw [hmask]; exact hall) hspec hstep
    rw [State.withCur_cur, Wave.armed_freeParked] at hm
    exact hm

/-! ### `wait` -/

/-- Mask `k` with lanes counted as arrived. -/
def Wave.maskWith (w : Wave) (k : Nat) (act : List Nat) : Rejoin := { w.mask k with a := (w.mask k).a ||| maskOf act }

/-- The wave with lanes parked on mask `k` and counted as arrived (R95). -/
def Wave.park (w : Wave) (k : Nat) (iss act : List Nat) : Wave :=
  { w.modLanes act (fun x => { x with st := .parked k, iss := maskOf iss }) with
    rejoin := w.rejoin.set k (w.maskWith k act) }

theorem bodyWait_unarmed (f : FmtJ) (iss act : List Nat) (s : State) (h : (s.cur.mask f.k.toNat).armed = false) :
    bodyWait f iss act s = .done s [] := by
  unfold bodyWait
  exact if_pos (by change (!(s.cur.mask f.k.toNat).armed) = true; rw [h]; rfl)

/-- A `wait` on an armed mask parks its lanes and makes the completion check; `u` is the state after it (R22, R95). -/
theorem bodyWait_armed (f : FmtJ) (iss act : List Nat) (s u : State) (w : Wave) (h : (s.cur.mask f.k.toNat).armed = true)
    (hw : s.cur.park f.k.toNat iss act = w) (hu : (s.withCur w).rejoinCheck f.k.toNat = u) :
    bodyWait f iss act s = if u.cur.deadlocked then .trap u u.cur.deadlockTrap else .done u.sretCheck act := by
  have hrest : ({ s.cur with rejoin := s.cur.rejoin.set f.k.toNat (s.cur.maskWith f.k.toNat act) } : Wave).rest iss act
      (.parked f.k.toNat) = s.cur.park f.k.toNat iss act := Wave.modLanes_setRejoin ..
  subst hu hw
  rw [← hrest]
  unfold bodyWait
  exact if_neg (by change ¬(!(s.cur.mask f.k.toNat).armed) = true; rw [h]; simp)

theorem Wave.park_mask (w : Wave) (k : Nat) (iss act : List Nat) (hk : k < w.rejoin.length) :
    (w.park k iss act).mask k = w.maskWith k act := by
  simp [Wave.park, Wave.mask, List.getD, hk]

theorem Wave.park_spec (w : Wave) (k : Nat) (iss act : List Nat) : (w.park k iss act).spec = w.spec := w.modLanes_spec _ _
theorem Wave.park_step (w : Wave) (k : Nat) (iss act : List Nat) : (w.park k iss act).step = w.step := w.modLanes_step _ _
theorem Wave.park_tm (w : Wave) (k : Nat) (iss act : List Nat) : (w.park k iss act).tm = w.tm := w.modLanes_tm _ _

end Sys2Proof.Machine

namespace Sys2Proof.Machine

theorem Wave.mem_liveLanes (w : Wave) (l : Nat) : l ∈ w.liveLanes ↔ l < w.lanes.length ∧ (w.lane l).st ≠ .exited := by
  simp [Wave.liveLanes, Wave.idx, Lane.live]

theorem Wave.mem_parkedOn (w : Wave) (k l : Nat) : l ∈ w.parkedOn k ↔ l < w.lanes.length ∧ (w.lane l).st = .parked k := by
  simp [Wave.parkedOn, Wave.idx]

/-- A lane of the issuing set is ready (R17, R18). -/
theorem st_of_mem_issuingSet {w : Wave} {l : Nat} (h : l ∈ w.issuingSet) : (w.lane l).st = .run := by
  unfold Wave.issuingSet at h
  split at h
  · cases h
  · have hr := List.mem_of_mem_filter h
    unfold Wave.ready at hr
    split at hr
    · cases hr
    · simpa using (List.mem_filter.mp hr).2

theorem Lane.onward_st (x : Lane) (hd : Nat → Header) : (x.onward hd).st = x.st := by
  unfold Lane.onward
  split
  · rfl
  · split <;> rfl

theorem State.advance_length (s : State) (w : Wave) (ls : List Nat) : (s.advance w ls).lanes.length = w.lanes.length := by
  have h := congrArg (fun v : Wave => v.lanes.length) (w.sansIssue_advance s ls)
  simpa [Wave.sansIssue] using h

/-- Moving on does not change what a lane does. -/
theorem State.advance_st (s : State) (w : Wave) (ls : List Nat) (hn : ls.Nodup) (l : Nat) :
    ((s.advance w ls).lane l).st = (w.lane l).st := by
  rw [w.lane_advance s ls hn]
  split
  · exact (w.lane l).onward_st _
  · rfl

theorem Wave.deadlocked_iff (w : Wave) :
    w.deadlocked = true ↔ w.liveLanes ≠ [] ∧ ∀ l ∈ w.liveLanes, ∃ q, (w.lane l).st = .parked q := by
  have hone : ∀ l, (match (w.lane l).st with | .parked _ => true | _ => false) = true ↔ ∃ q, (w.lane l).st = .parked q := by
    intro l
    cases (w.lane l).st <;> simp
  simp only [Wave.deadlocked, Bool.and_eq_true, Bool.not_eq_true', List.isEmpty_eq_false_iff, List.all_eq_true]
  exact and_congr_right fun _ => forall₂_congr fun l _ => hone l

/-- A wave with a ready lane stands neither in a deadlock nor at its `sret`. -/
theorem Wave.deadlocked_of_run (w : Wave) (l : Nat) (hl : l < w.lanes.length) (h : (w.lane l).st = .run) :
    w.deadlocked = false := by
  rw [← Bool.not_eq_true, w.deadlocked_iff]
  rintro ⟨-, hall⟩
  obtain ⟨q, hq⟩ := hall l ((w.mem_liveLanes l).mpr ⟨hl, by simp [h]⟩)
  simp [h] at hq

theorem Wave.atSret_of_run (w : Wave) (l : Nat) (hl : l < w.lanes.length) (h : (w.lane l).st = .run) : w.atSret = false := by
  unfold Wave.atSret
  split
  · rfl
  · rw [List.all_eq_false]
    exact ⟨l, (w.mem_liveLanes l).mpr ⟨hl, by simp [h]⟩, by simp [h]⟩

/-- Outside a return from a handler the check of `sret` changes nothing. -/
theorem State.sretCheck_eq (s : State) (h : s.cur.tm = true → s.cur.atSret = false) : s.sretCheck = s := by
  refine if_neg ?_
  rw [Bool.and_eq_true]
  rintro ⟨htm, hat⟩
  rw [h htm] at hat
  cases hat

/-! ### The bits of the trap's info (R22) -/

theorem sum_powers_lt (p : Nat → Bool) (n : Nat) :
    ((List.range n).filter p).foldl (fun m k => m + 2 ^ k) 0 < 2 ^ n := by
  induction n with
  | zero => simp
  | succ n ih =>
    rw [List.range_succ, List.filter_append, List.foldl_append, Nat.pow_succ]
    by_cases h : p n = true
    · simp [h]; omega
    · simp [h]; omega

/-- A sum of distinct powers of two has the bits of its exponents. -/
theorem testBit_sum_powers (p : Nat → Bool) (n q : Nat) (hq : q < n) :
    (((List.range n).filter p).foldl (fun m k => m + 2 ^ k) 0).testBit q = p q := by
  induction n with
  | zero => omega
  | succ n ih =>
    have hlt := sum_powers_lt p n
    rw [List.range_succ, List.filter_append, List.foldl_append]
    generalize hm : ((List.range n).filter p).foldl (fun m k => m + 2 ^ k) 0 = m at *
    rcases Nat.lt_or_eq_of_le (Nat.le_of_lt_succ hq) with h | h
    · by_cases hp : p n = true
      · simp [hp, Nat.add_comm m, Nat.testBit_two_pow_add_gt h, ih h]
      · simp [hp, ih h]
    · subst h
      by_cases hp : p q = true
      · simp [hp, Nat.add_comm m, Nat.testBit_two_pow_add_eq, Nat.testBit_lt_two_pow hlt]
      · simp [hp, Nat.testBit_lt_two_pow hlt]

theorem Wave.testBit_parkMask (w : Wave) (q : Nat) (hq : q < 8) :
    w.parkMask.testBit q = true ↔ ∃ l ∈ w.liveLanes, (w.lane l).st = .parked q := by
  unfold Wave.parkMask
  rw [testBit_sum_powers _ 8 q hq]
  simp

/-! ### `wait` on an armed mask -/

theorem Wave.park_lane (w : Wave) (k : Nat) (iss act : List Nat) (l : Nat) :
    (w.park k iss act).lane l = (w.modLanes act (fun x => { x with st := .parked k, iss := maskOf iss })).lane l := rfl

theorem Wave.park_length (w : Wave) (k : Nat) (iss act : List Nat) : (w.park k iss act).lanes.length = w.lanes.length :=
  w.length_modLanes act _

/-- A lane that parks on the mask. -/
theorem Wave.park_st_mem (w : Wave) (k : Nat) (iss act : List Nat) (hn : act.Nodup) (l : Nat) (hl : l ∈ act)
    (hlt : l < w.lanes.length) : ((w.park k iss act).lane l).st = .parked k := by
  rw [Wave.park_lane, w.lane_modLanes_mem act _ l hn hl hlt]

theorem Wave.park_lane_not_mem (w : Wave) (k : Nat) (iss act : List Nat) (l : Nat) (hl : l ∉ act) :
    (w.park k iss act).lane l = w.lane l := w.lane_modLanes_not_mem act _ l hl

/-- Parking ready lanes leaves the unexited lanes those they were. -/
theorem Wave.park_liveLanes (w : Wave) (k : Nat) (iss act : List Nat) (hn : act.Nodup)
    (hact : ∀ l ∈ act, l < w.lanes.length ∧ (w.lane l).st = .run) : (w.park k iss act).liveLanes = w.liveLanes := by
  have hlive : ∀ l, ((w.park k iss act).lane l).live = (w.lane l).live := by
    intro l
    by_cases hl : l ∈ act
    · obtain ⟨hlt, hrun⟩ := hact l hl
      simp only [Lane.live, w.park_st_mem k iss act hn l hl hlt, hrun]
      rfl
    · rw [w.park_lane_not_mem k iss act l hl]
  unfold Wave.liveLanes Wave.idx
  rw [Wave.park_length]
  exact List.filter_congr fun l _ => hlive l

/-- The wave whose active lanes have parked, but for the mask. -/
def Wave.parkLanes (w : Wave) (k : Nat) (iss act : List Nat) : Wave :=
  w.modLanes act (fun x => { x with st := .parked k, iss := maskOf iss })

theorem Wave.park_parkedOn (w : Wave) (k : Nat) (iss act : List Nat) :
    (w.park k iss act).parkedOn k = (w.parkLanes k iss act).parkedOn k := rfl

theorem Wave.park_freeParked (w : Wave) (k : Nat) (iss act : List Nat) :
    (w.park k iss act).freeParked k =
      { (w.parkLanes k iss act).modLanes ((w.parkLanes k iss act).parkedOn k) (fun x => { x with st := .run }) with
        rejoin := w.rejoin.set k Rejoin.zero } := by
  unfold Wave.freeParked Wave.park
  rw [Wave.modLanes_setRejoin, List.set_set]
  rfl

/-- Once the lanes parked on the mask go on, an active lane runs: the wave is in no deadlock and at no `sret`. -/
theorem State.run_after_freeParked (s : State) (w : Wave) (k l : Nat) (hl : l ∈ w.parkedOn k) :
    let v := s.advance (w.freeParked k) (w.parkedOn k)
    l < v.lanes.length ∧ (v.lane l).st = .run := by
  have hlt := ((w.mem_parkedOn k l).mp hl).1
  have hlen : (w.freeParked k).lanes.length = w.lanes.length := w.length_modLanes _ _
  have hrun : ((w.freeParked k).lane l).st = .run := by
    change ((w.modLanes (w.parkedOn k) (fun x => { x with st := .run })).lane l).st = .run
    rw [w.lane_modLanes_mem _ _ l (w.nodup_parkedOn k) hl hlt]
  exact ⟨by rw [State.advance_length, hlen]; exact hlt, by rw [s.advance_st _ _ (w.nodup_parkedOn k)]; exact hrun⟩

/-- The last expected lanes arrive: every lane parked on the mask goes on (R21). -/
theorem wait_completes_mask (f : FmtJ) (s : State) (w : Wave) (hw : s.cur.park f.k.toNat s.cur.issuingSet (active (.wait f) s) = w)
    (hk : f.k.toNat < s.cur.rejoin.length) (h : Ready (.wait f) s) (harmed : (s.cur.mask f.k.toNat).armed = true)
    (hall : (s.cur.mask f.k.toNat).e &&& ~~~((s.cur.mask f.k.toNat).a ||| maskOf (active (.wait f) s)) = 0) :
    ∃ u, Moves (s.withCur (w.freeParked f.k.toNat)) u (w.parkedOn f.k.toNat) False ∧
      CompletesBut (.wait f) s u (active (.wait f) s) := by
  have hmask : w.mask f.k.toNat = _ := hw ▸ s.cur.park_mask f.k.toNat s.cur.issuingSet (active (.wait f) s) hk
  have hspec : w.spec = 0 := hw ▸ (Wave.park_spec ..).trans h.2.2.2.2.2.2.1
  have hstep : w.step = false := hw ▸ (Wave.park_step ..).trans h.2.2.2.2.2.2.2.2.1
  have ha : (w.mask f.k.toNat).armed = true := by rw [hmask]; exact harmed
  have hm : (w.mask f.k.toNat).e &&& ~~~(w.mask f.k.toNat).a = 0 := by rw [hmask]; exact hall
  obtain ⟨l, hl⟩ := List.exists_mem_of_ne_nil _ h.2.2.2.2.2.2.2.2.2
  have hparked : l ∈ w.parkedOn f.k.toNat := by
    rw [w.mem_parkedOn, ← hw, Wave.park_length]
    exact ⟨(mem_active hl).1, s.cur.park_st_mem _ _ _ (nodup_active _ s) l hl (mem_active hl).1⟩
  have hmoves := (s.withCur w).moves_rejoinCheck f.k.toNat ha hm hspec hstep
  have hcheck := (s.withCur w).rejoinCheck_complete f.k.toNat ha hm hspec hstep
  obtain ⟨u, hu⟩ : ∃ u, (s.withCur w).rejoinCheck f.k.toNat = u := ⟨_, rfl⟩
  obtain ⟨hlen, hrun⟩ : l < u.cur.lanes.length ∧ (u.cur.lane l).st = .run := by
    rw [← hu, hcheck]
    exact (s.withCur w).run_after_freeParked w f.k.toNat l hparked
  rw [hu] at hmoves
  have hbody := bodyWait_armed f s.cur.issuingSet (active (.wait f) s) s u w harmed hw hu
  rw [u.cur.deadlocked_of_run l hlen hrun, u.sretCheck_eq fun _ => u.cur.atSret_of_run l hlen hrun] at hbody
  exact ⟨u, hmoves, completesBut_of_done _ s u _ (bodyWait f) h rfl hbody⟩

/-- Lanes are still expected: the active lanes park, and where no lane is left to run the wave takes the deadlock trap (R22). -/
theorem wait_parks (f : FmtJ) (s : State) (w : Wave) (hw : s.cur.park f.k.toNat s.cur.issuingSet (active (.wait f) s) = w)
    (hk : f.k.toNat < s.cur.rejoin.length) (h : Ready (.wait f) s) (harmed : (s.cur.mask f.k.toNat).armed = true)
    (hwait : (s.cur.mask f.k.toNat).e &&& ~~~((s.cur.mask f.k.toNat).a ||| maskOf (active (.wait f) s)) ≠ 0) :
    (w.deadlocked = false → (s.cur.tm = true → w.atSret = false) → CompletesBut (.wait f) s (s.withCur w) (active (.wait f) s)) ∧
    (w.deadlocked = true → Traps (.wait f) s (s.withCur w) w.deadlockTrap) := by
  have hmask : w.mask f.k.toNat = _ := hw ▸ s.cur.park_mask f.k.toNat s.cur.issuingSet (active (.wait f) s) hk
  have htm : w.tm = s.cur.tm := hw ▸ s.cur.park_tm ..
  have hcheck : (s.withCur w).rejoinCheck f.k.toNat = s.withCur w :=
    State.rejoinCheck_waits _ _ (by rw [State.withCur_cur, hmask]; exact hwait)
  have hbody := bodyWait_armed f s.cur.issuingSet (active (.wait f) s) s _ w harmed hw hcheck
  constructor
  · intro hd hsret
    rw [State.sretCheck_eq (s.withCur w) (by rw [State.withCur_cur, htm]; exact hsret)] at hbody
    exact completesBut_of_done _ s _ _ (bodyWait f) h rfl (hbody.trans (if_neg (by simp [hd])))
  · intro hd
    exact traps_of_trap _ s _ _ (bodyWait f) h rfl (hbody.trans (if_pos hd))

/-- Settles O13: an arming by `completes_join`; of a `wait`, the completion of the mask and the parking of its lanes. -/
theorem rejoinMaskResults : Obligations.RejoinMaskResults := by
  intro f s hk
  refine ⟨fun h => completes_join _ s _ _ _ hk h rfl rfl, fun h => completes_join _ s _ _ _ hk h rfl rfl, ?_, ?_⟩
  · intro h hun
    exact completes_of_done _ s _ (bodyWait f) h rfl (bodyWait_unarmed f _ _ s hun)
  · intro h harmed
    have hact : ∀ l ∈ active (.wait f) s, l < s.cur.lanes.length ∧ (s.cur.lane l).st = .run :=
      fun l hl => ⟨(mem_active hl).1, st_of_mem_issuingSet (mem_active hl).2⟩
    have hlive := s.cur.park_liveLanes f.k.toNat s.cur.issuingSet _ (nodup_active (.wait f) s) hact
    have hdead := (s.cur.park f.k.toNat s.cur.issuingSet (active (.wait f) s)).deadlocked_iff
    rw [hlive] at hdead
    refine ⟨fun hall => ?_, fun hwait hns hsret => ?_, fun hwait hst => ?_⟩
    · obtain ⟨u, hm, hc⟩ := wait_completes_mask f s _ rfl hk h harmed hall
      rw [Wave.park_freeParked, Wave.park_parkedOn] at hm
      exact ⟨u, hm, hc⟩
    · refine (wait_parks f s _ rfl hk h harmed hwait).1 ?_ hsret
      rw [← Bool.not_eq_true, hdead]
      exact fun hd => hns hd.2
    · have hne : s.cur.liveLanes ≠ [] := by
        obtain ⟨l, hl⟩ := List.exists_mem_of_ne_nil _ h.2.2.2.2.2.2.2.2.2
        exact List.ne_nil_of_mem ((s.cur.mem_liveLanes l).mpr ⟨(hact l hl).1, by simp [(hact l hl).2]⟩)
      have ht := (wait_parks f s _ rfl hk h harmed hwait).2 (hdead.mpr ⟨hne, hst⟩)
      rw [Wave.deadlockTrap, hlive] at ht
      refine ⟨_, ht, fun q hq => ?_⟩
      rw [Wave.testBit_parkMask _ q hq, hlive]
      rfl

end Sys2Proof.Machine

namespace Sys2Proof.Machine

/-! ### An instruction without active lanes that still traps (R28, log 12) -/

/-- `qpop` into v1 and the registers behind it, from the feed in s5; its guard p0 fails in every lane of `popState`. -/
def idlePop : FmtQpop := { g := 0, vd := 1, sa := 5, sb := 0, ma := false, mb := false, pd := 15 }

/-- A wave with an allotment of 64 registers, and feed 0 of two records of 256 bytes: valid and not ordered. -/
def popState : State := { State.reset with cur := probeWave, mem := [(0x8, 2), (0xD, 1), (0xE, 1)] }

/-- The record needs 64 registers from v1, one more than the wave has: the issuing set takes the trap, which waits for the page of its
record. -/
theorem idlePop_traps : (match exec (.qpop idlePop) popState with | .next t => t.cur.trapPend.isSome | _ => false) = true := by
  decide

/-- An instruction that completes without effect leaves no trap behind that was not there. -/
theorem trapPend_of_completes {i : Instr} {s t : State} (hc : Completes i s s) (ht : exec i s = .next t) :
    t.cur.trapPend = s.cur.trapPend := by
  obtain ⟨u, hu, hmoves, -⟩ := hc
  obtain rfl : t = u := by simpa [ht] using hu
  have hsame := congrArg (fun x : State => x.cur.trapPend) hmoves.same
  exact hsame

/-- Refutes O39: `checksWhole` does not list `qpop`, whose allotment check on the registers of its record (cause 3) is made with no
active lane too, so that it does not retire without effect. -/
theorem not_issueChecks : ¬ Obligations.IssueChecks := by
  intro h
  obtain ⟨-, hlegal⟩ := h (.qpop idlePop) popState rfl rfl (by decide)
  obtain ⟨-, hallot⟩ := hlegal (by decide)
  obtain ⟨-, hidle⟩ := hallot (by decide)
  obtain ⟨hdone, -⟩ := hidle (by decide) (by decide) rfl (by decide)
  obtain ⟨t, ht⟩ := exec_next (.qpop idlePop) rfl popState
  have hpend := trapPend_of_completes (hdone rfl) ht
  have htrap := idlePop_traps
  rw [ht] at htrap
  change t.cur.trapPend.isSome = true at htrap
  rw [hpend] at htrap
  cases htrap

end Sys2Proof.Machine

namespace Sys2Proof.Machine

/-! ### The allotment (R29, R104, R105) -/

/-- The core has the units for `n` more groups of the wave (R26). -/
abbrev State.growFits (s : State) (n : Nat) : Prop := n * unitsPerGroup s.cur.width ≤ s.unitsFree s.cur.core

/-- The state whose core no longer lists the current wave among those that wait to grow. -/
def State.growServed (s : State) : State :=
  let c := s.coreAt s.cur.core
  s.setCore s.cur.core { c with growQ := c.growQ.filter (· != s.cur.key) }

/-- `grow.try` answers whether the units are there (R105). -/
theorem bodyGrow_try (f : FmtGrow) (iss act : List Nat) (s : State) (hmax : s.cur.alloc + 64 * f.n.toNat ≤ 1024)
    (htry : f.try_ = true) :
    bodyGrow f iss act s =
      if s.growFits f.n.toNat then
        .done (s.withCur ((s.cur.allot f.n.toNat).writePreds f.pd.toNat act (fun _ => true))) []
      else .done (putP s f.pd.toNat act (fun _ => false)) [] := by
  unfold bodyGrow
  refine (if_neg (by omega)).trans ((if_pos htry).trans ?_)
  by_cases hfit : s.growFits f.n.toNat
  · rw [if_pos hfit]
    exact if_pos (by simpa [groupUnits] using hfit)
  · rw [if_neg hfit]
    exact if_neg (by simpa [groupUnits] using hfit)

/-- A blocking `grow` whose turn it is, with the units at hand, grows (R105). -/
theorem bodyGrow_served (f : FmtGrow) (iss act : List Nat) (s : State) (hmax : s.cur.alloc + 64 * f.n.toNat ≤ 1024)
    (htry : f.try_ = false) (hfit : s.growFits f.n.toNat)
    (hturn : (s.coreAt s.cur.core).growQ = [] ∨ (s.coreAt s.cur.core).growQ.head? = some s.cur.key) :
    bodyGrow f iss act s = .done (s.growServed.withCur (s.cur.allot f.n.toNat)) [] := by
  have halone : (match (s.coreAt s.cur.core).growQ with | [] => true | k :: _ => k == s.cur.key) = true := by
    cases hq : (s.coreAt s.cur.core).growQ with
    | nil => rfl
    | cons k r => simpa [hq] using hturn
  unfold bodyGrow
  refine (if_neg (by omega)).trans ((if_neg (by simp [htry])).trans (if_pos ?_))
  rw [Bool.and_eq_true]
  exact ⟨decide_eq_true hfit, halone⟩

/-- The wave that waits first, which is the current one, issues its `grow` again (R105). -/
theorem growUnitsFreed_reissues (s : State) (f : FmtGrow) (hhead : (s.coreAt s.cur.core).growQ.head? = some s.cur.key)
    (hfind : s.findWave s.cur.key = some s.cur) (hstands : s.standsAt s.cur = some (.grow f)) :
    exec (.growUnitsFreed s.cur.core) s = exec (.grow f) s := by
  obtain ⟨r, hq⟩ : ∃ r, (s.coreAt s.cur.core).growQ = s.cur.key :: r := by
    cases hq : (s.coreAt s.cur.core).growQ with
    | nil => simp [hq] at hhead
    | cons k r => exact ⟨r, by simpa [hq] using hhead⟩
  change execGrowUnitsFreed s.cur.core s = execGrow f s
  unfold execGrowUnitsFreed execGrow issue
  simp only [hq, hfind, hstands, State.withWave, Option.isNone_some, if_true]
  rfl

/-- `shrink` drops the registers at and above the new allotment, where none of them is empty and none of them holds a proposal
(R104). -/
theorem bodyShrink_done (f : FmtGrow) (iss act : List Nat) (s : State) (hmin : 64 + 64 * f.n.toNat ≤ s.cur.alloc)
    (hfull : ∀ r ∈ s.cur.vEmpty, r < s.cur.alloc - 64 * f.n.toNat)
    (hbank : ∀ x ∈ s.cur.lanes, ∀ i ∈ x.written, s.cur.pbase + i < s.cur.alloc - 64 * f.n.toNat) :
    bodyShrink f iss act s = .done (s.withCur (s.cur.dropFrom (s.cur.alloc - 64 * f.n.toNat))) [] := by
  unfold bodyShrink
  refine (if_neg (by omega)).trans ((if_neg ?_).trans (if_neg ?_))
  · simpa [Nat.lt_sub_iff_add_lt] using hbank
  · simpa [Nat.lt_sub_iff_add_lt] using hfull

/-- Settles O20: `grow` and its waiting form by `bodyGrow_try` and `bodyGrow_served`, `shrink` by `bodyShrink_done`. -/
theorem allotmentResults : Obligations.AllotmentResults := by
  intro f s
  refine ⟨fun h hmax => ⟨fun htry hfit => ?_, fun htry hshort => ?_, fun htry hfit hturn => ?_⟩, fun h hmin hfull hbank => ?_⟩
  · exact completes_of_done _ s _ (bodyGrow f) h rfl ((bodyGrow_try f _ _ s hmax htry).trans (if_pos hfit))
  · exact completes_of_done _ s _ (bodyGrow f) h rfl ((bodyGrow_try f _ _ s hmax htry).trans (if_neg hshort))
  · have hdone := completes_of_done _ s _ (bodyGrow f) h rfl (bodyGrow_served f _ _ s hmax htry hfit hturn)
    refine ⟨hdone, fun hhead hfind hstands => ?_⟩
    obtain ⟨t, ht, hr⟩ := hdone
    exact ⟨t, (growUnitsFreed_reissues s f hhead hfind hstands).trans ht, hr⟩
  · have hdone := completes_of_done _ s _ (bodyShrink f) h rfl (bodyShrink_done f _ _ s hmin hfull hbank)
    obtain ⟨-, -, -, -, herr, -⟩ := h
    have hdrop : s.cur.dropFrom (s.cur.alloc - 64 * f.n.toNat) = { s.cur.dropFrom (s.cur.alloc - 64 * f.n.toNat) with regErr := s.cur.regErr } := by
      simp [Wave.dropFrom, herr]
    rw [hdrop] at hdone
    exact hdone

end Sys2Proof.Machine

namespace Sys2Proof.Machine

/-! ### The order of threads (R38 to R40) -/

/-- The live threads' order: by key, rising or falling, and by `$tid` between equal keys (R39). -/
def sortLe (f : FmtSort) (a b : SortThread) : Bool :=
  if a.key = b.key then a.lane.tid ≤ b.lane.tid else if f.desc then b.key < a.key else a.key < b.key

/-- The exited threads' order. -/
def tidLe (a b : SortThread) : Bool := a.lane.tid ≤ b.lane.tid

/-- The threads of some waves, as a sort reads them. -/
def threadsOf (f : FmtSort) (ws : List Wave) : List SortThread :=
  ws.flatMap (fun w => w.lanes.map (fun x => { key := (x.getV f.va.toNat).toNat, live := x.live, lane := x }))

theorem sortThreads_eq (f : FmtSort) (ws : List Wave) :
    sortThreads f ws = sortBy (sortLe f) ((threadsOf f ws).filter SortThread.live) ++
      sortBy tidLe ((threadsOf f ws).filter (fun t => !t.live)) := rfl

theorem sortLe_iff (f : FmtSort) (a b : SortThread) :
    sortLe f a b = true ↔ (if f.desc then b.key < a.key else a.key < b.key) ∨ (a.key = b.key ∧ a.lane.tid ≤ b.lane.tid) := by
  unfold sortLe
  cases f.desc <;> by_cases hk : a.key = b.key <;> simp [hk]

theorem sortLe_total (f : FmtSort) (a b : SortThread) (h : sortLe f a b = false) : sortLe f b a = true := by
  rw [← Bool.not_eq_true, sortLe_iff] at h
  rw [sortLe_iff]
  cases hd : f.desc
  all_goals
    simp only [hd, if_true, Bool.false_eq_true, if_false] at *
    omega

theorem sortLe_trans (f : FmtSort) (a b c : SortThread) (hab : sortLe f a b = true) (hbc : sortLe f b c = true) :
    sortLe f a c = true := by
  rw [sortLe_iff] at *
  cases hd : f.desc
  all_goals
    simp only [hd, if_true, Bool.false_eq_true, if_false] at *
    omega

/-- No thread is lost or made. -/
theorem sortThreads_perm (f : FmtSort) (ws : List Wave) : (sortThreads f ws).Perm (threadsOf f ws) := by
  rw [sortThreads_eq]
  exact ((sortBy_perm _ _).append (sortBy_perm _ _)).trans (List.filter_append_perm SortThread.live (threadsOf f ws))

theorem length_threadsOf (f : FmtSort) (ws : List Wave) :
    (threadsOf f ws).length = (ws.map (fun w => w.lanes.length)).sum := by
  simp [threadsOf, List.length_flatMap]

/-- The order after a sort: unexited threads first, by key and `$tid`; exited threads by `$tid` (R39). -/
def sortedBefore (f : FmtSort) (a b : SortThread) : Prop :=
  (a.live = true ∧ b.live = false) ∨
  (a.live = b.live ∧ a.live = true ∧ (if f.desc then b.key < a.key else a.key < b.key)) ∨
  (a.live = b.live ∧ (a.live = true → a.key = b.key) ∧ a.lane.tid ≤ b.lane.tid)

theorem sortThreads_pairwise (f : FmtSort) (ws : List Wave) : (sortThreads f ws).Pairwise (sortedBefore f) := by
  rw [sortThreads_eq]
  have hlive : ∀ t ∈ sortBy (sortLe f) ((threadsOf f ws).filter SortThread.live), t.live = true := by
    intro t ht
    rw [mem_sortBy] at ht
    exact (List.mem_filter.mp ht).2
  have hdead : ∀ t ∈ sortBy tidLe ((threadsOf f ws).filter (fun t => !t.live)), t.live = false := by
    intro t ht
    rw [mem_sortBy] at ht
    simpa using (List.mem_filter.mp ht).2
  have hkeys := pairwise_sortBy (sortLe f) (sortLe_total f) (sortLe_trans f) ((threadsOf f ws).filter SortThread.live)
  have htids := pairwise_sortBy tidLe (fun a b h => by simp only [tidLe, decide_eq_false_iff_not, decide_eq_true_eq] at *; omega)
    (fun a b c h k => by simp only [tidLe, decide_eq_true_eq] at *; omega) ((threadsOf f ws).filter (fun t => !t.live))
  refine List.pairwise_append.mpr ⟨hkeys.imp_of_mem fun {a b} ha hb hab => ?_, htids.imp_of_mem fun {a b} ha hb hab => ?_,
    fun a ha b hb => .inl ⟨hlive a ha, hdead b hb⟩⟩
  · have hsame : a.live = b.live := (hlive a ha).trans (hlive b hb).symm
    rcases (sortLe_iff f a b).mp hab with h | ⟨hk, ht⟩
    · exact .inr (.inl ⟨hsame, hlive a ha, h⟩)
    · exact .inr (.inr ⟨hsame, fun _ => hk, ht⟩)
  · refine .inr (.inr ⟨(hdead a ha).trans (hdead b hb).symm, fun h => ?_, of_decide_eq_true hab⟩)
    rw [hdead a ha] at h
    cases h

/-! ### `sortk` -/

/-- A `sortk` that finds no open proposal and no register of a named group empty: its lanes arrive, and the last arrival moves the
threads (R39, R40). -/
theorem bodySortk_arrives (f : FmtSort) (iss act : List Nat) (s : State) (hbank : ∀ x ∈ s.cur.lanes, x.written = [])
    (hfull : ∀ r ∈ s.cur.vEmpty, tbit f.mask (r / 64) = false) :
    bodySortk f iss act s =
      let u := s.withCur (s.cur.rest iss act .sort)
      if u.sortReady s.cur.key.grid s.cur.key.team && u.sortQuiet f s.cur.key.grid s.cur.key.team then
        .done (u.sortMove f s.cur.key.grid s.cur.key.team) u.cur.idx
      else .done u act := by
  unfold bodySortk
  refine (if_neg ?_).trans (if_neg ?_)
  · simpa using hbank
  · simpa using hfull

/-- Keeping every lane keeps the issuing set. -/
theorem issuingSet_filter_idx (w : Wave) (u : State) (h : u.cur.lanes.length = w.lanes.length) :
    w.issuingSet.filter (fun l => !u.cur.idx.contains l) = [] := by
  rw [List.filter_eq_nil_iff]
  intro l hl
  have hlt := mem_issuingSet_lt hl
  simp [Wave.idx, h, hlt]

/-- A grant finds the first wave of the line able to issue, and a slot free (R25). -/
theorem execIssueSlotGrant_grants (core : Nat) (s : State) (w : Wave) (r : List WKey) (hq : (s.coreAt core).ableQ = w.key :: r)
    (hfind : s.findWave w.key = some w) (hable : w.able = true) (hslot : s.slotsHeld core < Config.slotsPerCore) :
    execIssueSlotGrant core s = .next ((s.setCore core { s.coreAt core with ableQ := r }).setWave { w with slot := true }) := by
  unfold execIssueSlotGrant
  simp [hq, hfind, hable, hslot]

/-- The override picks the ready lanes at the overdue value (R20). -/
theorem execIssueOverride_due (s : State) (v : Nat) (h : s.cur.overdue = some v) :
    execIssueOverride s = .next (s.withCur { s.cur with ovr := s.cur.ready.filter (fun l => (s.cur.lane l).vpc == v) }) := by
  unfold execIssueOverride
  simp only [h]
  rfl

/-- Settles O21: `sortk` by its body, the order by `sortThreads_pairwise` and `sortThreads_perm`. -/
theorem threadOrderResults : Obligations.ThreadOrderResults := by
  refine ⟨fun f s h hbank hfull => ?_, fun s v => execIssueOverride_due s v, fun s core w r => execIssueSlotGrant_grants core s w r,
    fun f ws => ⟨sortThreads_pairwise f ws, ?_, fun w hw x hx => ?_⟩⟩
  · have hbody := bodySortk_arrives f s.cur.issuingSet (active (.sortk f) s) s hbank hfull
    refine ⟨fun hstays => completesBut_of_done _ s _ _ (bodySortk f) h rfl (hbody.trans (if_neg ?_)), fun hgoes => ?_⟩
    · rw [Bool.and_eq_true]
      exact hstays
    · obtain ⟨t, ht, hr⟩ := issue_done (.sortk f) s _ _ (bodySortk f) h (hbody.trans (if_pos (by rw [Bool.and_eq_true]; exact hgoes)))
      rw [issuingSet_filter_idx s.cur (s.withCur (s.cur.rest s.cur.issuingSet (active (.sortk f) s) .sort))
        (s.cur.length_modLanes _ _)] at hr
      exact ⟨t, ht, hr⟩
  · rw [(sortThreads_perm f ws).length_eq, length_threadsOf]
  · refine ⟨{ key := (x.getV f.va.toNat).toNat, live := x.live, lane := x }, (sortThreads_perm f ws).mem_iff.mpr ?_, rfl, rfl, rfl⟩
    exact List.mem_flatMap.mpr ⟨w, hw, List.mem_map.mpr ⟨x, hx, rfl⟩⟩

end Sys2Proof.Machine

namespace Sys2Proof.Machine

/-! ### Bytes of a pending load (R31, R233) -/

/-- Among pairs, those at the end count first. -/
theorem lastByte_append (as bs : List (Nat × Byte)) (loc : Nat) :
    lastByte (as ++ bs) loc = (lastByte bs loc).or (lastByte as loc) := by
  induction bs using List.reverseRecOn with
  | nil => simp [lastByte]
  | append_singleton bs b ih =>
    simp only [lastByte, ← List.append_assoc, List.foldl_append, List.foldl_cons, List.foldl_nil] at *
    split
    · rfl
    · exact ih

/-- Pairs that hold a function of the location. -/
theorem lastByte_map (ls : List Nat) (g : Nat → Byte) (loc : Nat) :
    lastByte (ls.map (fun l => (l, g l))) loc = if loc ∈ ls then some (g loc) else none := by
  induction ls using List.reverseRecOn with
  | nil => rfl
  | append_singleton ls l ih =>
    rw [List.map_append, lastByte_append, ih]
    by_cases h : l = loc
    · subst h; simp [lastByte]
    · simp [lastByte, h, Ne.symm h]

/-- What has been read of a part now is what a read at the return would give. -/
theorem State.lateByte_readNow (s : State) (locs : List Nat) (x : PSrc) (loc : Nat) :
    s.lateByte (x.readNow s locs) loc = s.lateByte x loc := by
  unfold State.lateByte PSrc.readNow
  rw [lastByte_append, lastByte_map]
  split
  · rfl
  · rfl

theorem State.srcVal_readNow (s : State) (locs : List Nat) (x : PSrc) (v : Nat) :
    s.srcVal (x.readNow s locs) v = s.srcVal x v := by
  have h : s.lateByte (x.readNow s locs) = s.lateByte x := funext (s.lateByte_readNow locs x)
  unfold State.srcVal
  rw [h]
  rfl

/-- No byte of the part that is still to be read is among the listed ones. -/
theorem PSrc.readNow_disjoint (s : State) (locs : List Nat) (x : PSrc) (h : ∀ loc ∈ x.lateLocs, loc ∉ locs) :
    x.readNow s locs = x := by
  have hnone : x.lateLocs.filter locs.contains = [] := by
    rw [List.filter_eq_nil_iff]
    simpa using h
  unfold PSrc.readNow
  rw [hnone]
  simp

theorem Pend.lateLocs_elem {p : Pend} {e : PElem} (he : e ∈ p.elems) {loc : Nat} (h : loc ∈ e.src.lateLocs) : loc ∈ p.lateLocs :=
  List.mem_flatMap.mpr ⟨e.src, List.mem_append_left _ (List.mem_map_of_mem he), h⟩

theorem Pend.lateLocs_scalar {p : Pend} {r : Nat} {v : Word64} {x : PSrc} (hp : p.scalar = some (r, v, x)) {loc : Nat}
    (h : loc ∈ x.lateLocs) : loc ∈ p.lateLocs := by
  refine List.mem_flatMap.mpr ⟨x, List.mem_append_right _ ?_, h⟩
  simp [hp]

/-- A load of which no listed byte is still to be read keeps its parts. -/
theorem Pend.readNow_disjoint (s : State) (locs : List Nat) (p : Pend) (h : ∀ loc ∈ p.lateLocs, loc ∉ locs) :
    (p.readNow s locs).elems = p.elems ∧ (p.readNow s locs).scalar = p.scalar := by
  constructor
  · refine (List.map_congr_left fun e he => ?_).trans (List.map_id p.elems)
    rw [e.src.readNow_disjoint s locs fun loc hl => h loc (p.lateLocs_elem he hl)]
    rfl
  · cases hp : p.scalar with
    | none => simp [Pend.readNow, hp]
    | some y =>
      obtain ⟨r, v, x⟩ := y
      simp only [Pend.readNow, hp, Option.map_some, x.readNow_disjoint s locs fun loc hl => h loc (p.lateLocs_scalar hp hl)]

theorem Pend.readNow_nil (s : State) (p : Pend) : p.readNow s [] = p := by
  obtain ⟨he, hs⟩ := p.readNow_disjoint s [] (fun loc _ => List.not_mem_nil)
  have hc : (p.readNow s []).counted = p.counted := by simp [Pend.readNow, PSrc.readsZero]
  have heta : p.readNow s [] = { p with elems := (p.readNow s []).elems, scalar := (p.readNow s []).scalar,
                                        counted := (p.readNow s []).counted } := rfl
  rw [heta, he, hs, hc]

/-- Reads of class 3 change the loads of the wave that are picked, and counts of poison, and nothing else of it (R233). -/
theorem State.readLate_eq (s : State) (w : Wave) (pick : Pend → Bool) (locs : List Nat) :
    ∃ a b, s.readLate w pick locs =
      { w with pend := w.pend.map (fun q => if pick q then q.readNow s locs else q), duePoison := a, heldPoison := b } := by
  unfold State.readLate
  split
  · rename_i hnil
    rw [List.isEmpty_iff] at hnil
    subst hnil
    refine ⟨w.duePoison, w.heldPoison, ?_⟩
    have hid : w.pend.map (fun q => if pick q then q.readNow s [] else q) = w.pend := by simp [Pend.readNow_nil]
    rw [hid]
  · exact ⟨_, _, rfl⟩

/-! ### Elements that a producer writes -/

theorem Wave.lane_storeV (w : Wave) (l r k : Nat) (e : Elem) :
    (w.storeV l r e).lane k = if k = l ∧ l < w.lanes.length then (w.lane l).putOld r e else w.lane k := by
  unfold Wave.storeV
  rw [Wave.lane_touch, Wave.lane_modLane]
  split <;> rfl

theorem Wave.storeV_frame (w : Wave) (l r : Nat) (e : Elem) :
    (w.storeV l r e).lanes.length = w.lanes.length ∧ (w.storeV l r e).s = w.s ∧ (w.storeV l r e).vEmpty = w.vEmpty ∧
    (w.storeV l r e).sEmpty = w.sEmpty ∧ (w.storeV l r e).key = w.key := by
  unfold Wave.storeV
  dsimp only
  split <;> exact ⟨by simp [Wave.touch], rfl, rfl, rfl, rfl⟩

/-- The wave once a producer has written its elements. -/
def Wave.storeElems (w : Wave) (es : List PElem) (val : PElem → Elem) : Wave :=
  es.foldl (fun w e => w.storeV e.lane e.reg (val e)) w

theorem Wave.storeElems_frame (w : Wave) (es : List PElem) (val : PElem → Elem) :
    (w.storeElems es val).lanes.length = w.lanes.length ∧ (w.storeElems es val).s = w.s ∧
    (w.storeElems es val).vEmpty = w.vEmpty ∧ (w.storeElems es val).sEmpty = w.sEmpty ∧ (w.storeElems es val).key = w.key := by
  unfold Wave.storeElems
  induction es generalizing w with
  | nil => exact ⟨rfl, rfl, rfl, rfl, rfl⟩
  | cons e r ih =>
    obtain ⟨h1, h2, h3, h4, h5⟩ := w.storeV_frame e.lane e.reg (val e)
    obtain ⟨i1, i2, i3, i4, i5⟩ := ih (w.storeV e.lane e.reg (val e))
    exact ⟨i1.trans h1, i2.trans h2, i3.trans h3, i4.trans h4, i5.trans h5⟩

theorem Wave.getV_storeV (w : Wave) (l r k j : Nat) (e : Elem) (hl : l < w.lanes.length) :
    ((w.storeV l r e).lane k).getV j = if k = l ∧ r = j then e else (w.lane k).getV j := by
  rw [Wave.lane_storeV]
  by_cases h : k = l
  · subst h
    simp [hl, Lane.getV_putOld]
  · simp [h]

/-- An element that is not written is as it was. -/
theorem Wave.getV_storeElems_other (w : Wave) (es : List PElem) (val : PElem → Elem) (l r : Nat)
    (hlane : ∀ e ∈ es, e.lane < w.lanes.length) (h : ∀ e ∈ es, ¬(e.lane = l ∧ e.reg = r)) :
    ((w.storeElems es val).lane l).getV r = (w.lane l).getV r := by
  unfold Wave.storeElems
  induction es generalizing w with
  | nil => rfl
  | cons e t ih =>
    simp only [List.forall_mem_cons] at hlane h
    have hne : ¬(l = e.lane ∧ e.reg = r) := fun hc => h.1 ⟨hc.1.symm, hc.2⟩
    rw [List.foldl_cons, ih _ (by rw [(w.storeV_frame _ _ _).1]; exact hlane.2) h.2, w.getV_storeV _ _ _ _ _ hlane.1, if_neg hne]

/-- Each written element holds its value. -/
theorem Wave.getV_storeElems_mem (w : Wave) (es : List PElem) (val : PElem → Elem) (hlane : ∀ e ∈ es, e.lane < w.lanes.length)
    (hn : (es.map (fun e => (e.lane, e.reg))).Nodup) (e : PElem) (he : e ∈ es) :
    ((w.storeElems es val).lane e.lane).getV e.reg = val e := by
  unfold Wave.storeElems
  induction es generalizing w with
  | nil => cases he
  | cons a t ih =>
    simp only [List.forall_mem_cons] at hlane
    simp only [List.map_cons, List.nodup_cons, List.mem_map, not_exists, not_and] at hn
    have hlen := (w.storeV_frame a.lane a.reg (val a)).1
    rcases List.mem_cons.mp he with rfl | ht
    · have hrest : ∀ x ∈ t, ¬(x.lane = e.lane ∧ x.reg = e.reg) := fun x hx hc => hn.1 x hx (by rw [hc.1, hc.2])
      rw [List.foldl_cons]
      refine (Wave.getV_storeElems_other _ t val _ _ (by rw [hlen]; exact hlane.2) hrest).trans ?_
      rw [w.getV_storeV _ _ _ _ _ hlane.1, if_pos ⟨rfl, rfl⟩]
    · exact ih _ (by rw [hlen]; exact hlane.2) hn.2 ht

end Sys2Proof.Machine

namespace Sys2Proof.Machine

/-! ### A load that returns (R31) -/

/-- The value that an element of a returning load receives. -/
def State.elemVal (s : State) (e : PElem) : Elem := BitVec.ofNat 32 (s.srcVal e.src e.val.toNat)

theorem State.elemVal_eq (s : State) (e : PElem) :
    s.elemVal e = if e.src.late then BitVec.ofNat 32 (leNat (e.src.locs.map (s.lateByte e.src))) else e.val := by
  unfold State.elemVal State.srcVal
  split
  · rfl
  · simp

/-- The scalar register of a producer that has returned. -/
def Wave.storeScalar (w : Wave) (s : State) (p : Pend) : Wave :=
  match p.scalar with
  | some (r, v, x) => w.setS r (BitVec.ofNat 64 (s.srcVal x v.toNat))
  | none => w

theorem Wave.foldl_touch (w : Wave) (rs : List Nat) : ∃ g, rs.foldl (fun w r => w.touch r) w = { w with wgrp := g } := by
  induction rs generalizing w with
  | nil => exact ⟨w.wgrp, rfl⟩
  | cons r t ih =>
    obtain ⟨g, hg⟩ := ih (w.touch r)
    exact ⟨g, hg⟩

/-- A returned producer has written its elements and its scalar, and its registers are full (R31). -/
theorem State.returnElems_eq (s : State) (w : Wave) (p : Pend) :
    ∃ g, s.returnElems w p = { (w.storeElems p.elems s.elemVal).storeScalar s p with
      wgrp := g, vEmpty := w.vEmpty.filter (fun r => !p.regs.contains r),
      sEmpty := match p.scalar with | some (r, _) => w.sEmpty.filter (· != r) | none => w.sEmpty } := by
  obtain ⟨g, hg⟩ := ((w.storeElems p.elems s.elemVal).storeScalar s p).foldl_touch p.regs
  obtain ⟨-, -, hv, hs, -⟩ := w.storeElems_frame p.elems s.elemVal
  refine ⟨g, ?_⟩
  have hfold : s.returnElems w p =
      let x := p.regs.foldl (fun w r => w.touch r) ((w.storeElems p.elems s.elemVal).storeScalar s p)
      { x with vEmpty := x.vEmpty.filter (fun r => !p.regs.contains r),
               sEmpty := match p.scalar with | some (r, _) => x.sEmpty.filter (· != r) | none => x.sEmpty } := rfl
  rw [hfold, hg]
  unfold Wave.storeScalar
  cases p.scalar <;> simp only [Wave.setS_vEmpty, Wave.setS_sEmpty, hv, hs]

/-- What has been read of a load early makes no difference to what its return writes. -/
theorem State.returnElems_readNow (s : State) (w : Wave) (p : Pend) (locs : List Nat) :
    s.returnElems w (p.readNow s locs) = s.returnElems w p := by
  have hfold : (p.readNow s locs).elems.foldl (fun w e => w.storeV e.lane e.reg (BitVec.ofNat 32 (s.srcVal e.src e.val.toNat))) w =
      p.elems.foldl (fun w e => w.storeV e.lane e.reg (BitVec.ofNat 32 (s.srcVal e.src e.val.toNat))) w := by
    simp only [Pend.readNow, List.foldl_map, s.srcVal_readNow]
  unfold State.returnElems
  rw [hfold]
  cases hp : p.scalar with
  | none => simp only [Pend.readNow, hp, Option.map_none]
  | some y => simp only [Pend.readNow, hp, Option.map_some, s.srcVal_readNow]

/-- The registers that a load in flight has still to fill, and what it will write there. -/
def Pend.writes (p : Pend) : Nat × List PElem × Option (Nat × Word64 × PSrc) × List Nat := (p.id, p.elems, p.scalar, p.regs)

theorem Pend.writes_readNow (s : State) (locs : List Nat) (p : Pend) (h : ∀ loc ∈ p.lateLocs, loc ∉ locs) :
    (p.readNow s locs).writes = p.writes := by
  obtain ⟨he, hs⟩ := p.readNow_disjoint s locs h
  have hparts : (p.readNow s locs).writes = (p.id, (p.readNow s locs).elems, (p.readNow s locs).scalar, p.regs) := rfl
  rw [hparts, he, hs]
  rfl

/-- One load returns: its registers are written, it leaves the list, and what the others write is as it was. -/
theorem State.returnOne_eq (s : State) (w : Wave) (id : Nat) (p : Pend)
    (hfind : w.pend.find? (fun q => q.id == id && !q.fabric) = some p) :
    ∃ d, ∃ f : Pend → Pend, (∀ q, (f q).writes = q.writes) ∧ s.returnOne w id =
      { s.returnElems w p with pend := (w.pend.filter (fun q => q.id != id)).map f, ck := d, why := .none } := by
  unfold State.returnOne
  simp only [hfind]
  exact ⟨_, fun q => if q.id < id && !p.allLate then { q with moves := false } else q, fun q => by dsimp only; split <;> rfl, rfl⟩

/-- A load returns (R31): its registers are written and it leaves the list; what the other loads write is as it was, where no load
before it has still to read a byte that it reads (R233). -/
theorem State.returnPend_eq (s : State) (w : Wave) (p : Pend)
    (hfind : w.pend.find? (fun q => q.id == p.id && !q.fabric) = some p)
    (hbefore : ∀ q ∈ w.pend, q.id < p.id → ∀ loc ∈ q.lateLocs, loc ∉ p.lateLocs) :
    ∃ a b c ps d, s.returnPend w p.id =
      { s.returnElems { w with pend := a, duePoison := b, heldPoison := c } p with pend := ps, ck := d, why := .none } ∧
    ps.map Pend.writes = (w.pend.filter (fun q => q.id != p.id)).map Pend.writes := by
  obtain ⟨b, c, hlate⟩ := s.readLate_eq w (fun q => decide (q.id ≤ p.id)) p.lateLocs
  generalize hg : (fun q : Pend => if decide (q.id ≤ p.id) then q.readNow s p.lateLocs else q) = g at hlate
  have hid : ∀ q : Pend, (g q).id = q.id ∧ (g q).fabric = q.fabric := by
    intro q
    subst hg
    dsimp only
    split <;> exact ⟨rfl, rfl⟩
  have hfind' : (w.pend.map g).find? (fun q => q.id == p.id && !q.fabric) = some (p.readNow s p.lateLocs) := by
    have hcomp : (fun q : Pend => q.id == p.id && !q.fabric) ∘ g = fun q => q.id == p.id && !q.fabric :=
      funext fun q => by simp only [Function.comp, (hid q).1, (hid q).2]
    have hp : g p = p.readNow s p.lateLocs := by simp [← hg]
    rw [List.find?_map, hcomp, hfind, Option.map_some, hp]
  obtain ⟨d, f, hf, hone⟩ := s.returnOne_eq { w with pend := w.pend.map g, duePoison := b, heldPoison := c } p.id _ hfind'
  refine ⟨w.pend.map g, b, c, ((w.pend.map g).filter (fun q => q.id != p.id)).map f, d, ?_, ?_⟩
  · unfold State.returnPend
    simp only [hfind]
    rw [hlate, hone, s.returnElems_readNow]
  · have hcomp : (fun q : Pend => q.id != p.id) ∘ g = fun q => q.id != p.id := funext fun q => by simp only [Function.comp, (hid q).1]
    rw [List.filter_map, List.map_map, List.map_map, hcomp]
    refine List.map_congr_left fun q hq => ?_
    obtain ⟨hmem, hne⟩ := List.mem_filter.mp hq
    rw [Function.comp, Function.comp, hf]
    by_cases hle : q.id ≤ p.id
    · have hlt : q.id < p.id := Nat.lt_of_le_of_ne hle (by simpa using hne)
      have hq : g q = q.readNow s p.lateLocs := by simp [← hg, hle]
      rw [hq, q.writes_readNow s p.lateLocs (hbefore q hmem hlt)]
    · have hq : g q = q := by simp [← hg, hle]
      rw [hq]

/-! ### LOAD DATA RETURN -/

theorem Wave.storeScalar_lane (w : Wave) (s : State) (p : Pend) (l : Nat) : (w.storeScalar s p).lane l = w.lane l := by
  unfold Wave.storeScalar
  split <;> rfl

theorem execLoadDataReturn_eq (s : State) (w : Wave) (k : Nat) (p : Pend) (hw : s.findWave w.key = some w) (hk : w.pend[k]? = some p) :
    exec (.loadDataReturn w.key k) s =
      .next (if s.behindOwn w p.lateLocs (fun o => o.loads ≤ p.id) then s else s.setWave (s.returnPend w p.id)) := by
  change execLoadDataReturn w.key k s = _
  unfold execLoadDataReturn
  simp only [hw, hk]

/-- Settles O19: the wave after the return is the one of `State.returnPend_eq`, of which the registers are read. -/
theorem loadReturnResults : Obligations.LoadReturnResults := by
  intro s w k p now hw hk hfind
  have hexec := execLoadDataReturn_eq s w k p hw hk
  refine ⟨fun hbehind => by rw [hexec, if_pos hbehind], fun hfree hbefore hlanes hn => ?_⟩
  rw [if_neg (by simp [hfree])] at hexec
  obtain ⟨a, b, c, ps, d, hret, hps⟩ := s.returnPend_eq w p hfind hbefore
  obtain ⟨g, helems⟩ := s.returnElems_eq { w with pend := a, duePoison := b, heldPoison := c } p
  generalize hw0 : ({ w with pend := a, duePoison := b, heldPoison := c } : Wave) = w0 at hret helems
  have hlane0 : ∀ e ∈ p.elems, e.lane < w0.lanes.length := by subst hw0; exact hlanes
  obtain ⟨-, hs, -⟩ := w0.storeElems_frame p.elems s.elemVal
  have hlane : ∀ l, (s.returnPend w p.id).lane l = (w0.storeElems p.elems s.elemVal).lane l := by
    intro l
    rw [hret, helems]
    exact Wave.storeScalar_lane _ s p l
  have hscal : (s.returnPend w p.id).s = ((w0.storeElems p.elems s.elemVal).storeScalar s p).s := by rw [hret, helems]
  have hse : (s.returnPend w p.id).sEmpty = match p.scalar with | some (r, _) => w.sEmpty.filter (· != r) | none => w.sEmpty := by
    rw [hret, helems]; subst hw0; rfl
  refine ⟨_, hexec, ?_, ?_, ?_, ?_, ?_, ?_, ?_⟩
  · rw [hret]; exact hps
  · rw [hret]
  · intro r
    rw [hret, helems]
    subst hw0
    simp
  · intro e he
    rw [hlane, w0.getV_storeElems_mem _ _ hlane0 hn e he, s.elemVal_eq]
    rfl
  · intro l r hother
    rw [hlane, w0.getV_storeElems_other _ _ l r hlane0 hother]
    subst hw0; rfl
  · intro hnone
    rw [hscal, hse, Wave.storeScalar, hnone]
    exact ⟨hs.trans (by subst hw0; rfl), rfl⟩
  · intro r v x hsome
    refine ⟨fun q => ?_, fun q => ?_⟩
    · rw [hse, hsome]
      simp
    · have hget : (s.returnPend w p.id).getS q = ((w0.storeElems p.elems s.elemVal).setS r (BitVec.ofNat 64 (s.srcVal x v.toNat))).getS q := by
        unfold Wave.getS
        rw [hscal, Wave.storeScalar, hsome]
      have hold : (w0.storeElems p.elems s.elemVal).getS q = w.getS q := by
        unfold Wave.getS
        rw [hs]; subst hw0; rfl
      rw [hget, Wave.getS_setS, hold]
      by_cases hq : q = r
      · subst hq
        rw [if_pos rfl, if_pos rfl]
        unfold State.srcVal
        split
        · rfl
        · simp
      · rw [if_neg hq, if_neg (Ne.symm hq)]

end Sys2Proof.Machine

namespace Sys2Proof.Machine

/-! ### What the performance of earlier accesses leaves of the current wave (R227) -/

/-- The key, the lanes and the speculation of a wave are those of another. -/
def Wave.Stays (v w : Wave) : Prop := v.key = w.key ∧ v.lanes = w.lanes ∧ v.spec = w.spec

theorem Wave.Stays.trans {a b c : Wave} (h : a.Stays b) (g : b.Stays c) : a.Stays c := by
  obtain ⟨h1, h2, h3⟩ := h
  obtain ⟨g1, g2, g3⟩ := g
  exact ⟨h1.trans g1, h2.trans g2, h3.trans g3⟩

theorem State.findWave_cur (s : State) (h : s.cur.lanes ≠ []) : s.findWave s.cur.key = some s.cur := by
  have hb : (s.cur.lanes != []) = true := by simpa using h
  unfold State.findWave State.waves
  rw [List.find?_cons_of_pos (by simp [hb])]

theorem State.setWave_cur (s : State) (w : Wave) (h : w.key = s.cur.key) : s.setWave w = s.withCur w := if_pos h.symm

theorem State.setWave_stays (s : State) (w : Wave) (h : w.Stays s.cur) : (s.setWave w).cur.Stays s.cur := by
  rw [s.setWave_cur w h.1]
  exact h

theorem State.onWave_cur (s : State) (key : WKey) (f : Wave → Wave) (hk : s.cur.key = key) (hl : s.cur.lanes ≠ [])
    (hf : (f s.cur).key = s.cur.key) : s.onWave key f = s.withCur (f s.cur) := by
  subst hk
  unfold State.onWave
  rw [s.findWave_cur hl]
  exact s.setWave_cur _ hf

/-- A wave is another one but for its monitor. -/
def Wave.SameButMon (v w : Wave) : Prop := ∃ m, v = { w with mon := m }

theorem Wave.SameButMon.trans {a b c : Wave} (h : a.SameButMon b) (g : b.SameButMon c) : a.SameButMon c := by
  obtain ⟨m, rfl⟩ := h
  obtain ⟨n, rfl⟩ := g
  exact ⟨m, rfl⟩

/-- Bytes that become visible change no more of the current wave than its monitor (R239). -/
theorem State.cur_makeVisible (s : State) (bs : List (Nat × Byte)) : (s.makeVisible bs).cur.SameButMon s.cur := by
  by_cases h : bs.any (fun b => s.cur.mon.hit b.1)
  · exact ⟨{ s.cur.mon with trig := true }, if_pos h⟩
  · exact ⟨s.cur.mon, if_neg h⟩

theorem State.cur_makeVisible_stays (s : State) (bs : List (Nat × Byte)) : (s.makeVisible bs).cur.Stays s.cur := by
  obtain ⟨m, hm⟩ := s.cur_makeVisible bs
  rw [hm]
  exact ⟨rfl, rfl, rfl⟩

/-- A change of the current wave after bytes became visible. -/
theorem State.landed_stays (s : State) (bs : List (Nat × Byte)) (key : WKey) (f : Wave → Wave) (hk : s.cur.key = key)
    (hl : s.cur.lanes ≠ []) (hf : ∀ w, (f w).Stays w) : ((s.makeVisible bs).onWave key f).cur.Stays s.cur := by
  have hv := s.cur_makeVisible_stays bs
  rw [State.onWave_cur _ _ _ (hv.1.trans hk) (by rw [hv.2.1]; exact hl) (hf _).1]
  exact (hf _).trans hv

theorem State.landEntry_stays (s : State) (key : WKey) (k : Nat) (locs : List Nat) (hk : s.cur.key = key) (hl : s.cur.lanes ≠ []) :
    (s.landEntry key k locs).cur.Stays s.cur := by
  subst hk
  unfold State.landEntry
  rw [s.findWave_cur hl]
  dsimp only
  split
  · exact ⟨rfl, rfl, rfl⟩
  · rename_i e _
    split
    · exact ⟨rfl, rfl, rfl⟩
    · have hv : (s.readLate s.cur (fun _ => true) ((e.bytes.filter (fun b => locs.contains b.1)).map Prod.fst)).Stays s.cur := by
        obtain ⟨a, b, hread⟩ := s.readLate_eq s.cur (fun _ => true) ((e.bytes.filter (fun b => locs.contains b.1)).map Prod.fst)
        rw [hread]
        exact ⟨rfl, rfl, rfl⟩
      generalize s.readLate s.cur (fun _ => true) ((e.bytes.filter (fun b => locs.contains b.1)).map Prod.fst) = v at hv ⊢
      have hw : ∀ ps, (s.setWave { v with pend := ps }).cur.Stays s.cur := fun ps =>
        s.setWave_stays { v with pend := ps } hv
      have hne : ∀ ps, (s.setWave { v with pend := ps }).cur.lanes ≠ [] := fun ps => by
        rw [(hw ps).2.1]
        exact hl
      split
      · refine (State.landed_stays _ _ _ _ (hw _).1 (hne _) fun w => ?_).trans (hw _)
        exact ⟨rfl, rfl, rfl⟩
      · refine (State.landed_stays _ _ _ _ (hw _).1 (hne _) fun w => ?_).trans (hw _)
        split <;> exact ⟨rfl, rfl, rfl⟩
      · refine (State.landed_stays _ _ _ _ (hw _).1 (hne _) fun w => ?_).trans (hw _)
        exact ⟨rfl, rfl, rfl⟩

theorem State.landAll_stays (s : State) (ps : List (Nat × List Nat)) (hl : s.cur.lanes ≠ []) :
    (ps.foldl (fun s p => s.landEntry s.cur.key p.1 p.2) s).cur.Stays s.cur := by
  induction ps generalizing s with
  | nil => exact ⟨rfl, rfl, rfl⟩
  | cons p r ih =>
    have h := s.landEntry_stays s.cur.key p.1 p.2 rfl hl
    exact (ih _ (by rw [h.2.1]; exact hl)).trans h

theorem State.landBefore_stays (s : State) (main : Bool) (locs : List Nat) (hl : s.cur.lanes ≠ []) :
    (s.landBefore main locs).cur.Stays s.cur := by
  unfold State.landBefore
  split
  · exact ⟨rfl, rfl, rfl⟩
  · exact Wave.Stays.trans (b := (State.cur _)) ⟨rfl, rfl, rfl⟩ (s.landAll_stays _ hl)

/-- What comes before a read leaves the wave in its speculation (R227). -/
theorem State.beforeRead_stays (s : State) (main : Bool) (hl : s.cur.lanes ≠ []) : (s.beforeRead main false).cur.Stays s.cur := by
  unfold State.beforeRead
  simp only [Bool.and_false, Bool.false_and, Bool.false_eq_true, if_false]
  split
  · exact s.landBefore_stays _ _ hl
  · exact ⟨rfl, rfl, rfl⟩

/-! ### Counts of accesses, and signatures, outside a speculation (R129, R214, R288) -/

theorem State.cur_countUp (s : State) (g : Grid) (off n : Nat) : (s.countUp g off n).cur.SameButMon s.cur := by
  unfold State.countUp
  split
  · exact ⟨s.cur.mon, rfl⟩
  · exact State.cur_makeVisible s _

/-- Outside a speculation, the counts of an access change no more of the wave than its monitor. -/
theorem State.cur_countAccess (s : State) (as : List Access) (h : s.cur.spec = 0) :
    (s.countAccess as).cur.SameButMon s.cur := by
  unfold State.countAccess
  simp only [h, bne_self_eq_false, Bool.false_eq_true, if_false]
  exact (State.cur_countUp _ _ _ _).trans (State.cur_countUp _ _ _ _)

theorem State.sign_of_spec (s : State) (as : List Access) (h : s.cur.spec = 0) : s.sign as = s := by
  unfold State.sign
  split
  · rw [h]; rfl
  · rfl

theorem loadSrc_mon (w : Wave) (m : Monitor) (a : Access) (locs : List Nat) : loadSrc { w with mon := m } a locs = loadSrc w a locs := rfl

theorem Wave.watched_spec (w : Wave) (l : Nat) (rs : List Nat) : (w.watched l rs).spec = w.spec := by
  unfold Wave.watched
  split <;> rfl

theorem Wave.foldl_watched_spec (w : Wave) (ls rs : List Nat) : (ls.foldl (fun (w : Wave) l => w.watched l rs) w).spec = w.spec := by
  induction ls generalizing w with
  | nil => rfl
  | cons l t ih => rw [List.foldl_cons, ih, w.watched_spec]

theorem State.spec_addPend (s : State) (p : Pend) (ls : List Nat) (h : s.cur.spec = 0) : (s.addPend p ls).cur.spec = 0 := by
  have hf := (s.cur.foldl_watched_spec ls p.regs).trans h
  unfold State.addPend
  rw [if_neg (by rw [hf]; decide)]
  exact hf

theorem Wave.modLanes_nil (w : Wave) (f : Lane → Lane) : w.modLanes [] f = w := rfl

/-! ### Accesses that pass their checks (R99) -/

theorem taskWaits_of_spec (w : Wave) (as : List Access) (h : w.spec = 0) : taskWaits w as = false := by
  unfold taskWaits; rw [h]; rfl

/-- The outcome of the access of a lane by a load (R97, R205). -/
def State.loadOutcome (s : State) (space n l ea : Nat) : LaneAcc :=
  if s.cur.walker = true then walkerAccess s needLoad ea n
  else checkAccess s s.cur false needLoad space (s.cur.lane l).tid ea n

theorem laneAccesses_load (s : State) (space n : Nat) (act : List Nat) (ea : Nat → Nat) :
    laneAccesses s needLoad space n act ea = act.map (fun l => (l, s.loadOutcome space n l (ea l))) := by
  have hneed : (needLoad == needLoad) = true := by decide
  unfold laneAccesses State.loadOutcome
  simp only [hneed, Bool.and_true]

theorem laneAccesses_of_ok (s : State) (space n : Nat) (act : List Nat) (ea : Nat → Nat) (a : Nat → Access)
    (h : ∀ l ∈ act, s.loadOutcome space n l (ea l) = .ok (a l)) :
    laneAccesses s needLoad space n act ea = act.map (fun l => (l, .ok (a l))) := by
  rw [laneAccesses_load]
  exact List.map_congr_left fun l hl => by rw [h l hl]

theorem passedOf_of_ok (act : List Nat) (a : Nat → Access) :
    passedOf (act.map (fun l => (l, .ok (a l)))) = act.map (fun l => (l, a l)) := by
  unfold passedOf
  rw [List.map_map]
  rfl

theorem lanes_ne_nil_of_active (i : Instr) (s : State) (h : active i s ≠ []) : s.cur.lanes ≠ [] := by
  intro hnil
  have hidx : s.cur.idx = [] := by simp [Wave.idx, hnil]
  have hready : s.cur.ready = [] := by simp [Wave.ready, hidx]
  have hset : s.cur.issuingSet = [] := by simp [Wave.issuingSet, Wave.issuePc, hready, minNat]
  exact h (by simp [active, hset])

end Sys2Proof.Machine

namespace Sys2Proof.Machine

/-! ### Loads at issue (R31, R97 to R103) -/

/-- Where all accesses pass, the load becomes a pending producer of what it has read (R31). -/
theorem bodyLd_of_ok (f : FmtM) (iss act : List Nat) (s : State) (a : Nat → Access) (hs : s.cur.spec = 0) (hl : s.cur.lanes ≠ [])
    (ha : ∀ l ∈ act, s.loadOutcome f.space.toNat (accBytes f) l (s.cur.effAddr f l) = .ok (a l)) :
    let s1 := s.beforeRead (act.any (fun l => (a l).cls != 3)) false
    let read := act.map (fun l => (a l).atIssue)
    bodyLd f iss act s = .done ((s1.countAccess read).addPend
      { vecPend (act.flatMap (fun l => (partsOf (accBytes f)).map (fun p =>
          loadPart s1 s1.cur (a l) l (f.rd.toNat + p.1) p.2.1 p.2.2)))
          ((List.range (dataRegs f)).map (fun k => f.rd.toNat + k)) false with counted := read.any Access.zero } act) [] := by
  have hrs := laneAccesses_of_ok s _ _ act _ a ha
  have hfail : failed s act (s.cur.effAddr f) (act.map (fun l => (l, .ok (a l)))) false = none := by
    refine failed_none _ _ _ _ _ fun r hr => ?_
    obtain ⟨l, -, rfl⟩ := List.mem_map.mp hr
    exact ⟨a l, rfl⟩
  have hwait := fun as => taskWaits_of_spec s.cur as hs
  have hspec : (s.beforeRead (act.any (fun l => (a l).cls != 3)) false).cur.spec = 0 := (s.beforeRead_stays _ hl).2.2.trans hs
  generalize hs1 : s.beforeRead (act.any (fun l => (a l).cls != 3)) false = s1 at hspec
  have hcount := s1.cur_countAccess (act.map (fun l => (a l).atIssue)) hspec
  have hspec2 : (s1.countAccess (act.map (fun l => (a l).atIssue))).cur.spec = 0 := by
    obtain ⟨m, hm⟩ := hcount
    rw [hm]
    exact hspec
  unfold bodyLd
  simp only [hrs, hfail, passedOf_of_ok, hwait, List.any_map, List.flatMap_map, List.map_map, Function.comp_def, Bool.false_eq_true, if_false, hs1,
    State.sign_of_spec _ _ hspec2, State.spec_addPend _ _ _ hspec2, Nat.reduceBEq, Bool.false_and, List.filter_false, List.map_nil,
    Wave.modLanes_nil]

theorem bodySld_of_ok (f : FmtM) (iss act : List Nat) (s : State) (a : Access) (hs : s.cur.spec = 0) (hl : s.cur.lanes ≠ [])
    (ha : s.loadOutcome f.space.toNat (accBytes f) (s.cur.lowestTid act) (s.cur.effAddr f (s.cur.lowestTid act)) = .ok a) :
    let s1 := s.beforeRead (a.cls != 3) false
    bodySld f iss act s = .done ((s1.countAccess [a.atIssue]).addPend
      { scalarPend f.rd.toNat (BitVec.ofNat 64 (leNat (s1.loadBytes s1.cur a))) (loadSrc s1.cur a a.locs) with
        counted := a.atIssue.zero } []) [] := by
  have hrs := laneAccesses_of_ok s f.space.toNat (accBytes f) [s.cur.lowestTid act] (s.cur.effAddr f) (fun _ => a) (by simpa using ha)
  have hpass := passedOf_of_ok [s.cur.lowestTid act] (fun _ => a)
  have hfail : failed s act (s.cur.effAddr f) [(s.cur.lowestTid act, .ok a)] true = none :=
    failed_none _ _ _ _ _ fun r hr => by
      rw [List.mem_singleton] at hr
      exact ⟨a, by rw [hr]⟩
  have hwait := fun as => taskWaits_of_spec s.cur as hs
  have hspec : (s.beforeRead (a.cls != 3) false).cur.spec = 0 := (s.beforeRead_stays _ hl).2.2.trans hs
  generalize hs1 : s.beforeRead (a.cls != 3) false = s1 at hspec
  obtain ⟨m, hm⟩ := s1.cur_countAccess [a.atIssue] hspec
  have hspec2 : (s1.countAccess [a.atIssue]).cur.spec = 0 := by
    rw [hm]
    exact hspec
  have hsrc : loadSrc (s1.countAccess [a.atIssue]).cur a a.locs = loadSrc s1.cur a a.locs := by
    rw [hm, loadSrc_mon]
  simp only [List.map_cons, List.map_nil] at hrs hpass
  unfold bodySld
  simp only [hrs, hfail, hpass, List.map_cons, List.map_nil, hwait, List.any_cons, List.any_nil, Bool.or_false, Bool.false_eq_true, if_false,
    List.headD_cons, hs1, State.sign_of_spec _ _ hspec2, hspec2, hsrc, State.spec_addPend _ _ _ hspec2, Nat.reduceBEq, Bool.false_and]

/-- The generic address by the field of the space (R102). -/
theorem ldaVal_eq (space : BitVec 2) (ea : Nat) : ldaVal space.toNat ea =
    if space = 1 then (0xFFFFFF0000000000 + ea) % 2 ^ 64 else if space = 2 then (0xFFFFFE0000000000 + ea) % 2 ^ 64 else ea := by
  by_cases h1 : space = 1
  · subst h1; rfl
  · by_cases h2 : space = 2
    · subst h2; rfl
    · have n1 : space.toNat ≠ 1 := fun h => h1 (BitVec.eq_of_toNat_eq h)
      have n2 : space.toNat ≠ 2 := fun h => h2 (BitVec.eq_of_toNat_eq h)
      rw [if_neg h1, if_neg h2]
      unfold ldaVal
      split
      · exact absurd ‹_› n1
      · exact absurd ‹_› n2
      · rfl

/-- Settles O15: a load whose accesses all pass completes as its body says, by `bodyLd_of_ok` and `bodySld_of_ok`. -/
theorem loadResults : Obligations.LoadResults := by
  intro f s n check
  refine ⟨fun a hr ha => ?_, fun a hr ha => ?_, fun hr => ?_, fun hr => ?_⟩
  · refine completes_of_done _ _ _ (bodyLd f) hr rfl ?_
    obtain ⟨-, -, -, -, -, -, hspec, -, -, hact⟩ := hr
    exact bodyLd_of_ok f _ _ s a hspec (lanes_ne_nil_of_active _ s hact) ha
  · refine completes_of_done _ _ _ (bodySld f) hr rfl ?_
    obtain ⟨-, -, -, -, -, -, hspec, -, -, hact⟩ := hr
    exact bodySld_of_ok f _ _ s a hspec (lanes_ne_nil_of_active _ s hact) ha
  · refine completes_of_done _ _ _ _ hr rfl ?_
    exact congrArg (fun v => Res.done (s.withCur (s.cur.writeLanes false true f.rd.toNat (active (.lda f) s) v)) [])
      (funext fun l => ldaVal_eq f.space (s.cur.effAddr f l))
  · exact completes_of_done _ _ _ _ hr rfl rfl

end Sys2Proof.Machine

namespace Sys2Proof.Machine

/-! ### Operations that leave the list of grids as it is -/

/-- The grids and their numbering are as before, and time has not gone back. -/
def State.KeepsGrids (s t : State) : Prop := t.grids = s.grids ∧ t.nextGrid = s.nextGrid ∧ s.gtc ≤ t.gtc

theorem State.KeepsGrids.refl (s : State) : s.KeepsGrids s := ⟨rfl, rfl, le_rfl⟩

theorem State.KeepsGrids.trans {a b c : State} (h : a.KeepsGrids b) (g : b.KeepsGrids c) : a.KeepsGrids c := by
  obtain ⟨h1, h2, h3⟩ := h
  obtain ⟨g1, g2, g3⟩ := g
  exact ⟨g1.trans h1, g2.trans h2, h3.trans g3⟩

theorem State.keepsGrids_foldl {α : Type} (l : List α) (f : State → α → State) (hf : ∀ (s : State) x, s.KeepsGrids (f s x)) (s : State) :
    s.KeepsGrids (l.foldl f s) := by
  induction l generalizing s with
  | nil => exact .refl s
  | cons x r ih => exact (hf s x).trans (ih _)

theorem State.keepsGrids_foldlPair {α : Type} (l : List α) (f : State × Bool → α → State × Bool)
    (hf : ∀ (r : State × Bool) x, r.1.KeepsGrids (f r x).1) (r : State × Bool) : r.1.KeepsGrids (l.foldl f r).1 := by
  induction l generalizing r with
  | nil => exact .refl r.1
  | cons x t ih => exact (hf r x).trans (ih _)

/-! #### Waves and memory -/

theorem State.keepsGrids_setWave (s : State) (w : Wave) : s.KeepsGrids (s.setWave w) := by
  unfold State.setWave
  split <;> exact .refl s

theorem State.keepsGrids_onWave (s : State) (k : WKey) (f : Wave → Wave) : s.KeepsGrids (s.onWave k f) := by
  unfold State.onWave
  split
  · exact s.keepsGrids_setWave _
  · exact .refl s

theorem State.keepsGrids_focus (s : State) (k : WKey) : s.KeepsGrids (s.focus k) := by
  unfold State.focus
  split <;> exact .refl s

theorem State.keepsGrids_makeVisible (s : State) (bs : List (Nat × Byte)) : s.KeepsGrids (s.makeVisible bs) :=
  ⟨rfl, rfl, Nat.le_succ s.gtc⟩

theorem State.keepsGrids_agentWrite (s : State) (loc : Nat) (bs : List Byte) : s.KeepsGrids (s.agentWrite loc bs) :=
  s.keepsGrids_makeVisible _

theorem State.keepsGrids_countUp (s : State) (g : Grid) (off n : Nat) : s.KeepsGrids (s.countUp g off n) := by
  unfold State.countUp
  split
  · exact .refl s
  · exact s.keepsGrids_agentWrite _ _

theorem State.keepsGrids_landEntry (s : State) (key : WKey) (k : Nat) (locs : List Nat) : s.KeepsGrids (s.landEntry key k locs) := by
  unfold State.landEntry
  split
  · exact .refl s
  · split
    · exact .refl s
    · dsimp only
      split
      · exact .refl s
      · split <;> exact (s.keepsGrids_setWave _).trans ((State.keepsGrids_makeVisible _ _).trans (State.keepsGrids_onWave _ _ _))

theorem State.keepsGrids_landAll (s : State) (key : WKey) (must : Bool) : s.KeepsGrids (s.landAll key must) := by
  unfold State.landAll
  split
  · exact .refl s
  · refine (State.keepsGrids_foldl _ _ (fun u k => ?_) s).trans (State.keepsGrids_onWave _ _ _)
    split
    · dsimp only
      split
      · exact .refl u
      · exact u.keepsGrids_landEntry _ _ _
    · exact .refl u

/-! #### The fabric as a source (R307 to R321) -/

theorem State.keepsGrids_sendOne (s : State) (w : Wave) (k : Nat) (o : FabOut) (tag : Nat) : s.KeepsGrids (s.sendOne w k o tag) :=
  (State.keepsGrids_setWave (s.setCore w.core _) _)

theorem State.keepsGrids_pumpFrom (s : State) (key : WKey) (ks : List Nat) : s.KeepsGrids (s.pumpFrom key ks) := by
  induction ks generalizing s with
  | nil => exact .refl s
  | cons k r ih =>
    unfold State.pumpFrom
    split
    · exact .refl s
    · split
      · exact .refl s
      · split
        · exact ih s
        · split
          · refine .trans ?_ (ih _)
            exact ⟨rfl, rfl, le_rfl⟩
          · split
            · exact (s.keepsGrids_sendOne _ _ _ _).trans (ih _)
            · exact ih s

theorem State.keepsGrids_fabPump (s : State) (key : WKey) : s.KeepsGrids (s.fabPump key) := by
  unfold State.fabPump
  split
  · split
    · exact .refl s
    · exact s.keepsGrids_pumpFrom _ _
  · exact .refl s

/-- The state that an effect of `ffence` leaves. -/
def FenceRes.state : FenceRes → State
  | .ready s => s
  | .waiting s => s
  | .mismatch s .. => s

theorem State.keepsGrids_fenceStep (s : State) (only : Option Nat) : s.KeepsGrids (s.fenceStep only).state := by
  unfold State.fenceStep
  dsimp only
  split
  · exact .refl s
  · split
    · split
      · exact ⟨rfl, rfl, le_rfl⟩
      · exact .refl s
      · split
        · refine .trans ?_ (State.keepsGrids_fabPump _ _)
          exact ⟨rfl, rfl, le_rfl⟩
        · exact ⟨rfl, rfl, le_rfl⟩
    · refine .trans ?_ (State.keepsGrids_fabPump _ _)
      exact ⟨rfl, rfl, le_rfl⟩

theorem State.keepsGrids_fenceWave (s : State) (key : WKey) : s.KeepsGrids (s.fenceWave key).1 := by
  have h := (s.focus key).keepsGrids_fenceStep none
  have hf := (s.keepsGrids_focus key).trans h
  unfold State.fenceWave
  dsimp only
  split <;> rename_i heq <;> rw [heq] at hf <;> exact hf.trans (State.keepsGrids_focus _ _)

/-! #### Taking a team (R293) -/

theorem State.keepsGrids_teamQuiet (s : State) (grid team : Nat) : s.KeepsGrids (s.teamQuiet grid team).1 := by
  unfold State.teamQuiet
  dsimp only
  have hland := State.keepsGrids_foldl ((s.teamWaves grid team).map (fun w => w.key))
    (fun s k => (s.onWave k (fun w => s.returnAll w)).landAll k false)
    (fun u k => (u.keepsGrids_onWave _ _).trans (State.keepsGrids_landAll _ _ _)) s
  split
  · exact hland
  · exact hland.trans (State.keepsGrids_foldlPair _
      (fun (r : State × Bool) k => ((r.1.fenceWave k).1, r.2 && (r.1.fenceWave k).2)) (fun r k => r.1.keepsGrids_fenceWave k) (_, true))

theorem State.keepsGrids_lateRetire (s : State) (key : WKey) (ls : List Nat) : s.KeepsGrids (s.lateRetire key ls) := by
  unfold State.lateRetire
  split
  · exact .refl s
  · exact s.keepsGrids_setWave _

theorem State.keepsGrids_wakeMwait (s : State) (key : WKey) (ls : List (Nat × Nat × Nat)) (v : Nat) :
    s.KeepsGrids (s.wakeMwait key ls v) := by
  unfold State.wakeMwait
  split
  · exact .refl s
  · exact (s.keepsGrids_onWave _ _).trans (State.keepsGrids_lateRetire _ _ _)

theorem State.keepsGrids_settleWave (s : State) (key : WKey) : s.KeepsGrids (s.settleWave key) := by
  unfold State.settleWave
  split
  · exact .refl s
  · have hsleep : ∀ v u : Wave, s.KeepsGrids (if v.asleep.isEmpty then (s.setWave v).setWave u
        else ((s.setWave v).wakeMwait key v.asleep 4).onWave key (fun w => { w with mon := Monitor.off })) := fun v u => by
      split
      · exact (s.keepsGrids_setWave _).trans (State.keepsGrids_setWave _ _)
      · exact (s.keepsGrids_setWave _).trans ((State.keepsGrids_wakeMwait _ _ _ _).trans (State.keepsGrids_onWave _ _ _))
    exact hsleep _ _

theorem State.keepsGrids_leaveQueues (s : State) (key : WKey) : s.KeepsGrids (s.leaveQueues key) := by
  unfold State.leaveQueues State.leaveStage
  dsimp only
  split <;> exact ⟨rfl, rfl, le_rfl⟩

theorem State.keepsGrids_dropWaves (s : State) (p : Wave → Bool) : s.KeepsGrids (s.dropWaves p) := by
  unfold State.dropWaves
  split <;> exact .refl s

theorem State.keepsGrids_vacate (s : State) (grid team : Nat) : s.KeepsGrids (s.vacate grid team) := by
  have h := State.keepsGrids_foldl ((s.teamWaves grid team).map (fun w => w.key)) State.leaveQueues
    State.keepsGrids_leaveQueues s
  exact h.trans (State.keepsGrids_dropWaves _ _)

theorem State.keepsGrids_takeTeam (s : State) (grid team : Nat) : s.KeepsGrids (s.takeTeam grid team).1 := by
  have hq := s.keepsGrids_teamQuiet grid team
  unfold State.takeTeam
  generalize s.teamQuiet grid team = r at hq
  obtain ⟨u, ok⟩ := r
  dsimp only at hq ⊢
  split
  · exact hq
  · refine hq.trans ?_
    have hs := State.keepsGrids_foldl ((u.teamWaves grid team).map (fun w => w.key)) State.settleWave State.keepsGrids_settleWave u
    exact hs.trans (State.keepsGrids_vacate (State.freeNext _) grid team)

theorem State.keepsGrids_preempt (s : State) (t : Team) : s.KeepsGrids (s.preempt t).1 := by
  have h := s.keepsGrids_takeTeam t.grid t.idx
  unfold State.preempt
  generalize s.takeTeam t.grid t.idx = r at h
  obtain ⟨u, ok⟩ := r
  dsimp only at h ⊢
  split
  · exact h.trans (State.keepsGrids_countUp _ _ _ _)
  · exact h

/-! #### Packets (R347 to R352) -/

theorem State.keepsGrids_startServed (s : State) (q i : Nat) : s.KeepsGrids (s.startServed q i) := by
  have h : s.KeepsGrids (s.startPkt q i) := by
    unfold State.startPkt State.putTokens
    dsimp only
    split
    · exact .refl s
    · refine .trans ?_ (State.keepsGrids_agentWrite _ _ _)
      exact ⟨rfl, rfl, le_rfl⟩
  unfold State.startServed
  split <;> exact h

theorem State.keepsGrids_foundValid (s : State) (q : Nat) : s.KeepsGrids (s.foundValid q) := by
  unfold State.foundValid State.putTokens
  split
  · exact .refl s
  · refine .trans ?_ (State.keepsGrids_agentWrite _ _ _)
    exact ⟨rfl, rfl, le_rfl⟩

theorem State.keepsGrids_setTokens (s : State) (q target mask : Nat) : s.KeepsGrids (s.setTokens q target mask) := by
  unfold State.setTokens State.putTokens
  dsimp only
  split
  · exact .refl s
  · split
    · exact s.keepsGrids_agentWrite _ _
    · exact (s.keepsGrids_foundValid _).trans (State.keepsGrids_agentWrite _ _ _)

theorem State.keepsGrids_advanceDone (s : State) (fuel q : Nat) : s.KeepsGrids (s.advanceDone fuel q) := by
  induction fuel generalizing s with
  | zero => exact .refl s
  | succ n ih =>
    unfold State.advanceDone
    dsimp only
    split
    · obtain ⟨hg, hn, ht⟩ := s.keepsGrids_agentWrite (s.qdAddr q + 0x14) (leBytes 4 ((s.qdesc q).done + 1))
      refine .trans ?_ (ih _)
      exact ⟨hg, hn, ht⟩
    · exact .refl s

theorem State.keepsGrids_windowMoves (s : State) (q : Nat) : s.KeepsGrids (s.windowMoves q) := by
  unfold State.windowMoves
  split <;> exact ⟨rfl, rfl, le_rfl⟩

theorem State.keepsGrids_passDone (s : State) (st : List (Nat × Nat × Bool)) (n q : Nat) :
    s.KeepsGrids (({ s with started := st }.advanceDone n q).windowMoves q) := by
  refine .trans ?_ ((State.keepsGrids_advanceDone _ _ _).trans (State.keepsGrids_windowMoves _ _))
  exact ⟨rfl, rfl, le_rfl⟩

/-- What the completion of a packet does last: `done` and the window move on (R347). -/
def State.passPkt (s : State) (q i : Nat) : State :=
  ({ s with started := s.started.map (fun (p : Nat × Nat × Bool) => if p.1 == q && p.2.1 == i then
    (q, i, true) else p) }.advanceDone 33 q).windowMoves q

theorem State.completePkt_eq (s : State) (q i code : Nat) : s.completePkt q i code =
    ((s.agentWrite ((s.qdesc q).pktAddr i + 4) (leBytes 4 (2 ^ 31 + code))).setTokens q q (s.pkt q i 0x10 8)).passPkt q i := by
  unfold State.completePkt State.completeTo State.passPkt
  simp only [if_true]

theorem State.keepsGrids_completePkt (s : State) (q i code : Nat) : s.KeepsGrids (s.completePkt q i code) := by
  rw [s.completePkt_eq]
  exact (s.keepsGrids_agentWrite _ _).trans <| (State.keepsGrids_setTokens _ _ _ _).trans (State.keepsGrids_passDone _ _ _ _)

end Sys2Proof.Machine

namespace Sys2Proof.Machine

/-! ### The completion of a grid (R357) -/

/-- The state once a grid that is over has been taken out, before its packets complete. -/
def State.dropGrid (s : State) (g : Grid) : State :=
  { s with gtc := max s.gtc (g.wct + Config.gtcMargin + 1), grids := s.grids.filter (fun x => x.id != g.id),
           stale := s.stale.filter (fun x => x.1 != g.id) }

theorem State.keepsGrids_completeAll {α : Type} (s : State) (ps : List α) (q i : α → Nat) (code : Nat) :
    s.KeepsGrids (ps.foldl (fun (s : State) p => s.completePkt (q p) (i p) code) s) :=
  State.keepsGrids_foldl ps _ (fun u _ => u.keepsGrids_completePkt _ _ _) s

theorem execGridCompletion_keeps (s : State) (g : Grid) (hfind : s.grids.find? (fun x => x.id == g.id) = some g)
    (hover : s.gridOver g = true) (hmay : s.mayComplete g = true) :
    ∃ t, exec (.gridCompletion g.id) s = .next t ∧ (s.dropGrid g).KeepsGrids t := by
  change ∃ t, execGridCompletion g.id s = .next t ∧ _
  unfold execGridCompletion
  simp only [hfind, hover, hmay, Bool.not_true, Bool.or_self, Bool.false_eq_true, if_false]
  refine ⟨_, rfl, ?_⟩
  exact ((s.dropGrid g).keepsGrids_agentWrite _ _).trans <| (State.keepsGrids_completePkt _ _ _ _).trans <|
    (State.keepsGrids_completeAll _ _ _ _ _).trans (State.keepsGrids_completeAll _ _ _ _ _)

theorem gridCompletion_result (s : State) (g : Grid) (hfind : s.grids.find? (fun x => x.id == g.id) = some g)
    (hover : s.gridOver g = true) (hmay : s.mayComplete g = true) :
    ∃ t : State, exec (.gridCompletion g.id) s = .next t ∧ (∀ x ∈ t.grids, x.id ≠ g.id) ∧ g.wct + Config.gtcMargin < t.gtc := by
  obtain ⟨t, ht, hgrids, -, hgtc⟩ := execGridCompletion_keeps s g hfind hover hmay
  refine ⟨t, ht, fun x hx => ?_, ?_⟩
  · rw [hgrids] at hx
    simpa using (List.mem_filter.mp hx).2
  · exact lt_of_lt_of_le (Nat.lt_succ_self _) ((le_max_right _ _).trans hgtc)

/-! ### Launch (R355, R370) -/

/-- A grid of the list may be set anew; the rest is as it was. -/
theorem State.vacateFor_grids (s : State) (g : Grid) (hfind : s.grids.find? (fun x => x.id == g.id) = some g) :
    ∃ u, s.KeepsGrids u ∧ (s.vacateFor g = u ∨ s.vacateFor g = u.setGrid { g with take := 0 }) := by
  unfold State.vacateFor
  split
  · exact ⟨s, .refl s, .inl rfl⟩
  · split
    · exact ⟨s, .refl s, .inl rfl⟩
    · rename_i cs _
      have h := State.keepsGrids_foldlPair (cs.flatMap s.teamsOn).eraseDups
        (fun (r : State × Bool) t => ((r.1.preempt t).1, r.2 && (r.1.preempt t).2)) (fun r t => r.1.keepsGrids_preempt t) (s, true)
      dsimp only at h ⊢
      generalize (cs.flatMap s.teamsOn).eraseDups.foldl
        (fun (r : State × Bool) t => ((r.1.preempt t).1, r.2 && (r.1.preempt t).2)) (s, true) = r at h ⊢
      obtain ⟨u, ok⟩ := r
      dsimp only at h ⊢
      have hat : u.gridAt g.id = g := by
        unfold State.gridAt
        rw [h.1, hfind]
        rfl
      cases ok
      · exact ⟨u, h, .inl rfl⟩
      · exact ⟨u, h, .inr (by rw [hat]; rfl)⟩

theorem State.tryTake_grids (s : State) (g : Grid) (hfind : s.grids.find? (fun x => x.id == g.id) = some g) :
    ∃ u, s.KeepsGrids u ∧ (s.tryTake g = u ∨ s.tryTake g = u.setGrid { g with take := 0 }) := by
  unfold State.tryTake
  split
  · exact ⟨s, .refl s, .inl rfl⟩
  · split
    · exact s.vacateFor_grids g hfind
    · exact ⟨s, .refl s, .inr rfl⟩

/-- A launch that tries to take cores stays in the list of grids, with no more changed of it than its request for cores. -/
theorem State.tryTake_mem (s : State) (g : Grid) (hfind : s.grids.find? (fun x => x.id == g.id) = some g) :
    (s.tryTake g).nextGrid = s.nextGrid ∧ ∃ n, { g with take := n } ∈ (s.tryTake g).grids := by
  have hmem := List.mem_of_find?_eq_some hfind
  obtain ⟨u, ⟨hg, hn, -⟩, h | h⟩ := s.tryTake_grids g hfind
  · exact ⟨by rw [h, hn], g.take, by rw [h, hg]; exact hmem⟩
  · refine ⟨by rw [h]; exact hn, 0, ?_⟩
    rw [h]
    change _ ∈ u.grids.map _
    rw [hg]
    exact List.mem_map.mpr ⟨g, hmem, if_pos rfl⟩

/-- The grid that a launch makes (R355). -/
def State.launchGrid (s : State) (q i : Nat) : Grid :=
  { Grid.zero with id := s.nextGrid, queue := q, pkt := i, p := s.launchPkt q i, ctx := s.readCtx (s.pkt q i 0x40 8), det := (s.qdesc q).det,
                   trapen := trapenOf (s.readNat (s.pkt q i 0x40 8 + 0x2C) 4), take := (s.launchPkt q i).take }

def State.addLaunch (s : State) (q i : Nat) : State :=
  { s with grids := s.grids ++ [s.launchGrid q i], nextGrid := s.nextGrid + 1 }

theorem execLaunch_eq (s : State) (q i : Nat) (hs : s.startable q i = true) (hk : s.pktKind q i = 1) :
    exec (.launch q i) s = .next (
      match (s.startServed q i).launchCheck q i with
      | some code => (s.startServed q i).completePkt q i code
      | none => (((s.startServed q i).addLaunch q i).clearStatus ((s.startServed q i).launchGrid q i).ctx.status).tryTake
          ((s.startServed q i).launchGrid q i)) := by
  change execLaunch q i s = _
  unfold execLaunch
  rw [if_pos (by simp [hs, hk])]
  rfl

theorem State.find_launchGrid (s : State) (q i loc : Nat) (hnew : ∀ x ∈ s.grids, x.id ≠ s.nextGrid) :
    ((s.addLaunch q i).clearStatus loc).grids.find? (fun x => x.id == (s.launchGrid q i).id) = some (s.launchGrid q i) := by
  change (s.grids ++ [s.launchGrid q i]).find? _ = _
  have hnone : s.grids.find? (fun x => x.id == (s.launchGrid q i).id) = none := by
    rw [List.find?_eq_none]
    intro x hx
    simpa [State.launchGrid] using hnew x hx
  rw [List.find?_append, hnone]
  simp

theorem launch_result (s : State) (q i : Nat) (hs : s.startable q i = true) (hk : s.pktKind q i = 1) :
    let s1 := s.startServed q i
    (∀ code, s1.launchCheck q i = some code → exec (.launch q i) s = .next (s1.completePkt q i code)) ∧
    (s1.launchCheck q i = none → (∀ x ∈ s.grids, x.id ≠ s.nextGrid) → ∃ t : State, exec (.launch q i) s = .next t ∧
      t.nextGrid = s.nextGrid + 1 ∧ ∃ g ∈ t.grids, g.id = s.nextGrid ∧ g.queue = q ∧ g.pkt = i ∧ g.p = s1.launchPkt q i ∧
        g.det = (s1.qdesc q).det ∧ g.ctx = s1.readCtx (s1.pkt q i 0x40 8) ∧ g.nextTeam = 0 ∧ g.ended = none) := by
  have hexec := execLaunch_eq s q i hs hk
  obtain ⟨hgrids, hnext, -⟩ := s.keepsGrids_startServed q i
  generalize s.startServed q i = s1 at hexec hgrids hnext
  refine ⟨fun code hcode => by rw [hexec, hcode], fun hnone hnew => ?_⟩
  rw [hnone] at hexec
  obtain ⟨hn, n, hmem⟩ := State.tryTake_mem _ _
    (s1.find_launchGrid q i (s1.launchGrid q i).ctx.status (by rw [hgrids, hnext]; exact hnew))
  exact ⟨_, hexec, hn.trans (congrArg (· + 1) hnext), _, hmem, hnext, rfl, rfl, rfl, rfl, rfl, rfl, rfl⟩

/-! ### Placement of a team (R15, R356) -/

theorem State.mem_addWaves (s : State) (ws : List Wave) (w : Wave) (h : w ∈ ws) : w ∈ (s.addWaves ws).waves := by
  have hmem : w ∈ s.waves.filter (fun w => !w.lanes.isEmpty) ++ ws := List.mem_append_right _ h
  unfold State.addWaves
  split
  · rename_i hnil
    rw [hnil] at hmem
    cases hmem
  · rename_i hcons
    rwa [hcons] at hmem

theorem State.teams_addWaves (s : State) (ws : List Wave) : (s.addWaves ws).teams = s.teams := by
  unfold State.addWaves
  split <;> rfl

/-- Cleared tiles leave the teams as they are. -/
theorem State.teams_putTiles (s : State) (core base : Nat) (ks : List Nat) :
    (ks.foldl (fun (s : State) k => s.putTile core (base + k) Tile.zero) s).teams = s.teams := by
  induction ks generalizing s with
  | nil => rfl
  | cons k r ih => exact ih _

/-- Lanes pass into a block: each stands at its first word, and the rest of the wave is as it was, but for its override (R16). -/
theorem State.passInto_eq (s : State) (w : Wave) (ls : List Nat) (h : Nat) : ∃ e b o, s.passInto w ls h =
    { w.modLanes ls (fun x => { x with vpc := h + 1, blk := h, blkEnd := e, bad := b }) with ovr := o } := by
  unfold State.passInto
  split
  · exact ⟨_, _, _, rfl⟩
  · exact ⟨_, _, _, rfl⟩

/-- A lane of a wave that starts, before it enters its first block (R15). -/
def newLane (width k l : Nat) : Lane :=
  { Lane.zero with tid := k * width + l, st := .run, v := mputD 0 [] 0 (BitVec.ofNat 32 (k * width + l)) }

/-- A wave that starts, before it enters its first block (R15). -/
structure Wave.Starts (w : Wave) (g : Grid) (team k : Nat) : Prop where
  key : w.key = ⟨g.id, team, k⟩
  width : w.width = g.p.width
  alloc : w.alloc = g.p.vregs
  tm : w.tm = false
  lanes : w.lanes = (List.range g.p.width).map (newLane g.p.width k)
  args : w.getS 0 = BitVec.ofNat 64 g.p.args
  team : w.getS 1 = BitVec.ofNat 64 team
  total : w.getS 2 = BitVec.ofNat 64 g.total
  wave : w.getS 3 = BitVec.ofNat 64 k

theorem State.newWave_eq (s : State) (g : Grid) (team k : Nat) (at_ : Nat × Nat) :
    ∃ w : Wave, w.Starts g team k ∧ s.newWave g team k at_ = s.passInto w w.idx 0 := by
  refine ⟨_, { key := rfl, width := rfl, alloc := rfl, tm := rfl, lanes := rfl, args := ?_, team := ?_, total := ?_, wave := ?_ }, rfl⟩
  all_goals simp [Wave.getS_setS]

/-- A wave once it has started (R15). -/
def Wave.Started (w : Wave) (g : Grid) (team k : Nat) : Prop :=
  w.key = ⟨g.id, team, k⟩ ∧ w.width = g.p.width ∧ w.alloc = g.p.vregs ∧
  w.lanes.length = g.p.width ∧ w.tm = false ∧ w.getS 0 = BitVec.ofNat 64 g.p.args ∧
  w.getS 1 = BitVec.ofNat 64 team ∧ w.getS 2 = BitVec.ofNat 64 g.total ∧ w.getS 3 = BitVec.ofNat 64 k ∧
  ∀ l < g.p.width, (w.lane l).tid = k * g.p.width + l ∧ (w.lane l).getV 0 = BitVec.ofNat 32 (k * g.p.width + l) ∧
    (w.lane l).vpc = 1 ∧ (w.lane l).st = .run ∧ (w.lane l).p = 0 ∧ (w.lane l).flags = 0

theorem Wave.Starts.started {w : Wave} {g : Grid} {team k : Nat} (h : w.Starts g team k) (s : State) :
    (s.passInto w w.idx 0).Started g team k := by
  have hlen : w.lanes.length = g.p.width := by rw [h.lanes]; simp
  have hlane : ∀ l < g.p.width, w.lane l = newLane g.p.width k l := fun l hl => by
    unfold Wave.lane
    rw [h.lanes]
    simp [List.getD, hl]
  obtain ⟨e, b, o, hinto⟩ := s.passInto_eq w w.idx 0
  obtain ⟨ls, ov, halike⟩ := w.alike_modLanes w.idx (fun x => { x with vpc := 0 + 1, blk := 0, blkEnd := e, bad := b })
  have hpass : ∀ l < g.p.width, (s.passInto w w.idx 0).lane l =
      { newLane g.p.width k l with vpc := 1, blk := 0, blkEnd := e, bad := b } := fun l hl => by
    have hmem : l ∈ w.idx := List.mem_range.mpr (hlen ▸ hl)
    rw [hinto, ← hlane l hl]
    exact w.lane_modLanes_mem w.idx _ l List.nodup_range hmem (hlen ▸ hl)
  have hkeep : (s.passInto w w.idx 0).lanes.length = g.p.width := by
    rw [hinto, ← hlen]
    exact w.length_modLanes _ _
  generalize s.passInto w w.idx 0 = v at *
  have hrest : v = { w with lanes := v.lanes, ovr := v.ovr } := by rw [hinto, halike]
  refine ⟨?_, ?_, ?_, hkeep, ?_, ?_, ?_, ?_, ?_, fun l hl => ?_⟩
  · rw [hrest]; exact h.key
  · rw [hrest]; exact h.width
  · rw [hrest]; exact h.alloc
  · rw [hrest]; exact h.tm
  · rw [hrest]; exact h.args
  · rw [hrest]; exact h.team
  · rw [hrest]; exact h.total
  · rw [hrest]; exact h.wave
  · rw [hpass l hl]
    exact ⟨rfl, mgetD_mputD 0 [] 0 0 _, rfl, rfl, rfl, rfl⟩

theorem placeTeam_result (s : State) (g : Grid) (core : Nat) (r : Room) :
    newTeam g core r ∈ (s.placeTeam g core r).teams ∧
    ∀ k < g.p.waves, ∃ w ∈ (s.placeTeam g core r).waves, w.Started g g.nextTeam k := by
  unfold State.placeTeam
  refine ⟨?_, fun k hk => ?_⟩
  · rw [State.teams_addWaves, State.teams_putTiles]
    exact List.mem_append_right _ (List.mem_singleton.mpr rfl)
  · refine ⟨_, State.mem_addWaves _ _ _ (List.mem_map.mpr ⟨k, List.mem_range.mpr hk, rfl⟩), ?_⟩
    obtain ⟨w, hw, hnew⟩ := State.newWave_eq _ g g.nextTeam k (r.at_.getD k (core, 64))
    rw [hnew]
    exact hw.started _

theorem execTeamPlacement_eq (s : State) (core : Nat) (g : Grid) (r : Room) (hp : s.power = .p0) (hn : s.placeNext core = some g)
    (hr : s.newRoom g core = some r) :
    exec (.teamPlacement core) s = .next ((s.placeTeam g core r).serve (core / Config.coresPerDie) g.queue) := by
  change execTeamPlacement core s = _
  unfold execTeamPlacement
  simp only [hp, hn, hr, bne_self_eq_false, Bool.false_eq_true, if_false]

/-! ### Resumption and migration of a saved team (R294, R295) -/

theorem putTeam_waves (s : State) (t : Team) (core : Nat) (r : Room) (w : Wave) (hw : w ∈ t.savedWaves) :
    ∃ x ∈ (s.putTeam t core r).waves, x.key = w.key ∧ x.lanes = w.lanes ∧ x.s = w.s ∧ x.rejoin = w.rejoin :=
  ⟨_, State.mem_addWaves _ _ _ (List.mem_map.mpr ⟨w, hw, rfl⟩), rfl, rfl, rfl, rfl⟩

theorem execTeamResume_eq (s : State) (t : Team) (core : Nat) (r : Room)
    (hfind : s.teams.find? (fun x => x.grid == t.grid && x.idx == t.idx) = some t) (hp : s.power = .p0)
    (hs : s.served (s.gridAt t.grid).queue core = true) (hr : s.savedRoom t core = some r)
    (hgo : s.mayGo (s.gridAt t.grid, some t) core = true) :
    exec (.teamResume t.grid t.idx core) s =
      .next ((s.putTeam t core r).serve (core / Config.coresPerDie) (s.gridAt t.grid).queue) := by
  change execTeamResume t.grid t.idx core s = _
  unfold execTeamResume
  simp only [hfind, hp, hs, hr, hgo, beq_self_eq_true, Bool.and_self, if_true]

/-- Where the core is cool and has room for the team, once taken, `migrate` moves it and gives 0 (R295). -/
theorem bodyMigrate_of_room (f : FmtMig) (iss act : List Nat) (s s1 : State) (t : Team) (r0 r : Room) (hp : s.cur.privileged = true)
    (hl : s.migLegal f = true) :
    let a := (s.cur.getS f.sa.toNat).toNat
    let core := a % 2 ^ 2 * 128 + a / 2 ^ 2 % 2 ^ 7
    s.migTeam f = some t → s.migRoom t core = .ok r0 → s.cool (s.gridAt t.grid) core = true →
    (if t.saved then (s, true) else s.takeTeam t.grid t.idx) = (s1, true) →
    let t1 := s1.teamAt t.grid t.idx
    s1.roomOn (s1.gridAt t1.grid).p core t1.allots t1.savedEngine.length = some r →
    let s2 := (s1.putTeam t1 core r).focus s.cur.key
    bodyMigrate f iss act s = .done ((s2.countUp (s2.gridAt t1.grid) 0x24 1).putS f.sd.toNat 0) [] := by
  intro a core ht hr0 hc htake t1 hr s2
  have hcore : nbits a 0 2 * 128 + nbits a 2 7 = core := by simp [nbits, core]
  unfold bodyMigrate
  simp only [hp, hl, ht, Bool.not_true, Bool.false_eq_true, if_false]
  rw [hcore, hr0]
  dsimp only
  rw [hc, htake]
  simp only [Bool.not_true, Bool.false_eq_true, if_false]
  rw [hr]
  rfl

/-- Settles O49, clause by clause: the grids that launches and completions leave are told by `State.KeepsGrids`. -/
theorem launchResults : Obligations.LaunchResults := by
  refine ⟨launch_result, fun s core g r hp hn hr => ?_, fun s t core r hfind hp hs hr hgo => ?_, fun f s s1 t r0 r hready hp hl => ?_,
    gridCompletion_result⟩
  · obtain ⟨hteam, hwaves⟩ := placeTeam_result s g core r
    exact ⟨_, execTeamPlacement_eq s core g r hp hn hr, ⟨_, hteam, rfl, rfl, rfl, rfl, rfl⟩, hwaves⟩
  · exact ⟨execTeamResume_eq s t core r hfind hp hs hr hgo, putTeam_waves s t core r⟩
  · intro a core ht hr0 hc htake t1 hr s2
    exact completes_of_done _ _ _ (bodyMigrate f) hready rfl (bodyMigrate_of_room f _ _ s s1 t r0 r hp hl ht hr0 hc htake hr)

end Sys2Proof.Machine

namespace Sys2Proof

/-! ### Words put together from fields (R46, R56 to R63) -/

/-- An operand of a word, in the field from bit `lo` up. -/
inductive FieldAt where
  | reg {n : Nat} (lo : Nat) (x : BitVec n)
  | flag (lo : Nat) (b : Bool)
  | type (lo : Nat) (t : Ty)

/-- The lowest bit of a field. -/
def FieldAt.lo : FieldAt → Nat
  | .reg lo _ | .flag lo _ | .type lo _ => lo

/-- The number of bits of a field. -/
def FieldAt.width : FieldAt → Nat
  | .reg (n := n) _ _ => n
  | .flag _ _ => 1
  | .type _ _ => 3

/-- What the encoders put into a field. -/
def FieldAt.val : FieldAt → Nat
  | .reg _ x => x.toNat
  | .flag _ b => b.toNat
  | .type _ t => t.code

/-- The decoders read the operand back from the word. -/
def FieldAt.ReadFrom (w : Word64) : FieldAt → Prop
  | .reg (n := n) lo x => bits w lo n = x
  | .flag lo b => bit w lo = b
  | .type lo t => Ty.ofCode (bits w lo 3) = t

/-- The decoders read every operand of the list back. -/
def AllReadFrom (w : Word64) : List FieldAt → Prop
  | [] => True
  | [x] => x.ReadFrom w
  | x :: xs => x.ReadFrom w ∧ AllReadFrom w xs

/-- Fields added to a number one after the other, as the encoders add them. -/
def addFields (hi : Nat) : List FieldAt → Nat
  | [] => hi
  | x :: xs => addFields (hi + x.val * 2 ^ x.lo) xs

/-- The fields lie below bit `top`, each below the one before it. -/
def laidBelow (top : Nat) : List FieldAt → Bool
  | [] => true
  | x :: xs => decide (x.lo + x.width ≤ top) && laidBelow x.lo xs

theorem FieldAt.val_lt (x : FieldAt) : x.val < 2 ^ x.width := by
  cases x with
  | reg lo x => exact x.isLt
  | flag lo b => exact b.toNat_lt
  | type lo t => exact t.code_lt

/-- A word whose field holds the value gives the operand back. -/
theorem FieldAt.readFrom_of_field (x : FieldAt) (w : Word64) (h : w.toNat / 2 ^ x.lo % 2 ^ x.width = x.val) : x.ReadFrom w := by
  cases x with
  | reg lo x => exact BitVec.eq_of_toNat_eq ((BitVec.toNat_ofNat _ _).trans h)
  | flag lo b =>
    have h : w.toNat / 2 ^ lo % 2 = b.toNat := h
    show (w.toNat / 2 ^ lo % 2 == 1) = b
    rw [h]
    cases b <;> rfl
  | type lo t =>
    have hc : bits w lo 3 = BitVec.ofNat 3 t.code :=
      BitVec.eq_of_toNat_eq (((BitVec.toNat_ofNat _ _).trans h).trans (Nat.mod_eq_of_lt t.code_lt).symm)
    show Ty.ofCode (bits w lo 3) = t
    rw [hc, Ty.ofCode_code]

/-- Fields laid below bit `top` leave what stands from there up as it is. -/
theorem addFields_div (k : Nat) (fs : List FieldAt) (top : Nat) (h : laidBelow top fs = true) :
    addFields (k * 2 ^ top) fs / 2 ^ top = k := by
  induction fs generalizing k top with
  | nil => exact Nat.mul_div_cancel k (Nat.two_pow_pos top)
  | cons x xs ih =>
    simp only [laidBelow, Bool.and_eq_true, decide_eq_true_eq] at h
    obtain ⟨htop, hbelow⟩ := h
    obtain ⟨d, rfl⟩ := Nat.exists_eq_add_of_le htop
    have hsplit : k * 2 ^ (x.lo + x.width + d) + x.val * 2 ^ x.lo = (k * 2 ^ (x.width + d) + x.val) * 2 ^ x.lo := by ring
    have hval : x.val < 2 ^ (x.width + d) := x.val_lt.trans_le (Nat.pow_le_pow_right (by decide) (by omega))
    rw [addFields, hsplit, Nat.add_assoc, Nat.pow_add 2 x.lo, ← Nat.div_div_eq_div_mul, ih _ _ hbelow, Nat.mul_comm,
      Nat.mul_add_div (Nat.two_pow_pos _), Nat.div_eq_of_lt hval, Nat.add_zero]

/-- Each of them holds its value. -/
theorem addFields_field (k : Nat) (fs : List FieldAt) (top : Nat) (h : laidBelow top fs = true) :
    ∀ x ∈ fs, addFields (k * 2 ^ top) fs / 2 ^ x.lo % 2 ^ x.width = x.val := by
  induction fs generalizing k top with
  | nil => simp
  | cons y ys ih =>
    simp only [laidBelow, Bool.and_eq_true, decide_eq_true_eq] at h
    obtain ⟨htop, hbelow⟩ := h
    obtain ⟨d, rfl⟩ := Nat.exists_eq_add_of_le htop
    have hsplit : k * 2 ^ (y.lo + y.width + d) + y.val * 2 ^ y.lo = (k * 2 ^ d * 2 ^ y.width + y.val) * 2 ^ y.lo := by ring
    intro x hx
    rw [addFields, hsplit]
    rcases List.mem_cons.mp hx with rfl | hx
    · rw [addFields_div _ _ _ hbelow, Nat.mul_comm, Nat.mul_add_mod, Nat.mod_eq_of_lt x.val_lt]
    · exact ih _ _ hbelow x hx

theorem allReadFrom_of_forall (w : Word64) : ∀ fs : List FieldAt, (∀ x ∈ fs, x.ReadFrom w) → AllReadFrom w fs
  | [], _ => trivial
  | [x], h => h x (List.mem_singleton.mpr rfl)
  | x :: y :: ys, h => ⟨h x List.mem_cons_self, allReadFrom_of_forall w (y :: ys) (fun z hz => h z (List.mem_cons_of_mem x hz))⟩

/-- The word of a major opcode with the guard and the operands below it. -/
def wordOf (m : Nat) (fs : List FieldAt) : Word64 := BitVec.ofNat 64 (addFields (m * 2 ^ 56) fs)

section
variable {m : Nat} {fs : List FieldAt} (hm : m < 256) (hl : laidBelow 56 fs = true)
include hm hl

theorem wordOf_toNat : (wordOf m fs).toNat = addFields (m * 2 ^ 56) fs := by
  have := addFields_div m fs 56 hl
  exact (BitVec.toNat_ofNat _ _).trans (Nat.mod_eq_of_lt (by omega))

theorem wordOf_major : (wordOf m fs).toNat / 2 ^ 56 = m := by
  rw [wordOf_toNat hm hl, addFields_div m fs 56 hl]

theorem wordOf_reads : AllReadFrom (wordOf m fs) fs :=
  allReadFrom_of_forall _ _ fun x hx => x.readFrom_of_field _ (by rw [wordOf_toNat hm hl, addFields_field m fs 56 hl x hx])

end

/-- The number is a word of the major opcode from which the decoder reads `x`. -/
def ReadsBack {α : Type} (m N : Nat) (dec : Word64 → α) (x : α) : Prop :=
  m < 256 → (BitVec.ofNat 64 N).toNat / 2 ^ 56 = m ∧ dec (BitVec.ofNat 64 N) = x

theorem readsBack_of_fields {α : Type} {m : Nat} {dec : Word64 → α} {x : α} (fs : List FieldAt) (hl : laidBelow 56 fs = true)
    (h : AllReadFrom (wordOf m fs) fs → dec (wordOf m fs) = x) : ReadsBack m (addFields (m * 2 ^ 56) fs) dec x :=
  fun hm => ⟨wordOf_major hm hl, h (wordOf_reads hm hl)⟩

/-- Where the bits of the form are zero, the word is that of the operands. -/
theorem ReadsBack.zeroForm {α : Type} {m N lo n : Nat} {dec : Word64 → α} {x : α}
    (h : ReadsBack m (N + (0 : BitVec n).toNat * 2 ^ lo) dec x) : ReadsBack m N dec x := by
  have hN : N + (0 : BitVec n).toNat * 2 ^ lo = N := by simp
  rwa [hN] at h

/-- The operands are read back without the bits of the form. -/
theorem ReadsBack.fst {α β : Type} {m N : Nat} {dec : Word64 → α × β} {x : α × β} (h : ReadsBack m N dec x) :
    ReadsBack m N (fun w => (dec w).1) x.1 :=
  fun hm => ⟨(h hm).1, congrArg Prod.fst (h hm).2⟩

/-- Where the raw decoder answers to the major opcode with the instruction `c` of the fields read, it gives the instruction back. -/
theorem ReadsBack.raw_eq {α : Type} {m N : Nat} {dec : Word64 → α} {f : α} {c : α → Instr} (h : ReadsBack m N dec f)
    (hm : m < 256 := by decide)
    (harm : ∀ w : Word64, w.toNat / 2 ^ 56 = m → decodeRaw w = some (c (dec w)) := by
      intro w hmajor; unfold decodeRaw; rw [hmajor]; rfl) :
    decodeRaw (BitVec.ofNat 64 N) = some (c f) := by
  obtain ⟨hmajor, hdec⟩ := h hm
  rw [harm _ hmajor, hdec]

/-- The same where it answers to the major opcode and the bits of the form, a number below `d`. -/
theorem ReadsBack.form_eq {α : Type} {m N lo n : Nat} {dec : Word64 → α} {f : α} {k : BitVec n} {c : α → Instr}
    (h : ReadsBack m N (fun w => (dec w, bits w lo n)) (f, k)) (d : Nat) (hm : m < 256 := by decide) (hd : 2 ^ n = d := by decide)
    (harm : ∀ w : Word64, w.toNat / 2 ^ 56 = m → w.toNat / 2 ^ lo % d = k.toNat → decodeRaw w = some (c (dec w)) := by
      intro w hmajor hform; unfold decodeRaw; rw [hmajor, hform]; rfl) :
    decodeRaw (BitVec.ofNat 64 N) = some (c f) := by
  obtain ⟨hmajor, hread⟩ := h hm
  obtain ⟨hdec, hform⟩ := Prod.mk.inj hread
  subst hd
  rw [harm _ hmajor ((BitVec.toNat_ofNat _ _).symm.trans (congrArg BitVec.toNat hform)), hdec]

/-! ### Each format is read back (R56 to R63) -/

section
variable {m : Nat}

theorem encA_reads (f : FmtA) : ReadsBack m (encA m f) decA f :=
  readsBack_of_fields [.reg 51 f.g, .reg 41 f.vd, .reg 31 f.va, .reg 21 f.vb, .flag 20 f.ma, .flag 19 f.mb, .type 16 f.ty,
    .reg 8 f.minor, .reg 5 f.rnd, .flag 4 f.sat, .flag 3 f.p] rfl (FmtA.mk.injEq ..).mpr

theorem encB_reads (f : FmtB) : ReadsBack m (encB m f) decB f :=
  readsBack_of_fields [.reg 51 f.g, .reg 41 f.vd, .reg 31 f.va, .reg 21 f.vb, .reg 11 f.vc, .flag 10 f.ma, .flag 9 f.mb,
    .flag 8 f.mc, .type 5 f.ty, .reg 3 f.rnd, .flag 2 f.p, .reg 0 f.minor] rfl (FmtB.mk.injEq ..).mpr

theorem encD_reads (f : FmtD) : ReadsBack m (encD m f) decD f :=
  readsBack_of_fields [.reg 51 f.g, .reg 41 f.rd, .reg 37 f.minor, .flag 33 f.p, .reg 0 f.imm] rfl (FmtD.mk.injEq ..).mpr

theorem encS_reads (f : FmtS) : ReadsBack m (encS m f) decS f :=
  readsBack_of_fields [.reg 51 f.g, .reg 44 f.sd, .reg 37 f.sa, .reg 30 f.sb, .flag 29 f.ma, .flag 28 f.mb, .type 25 f.ty,
    .reg 20 f.minor, .flag 19 f.i, .reg 0 f.imm] rfl (FmtS.mk.injEq ..).mpr

theorem encSV_reads (f : FmtSV) : ReadsBack m (encSV m f) decSV f :=
  readsBack_of_fields [.reg 51 f.g, .reg 44 f.sr, .reg 31 f.vr, .flag 30 f.m, .flag 28 f.p, .type 25 f.ty, .reg 20 f.minor,
    .reg 0 f.lane] rfl (FmtSV.mk.injEq ..).mpr

theorem encM_reads (f : FmtM) : ReadsBack m (encM m f) decM f :=
  readsBack_of_fields [.reg 51 f.g, .reg 41 f.rd, .reg 31 f.base, .flag 30 f.scalar, .flag 29 f.m, .reg 26 f.width,
    .reg 24 f.space, .reg 22 f.cache, .reg 20 f.scope, .reg 0 f.off] rfl (FmtM.mk.injEq ..).mpr

theorem encX_reads (f : FmtX) : ReadsBack m (encX m f) decX f :=
  readsBack_of_fields [.reg 51 f.g, .reg 41 f.va, .reg 31 f.vb, .reg 24 f.acc, .reg 21 f.cv, .reg 16 f.shape, .reg 12 f.fa,
    .reg 8 f.fb, .reg 4 f.fc, .flag 3 f.ma, .flag 2 f.mb, .flag 1 f.z] rfl (FmtX.mk.injEq ..).mpr

theorem encGrow_reads (f : FmtGrow) : ReadsBack m (encGrow m f) decGrow f :=
  readsBack_of_fields [.reg 51 f.g, .reg 44 f.pd, .flag 43 f.try_, .reg 39 f.n] rfl (FmtGrow.mk.injEq ..).mpr

theorem encSort_reads (f : FmtSort) : ReadsBack m (encSort m f) decSort f :=
  readsBack_of_fields [.reg 51 f.g, .reg 41 f.va, .flag 40 f.ma, .flag 39 f.desc, .reg 23 f.mask]
    rfl (FmtSort.mk.injEq ..).mpr

theorem encAtom_reads (f : FmtAtom) : ReadsBack m (encAtom m f) decAtom f :=
  readsBack_of_fields [.reg 51 f.g, .reg 41 f.vd, .reg 31 f.base, .flag 30 f.scalar, .reg 20 f.vb, .flag 19 f.ma,
    .flag 18 f.mb, .reg 13 f.op, .flag 12 f.wide, .reg 10 f.order, .reg 7 f.scope] rfl (FmtAtom.mk.injEq ..).mpr

theorem encFence_reads (f : FmtFence) : ReadsBack m (encFence m f) decFence f :=
  readsBack_of_fields [.reg 51 f.g, .reg 10 f.order, .reg 7 f.scope] rfl (FmtFence.mk.injEq ..).mpr

theorem encBar_reads (f : FmtBar) : ReadsBack m (encBar m f) decBar f :=
  readsBack_of_fields [.reg 51 f.g, .reg 44 f.sa, .flag 43 f.ma, .reg 37 f.n] rfl (FmtBar.mk.injEq ..).mpr

theorem encKey_reads (f : FmtKey) : ReadsBack m (encKey m f) decKey f :=
  readsBack_of_fields [.reg 51 f.g, .reg 41 f.sa, .flag 40 f.ma, .reg 37 f.k] rfl (FmtKey.mk.injEq ..).mpr

theorem encCv_reads (f : FmtCv) : ReadsBack m (encCv m f) decCv f :=
  readsBack_of_fields [.reg 51 f.g, .reg 37 f.k] rfl (FmtCv.mk.injEq ..).mpr

theorem encTrec_reads (f : FmtTrec) : ReadsBack m (encTrec m f) decTrec f :=
  readsBack_of_fields [.reg 51 f.g, .reg 41 f.sa, .flag 40 f.ma, .reg 35 f.rec_, .reg 0 f.off]
    rfl (FmtTrec.mk.injEq ..).mpr

theorem encQblk_reads (f : FmtQblk) : ReadsBack m (encQblk m f) decQblk f :=
  readsBack_of_fields [.reg 51 f.g, .reg 41 f.sa, .flag 40 f.ma, .reg 33 f.sb, .flag 32 f.mb, .reg 27 f.dst, .reg 22 f.src,
    .flag 21 f.flag] rfl (FmtQblk.mk.injEq ..).mpr

theorem encSclq_reads (f : FmtSclq) : ReadsBack m (encSclq m f) decSclq f :=
  readsBack_of_fields [.reg 51 f.g, .reg 41 f.vd, .reg 31 f.va, .reg 21 f.vb, .flag 20 f.ma, .flag 19 f.mb, .reg 12 f.fmt]
    rfl (FmtSclq.mk.injEq ..).mpr

theorem encVldt_reads (f : FmtVldt) : ReadsBack m (encVldt m f) decVldt f :=
  readsBack_of_fields [.reg 51 f.g, .reg 41 f.reg, .reg 34 f.sa, .flag 33 f.ma, .reg 26 f.sb, .flag 25 f.mb,
    .reg 20 f.rec_, .flag 19 f.md] rfl (FmtVldt.mk.injEq ..).mpr

theorem encCpy_reads (f : FmtCpy) : ReadsBack m (encCpy m f) decCpy f :=
  readsBack_of_fields [.reg 51 f.g, .reg 44 f.sd, .reg 37 f.sa, .reg 30 f.sb, .reg 23 f.sc, .flag 22 f.ma, .flag 21 f.mb,
    .flag 20 f.mc] rfl (FmtCpy.mk.injEq ..).mpr

theorem encPbsel_reads (f : FmtPbsel) : ReadsBack m (encPbsel m f) decPbsel f :=
  readsBack_of_fields [.reg 51 f.g, .reg 41 f.n] rfl (FmtPbsel.mk.injEq ..).mpr

theorem encAccept_reads (f : FmtAccept) : ReadsBack m (encAccept m f) decAccept f :=
  readsBack_of_fields [.reg 51 f.g, .reg 31 f.va, .reg 21 f.vb, .flag 20 f.ma, .flag 19 f.mb, .flag 18 f.expl]
    rfl (FmtAccept.mk.injEq ..).mpr

theorem encVd_reads (f : FmtVd) : ReadsBack m (encVd m f) decVd f :=
  readsBack_of_fields [.reg 51 f.g, .reg 41 f.vd] rfl (FmtVd.mk.injEq ..).mpr

theorem encRng_reads (f : FmtRng) : ReadsBack m (encRng m f) decRng f :=
  readsBack_of_fields [.reg 51 f.g, .reg 41 f.vd, .reg 38 f.k, .reg 36 f.form, .flag 35 f.p] rfl (FmtRng.mk.injEq ..).mpr

theorem encCbr_reads (f : FmtCbr) : ReadsBack m (encCbr m f) decCbr f :=
  readsBack_of_fields [.reg 51 f.g, .reg 47 f.pn, .flag 46 f.or_, .flag 45 f.t, .reg 42 f.k, .reg 0 f.off]
    rfl (FmtCbr.mk.injEq ..).mpr

theorem encCred_reads (f : FmtCred) : ReadsBack m (encCred m f) decCred f :=
  readsBack_of_fields [.reg 51 f.g, .reg 44 f.sa, .reg 37 f.sb, .reg 30 f.sc, .flag 29 f.ma, .flag 28 f.mb, .flag 27 f.mc,
    .reg 24 f.k, .reg 22 f.kind, .reg 20 f.op, .reg 16 f.fmt] rfl (FmtCred.mk.injEq ..).mpr

theorem encTrap_reads (f : FmtTrap) : ReadsBack m (encTrap m f) decTrap f :=
  readsBack_of_fields [.reg 51 f.g, .reg 0 f.imm] rfl (FmtTrap.mk.injEq ..).mpr

theorem encBrk_reads (f : FmtBrk) : ReadsBack m (encBrk m f) decBrk f :=
  readsBack_of_fields [.reg 51 f.g, .reg 41 f.sa, .flag 40 f.ma, .reg 38 f.k] rfl (FmtBrk.mk.injEq ..).mpr

theorem encRdsr_reads (f : FmtRdsr) : ReadsBack m (encRdsr m f) decRdsr f :=
  readsBack_of_fields [.reg 51 f.g, .reg 41 f.rd, .flag 40 f.vec, .reg 0 f.num] rfl (FmtRdsr.mk.injEq ..).mpr

theorem encWrsr_reads (f : FmtWrsr) : ReadsBack m (encWrsr m f) decWrsr f :=
  readsBack_of_fields [.reg 51 f.g, .reg 41 f.sa, .flag 40 f.ma, .reg 0 f.num] rfl (FmtWrsr.mk.injEq ..).mpr

theorem encWsw_reads (f : FmtWsw) : ReadsBack m (encWsw m f) decWsw f :=
  readsBack_of_fields [.reg 51 f.g, .reg 44 f.sd, .reg 37 f.sa, .reg 30 f.sb, .flag 29 f.ma, .flag 28 f.mb]
    rfl (FmtWsw.mk.injEq ..).mpr

theorem encMig_reads (f : FmtMig) : ReadsBack m (encMig m f) decMig f :=
  readsBack_of_fields [.reg 51 f.g, .reg 44 f.sd, .reg 37 f.sa, .reg 30 f.sb, .flag 29 f.ma, .flag 28 f.mb,
    .flag 27 f.named] rfl (FmtMig.mk.injEq ..).mpr

theorem encQpush_reads (f : FmtQpush) : ReadsBack m (encQpush m f) decQpush f :=
  readsBack_of_fields [.reg 51 f.g, .reg 37 f.sa, .reg 30 f.sb, .reg 23 f.sc, .flag 22 f.ma, .flag 21 f.mb, .flag 20 f.mc,
    .flag 19 f.try_, .reg 15 f.pd] rfl (FmtQpush.mk.injEq ..).mpr

/-! Where a form of the instruction has bits of its own, the decoder reads them beside the operands. -/

theorem encJ_reads (f : FmtJ) (k : BitVec 5) :
    ReadsBack m (encJ m f + k.toNat * 2 ^ 32) (fun w => (decJ w, bits w 32 5)) (f, k) := by
  rw [encJ, Nat.add_right_comm]
  exact readsBack_of_fields [.reg 51 f.g, .reg 41 f.reg, .flag 40 f.m, .reg 37 f.k, .reg 32 k, .reg 0 f.off] rfl
    fun ⟨hg, hreg, hm, hk, hform, hoff⟩ => Prod.ext ((FmtJ.mk.injEq ..).mpr ⟨hg, hreg, hm, hk, hoff⟩) hform

theorem encTile_reads (f : FmtTile) (k : BitVec 1) :
    ReadsBack m (encTile m f + k.toNat * 2 ^ 12) (fun w => (decTile w, bits w 12 1)) (f, k) := by
  rw [encTile, Nat.add_right_comm]
  exact readsBack_of_fields [.reg 51 f.g, .reg 41 f.reg, .flag 40 f.m, .reg 33 f.sc, .reg 26 f.sb, .reg 19 f.acc,
    .reg 15 f.fmt, .flag 14 f.scale, .flag 13 f.sat, .reg 12 k, .reg 0 f.off] rfl
    fun ⟨hg, hreg, hm, hsc, hsb, hacc, hfmt, hscale, hsat, hform, hoff⟩ =>
      Prod.ext ((FmtTile.mk.injEq ..).mpr ⟨hg, hreg, hm, hsc, hsb, hacc, hfmt, hscale, hsat, hoff⟩) hform

theorem encDstSrc_reads (f : FmtDstSrc) (k : BitVec 2) :
    ReadsBack m (encDstSrc m f + k.toNat * 2 ^ 34) (fun w => (decDstSrc w, bits w 34 2)) (f, k) :=
  readsBack_of_fields [.reg 51 f.g, .reg 44 f.sd, .reg 37 f.sa, .flag 36 f.ma, .reg 34 k] rfl
    fun ⟨hg, hsd, hsa, hma, hform⟩ => Prod.ext ((FmtDstSrc.mk.injEq ..).mpr ⟨hg, hsd, hsa, hma⟩) hform

theorem encQpop_reads (f : FmtQpop) (k : BitVec 1) :
    ReadsBack m (encQpop m f + k.toNat * 2 ^ 20) (fun w => (decQpop w, bits w 20 1)) (f, k) :=
  readsBack_of_fields [.reg 51 f.g, .reg 41 f.vd, .reg 34 f.sa, .reg 27 f.sb, .flag 26 f.ma, .flag 25 f.mb, .reg 21 f.pd,
    .reg 20 k] rfl
    fun ⟨hg, hvd, hsa, hsb, hma, hmb, hpd, hform⟩ =>
      Prod.ext ((FmtQpop.mk.injEq ..).mpr ⟨hg, hvd, hsa, hsb, hma, hmb, hpd⟩) hform

theorem encDtk_reads (f : FmtDtk) (k : BitVec 1) :
    ReadsBack m (encDtk m f + k.toNat * 2 ^ 28) (fun w => (decDtk w, bits w 28 1)) (f, k) :=
  readsBack_of_fields [.reg 51 f.g, .reg 41 f.va, .reg 31 f.vb, .flag 30 f.ma, .flag 29 f.mb, .reg 28 k] rfl
    fun ⟨hg, hva, hvb, hma, hmb, hform⟩ => Prod.ext ((FmtDtk.mk.injEq ..).mpr ⟨hg, hva, hvb, hma, hmb⟩) hform

theorem encSrc_reads (f : FmtSrc) (k : BitVec 2) :
    ReadsBack m (encSrc m f + k.toNat * 2 ^ 34) (fun w => (decSrc w, bits w 34 2)) (f, k) :=
  readsBack_of_fields [.reg 51 f.g, .reg 37 f.sa, .flag 36 f.ma, .reg 34 k] rfl
    fun ⟨hg, hsa, hma, hform⟩ => Prod.ext ((FmtSrc.mk.injEq ..).mpr ⟨hg, hsa, hma⟩) hform

theorem encG_reads (f : FmtG) (k : BitVec 1) :
    ReadsBack m (encG m f + k.toNat * 2 ^ 0) (fun w => (decG w, bits w 0 1)) (f, k) :=
  readsBack_of_fields [.reg 51 f.g, .reg 0 k] rfl
    fun ⟨hg, hform⟩ => Prod.ext ((FmtG.mk.injEq ..).mpr hg) hform

end

/-- The raw decoder gives every instruction of a program back from its word. -/
theorem decodeRaw_encode (i : Instr) (h : i.isEvent = false) : decodeRaw (encode i) = some i := by
  cases i with
  | vadd f | vsub f | vaddc f | vmul f | vmulh f | vmin f | vmax f | vabsd f | vand f | vor f | vxor f | vnot f | vshl f | vshr f | vsar f
    | vrot f | vclz f | vpopc f | vbrev f | vcmp f | vmov f | vbcast f | vvote f | vscan f | vred f | vcompact f | fadd f | fsub f | fmul f
    | fmin f | fmax f | fcmp f | fclass f | fround f | fscale f | fexp f | fman f | fcvt f | fcvti f | icvtf f | fex2 f | flg2 f | frcp f
    | frsq f | fsqrt f | fsin2 f | fcos2 f | hadd2 f | hmul2 f | fstat f => exact (encA_reads f).raw_eq
  | vmad f | vext f | vins f | vsel f | vshfl f | ffma f | fdot2 f | hfma2 f => exact (encB_reads f).raw_eq
  | vmovi f | smovi f => exact (encD_reads f).raw_eq
  | sadd f | ssub f | smul f | smad f | sand f | sor f | sxor f | sshl f | sshr f | ssar f | smov f | scmp f => exact (encS_reads f).raw_eq
  | vtos f | stov f => exact (encSV_reads f).raw_eq
  | br f | brd f | call f | ret f | wait f | exit f => exact (encJ_reads f 0).zeroForm.fst.raw_eq
  | ld f | st f | sld f | sst f | lda f | pf f | fld f | fst f => exact (encM_reads f).raw_eq
  | vldt f | vstt f => exact (encVldt_reads f).raw_eq
  | atom f | red f | fatom f => exact (encAtom_reads f).raw_eq
  | fence f => exact (encFence_reads f).raw_eq
  | mon f => exact (encSrc_reads f 0).zeroForm.fst.raw_eq
  | mwait f => exact (encDstSrc_reads f 0).zeroForm.fst.raw_eq
  | cvdecl f | cbrj f | rngk f => exact (encKey_reads f).raw_eq
  | mma f | mmas f => exact (encX_reads f).raw_eq
  | mmaw f => exact (encCv_reads f).raw_eq
  | orf f | spfence f | rfence f | qdone f | ffence f | pbclr f | nop f => exact (encG_reads f 0).zeroForm.fst.raw_eq
  | accld f | acczero f => exact (encTile_reads f 0).zeroForm.fst.raw_eq
  | trec f => exact (encTrec_reads f).raw_eq
  | qblk f | dqblk f | hadm f => exact (encQblk_reads f).raw_eq
  | sclq f => exact (encSclq_reads f).raw_eq
  | cpy f | cpys f | tlbw f => exact (encCpy_reads f).raw_eq
  | barr f | barw f | bara f | bmask f => exact (encBar_reads f).raw_eq
  | qpush f => exact (encQpush_reads f).raw_eq
  | creduce f => exact (encCred_reads f).raw_eq
  | cbr f => exact (encCbr_reads f).raw_eq
  | pbsel f => exact (encPbsel_reads f).raw_eq
  | accept f => exact (encAccept_reads f).raw_eq
  | pbcnt f => exact (encVd_reads f).raw_eq
  | rng f => exact (encRng_reads f).raw_eq
  | trap f => exact (encTrap_reads f).raw_eq
  | brk f => exact (encBrk_reads f).raw_eq
  | rdsr f => exact (encRdsr_reads f).raw_eq
  | wrsr f => exact (encWrsr_reads f).raw_eq
  | grow f | shrink f => exact (encGrow_reads f).raw_eq
  | sortk f => exact (encSort_reads f).raw_eq
  | wsw f => exact (encWsw_reads f).raw_eq
  | migrate f => exact (encMig_reads f).raw_eq
  | join f => exact (encJ_reads f 0).zeroForm.form_eq 32
  | joinAct f => exact (encJ_reads f 1).form_eq 32
  | accst f => exact (encTile_reads f 0).zeroForm.form_eq 2
  | accstReg f => exact (encTile_reads f 1).form_eq 2
  | cpyw f => exact (encDstSrc_reads f 0).zeroForm.form_eq 4
  | cpywWait f => exact (encDstSrc_reads f 1).form_eq 4
  | cpywRe f => exact (encDstSrc_reads f 2).form_eq 4
  | qpop f => exact (encQpop_reads f 0).zeroForm.form_eq 2
  | qpopO f => exact (encQpop_reads f 1).form_eq 2
  | dtk f => exact (encDtk_reads f 0).zeroForm.form_eq 2
  | dtkEnd f => exact (encDtk_reads f 1).form_eq 2
  | tlbiVa f => exact (encSrc_reads f 0).zeroForm.form_eq 4
  | tlbiAsid f => exact (encSrc_reads f 1).form_eq 4
  | tlbiAll f => exact (encSrc_reads f 2).form_eq 4
  | sret f => exact (encG_reads f 0).zeroForm.form_eq 2
  | sretEsc f => exact (encG_reads f 1).form_eq 2
  | _ => cases h

/-- An instruction that is well formed is no event. -/
theorem isEvent_of_wellFormed (i : Instr) (h : i.wellFormed = true) : i.isEvent = false := by
  cases he : i.isEvent with
  | false => rfl
  | true => rw [(Laws.EventShape.all i he).1] at h; cases h

/-- Settles O58: the raw decoder takes each format apart as the encoder put it together, and the checks of `decode` then pass. -/
theorem decodeEncodeRoundTrip : Obligations.DecodeEncodeRoundTrip := fun i hw =>
  decode_encode_of_raw i hw (decodeRaw_encode i (isEvent_of_wellFormed i hw))

/-- Settles O59: each word is that of the instruction it stands for, and no major opcode is zero. -/
theorem decodedWords : Obligations.DecodedWords :=
  ⟨decodeEncodeRoundTrip (.nop { g := 15 }) rfl, decodeEncodeRoundTrip (.trap { g := 15, imm := 7 }) rfl,
    decodeEncodeRoundTrip (.brk { g := 15, sa := 5, ma := false, k := 0 }) rfl, decodeEncodeRoundTrip (.sret { g := 15 }) rfl,
    decodeEncodeRoundTrip (.sretEsc { g := 15 }) rfl, rfl⟩

end Sys2Proof

namespace Sys2Proof.Machine

/-! ### Numbers as bit vectors (R52, R74, R78) -/

theorem wrapTo_eq_toNat_ofInt (n : Nat) (x : Int) : wrapTo n x = (BitVec.ofInt n x).toNat := (BitVec.toNat_ofInt ..).symm

theorem toSigned_eq_toInt (n k : Nat) : toSigned n k = (BitVec.ofNat n k).toInt := by
  have hhalf : k % 2 ^ n < 2 ^ (n - 1) ↔ 2 * (k % 2 ^ n) < 2 ^ n := by
    cases n with
    | zero => simp [Nat.mod_one]
    | succ n => rw [Nat.add_sub_cancel, Nat.pow_succ]; omega
  simp only [toSigned, BitVec.toInt_eq_toNat_cond, BitVec.toNat_ofNat, hhalf]

theorem ofNat_wrapTo (n m : Nat) (x : Int) : BitVec.ofNat n (wrapTo m x) = (BitVec.ofInt m x).setWidth n := by
  rw [wrapTo_eq_toNat_ofInt, BitVec.ofNat_toNat]

/-- A result modulo 2^n, extended to 64 bits, is that of the bit vector (R89). -/
theorem scalarResult_eq_scalarOf (t : Ty) (x : Int) : scalarResult t x = scalarOf t (BitVec.ofInt (tyBits t) x) := by
  unfold scalarResult scalarOf
  split
  · rw [ofNat_wrapTo, toSigned_eq_toInt, ofNat_wrapTo, BitVec.setWidth_eq, BitVec.setWidth_eq, BitVec.signExtend]
  · exact ofNat_wrapTo ..

theorem numOf_bvOf (t : Ty) (x : Nat) : numOf t (bvOf t x).toNat = tyVal t x := by
  have hbv : bvOf t (bvOf t x).toNat = bvOf t x := (BitVec.ofNat_toNat ..).trans (BitVec.setWidth_eq _)
  unfold numOf tyVal
  rw [hbv, toSigned_eq_toInt, bvOf, BitVec.toNat_ofNat]

theorem condHolds_iff (c : Nat) (x y : Int) : condHolds c x y = true ↔ compares c x y := by
  unfold condHolds compares
  split <;> simp

section
variable {n : Nat} (a b : BitVec n)

theorem ofInt_toNat : BitVec.ofInt n a.toNat = a := by
  rw [BitVec.ofInt_natCast, BitVec.ofNat_toNat, BitVec.setWidth_eq]

theorem ofInt_sub_toNat : BitVec.ofInt n ((a.toNat : Int) - b.toNat) = a - b := by
  rw [Int.sub_eq_add_neg, BitVec.ofInt_add, BitVec.ofInt_neg, ofInt_toNat, ofInt_toNat, BitVec.sub_eq_add_neg]

theorem shlN_toNat (k : Nat) : shlN n a.toNat k = (a <<< k).toNat := by
  unfold shlN
  rw [BitVec.toNat_shiftLeft, Nat.shiftLeft_eq]
  split
  · rename_i h
    exact (Nat.mod_eq_zero_of_dvd ((Nat.pow_dvd_pow 2 h).mul_left _)).symm
  · rfl

theorem shrN_toNat (k : Nat) : shrN n a.toNat k = (a >>> k).toNat := by
  unfold shrN
  rw [BitVec.toNat_ushiftRight, Nat.shiftRight_eq_div_pow, Nat.mod_eq_of_lt a.isLt]
  split
  · rename_i h
    exact (Nat.div_eq_of_lt (a.isLt.trans_le (Nat.pow_le_pow_right (by decide) h))).symm
  · rfl

/-- A shift right by n places or more gives the sign alone. -/
theorem toInt_ediv_of_le {c d : Int} (hc : (2 : Int) ^ n ≤ c) (hd : (2 : Int) ^ n ≤ d) : a.toInt / c = a.toInt / d := by
  have hlt := a.two_mul_toInt_lt
  have hle := a.le_two_mul_toInt
  rcases lt_or_ge a.toInt 0 with hneg | hpos
  · rw [Int.ediv_eq_neg_one_of_neg_of_le hneg (by omega), Int.ediv_eq_neg_one_of_neg_of_le hneg (by omega)]
  · rw [Int.ediv_eq_zero_of_lt hpos (by omega), Int.ediv_eq_zero_of_lt hpos (by omega)]

theorem toInt_ediv_pow_min (k : Nat) : a.toInt / ((2 ^ min k n : Nat) : Int) = a.toInt / ((2 ^ k : Nat) : Int) := by
  rcases Nat.le_total k n with h | h
  · rw [Nat.min_eq_left h]
  · rw [Nat.min_eq_right h]
    exact toInt_ediv_of_le a (by simp) (by exact_mod_cast Nat.pow_le_pow_right (by decide) h)

theorem sarN_toNat (k : Nat) : sarN n a.toNat k = (a.sshiftRight k).toNat := by
  unfold sarN
  rw [wrapTo_eq_toNat_ofInt, toSigned_eq_toInt, BitVec.ofNat_toNat, BitVec.setWidth_eq, toInt_ediv_pow_min, BitVec.sshiftRight_eq,
    Int.shiftRight_eq_div_pow]
end

/-! ### Format S (R59, R89) -/

/-- The second source as a number of 64 bits. -/
theorem secondSrc_eq (f : FmtS) (w : Wave) :
    secondSrc f w = if f.i then (f.imm.signExtend 64).toNat else (w.getS f.sb.toNat).toNat := by
  unfold secondSrc
  rw [wrapTo_eq_toNat_ofInt, toSigned_eq_toInt, BitVec.ofNat_toNat, BitVec.setWidth_eq, BitVec.signExtend]

theorem sclB_eq (f : FmtS) (s : State) : sclB f s = bvOf f.ty (secondSrc f s.cur) := by rw [secondSrc_eq]; rfl

/-- A body that writes a scalar result completes with the bit vector of that result in the destination. -/
theorem completes_scalar {i : Instr} {f : FmtS} {s : State} {body : List Nat → List Nat → State → Res} {x : Int}
    {v : BitVec (tyBits f.ty)} (h : Ready i s) (he : exec i s = issue i s body)
    (hb : body s.cur.issuingSet (active i s) (s.taskWide i) = .done (s.putS f.sd.toNat (scalarResult f.ty x)) [])
    (hx : BitVec.ofInt (tyBits f.ty) x = v) : Completes i s (putScalar f s v) := by
  rw [scalarResult_eq_scalarOf, hx] at hb
  exact completes_of_done i s _ body h he hb

/-- The same for a body of format S, by its operation on the sources. -/
theorem completes_bodyS {i : Instr} {f : FmtS} {s : State} {body : List Nat → List Nat → State → Res} {op : Nat → Nat → Int}
    {v : BitVec (tyBits f.ty)} (h : Ready i s) (he : exec i s = issue i s body)
    (hb : body s.cur.issuingSet (active i s) (s.taskWide i) = bodyS f op s.cur.issuingSet (active i s) s)
    (hv : BitVec.ofInt (tyBits f.ty) (op (sclA f s).toNat (sclB f s).toNat) = v) : Completes i s (putScalar f s v) := by
  refine completes_scalar h he hb ?_
  rw [← hv, sclA, sclB_eq, bvOf, bvOf, BitVec.toNat_ofNat, BitVec.toNat_ofNat]

/-- The upper half from the immediate, the lower half as it was. -/
theorem ofNat_halves (x : BitVec 32) (old : Word64) :
    BitVec.ofNat 64 (x.toNat * 2 ^ 32 + old.toNat % 2 ^ 32) = x ++ old.setWidth 32 := by
  have hlow : old.toNat % 2 ^ 32 < 2 ^ 32 := Nat.mod_lt _ (by decide)
  have hx := x.isLt
  apply BitVec.eq_of_toNat_eq
  rw [BitVec.toNat_append, BitVec.toNat_setWidth, ← Nat.shiftLeft_add_eq_or_of_lt hlow, Nat.shiftLeft_eq, BitVec.toNat_ofNat,
    Nat.mod_eq_of_lt (by omega)]

theorem moviVal_eq (minor : BitVec 4) (imm : BitVec 32) (old : Word64) : moviVal minor.toNat imm old =
    if minor = 0 then imm.setWidth 64 else if minor = 1 then imm.signExtend 64 else imm ++ old.setWidth 32 := by
  by_cases h0 : minor = 0
  · subst h0
    exact BitVec.ofNat_toNat ..
  by_cases h1 : minor = 1
  · subst h1
    rfl
  have hn0 : minor.toNat ≠ 0 := fun e => h0 (BitVec.eq_of_toNat_eq e)
  have hn1 : minor.toNat ≠ 1 := fun e => h1 (BitVec.eq_of_toNat_eq e)
  rw [if_neg h0, if_neg h1, ← ofNat_halves]
  unfold moviVal
  split
  · exact absurd ‹_› hn0
  · exact absurd ‹_› hn1
  · rfl

/-- Settles O7: each operation on numbers modulo 2^n is that of the bit vectors, and the result is extended as the type says. -/
theorem scalarResults : Obligations.ScalarResults := by
  refine ⟨fun f s => ⟨fun h => ?_, fun h => ?_, fun h => ?_, fun h => ?_, fun h => ?_, fun h => ?_, fun h => ?_, fun h => ?_, fun h => ?_,
    fun h => ?_, fun h => ?_, fun h => ?_⟩, fun f s h => ?_⟩
  · exact completes_bodyS h rfl rfl (by rw [BitVec.ofInt_add, ofInt_toNat, ofInt_toNat])
  · exact completes_bodyS h rfl rfl (ofInt_sub_toNat ..)
  · exact completes_bodyS h rfl rfl (by rw [BitVec.ofInt_mul, ofInt_toNat, ofInt_toNat])
  · exact completes_bodyS h rfl rfl (by rw [BitVec.ofInt_add, BitVec.ofInt_mul, ofInt_toNat, ofInt_toNat, BitVec.ofInt_natCast]; rfl)
  · exact completes_bodyS h rfl rfl (ofInt_toNat (_ &&& _))
  · exact completes_bodyS h rfl rfl (ofInt_toNat (_ ||| _))
  · exact completes_bodyS h rfl rfl (ofInt_toNat (_ ^^^ _))
  · exact completes_bodyS h rfl rfl (by rw [shlN_toNat, ofInt_toNat])
  · exact completes_bodyS h rfl rfl (by rw [shrN_toNat, ofInt_toNat])
  · exact completes_bodyS h rfl rfl (by rw [sarN_toNat, ofInt_toNat])
  · exact completes_scalar h rfl rfl (BitVec.ofInt_natCast ..)
  · refine ⟨_, completes_of_done _ s _ (bodyScmp f) h rfl rfl, (condHolds_iff ..).trans ?_⟩
    rw [sclB_eq, sclA, numOf_bvOf, numOf_bvOf]
    rfl
  · rw [← moviVal_eq]
    exact completes_of_done _ s _ _ h rfl rfl

end Sys2Proof.Machine

namespace Sys2Proof.Machine

/-! ### A trap that lets other waves go on (R189, R271) -/

/-- A branch to a word before the first one of the code. -/
def strayBr : FmtJ := { g := 15, reg := 0, m := false, k := 0, off := -2 }

/-- A wave at word 1 that stands in the queue for the staging buffer of its core, and one behind it. -/
def stagedState : State :=
  { State.reset with
    cur := probeWave
    rest := [{ Wave.nobody with key := ⟨0, 0, 1⟩, why := .staging }]
    cores := [(0, { Core.zero with stageQ := [probeWave.key] })] }

theorem strayBr_wakes : (match exec (.br strayBr) stagedState with | .next t => t.rest.map Wave.why | _ => []) = [.none] := by
  decide

/-- Refutes O57: the branch takes the illegal-target trap, with which the wave leaves the queue for the staging buffer, and another wave,
the one behind it, no longer waits. -/
theorem not_registerInstructionFrame : ¬ Obligations.RegisterInstructionFrame := by
  intro h
  obtain ⟨t, ht⟩ := exec_next (.br strayBr) rfl stagedState
  obtain ⟨-, -, hrest, -⟩ := h (.br strayBr) stagedState t rfl (by simp) (by simp) rfl rfl rfl ht
  have hwakes := strayBr_wakes
  rw [ht] at hwakes
  change t.rest.map Wave.why = _ at hwakes
  rw [hrest] at hwakes
  exact absurd hwakes (by decide)

end Sys2Proof.Machine

namespace Sys2Proof.Machine

/-! ### The least of several lanes (R273) -/

theorem minNat_append (l : List Nat) (a : Nat) : minNat (l ++ [a]) = some ((minNat l).elim a (min a)) := by
  unfold minNat
  rw [List.foldl_append]
  generalize l.foldl _ _ = m
  cases m <;> rfl

theorem minNat_eq_min? (l : List Nat) : minNat l = l.min? := by
  induction l using List.reverseRecOn with
  | nil => rfl
  | append_singleton l a ih =>
    rw [minNat_append, ih]
    cases l with
    | nil => rfl
    | cons b r =>
      rw [List.cons_append, List.min?_cons', List.min?_cons', List.foldl_append]
      exact congrArg some (Nat.min_comm ..)

theorem Wave.lowestTid_mem (w : Wave) (ls : List Nat) (h : ls ≠ []) : w.lowestTid ls ∈ ls := by
  have hfold : ∀ (r : List Nat) (l : Nat),
      r.foldl (fun b x => if (w.lane x).tid < (w.lane b).tid then x else b) l ∈ l :: r := by
    intro r
    induction r with
    | nil => exact List.mem_singleton_self
    | cons a r ih =>
      intro l
      rw [List.foldl_cons]
      split
      · exact List.mem_cons_of_mem _ (ih a)
      · rcases List.mem_cons.mp (ih l) with hmem | hmem
        · exact List.mem_cons.mpr (.inl hmem)
        · exact List.mem_cons_of_mem _ (List.mem_cons_of_mem _ hmem)
  cases ls with
  | nil => exact absurd rfl h
  | cons l r => exact hfold r l

/-! ### Several lanes of which some trap with one cause, and the others pass (R99) -/

section
variable (s : State) (act : List Nat) (chk : Nat → LaneAcc) (p : Nat → Bool) (o c : Nat)
  (htrap : ∀ l ∈ act, p l = true → chk l = .trap o c 0) (hpass : ∀ l ∈ act, p l = false → ∃ a, chk l = .ok a)
  (hne : act.filter p ≠ []) (ho : o < 100) (h3 : o ≠ 3)
include htrap hpass hne ho h3

/-- The lanes that trap do so together, with that cause. -/
theorem verdict_trap : ∃ lc, verdict (act.map (fun l => (l, chk l))) = .trap c (act.filter p) 0 lc := by
  have hmiss : missesOf (act.map (fun l => (l, chk l))) = [] := by
    unfold missesOf
    rw [List.filterMap_map, List.filterMap_eq_nil_iff]
    intro l hl
    cases hp : p l with
    | true => simp [htrap l hl hp]
    | false =>
      obtain ⟨a, ha⟩ := hpass l hl hp
      simp [ha]
  have horder : ∀ l ∈ act, (chk l).order = if p l then o else 100 := by
    intro l hl
    cases hp : p l with
    | true => simp [htrap l hl hp, LaneAcc.order]
    | false =>
      obtain ⟨a, ha⟩ := hpass l hl hp
      simp [ha, LaneAcc.order]
  have hleast : minNat ((act.map (fun l => (l, chk l))).map (fun r => r.2.order)) = some o := by
    obtain ⟨l, hl⟩ := List.exists_mem_of_ne_nil _ hne
    obtain ⟨hl, hp⟩ := List.mem_filter.mp hl
    rw [minNat_eq_min?, List.min?_eq_some_iff, List.map_map]
    refine ⟨List.mem_map.mpr ⟨l, hl, by simp [horder l hl, hp]⟩, fun x hx => ?_⟩
    obtain ⟨k, hk, rfl⟩ := List.mem_map.mp hx
    show o ≤ (chk k).order
    rw [horder k hk]
    split <;> omega
  have hhit : (act.map (fun l => (l, chk l))).filter (fun r => r.2.order == o) = (act.filter p).map (fun l => (l, .trap o c 0)) := by
    rw [List.filter_map]
    have hfilter : act.filter ((fun r : Nat × LaneAcc => r.2.order == o) ∘ fun l => (l, chk l)) = act.filter p := by
      refine List.filter_congr fun l hl => ?_
      show ((chk l).order == o) = p l
      rw [horder l hl]
      cases p l
      · exact beq_eq_false_iff_ne.mpr ho.ne'
      · exact beq_self_eq_true o
    rw [hfilter]
    exact List.map_congr_left fun l hl => by
      obtain ⟨hl, hp⟩ := List.mem_filter.mp hl
      rw [htrap l hl hp]
  obtain ⟨l, r, hcons⟩ := List.exists_cons_of_ne_nil hne
  refine ⟨(act.map (fun l => (l, chk l))).map (fun r => (r.1, r.2.cause)), ?_⟩
  unfold verdict
  rw [hmiss]
  dsimp only
  rw [hleast]
  dsimp only
  rw [hhit]
  simp [hcons, LaneAcc.cause, LaneAcc.info, ho.ne, h3, Function.comp_def]

theorem failed_trap (ea : Nat → Nat) (hc : c ≠ 8) :
    ∃ lc, failed s act ea (act.map (fun l => (l, chk l))) false =
      some (.trap s ⟨c, act.filter p, ea (s.cur.lowestTid (act.filter p)), 0, 0, lc⟩) := by
  obtain ⟨lc, hv⟩ := verdict_trap act chk p o c htrap hpass hne ho h3
  exact ⟨lc, by unfold failed; simp [hv, hc]⟩

end

/-! ### A wave that is ready to issue -/

theorem spec_of_ready {i : Instr} {s : State} (h : Ready i s) : s.cur.spec = 0 := by
  obtain ⟨-, -, -, -, -, -, hspec, -⟩ := h
  exact hspec

theorem active_ne_nil_of_ready {i : Instr} {s : State} (h : Ready i s) : active i s ≠ [] := by
  obtain ⟨-, -, -, -, -, -, -, -, -, hactive⟩ := h
  exact hactive

/-! ### Transfers that fail (R50) -/

theorem wrapTo_natCast (n k : Nat) : wrapTo n k = k % 2 ^ n := by
  rw [wrapTo_eq_toNat_ofInt, BitVec.ofInt_natCast, BitVec.toNat_ofNat]

theorem State.target_ok (s : State) (h len : Nat) (hh : s.header s.cur h = .ok len) : s.target h = .ok h len := by
  unfold State.target
  rw [if_neg (by omega), Int.toNat_natCast, hh]

theorem State.target_astray (s : State) (t : Int) (ht : t < 0 ∨ s.header s.cur t.toNat = .bad) : s.target t = .no (.trap 8 2 0) := by
  unfold State.target
  split
  · rfl
  · rw [ht.resolve_left ‹_›]

/-- Where some targets are none, and the others pass, there is no effect but the trap of the lanes that have none. -/
theorem transferAll_astray (s s' : State) (act : List Nat) (tgt : Nat → Int) (p : Nat → Bool) (hne : act.filter p ≠ [])
    (hbad : ∀ l ∈ act, p l = true → s.target (tgt l) = .no (.trap 8 2 0))
    (hgood : ∀ l ∈ act, p l = false → ∃ h len, s.target (tgt l) = .ok h len) :
    ∃ lc, transferAll s s' act tgt =
      .trap s ⟨2, act.filter p, wrapTo 64 (tgt (s.cur.lowestTid (act.filter p))), 0, 0, lc⟩ := by
  obtain ⟨lc, hf⟩ := failed_trap s act
    (fun l => match s.target (tgt l) with | .ok .. => LaneAcc.ok ⟨[], 0, false, false, 0⟩ | .no a => a) p 8 2
    (fun l hl hp => by rw [hbad l hl hp])
    (fun l hl hp => by obtain ⟨h, len, ht⟩ := hgood l hl hp; rw [ht]; exact ⟨_, rfl⟩)
    hne (by decide) (by decide) (fun l => wrapTo 64 (tgt l)) (by decide)
  refine ⟨lc, ?_⟩
  unfold transferAll
  dsimp only
  rw [List.map_map]
  split
  next r hr => exact (Option.some.inj (hf.symm.trans hr)).symm
  next hr => cases hf.symm.trans hr

/-- The same where all active lanes have one target. -/
theorem transferAll_one_astray (s s' : State) (act : List Nat) (t : Int) (hne : act ≠ [])
    (ht : t < 0 ∨ s.header s.cur t.toNat = .bad) : ∃ lc, transferAll s s' act (fun _ => t) = .trap s ⟨2, act, wrapTo 64 t, 0, 0, lc⟩ := by
  have h := transferAll_astray s s' act (fun _ => t) (fun _ => true) (by rwa [List.filter_true])
    (fun _ _ _ => s.target_astray t ht) (fun _ _ hf => absurd hf (by decide))
  rwa [List.filter_true] at h

/-! ### The wave that writes a link, or performs its reductions -/

theorem Wave.length_writeLanes (w : Wave) (r : Nat) (ls : List Nat) (f : Nat → Nat) :
    (w.writeLanes false false r ls f).lanes.length = w.lanes.length := by
  unfold Wave.writeLanes
  induction ls generalizing w with
  | nil => rfl
  | cons l t ih =>
    obtain ⟨-, -, -, -, -, -, -, -, -, -, hlen⟩ := w.putV_frame l r (BitVec.ofNat 32 (f l))
    exact (ih _).trans hlen

/-- That the reads of a wave are fixed marks its pending producers alone. -/
theorem State.beforeRead_true_stays (s : State) (main : Bool) : (s.beforeRead main true).cur.Stays (s.beforeRead main false).cur := by
  unfold State.beforeRead
  simp only [Bool.and_true, Bool.and_false, Bool.false_and, Bool.false_eq_true, if_false]
  generalize (if (main && s.cur.pw.any _) = true then _ else s) = u
  split <;> exact ⟨rfl, rfl, rfl⟩

/-! ### The dispatch table (R93) -/

section
variable (f : FmtJ) (s : State) (iss act : List Nat)

/-- The table read of a lane. -/
def brdEntry (u : State) (l : Nat) : Except LaneAcc Nat := tableEntry u (s.cur.lane l).tid (s.cur.readV false l f.reg.toNat).toNat

/-- The target that a lane reads. -/
def brdTarget (u : State) (l : Nat) : Int := match brdEntry f s u l with | .ok t => (t : Int) | .error _ => -1

/-- The access of a lane to the table. -/
def brdAccess (l : Nat) : Access := (tableAccess s (s.cur.lane l).tid (s.cur.readV false l f.reg.toNat).toNat).access

/-- The check of a lane's read and target, in the order of the checks. -/
def brdCheck (l : Nat) : LaneAcc :=
  match brdEntry f s s l with
  | .error a => a
  | .ok t => match s.target t with | .ok .. => LaneAcc.ok ⟨[], 0, false, false, 0⟩ | .no a => a

/-- Where every entry is read and is the offset of a header, the lanes transfer by what they read once the reductions are performed. -/
theorem bodyBrd_of_ok (h len : Nat → Nat) (hs : s.cur.spec = 0)
    (hpass : ∀ l ∈ act, ∃ t n, brdEntry f s s l = .ok t ∧ s.header s.cur t = .ok n)
    (hu : let u := s.beforeRead (act.any (fun l => (brdAccess f s l).cls != 3)) true
      ∀ l ∈ act, brdEntry f s u l = .ok (h l) ∧ u.header u.cur (h l) = .ok (len l)) :
    let u := s.beforeRead (act.any (fun l => (brdAccess f s l).cls != 3)) true
    bodyBrd f iss act s = .jump { u with cur := act.foldl (fun w l => w.enter [l] (h l) (len l)) u.cur } act := by
  intro u
  have hv : verdict (act.map (fun l => (l, brdCheck f s l))) = .ok := by
    refine verdict_ok _ fun r hr => ?_
    obtain ⟨l, hl, rfl⟩ := List.mem_map.mp hr
    obtain ⟨t, n, ht, hn⟩ := hpass l hl
    exact ⟨_, by unfold brdCheck; rw [ht]; dsimp only; rw [s.target_ok t n hn]⟩
  have hjump := transfer_ok u u act (brdTarget f s u) h len (fun l hl => (hu l hl).2)
    (fun l hl => by unfold brdTarget; rw [(hu l hl).1])
  have hwait := taskWaits_of_spec s.cur (act.map (brdAccess f s)) hs
  have hread : (s.sign (act.map (brdAccess f s))).beforeRead ((act.map (brdAccess f s)).any (fun a => a.cls != 3)) true = u := by
    rw [s.sign_of_spec _ hs, List.any_map]
    rfl
  unfold bodyBrd
  dsimp only
  split
  next hr => cases hv.symm.trans hr
  next =>
    refine (if_neg (ne_true_of_eq_false hwait)).trans (Eq.trans ?_ hjump)
    exact congrArg (fun v => transferAll v v act (brdTarget f s v)) hread
  next hnok => exact absurd hv hnok

/-- Where every entry is read and is the offset of no header, all active lanes take the trap. -/
theorem bodyBrd_of_bad (hne : act ≠ []) (hbad : ∀ l ∈ act, ∃ t, brdEntry f s s l = .ok t ∧ s.header s.cur t = .bad) :
    ∃ t lc, brdEntry f s s (s.cur.lowestTid act) = .ok t ∧ bodyBrd f iss act s = .trap s ⟨2, act, t % 2 ^ 64, 0, 0, lc⟩ := by
  obtain ⟨t, ht, -⟩ := hbad _ (s.cur.lowestTid_mem act hne)
  obtain ⟨lc, hv⟩ := verdict_trap act (brdCheck f s) (fun _ => true) 8 2
    (fun l hl _ => by
      obtain ⟨t, ht, hb⟩ := hbad l hl
      unfold brdCheck
      rw [ht]
      dsimp only
      rw [s.target_astray t (.inr (by rwa [Int.toNat_natCast]))])
    (fun _ _ hf => absurd hf (by decide)) (by rwa [List.filter_true]) (by decide) (by decide)
  rw [List.filter_true] at hv
  refine ⟨t, lc, ht, ?_⟩
  unfold bodyBrd
  dsimp only
  split
  next hr =>
    cases hv.symm.trans hr
    change Res.trap s ⟨2, act, wrapTo 64 (brdTarget f s s (s.cur.lowestTid act)), 0, 0, lc⟩ = _
    unfold brdTarget
    rw [ht, wrapTo_natCast]
  next hr => cases hv.symm.trans hr
  next hnt _ => exact absurd hv (hnt _ _ _ _)

end

/-- Settles O12: a transfer whose targets all pass enters the blocks; else the lanes that have none trap. -/
theorem controlTransferResults : Obligations.ControlTransferResults := by
  intro f s h len
  dsimp only
  refine ⟨fun hr he hn => ?_, fun hr he hn => ?_, fun hr he hn => ?_, fun hr hpass hu => ?_, fun ha => ⟨fun hr => ?_, fun hr => ?_⟩,
    fun hr hne hgood => ?_, fun hr hbad => ?_⟩
  · exact transfers_of_jump _ s s h len _ hr rfl rfl (transfer_ok s s _ _ h len he fun l _ => (hn l).symm)
  · exact transfers_of_jump _ s _ h len (bodyCall f) hr rfl (s.cur.length_writeLanes ..)
      (transfer_ok s _ _ _ h len he fun l _ => (hn l).symm)
  · exact transfers_of_jump _ s s h len _ hr rfl rfl (transfer_ok s s _ _ h len he fun l hl => congrArg Int.ofNat (hn l hl).symm)
  · refine transfers_of_jump _ s _ h len (bodyBrd f) hr rfl ?_ (bodyBrd_of_ok f s _ _ h len (spec_of_ready hr) hpass hu)
    obtain ⟨-, hlanes, -⟩ := (s.beforeRead_true_stays _).trans
      (s.beforeRead_stays _ (lanes_ne_nil_of_active _ s (active_ne_nil_of_ready hr)))
    exact congrArg List.length hlanes
  · obtain ⟨lc, hb⟩ := transferAll_one_astray s s (active (.br f) s) _ (active_ne_nil_of_ready hr) ha
    exact ⟨lc, traps_of_trap _ s s _ _ hr rfl hb⟩
  · obtain ⟨lc, hb⟩ := transferAll_one_astray s _ (active (.call f) s) _ (active_ne_nil_of_ready hr) ha
    exact ⟨lc, traps_of_trap _ s s _ (bodyCall f) hr rfl hb⟩
  · obtain ⟨lc, hb⟩ := transferAll_astray s s (active (.ret f) s) (fun l => ((s.cur.readV false l f.reg.toNat).toNat : Int)) _ hne
      (fun l _ hp => s.target_astray _ (.inr (beq_iff_eq.mp hp)))
      (fun l hl hp => by
        obtain ⟨n, hn⟩ := hgood l hl (fun hbad => by rw [(List.mem_filter.mp hbad).2] at hp; cases hp)
        exact ⟨_, n, s.target_ok _ n hn⟩)
    rw [wrapTo_natCast, Nat.mod_eq_of_lt ((BitVec.isLt _).trans (by decide))] at hb
    exact ⟨lc, traps_of_trap _ s s _ _ hr rfl hb⟩
  · obtain ⟨t, lc, ht, hb⟩ := bodyBrd_of_bad f s s.cur.issuingSet _ (active_ne_nil_of_ready hr) hbad
    exact ⟨t, lc, ht, traps_of_trap _ s s _ (bodyBrd f) hr rfl hb⟩

end Sys2Proof.Machine

namespace Sys2Proof.Machine

/-! ### Register values as numbers of a type (R52, R74) -/

theorem Wave.readX_lt (w : Wave) (p wide : Bool) (l r : Nat) : w.readX p wide l r < 2 ^ (if wide then 64 else 32) := by
  have hlow := (w.readV p l r).isLt
  have hhigh := (w.readV p l (r + 1)).isLt
  unfold Wave.readX
  cases wide
  · exact hlow
  · simp only [if_true]
    omega

theorem srcA_lt (f : FmtA) (s : State) (l : Nat) : srcA f s l < 2 ^ tyBits f.ty := s.cur.readX_lt ..
theorem srcB_lt (f : FmtA) (s : State) (l : Nat) : srcB f s l < 2 ^ tyBits f.ty := s.cur.readX_lt ..

theorem tyVal_eq_numOf (t : Ty) (x : Nat) : tyVal t x = numOf t x := by
  unfold tyVal numOf
  rw [toSigned_eq_toInt, bvOf, BitVec.toNat_ofNat]

theorem wrapTo_eq_bitsOf (t : Ty) (x : Int) : wrapTo (tyBits t) x = bitsOf t x := wrapTo_eq_toNat_ofInt ..

theorem tyBits_pos (t : Ty) : 0 < tyBits t := by cases t <;> decide

/-- The number that a value stands for has the value's bits. -/
theorem ofInt_numOf (t : Ty) (x : Nat) : BitVec.ofInt (tyBits t) (numOf t x) = bvOf t x := by
  unfold numOf
  split
  · exact BitVec.ofInt_toInt
  · exact ofInt_toNat _

theorem bitsOf_numOf (t : Ty) (x : Nat) (h : x < 2 ^ tyBits t) : bitsOf t (numOf t x) = x := by
  rw [bitsOf, ofInt_numOf, bvOf, BitVec.toNat_ofNat, Nat.mod_eq_of_lt h]

/-- A type whose numbers run from `tyMin` to `tyMax`. -/
theorem tyMin_le_numOf (t : Ty) (x : Nat) : tyMin t ≤ numOf t x ∧ numOf t x ≤ tyMax t := by
  have hpos := Nat.two_pow_pred_add_two_pow_pred (tyBits_pos t)
  have hlt := (bvOf t x).isLt
  unfold tyMin tyMax numOf
  split
  · have hle := (bvOf t x).le_two_mul_toInt
    have hge := (bvOf t x).two_mul_toInt_lt
    rw [← Nat.cast_ofNat, ← Nat.cast_pow, ← hpos] at hle hge
    omega
  · omega

theorem tyMin_le_tyMax (t : Ty) : tyMin t ≤ tyMax t := (tyMin_le_numOf t 0).1.trans (tyMin_le_numOf t 0).2

theorem clampTo_eq (t : Ty) (x : Int) : clampTo t x = max (tyMin t) (min (tyMax t) x) := by
  cases t <;> rfl

/-- The saturated or wrapped result of the model is that of the exact number (R74). -/
theorem intResult_eq_satResult (t : Ty) (sat : Bool) (x : Int) : intResult t sat x = satResult t sat x := by
  have hle := tyMin_le_tyMax t
  unfold intResult satResult
  rw [clampTo_eq, wrapTo_eq_bitsOf, wrapTo_eq_bitsOf, wrapTo_eq_bitsOf]
  cases sat
  · rfl
  · by_cases hmax : tyMax t < x
    · have hclamp : max (tyMin t) (min (tyMax t) x) = tyMax t := by omega
      simp [hmax, hclamp, hmax.ne]
    · by_cases hmin : x < tyMin t
      · have hclamp : max (tyMin t) (min (tyMax t) x) = tyMin t := by omega
        simp [hmax, hmin, hclamp, hmin.ne']
      · have hclamp : max (tyMin t) (min (tyMax t) x) = x := by omega
        simp [hmax, hmin, hclamp]

theorem bitsOf_min (t : Ty) (a b : Nat) (ha : a < 2 ^ tyBits t) (hb : b < 2 ^ tyBits t) :
    bitsOf t (min (numOf t a) (numOf t b)) = if numOf t b < numOf t a then b else a := by
  split
  · rw [min_eq_right (by omega), bitsOf_numOf t b hb]
  · rw [min_eq_left (by omega), bitsOf_numOf t a ha]

theorem bitsOf_max (t : Ty) (a b : Nat) (ha : a < 2 ^ tyBits t) (hb : b < 2 ^ tyBits t) :
    bitsOf t (max (numOf t a) (numOf t b)) = if numOf t a < numOf t b then b else a := by
  split
  · rw [max_eq_right (by omega), bitsOf_numOf t b hb]
  · rw [max_eq_left (by omega), bitsOf_numOf t a ha]

theorem bitsOf_natCast (t : Ty) (k : Nat) (h : k < 2 ^ tyBits t) : bitsOf t k = k := by
  rw [bitsOf, BitVec.ofInt_natCast, BitVec.toNat_ofNat, Nat.mod_eq_of_lt h]

/-- Two numbers of a type differ by less than 2^n. -/
theorem natAbs_sub_numOf_lt (t : Ty) (a b : Nat) : (numOf t a - numOf t b).natAbs < 2 ^ tyBits t := by
  have ha := tyMin_le_numOf t a
  have hb := tyMin_le_numOf t b
  have hrange : tyMax t - tyMin t < (2 ^ tyBits t : Nat) := by cases t <;> decide
  omega

/-- The upper word of an exact product (R75). -/
theorem wrapTo_div_eq_bitsOf (t : Ty) (h : tyBits t = 32) (x : Int) : wrapTo 64 x / 2 ^ 32 = bitsOf t (x / 2 ^ 32) := by
  rw [← wrapTo_eq_bitsOf, h]
  unfold wrapTo
  omega

theorem wrapTo_mad_eq_bitsOf (t : Ty) (a b c : Nat) :
    wrapTo (tyBits t) ((a : Int) * b + c) = bitsOf t (numOf t a * numOf t b + numOf t c) := by
  rw [wrapTo_eq_bitsOf]
  unfold bitsOf
  simp only [BitVec.ofInt_add, BitVec.ofInt_mul, ofInt_numOf, BitVec.ofInt_natCast, bvOf]

/-! ### Format A and format B: a body completes with the value of its operation -/

section
variable {i : Instr} {s : State} (h : Ready i s) (hwide : s.taskWide i = s)
include h hwide

/-- An instruction of two vector sources gives every active lane the value of its operation. -/
theorem completes_bodyA3 {f : FmtA} {op : Nat → Nat → Nat × BitVec 6} {val : Nat → Nat × BitVec 6}
    (he : exec i s = issue i s (bodyA3 f op)) (hval : ∀ l, op (srcA f s l) (srcB f s l) = val l) :
    Completes i s (putA f s (active i s) f.ty.wide val) := by
  refine completes_of_done i s _ _ h he ?_
  rw [hwide, ← funext hval]
  rfl

/-- The same with a second source of one register. -/
theorem completes_bodyA3n {f : FmtA} {op : Nat → Nat → Nat × BitVec 6} {val : Nat → Nat × BitVec 6}
    (he : exec i s = issue i s (bodyA3n f op)) (hval : ∀ l, op (srcA f s l) (srcB1 f s l) = val l) :
    Completes i s (putA f s (active i s) f.ty.wide val) := by
  refine completes_of_done i s _ _ h he ?_
  rw [hwide, ← funext hval]
  rfl

/-- The same of one vector source. -/
theorem completes_bodyA2 {f : FmtA} {op : Nat → Nat × BitVec 6} {val : Nat → Nat × BitVec 6}
    (he : exec i s = issue i s (bodyA2 f f.ty.wide f.ty.wide op)) (hval : ∀ l, op (srcA f s l) = val l) :
    Completes i s (putA f s (active i s) f.ty.wide val) := by
  refine completes_of_done i s _ _ h he ?_
  rw [hwide, ← funext hval]
  rfl

/-- The same of format B, with operands of one width. -/
theorem completes_bodyB {f : FmtB} {wide : Bool} {op : Nat → Nat → Nat → Nat × BitVec 6} {val : Nat → Nat × BitVec 6}
    (he : exec i s = issue i s (bodyB f wide op))
    (hval : ∀ l, op (srcs f s wide l).1 (srcs f s wide l).2.1 (srcs f s wide l).2.2 = val l) :
    Completes i s (putB f s (active i s) wide val) := by
  refine completes_of_done i s _ _ h he ?_
  rw [hwide, ← funext hval]
  rfl
end

theorem legal_of_ready {i : Instr} {s : State} (h : Ready i s) : i.wellFormed = true := by
  obtain ⟨hlegal, -⟩ := h
  exact (Bool.and_eq_true_iff.mp hlegal).1

theorem tyBits_of_vmulh {f : FmtA} (h : (Instr.vmulh f).wellFormed = true) : tyBits f.ty = 32 := by
  have hty : f.ty = .u32 ∨ f.ty = .s32 := by
    simp only [Instr.wellFormed, wfA3, Bool.and_eq_true, Bool.or_eq_true, beq_iff_eq] at h
    tauto
  rcases hty with hty | hty <;> rw [hty] <;> rfl

/-- Settles O1: the model's numbers of a type are those of the bit vectors, and each result is narrowed once. -/
theorem integerArithmeticResults : Obligations.IntegerArithmeticResults := by
  refine ⟨fun f s => ⟨fun h => ?_, fun h => ?_, fun h => ?_, fun h => ?_, fun h => ?_, fun h => ?_, fun h => ?_⟩, fun f s h => ?_⟩
  · exact completes_bodyA3 h rfl rfl fun l => by rw [intResult_eq_satResult, tyVal_eq_numOf, tyVal_eq_numOf]
  · exact completes_bodyA3 h rfl rfl fun l => by rw [intResult_eq_satResult, tyVal_eq_numOf, tyVal_eq_numOf]
  · exact completes_bodyA3 h rfl rfl fun l => by rw [intResult_eq_satResult, tyVal_eq_numOf, tyVal_eq_numOf]
  · have hbits := tyBits_of_vmulh (legal_of_ready h)
    exact completes_bodyA3 h rfl rfl fun l => by rw [plain, wrapTo_div_eq_bitsOf f.ty hbits, tyVal_eq_numOf, tyVal_eq_numOf]
  · exact completes_bodyA3 h rfl rfl fun l => by
      rw [plain, bitsOf_min f.ty _ _ (srcA_lt ..) (srcB_lt ..), tyVal_eq_numOf, tyVal_eq_numOf]
  · exact completes_bodyA3 h rfl rfl fun l => by
      rw [plain, bitsOf_max f.ty _ _ (srcA_lt ..) (srcB_lt ..), tyVal_eq_numOf, tyVal_eq_numOf]
  · exact completes_bodyA3 h rfl rfl fun l => by
      rw [plain, bitsOf_natCast _ _ (natAbs_sub_numOf_lt ..), tyVal_eq_numOf, tyVal_eq_numOf]
  · exact completes_bodyB h rfl rfl fun l => by rw [plain, wrapTo_mad_eq_bitsOf]

end Sys2Proof.Machine

namespace Sys2Proof.Machine

/-! ### Bit vectors of register values (R77) -/

theorem toNat_bvOf (t : Ty) (x : Nat) (h : x < 2 ^ tyBits t) : (bvOf t x).toNat = x := by
  rw [bvOf, BitVec.toNat_ofNat, Nat.mod_eq_of_lt h]

theorem toNat_bvOf_srcA (f : FmtA) (s : State) (l : Nat) : (bvOf f.ty (srcA f s l)).toNat = srcA f s l := toNat_bvOf _ _ (srcA_lt ..)
theorem toNat_bvOf_srcB (f : FmtA) (s : State) (l : Nat) : (bvOf f.ty (srcB f s l)).toNat = srcB f s l := toNat_bvOf _ _ (srcB_lt ..)

section
variable {n : Nat} (a : BitVec n)

theorem notN_toNat : notN n a.toNat = (~~~a).toNat := by
  rw [notN, Nat.mod_eq_of_lt a.isLt, BitVec.toNat_not]

/-- Places that leave on the left enter on the right. -/
theorem rotate_eq_or (k : Nat) (hk : k ≤ n) :
    a.toNat * 2 ^ k % 2 ^ n + a.toNat / 2 ^ (n - k) = a.toNat <<< k % 2 ^ n ||| a.toNat >>> (n - k) := by
  have hn : 2 ^ n = 2 ^ k * 2 ^ (n - k) := by rw [← Nat.pow_add, Nat.add_sub_cancel' hk]
  have hhigh : a.toNat / 2 ^ (n - k) < 2 ^ k := Nat.div_lt_of_lt_mul (by rw [Nat.mul_comm, ← hn]; exact a.isLt)
  have hlow : a.toNat * 2 ^ k % 2 ^ n = (a.toNat % 2 ^ (n - k)) <<< k := by
    rw [Nat.shiftLeft_eq, hn, Nat.mul_comm (2 ^ k), Nat.mul_mod_mul_right]
  rw [Nat.shiftLeft_eq, Nat.shiftRight_eq_div_pow, hlow, Nat.shiftLeft_add_eq_or_of_lt hhigh]

theorem rotlN_toNat (k : Nat) (hn : 0 < n) : rotlN n a.toNat k = (a.rotateLeft k).toNat := by
  rw [BitVec.toNat_rotateLeft, ← rotate_eq_or a _ (Nat.mod_lt k hn).le, rotlN, Nat.mod_eq_of_lt a.isLt]

/-- A rotation to the right by k places is one to the left by n - k places. -/
theorem rotrN_toNat (k : Nat) (hn : 0 < n) : rotrN n a.toNat k = (a.rotateRight k).toNat := by
  have hk := Nat.mod_lt k hn
  rw [BitVec.toNat_rotateRight, Nat.or_comm]
  have hor := rotate_eq_or a (n - k % n) (Nat.sub_le ..)
  rw [Nat.sub_sub_self hk.le] at hor
  rw [← hor, rotrN, rotlN, Nat.mod_eq_of_lt a.isLt]
  rcases Nat.eq_zero_or_pos (k % n) with h0 | hpos
  · simp [h0, Nat.mod_eq_of_lt a.isLt, Nat.div_eq_of_lt a.isLt]
  · rw [Nat.mod_eq_of_lt (Nat.sub_lt hn hpos), Nat.sub_sub_self hk.le]
end

/-- Settles O2: the operations on natural numbers are those of the bit vectors. -/
theorem logicAndShiftResults : Obligations.LogicAndShiftResults := by
  refine ⟨fun f s => ⟨fun h => ?_, fun h => ?_, fun h => ?_, fun h => ?_, fun h => ?_, fun h => ?_, fun h => ?_, fun h => ?_⟩, fun f s h => ?_⟩
  · exact completes_bodyA3 h rfl rfl fun l => by rw [BitVec.toNat_and, toNat_bvOf_srcA, toNat_bvOf_srcB]; rfl
  · exact completes_bodyA3 h rfl rfl fun l => by rw [BitVec.toNat_or, toNat_bvOf_srcA, toNat_bvOf_srcB]; rfl
  · exact completes_bodyA3 h rfl rfl fun l => by rw [BitVec.toNat_xor, toNat_bvOf_srcA, toNat_bvOf_srcB]; rfl
  · exact completes_bodyA2 h rfl rfl fun l => by rw [← notN_toNat, toNat_bvOf_srcA, plain]
  · exact completes_bodyA3n h rfl rfl fun l => by rw [← shlN_toNat, toNat_bvOf_srcA, plain]
  · exact completes_bodyA3n h rfl rfl fun l => by rw [← shrN_toNat, toNat_bvOf_srcA, plain]
  · exact completes_bodyA3n h rfl rfl fun l => by rw [← sarN_toNat, toNat_bvOf_srcA, plain]
  · have hpos := tyBits_pos f.ty
    refine completes_bodyA3n h rfl rfl fun l => ?_
    simp only [plain, beq_iff_eq]
    split
    · rw [← rotlN_toNat _ _ hpos, toNat_bvOf_srcA]
    · rw [← rotrN_toNat _ _ hpos, toNat_bvOf_srcA]
  · refine completes_bodyB h rfl rfl fun l => ?_
    have ha : (srcs f s f.ty.wide l).1 < 2 ^ tyBits f.ty := s.cur.readX_lt ..
    have hb : (srcs f s f.ty.wide l).2.1 < 2 ^ tyBits f.ty := s.cur.readX_lt ..
    have hc : (srcs f s f.ty.wide l).2.2 < 2 ^ tyBits f.ty := s.cur.readX_lt ..
    dsimp only
    rw [BitVec.toNat_or, BitVec.toNat_and, BitVec.toNat_and, ← notN_toNat, toNat_bvOf _ _ ha, toNat_bvOf _ _ hb, toNat_bvOf _ _ hc]
    rfl

/-! ### Bits counted, reversed, taken out and put in (R78) -/

theorem foldl_add_range (g : Nat → Nat) (n : Nat) : (List.range n).foldl (fun c k => c + g k) 0 = ∑ k ∈ Finset.range n, g k := by
  induction n with
  | zero => rfl
  | succ n ih => rw [List.range_succ, List.foldl_append, ih, Finset.sum_range_succ]; rfl

theorem bitLen_eq_succ {x k : Nat} (hle : 2 ^ k ≤ x) (hlt : x < 2 ^ (k + 1)) : bitLen x = k + 1 := by
  have hx : x ≠ 0 := (Nat.two_pow_pos k |>.trans_le hle).ne'
  rw [bitLen, if_neg hx, (Nat.log2_eq_iff hx).mpr ⟨hle, hlt⟩]

theorem clzN_toNat {n : Nat} (a : BitVec n) (hn : 0 < n) : clzN n a.toNat = a.clz.toNat := by
  have hmod : (n : BitVec n).toNat = n := by simp [Nat.mod_eq_of_lt n.lt_two_pow_self]
  rw [clzN, Nat.mod_eq_of_lt a.isLt]
  by_cases h0 : a = 0#n
  · rw [BitVec.clz_eq_iff_eq_zero.mpr h0, hmod, h0]
    rfl
  · have hclz : a.clz.toNat < n := by simpa only [BitVec.lt_def, hmod] using BitVec.clz_lt_iff_ne_zero.mpr h0
    have hlt : a.toNat < 2 ^ (n - 1 - a.clz.toNat + 1) := by
      rw [show n - 1 - a.clz.toNat + 1 = n - a.clz.toNat by omega]
      exact BitVec.toNat_lt_two_pow_sub_clz
    rw [bitLen_eq_succ (BitVec.two_pow_sub_clz_le_toNat_of_ne_zero hn h0) hlt]
    omega

theorem popcN_eq_countP (n x : Nat) : popcN n x = (List.range n).countP (fun k => x.testBit k) := by
  rw [popcN, foldl_add_range]
  induction n with
  | zero => rfl
  | succ n ih =>
    rw [Finset.sum_range_succ, ih, List.range_succ, List.countP_append, ← Nat.toNat_testBit]
    cases hx : x.testBit n <;> simp [hx]

theorem brevN_eq_reverse (n x : Nat) : brevN n x = (BitVec.ofNat n x).reverse.toNat := by
  rw [brevN, foldl_add_range]
  induction n with
  | zero =>
    rw [BitVec.of_length_zero (x := (BitVec.ofNat 0 x).reverse)]
    rfl
  | succ n ih =>
    have hlow : (BitVec.ofNat (n + 1) x).setWidth n = BitVec.ofNat n x := by simp
    have hmsb : (BitVec.ofNat (n + 1) x).msb.toNat = x / 2 ^ n % 2 := by
      rw [← Nat.toNat_testBit, BitVec.msb_eq_getLsbD_last, Nat.add_sub_cancel, BitVec.getLsbD_ofNat]
      simp
    have hdouble : ∀ k ∈ Finset.range n, x / 2 ^ k % 2 * 2 ^ (n + 1 - 1 - k) = x / 2 ^ k % 2 * 2 ^ (n - 1 - k) * 2 := by
      intro k hk
      have hk := Finset.mem_range.mp hk
      rw [Nat.mul_assoc, ← Nat.pow_succ]
      congr 2
      omega
    rw [Finset.sum_range_succ, Finset.sum_congr rfl hdouble, ← Finset.sum_mul, ih, BitVec.reverse, BitVec.toNat_concat, BitVec.truncate,
      hlow, hmsb]
    simp

/-- `vext`: the field of the value b:a (R78). -/
theorem extVal_eq (signed : Bool) (a b c : Nat) (ha : a < 2 ^ 32) (hb : b < 2 ^ 32) :
    let field := (BitVec.ofNat 32 b ++ BitVec.ofNat 32 a).extractLsb' (c % 64) (min (c / 256 % 64) 32)
    extVal signed a b c = if signed then (field.signExtend 32).toNat else (field.setWidth 32).toNat := by
  intro field
  have hpair : (BitVec.ofNat 32 b ++ BitVec.ofNat 32 a).toNat = b * 2 ^ 32 + a := by
    rw [BitVec.toNat_append, BitVec.toNat_ofNat, BitVec.toNat_ofNat, Nat.mod_eq_of_lt ha, Nat.mod_eq_of_lt hb,
      ← Nat.shiftLeft_add_eq_or_of_lt ha, Nat.shiftLeft_eq]
  have hfield : field.toNat = (b * 2 ^ 32 + a) / 2 ^ (c % 64) % 2 ^ min (c / 256 % 64) 32 := by
    rw [BitVec.extractLsb'_toNat, hpair, Nat.shiftRight_eq_div_pow]
  have hsmall : field.toNat < 2 ^ 32 := field.isLt.trans_le (Nat.pow_le_pow_right (by decide) (Nat.min_le_right ..))
  unfold extVal
  dsimp only
  rw [← hfield]
  generalize min (c / 256 % 64) 32 = len at field
  cases signed
  · simp only [Bool.false_and, Bool.false_eq_true, if_false]
    rw [BitVec.toNat_setWidth, Nat.mod_eq_of_lt hsmall]
  · by_cases hlen : len = 0
    · subst hlen
      rw [BitVec.of_length_zero (x := field)]
      rfl
    · simp [hlen]
      rw [wrapTo_eq_toNat_ofInt, toSigned_eq_toInt, BitVec.ofNat_toNat, BitVec.setWidth_eq, BitVec.signExtend]

/-- `vins`: bits of b in the field, bits of a elsewhere (R78). -/
theorem testBit_insVal (a b c k : Nat) (hk : k < 32) :
    let pos := c % 32
    (insVal a b c).testBit k = if pos ≤ k ∧ k < pos + min (c / 256 % 64) (32 - pos) then b.testBit (k - pos) else a.testBit k := by
  intro pos
  have hmask : ∀ j, ((2 ^ min (c / 256 % 64) (32 - pos) - 1) * 2 ^ pos).testBit j =
      decide (pos ≤ j ∧ j < pos + min (c / 256 % 64) (32 - pos)) := by
    intro j
    rw [Nat.testBit_mul_two_pow, Nat.testBit_two_pow_sub_one, ← Bool.decide_and]
    exact decide_eq_decide.mpr (by omega)
  have hnot : ∀ m, (notN 32 m).testBit k = !m.testBit k := by
    intro m
    rw [notN, Nat.sub_sub, Nat.add_comm 1, Nat.testBit_two_pow_sub_succ (Nat.mod_lt _ (by decide)), Nat.testBit_mod_two_pow]
    simp [hk]
  change (a &&& notN 32 _ ||| b * 2 ^ pos % 2 ^ 32 &&& _).testBit k = _
  rw [Nat.testBit_or, Nat.testBit_and, Nat.testBit_and, hnot, hmask, Nat.testBit_mod_two_pow, Nat.testBit_mul_two_pow]
  split
  · rename_i h
    simp [h, hk]
  · rename_i h
    simp [h]

theorem insVal_lt (a b c : Nat) (ha : a < 2 ^ 32) : insVal a b c < 2 ^ 32 :=
  Nat.or_lt_two_pow (Nat.and_le_left.trans_lt ha) (Nat.and_le_left.trans_lt (Nat.mod_lt _ (by decide)))

/-- Settles O3: counts and reversal by induction on the width, the field of `vext` as a bit vector, and `vins` bit by bit. -/
theorem bitFieldResults : Obligations.BitFieldResults := by
  refine ⟨fun f s => ⟨fun h => ?_, fun h => ?_, fun h => ?_⟩, fun f s => ⟨fun h => ?_, fun h => ?_⟩⟩
  · exact completes_bodyA2 h rfl rfl fun l => by rw [← clzN_toNat _ (tyBits_pos f.ty), toNat_bvOf_srcA, plain]
  · exact completes_bodyA2 h rfl rfl fun l => by rw [← popcN_eq_countP, plain]
  · exact completes_bodyA2 h rfl rfl fun l => by rw [bvOf, ← brevN_eq_reverse, plain]
  · refine completes_bodyB h rfl rfl fun l => ?_
    have hext := extVal_eq (f.ty == .s32) (srcs f s false l).1 (srcs f s false l).2.1 (srcs f s false l).2.2
      (s.cur.readX_lt _ false ..) (s.cur.readX_lt _ false ..)
    simp only [beq_iff_eq] at hext
    exact congrArg (fun v => (v, (0 : BitVec 6))) hext
  · refine ⟨fun l => insVal (srcs f s false l).1 (srcs f s false l).2.1 (srcs f s false l).2.2,
      completes_bodyB h rfl rfl fun l => rfl, fun l => ⟨insVal_lt _ _ _ (s.cur.readX_lt _ false ..), fun k hk => ?_⟩⟩
    exact testBit_insVal _ _ _ k hk

end Sys2Proof.Machine

namespace Sys2Proof.Machine

/-! ### Carry, compares and moves (R79 to R81) -/

/-- The carry predicate counts as a number (R79). -/
theorem bodyAddc_eq (f : FmtA) (iss act : List Nat) (s : State) :
    let k := f.minor.toNat % 16
    let sum := fun l => s.cur.readX f.p false l f.va.toNat + s.cur.readX f.p false l f.vb.toNat + (predOf (s.cur.lane l) k).toNat
    bodyAddc f iss act s = .done (s.withCur ((s.cur.writeLanes f.p false f.vd.toNat act (fun l => sum l % 2 ^ 32)).writePreds k act
      (fun l => decide (2 ^ 32 ≤ sum l)))) [] := by
  intro k sum
  have hcarry : ∀ l, (if predOf (s.cur.lane l) k then 1 else 0) = (predOf (s.cur.lane l) k).toNat := fun l => by
    cases predOf (s.cur.lane l) k <;> rfl
  unfold bodyAddc
  simp only [k, hcarry]
  rfl

/-- Settles O4: the carry predicate counts as a number, and a condition holds as it does of the numbers. -/
theorem carryCompareMoveResults : Obligations.CarryCompareMoveResults := by
  refine ⟨fun f s => ⟨fun h => ?_, fun h => ?_, fun h => ?_⟩, fun f s h => ?_, fun f s => ⟨fun h => ?_, fun h => ?_⟩⟩
  · exact completes_of_done _ s _ (bodyAddc f) h rfl (bodyAddc_eq f _ _ s)
  · refine ⟨_, completes_of_done _ s _ (bodyVcmp f) h rfl rfl, fun l => (condHolds_iff ..).trans ?_⟩
    rw [tyVal_eq_numOf, tyVal_eq_numOf]
    rfl
  · exact completes_bodyA2 h rfl rfl fun l => rfl
  · exact completes_of_done _ s _ _ h rfl rfl
  · exact completes_of_done _ s _ _ h rfl rfl
  · exact completes_of_done _ s _ _ h rfl rfl

/-! ### Lane operations under a member mask (R82) -/

theorem Lane.live_eq (x : Lane) : x.live = !decide (x.st = .exited) := by
  unfold Lane.live
  by_cases h : x.st = .exited <;> simp [h]

theorem Lane.ite_live {α : Type} (x : Lane) (a b : α) : (if x.live then a else b) = if x.st = .exited then b else a := by
  rw [Lane.live_eq]
  by_cases h : x.st = .exited <;> simp [h]

/-- A write in lanes takes no more than the values of these lanes. -/
theorem Wave.writeLanes_congr (w : Wave) (p wide : Bool) (r : Nat) (ls : List Nat) (f g : Nat → Nat) (h : ∀ l ∈ ls, f l = g l) :
    w.writeLanes p wide r ls f = w.writeLanes p wide r ls g :=
  List.foldl_ext _ _ _ fun v l hl => by rw [h l hl]

theorem mem_issuingSet_of_active {i : Instr} {s : State} {l : Nat} (h : l ∈ active i s) : l ∈ s.cur.issuingSet :=
  (List.mem_filter.mp h).1

/-- An active lane has not exited. -/
theorem st_of_active {i : Instr} {s : State} {l : Nat} (h : l ∈ active i s) : (s.cur.lane l).st = .run :=
  st_of_mem_issuingSet (mem_issuingSet_of_active h)

section
variable {i : Instr} {s : State} {mask : Word64} {body : List Nat → List Nat → State → Res} {k : Wave}
  (h : Ready i s) (he : exec i s = issue i s body)
  (hbody : body s.cur.issuingSet (active i s) (s.taskWide i) = maskChecked mask (active i s) s k)
include h he hbody

/-- Every active lane is a member: the operation takes place. -/
theorem completes_of_members (hmem : ∀ l ∈ active i s, tbit mask l = true) : Completes i s (s.withCur k) :=
  completes_of_done i s _ body h he (hbody.trans (if_pos (List.all_eq_true.mpr hmem)))

/-- Some active lane is no member: every active lane takes the illegal-instruction trap. -/
theorem traps_of_not_member (hout : ∃ l ∈ active i s, tbit mask l = false) : Traps i s s ⟨1, active i s, 0, 0, 0, []⟩ := by
  obtain ⟨l, hl, hbit⟩ := hout
  refine traps_of_trap i s s _ body h he (hbody.trans (if_neg fun hall => ?_))
  rw [List.all_eq_true.mp hall l hl] at hbit
  cases hbit
end

/-- The lane whose value `vshfl` gives is the one named where that is a member, else the lane itself (R84). -/
theorem Wave.shflLane_eq (w : Wave) (f : FmtB) (l : Nat) : w.shflLane f l =
    match shflSource f.minor.toNat l (w.readX f.p false l f.vb.toNat) with
    | none => l
    | some k => if k < w.width ∧ tbit (w.getS f.vc.toNat) k = true then k else l := by
  unfold Wave.shflLane
  cases shflSource f.minor.toNat l (w.readX f.p false l f.vb.toNat) with
  | none => rfl
  | some k =>
    by_cases hk : k < w.width
    · cases hb : tbit (w.getS f.vc.toNat) k <;> simp [hk, hb]
    · simp [hk, Nat.le_of_not_lt hk]

/-- What a running lane receives of `vshfl` (R84): 0 from a member that has exited. -/
theorem shflValue_eq (f : FmtB) (w : Wave) (l : Nat) (hrun : (w.lane l).st = .run) :
    (if w.shflLane f l == l || (w.lane (w.shflLane f l)).live then w.readX f.p f.ty.wide (w.shflLane f l) f.va.toNat else 0) =
    (match shflSource f.minor.toNat l (w.readX f.p false l f.vb.toNat) with
      | none => w.readX f.p f.ty.wide l f.va.toNat
      | some k =>
        if k < w.width ∧ tbit (w.getS f.vc.toNat) k = true then
          if (w.lane k).st = .exited then 0 else w.readX f.p f.ty.wide k f.va.toNat
        else w.readX f.p f.ty.wide l f.va.toNat) := by
  have hlane := w.shflLane_eq f l
  generalize w.shflLane f l = src at hlane ⊢
  have hown : src = l → (if src == l || (w.lane src).live then w.readX f.p f.ty.wide src f.va.toNat else 0) =
      w.readX f.p f.ty.wide l f.va.toNat := fun h => by simp [h]
  cases hnamed : shflSource f.minor.toNat l (w.readX f.p false l f.vb.toNat) with
  | none => exact hown (by rw [hlane, hnamed])
  | some k =>
    rw [hnamed] at hlane
    dsimp only at hlane ⊢
    by_cases hmem : k < w.width ∧ tbit (w.getS f.vc.toNat) k = true
    · rw [if_pos hmem] at hlane ⊢
      subst hlane
      by_cases hself : src = l
      · rw [hown hself, hself, hrun]
        rfl
      · rw [beq_eq_false_iff_ne.mpr hself, Bool.false_or]
        exact Lane.ite_live ..
    · rw [if_neg hmem] at hlane ⊢
      exact hown hlane

/-- The members that have not exited. -/
theorem Wave.members_live (w : Wave) (mask : Word64) :
    (w.members mask).filter (fun m => (w.lane m).live) = w.idx.filter (fun m => tbit mask m && (w.lane m).live) :=
  (List.filter_filter ..).trans (List.filter_congr fun _ _ => Bool.and_comm ..)

theorem all_not_eq (xs : List Nat) (p : Nat → Bool) : xs.all (fun m => !p m) = !xs.any p := by
  rw [List.not_any_eq_all_not]

/-- The effect of `vvote` by its operation (R86). -/
theorem bodyVvote_eq (f : FmtA) (iss act : List Nat) (s : State) :
    let members := s.cur.idx.filter (fun m => tbit (s.cur.getS f.vb.toNat) m && (s.cur.lane m).live)
    let holds := fun m => predOf (s.cur.lane m) f.va.toNat
    bodyVvote f iss act s = maskChecked (s.cur.getS f.vb.toNat) act s
      (if f.minor = 2 then s.cur.writeLanes f.p (s.cur.width == 64) f.vd.toNat act (fun _ => (maskOf (members.filter holds)).toNat)
       else s.cur.writePreds f.vd.toNat act (fun _ =>
         if f.minor = 0 then members.all holds else if f.minor = 1 then members.any holds
         else members.all holds || !members.any holds)) := by
  intro members holds
  have hminor : ∀ k : BitVec 8, f.minor.toNat = k.toNat ↔ f.minor = k := fun k => BitVec.toNat_inj
  have h0 := hminor 0
  have h1 := hminor 1
  have h2 := hminor 2
  unfold bodyVvote
  dsimp only
  rw [Wave.members_live]
  congr 1
  split
  next h => rw [if_neg (by rw [← h2, h]; decide), if_pos (h0.mp h)]
  next h => rw [if_neg (by rw [← h2, h]; decide), if_neg (by rw [← h0, h]; decide), if_pos (h1.mp h)]
  next h => rw [if_pos (h2.mp h)]
  next n0 n1 n2 =>
    rw [if_neg (fun h => n2 (h2.mpr h)), if_neg (fun h => n0 (h0.mpr h)), if_neg (fun h => n1 (h1.mpr h)), all_not_eq]

/-- The lanes that `vcompact` counts for a lane (R88). -/
theorem bodyVcompact_eq (f : FmtA) (iss act : List Nat) (s : State) :
    let members := s.cur.idx.filter (fun m => tbit (s.cur.getS f.vb.toNat) m && (s.cur.lane m).live)
    bodyVcompact f iss act s = maskChecked (s.cur.getS f.vb.toNat) act s (s.cur.writeLanes f.p false f.vd.toNat act (fun l =>
      (members.filter (fun m => predOf (s.cur.lane m) f.va.toNat && decide ((s.cur.lane m).tid < (s.cur.lane l).tid))).length)) := by
  intro members
  have hsplit : (s.cur.members (s.cur.getS f.vb.toNat)).filter (fun m => (s.cur.lane m).live && predOf (s.cur.lane m) f.va.toNat) =
      members.filter (fun m => predOf (s.cur.lane m) f.va.toNat) := by
    rw [← List.filter_filter, List.filter_comm, Wave.members_live]
  unfold bodyVcompact
  dsimp only
  rw [hsplit]
  congr 3
  funext l
  rw [List.filter_filter]
  exact congrArg List.length (List.filter_congr fun _ _ => Bool.and_comm ..)

/-- Settles O5: under the member mask each operation gives what its body computes from the state before any write. -/
theorem laneExchangeResults : Obligations.LaneExchangeResults := by
  refine ⟨fun f s h hmem => ?_, fun f s => ⟨fun h => ?_, fun h hmem => ?_, fun h hmem => ?_⟩, fun i mask s hi h hout => ?_⟩
  · have hval := s.cur.writeLanes_congr f.p f.ty.wide f.vd.toNat _ _ _ fun l hl => shflValue_eq f s.cur l (st_of_active (i := .vshfl f) hl)
    exact completes_of_members (body := bodyVshfl f) h rfl (congrArg (maskChecked _ _ s) hval) hmem
  · refine completes_of_done _ s _ (bodyVbcast f) h rfl ?_
    unfold bodyVbcast
    simp only [Lane.ite_live]
    rfl
  · have hc := completes_of_members (body := bodyVvote f) h rfl (bodyVvote_eq f _ _ s) hmem
    rwa [apply_ite (s.withCur)] at hc
  · exact completes_of_members (body := bodyVcompact f) h rfl (bodyVcompact_eq f _ _ s) hmem
  · rcases hi with ⟨f, rfl, rfl⟩ | ⟨f, rfl, rfl | rfl | rfl | rfl⟩
    · exact traps_of_not_member (body := bodyVshfl f) h rfl rfl hout
    · exact traps_of_not_member (body := bodyVvote f) h rfl rfl hout
    · exact traps_of_not_member (body := bodyVcompact f) h rfl rfl hout
    · exact traps_of_not_member (body := bodyVred f) h rfl rfl hout
    · exact traps_of_not_member (body := bodyVscan f) h rfl rfl hout

end Sys2Proof.Machine

namespace Sys2Proof.Machine

/-! ### Reductions and scans (R83, R87) -/

section
variable (op : Nat → Nat → Nat × BitVec 6)

theorem treeLevel_cons_cons (a b : Nat) (r : List Nat) : treeLevel op (a :: b :: r) =
    ((op a b).1 :: (treeLevel op r).1, (op a b).2 ||| (treeLevel op r).2) := rfl

theorem tree_cons_cons (n a b : Nat) (r : List Nat) : tree op (n + 1) (a :: b :: r) =
    ((tree op n (treeLevel op (a :: b :: r)).1).1, (treeLevel op (a :: b :: r)).2 ||| (tree op n (treeLevel op (a :: b :: r)).1).2) := rfl

/-- A level takes neighbours together: two or more elements become fewer, and none is lost that is alone. -/
theorem two_mul_length_treeLevel : ∀ xs : List Nat, xs.length ≤ 2 * (treeLevel op xs).1.length ∧ 2 * (treeLevel op xs).1.length ≤ xs.length + 1
  | [] => ⟨Nat.le_refl 0, Nat.zero_le 1⟩
  | [_] => ⟨Nat.le_succ 1, Nat.le_refl 2⟩
  | a :: b :: r => by
    have ih := two_mul_length_treeLevel r
    rw [treeLevel_cons_cons]
    simp only [List.length_cons]
    omega
end

/-- Addition modulo N, without flags: that of an integer reduction (R87). -/
def addMod (N a b : Nat) : Nat × BitVec 6 := plain ((a + b) % N)

section
variable (N : Nat)

/-- A level keeps the sum modulo N, and raises no flag. -/
theorem treeLevel_addMod (hN : 0 < N) : ∀ xs : List Nat, (∀ x ∈ xs, x < N) →
    (treeLevel (addMod N) xs).1.sum % N = xs.sum % N ∧ (∀ y ∈ (treeLevel (addMod N) xs).1, y < N) ∧ (treeLevel (addMod N) xs).2 = 0
  | [], h => ⟨rfl, h, rfl⟩
  | [_], h => ⟨rfl, h, rfl⟩
  | a :: b :: r, h => by
    obtain ⟨hsum, hlt, hflags⟩ := treeLevel_addMod hN r fun x hx => h x (List.mem_cons_of_mem _ (List.mem_cons_of_mem _ hx))
    rw [treeLevel_cons_cons]
    refine ⟨?_, ?_, ?_⟩
    · calc ((a + b) % N + (treeLevel (addMod N) r).1.sum) % N
          _ = (a + b + r.sum) % N := by rw [Nat.mod_add_mod, Nat.add_mod, hsum, ← Nat.add_mod]
          _ = (a :: b :: r).sum % N := by rw [List.sum_cons, List.sum_cons, Nat.add_assoc]
    · intro y hy
      rcases List.mem_cons.mp hy with rfl | hy
      · exact Nat.mod_lt _ hN
      · exact hlt y hy
    · rw [hflags]
      exact BitVec.or_zero

/-- The tree gives the sum modulo N (R87). -/
theorem tree_addMod (hN : 0 < N) (n : Nat) (xs : List Nat) (hlen : xs.length ≤ n) (hne : xs ≠ []) (hlt : ∀ x ∈ xs, x < N) :
    tree (addMod N) n xs = (xs.sum % N, 0) := by
  induction n generalizing xs with
  | zero => exact absurd (List.length_eq_zero_iff.mp (Nat.le_zero.mp hlen)) hne
  | succ n ih =>
    match xs, hne with
    | [x], _ =>
      rw [List.sum_singleton, Nat.mod_eq_of_lt (hlt x (List.mem_singleton_self x))]
      rfl
    | a :: b :: r, _ =>
      obtain ⟨hsum, hltlevel, hflags⟩ := treeLevel_addMod N hN (a :: b :: r) hlt
      have hlevel := two_mul_length_treeLevel (addMod N) (a :: b :: r)
      simp only [List.length_cons] at hlevel hlen
      rw [tree_cons_cons, ih _ (by omega) (fun h => by rw [h] at hlevel; simp at hlevel) hltlevel, hsum, hflags]
      exact congrArg (Prod.mk _) BitVec.or_zero
end

theorem isFlt_of_isInt (t : Ty) : t.isInt = true → t.isFlt = false := by cases t <;> decide

theorem combine_add (contract : Nat) (t : Ty) (h : t.isInt = true) : combine contract t 0 = addMod (2 ^ tyBits t) := by
  funext a b
  unfold combine
  rw [isFlt_of_isInt t h]
  rfl

theorem identity_add (t : Ty) (h : t.isInt = true) : identity t 0 = 0 := by
  unfold identity
  rw [isFlt_of_isInt t h]
  rfl

/-- What a member contributes, by whether it has exited (R83). -/
theorem contribution_eq (f : FmtA) (s : State) (ident m : Nat) : s.cur.contribution f.p f.ty.wide f.va.toNat ident m =
    if (s.cur.lane m).st = .exited then ident else srcA f s m := Lane.ite_live ..

/-- Settles O6: the body folds the members' contributions; the sum of an integer reduction is that of `tree_addMod`. -/
theorem reductionAndScanResults : Obligations.ReductionAndScanResults := by
  intro f s ms gives
  have hgives : ∀ op, s.cur.contribution f.p f.ty.wide f.va.toNat (identity f.ty op) = gives op := fun op =>
    funext fun m => contribution_eq ..
  refine ⟨fun h hmem => ⟨?_, fun hint hminor hne => ?_⟩, fun h hmem => ?_⟩
  · refine completes_of_members (body := bodyVred f) h rfl ?_ hmem
    rw [← hgives]
    rfl
  · rw [hminor] at hne ⊢
    change tree (combine s.contract f.ty 0) _ _ = _
    rw [combine_add _ _ hint]
    refine tree_addMod _ (Nat.two_pow_pos _) _ _ (Nat.le_refl _) hne fun x hx => ?_
    obtain ⟨m, -, rfl⟩ := List.mem_map.mp hx
    show (if _ then identity f.ty 0 else srcA f s m) < _
    split
    · rw [identity_add _ hint]
      exact Nat.two_pow_pos _
    · exact srcA_lt ..
  · refine completes_of_members (body := bodyVscan f) h rfl ?_ hmem
    rw [← hgives]
    rfl

end Sys2Proof.Machine

namespace Sys2Proof.Machine

/-! ### Stores at issue (R100, R101) -/

theorem laneAccesses_store (s : State) (space n : Nat) (ls : List Nat) (ea : Nat → Nat) : laneAccesses s needStore space n ls ea =
    ls.map (fun l => (l, checkAccess s s.cur false needStore space (s.cur.lane l).tid (ea l) n)) := by
  have hneed : (needStore == needLoad) = false := by decide
  unfold laneAccesses
  simp only [hneed, Bool.and_false, Bool.false_eq_true, if_false]

theorem laneAccesses_store_of_ok (s : State) (space n : Nat) (ls : List Nat) (ea : Nat → Nat) (a : Nat → Access)
    (h : ∀ l ∈ ls, checkAccess s s.cur false needStore space (s.cur.lane l).tid (ea l) n = .ok (a l)) :
    laneAccesses s needStore space n ls ea = ls.map (fun l => (l, .ok (a l))) := by
  rw [laneAccesses_store]
  exact List.map_congr_left fun l hl => by rw [h l hl]

theorem failed_of_ok (s : State) (act ls : List Nat) (ea : Nat → Nat) (a : Nat → Access) (all : Bool) :
    failed s act ea (ls.map (fun l => (l, .ok (a l)))) all = none :=
  failed_none _ _ _ _ _ fun r hr => by
    obtain ⟨l, -, rfl⟩ := List.mem_map.mp hr
    exact ⟨a l, rfl⟩

theorem State.holdRoom_of_spec (s : State) (locs : List Nat) (h : s.cur.spec = 0) : s.holdRoom locs = true := by
  unfold State.holdRoom
  rw [h]
  rfl

/-- Where all accesses pass, the bytes are queued in the order of `$tid` (R100). -/
theorem bodySt_of_ok (f : FmtM) (iss act : List Nat) (s : State) (a : Nat → Access) (hs : s.cur.spec = 0)
    (ha : ∀ l ∈ act, checkAccess s s.cur false needStore f.space.toNat (s.cur.lane l).tid (s.cur.effAddr f l) (accBytes f) = .ok (a l)) :
    let as := (s.cur.byTid act).map (fun l => (l, a l))
    bodySt f iss act s = .done ((s.countAccess (as.map Prod.snd)).storeAll as (storeBytes s.cur f) (fun _ => false)) [] := by
  intro as
  have hrs := laneAccesses_store_of_ok s f.space.toNat (accBytes f) (s.cur.byTid act) (s.cur.effAddr f) a
    fun l hl => ha l ((s.cur.mem_byTid act l).mp hl)
  unfold bodySt
  simp only [hrs, failed_of_ok, passedOf_of_ok, State.holdRoom_of_spec _ _ hs, Bool.not_true, Bool.false_eq_true, if_false, hs,
    Nat.reduceBEq, Bool.false_and, as]

theorem bodySst_of_ok (f : FmtM) (iss act : List Nat) (s : State) (a : Access) (hs : s.cur.spec = 0)
    (ha : checkAccess s s.cur false needStore f.space.toNat (s.cur.lane (s.cur.lowestTid act)).tid
      (s.cur.effAddr f (s.cur.lowestTid act)) (accBytes f) = .ok a) :
    bodySst f iss act s = .done ((s.countAccess [a]).storeAll [(s.cur.lowestTid act, a)]
      (fun _ => leBytes (accBytes f) (s.cur.getS f.rd.toNat).toNat) (fun _ => false)) [] := by
  have hrs := laneAccesses_store_of_ok s f.space.toNat (accBytes f) [s.cur.lowestTid act] (s.cur.effAddr f) (fun _ => a) (by simpa using ha)
  unfold bodySst
  simp only [hrs, failed_of_ok, passedOf_of_ok, State.holdRoom_of_spec _ _ hs, Bool.not_true, Bool.false_eq_true, if_false, hs,
    Nat.reduceBEq, Bool.false_and]
  rfl

/-- Settles O16: a store whose accesses all pass completes as its body says, by `bodySt_of_ok` and `bodySst_of_ok`. -/
theorem storeResults : Obligations.StoreResults := by
  intro f s n check
  refine ⟨fun a hr ha => ?_, fun a hr ha => ?_⟩
  · exact completes_of_done _ _ _ (bodySt f) hr rfl (bodySt_of_ok f _ _ s a (spec_of_ready hr) ha)
  · exact completes_of_done _ _ _ (bodySst f) hr rfl (bodySst_of_ok f _ _ s a (spec_of_ready hr) ha)

end Sys2Proof.Machine

namespace Sys2Proof.Machine

/-! ### Accesses that pass (R97 to R99) -/

theorem locs_of_poisonCheck {s : State} {w : Wave} {need : AccNeed} {atomic : Bool} {x a : Access}
    (h : poisonCheck s w need atomic x = .ok a) : a.locs = x.locs ∧ (need.poison = false → a = x) := by
  unfold poisonCheck at h
  extract_lets bad at h
  split at h
  next hbad =>
    split at h
    · cases h
      exact ⟨rfl, fun hp => by simp [hp] at hbad⟩
    · cases h
  · cases h
    exact ⟨rfl, fun _ => rfl⟩

/-- An access that passes has a location for each of its bytes, and no byte of it reads as zero where poison is not checked. -/
theorem access_of_checkAccess {s : State} {w : Wave} {now : Bool} {need : AccNeed} {space tid ea n : Nat} {a : Access}
    (h : checkAccess s w now need space tid ea n = .ok a) : a.locs.length = n ∧ (need.poison = false → a.zero = false) := by
  have hpass : ∀ x : Access, x.locs.length = n → x.zero = false → poisonCheck s w need (need.r && need.w) x = .ok a →
      a.locs.length = n ∧ (need.poison = false → a.zero = false) := by
    intro x hlen hzero hx
    obtain ⟨hlocs, hsame⟩ := locs_of_poisonCheck hx
    exact ⟨hlocs ▸ hlen, fun hp => hsame hp ▸ hzero⟩
  have hlen : ∀ g : Nat → Nat, ((List.range n).map g).length = n := fun g => by rw [List.length_map, List.length_range]
  unfold checkAccess at h
  dsimp only at h
  split at h
  · cases h
  · split at h
    · cases h
    · split at h
      · cases h
      · exact hpass _ (hlen _) rfl h
    · split at h
      · cases h
      · exact hpass _ (hlen _) rfl h
    · split at h
      · cases h
      · generalize (if now = true then _ else _ : Trans) = tr at h
        cases tr with
        | miss => cases h
        | fault m => cases h
        | hit size w0 w1 =>
          dsimp only at h
          split at h
          · cases h
          · split at h
            · cases h
            · split at h
              · cases h
              · exact hpass _ (hlen _) rfl h

end Sys2Proof.Machine

namespace Sys2Proof.Machine

/-! ### The wave's own bytes (R100) -/

theorem lastByte_cons (b : Nat × Byte) (bs : List (Nat × Byte)) (loc : Nat) :
    lastByte (b :: bs) loc = (lastByte bs loc).or (if b.1 = loc then some b.2 else none) := by
  have h := lastByte_append [b] bs loc
  rw [List.singleton_append] at h
  rw [h]
  simp [lastByte]

theorem lastByte_eq_none (bs : List (Nat × Byte)) (loc : Nat) : lastByte bs loc = none ↔ loc ∉ bs.map Prod.fst := by
  induction bs with
  | nil => simp [lastByte]
  | cons b r ih =>
    rw [lastByte_cons, Option.or_eq_none_iff, ih]
    simp [and_comm, eq_comm]

/-- A list with the last value of each location gives the same bytes. -/
theorem lastByte_lastBytes (bs : List (Nat × Byte)) (loc : Nat) : lastByte (lastBytes bs) loc = lastByte bs loc := by
  induction bs with
  | nil => rfl
  | cons b r ih =>
    rw [lastByte_cons, lastBytes]
    split
    next hlater =>
      rw [ih]
      by_cases hb : b.1 = loc
      · have hsome : lastByte r loc ≠ none := fun hnone => by
          obtain ⟨c, hc, heq⟩ := List.any_eq_true.mp hlater
          exact (lastByte_eq_none r loc).mp hnone (List.mem_map.mpr ⟨c, hc, (beq_iff_eq.mp heq).trans hb⟩)
        obtain ⟨x, hx⟩ := Option.ne_none_iff_exists'.mp hsome
        rw [hx]
        rfl
      · rw [if_neg hb, Option.or_none]
    · rw [lastByte_cons, ih]

/-- Bytes at distinct locations are read back in their order. -/
theorem lastByte_zip (locs : List Nat) (bytes : List Byte) (hn : locs.Nodup) (hlen : bytes.length = locs.length) :
    locs.map (lastByte (locs.zip bytes)) = bytes.map some := by
  induction locs generalizing bytes with
  | nil => rw [List.length_eq_zero_iff.mp hlen]; rfl
  | cons l r ih =>
    obtain ⟨b, bs, rfl⟩ := List.exists_cons_of_length_eq_add_one hlen
    obtain ⟨hout, hn⟩ := List.nodup_cons.mp hn
    have hlen : bs.length = r.length := Nat.succ.inj hlen
    have hfst : (r.zip bs).map Prod.fst = r := List.map_fst_zip hlen.ge
    rw [List.zip_cons_cons, List.map_cons, List.map_cons, ← ih bs hn hlen]
    congr 1
    · rw [lastByte_cons, (lastByte_eq_none _ _).mpr (by rwa [hfst])]
      simp
    · refine List.map_congr_left fun k hk => ?_
      rw [lastByte_cons, if_neg (fun h : l = k => hout (h ▸ hk)), Option.or_none]

section
variable (w : Wave) (bytes : List (Nat × Byte)) (fb : Bool) (hs : w.spec = 0)
include hs

/-- Outside a speculation a store is queued as one pending write, and nothing else of the wave changes but what its task has stored. -/
theorem Wave.queueStore_eq : ∃ task, w.queueStore bytes fb =
    { w with pw := w.pw ++ (if bytes.isEmpty then [] else [{ bytes := bytes, kind := .store, fb := fb, part := false }]), task := task } := by
  unfold Wave.queueStore
  split
  · exact ⟨w.task, by rw [List.append_nil]⟩
  · exact ⟨_, if_neg (by rw [hs]; decide)⟩

theorem Wave.spec_queueStore : (w.queueStore bytes fb).spec = 0 := by
  obtain ⟨task, h⟩ := w.queueStore_eq bytes fb hs
  rw [h]
  exact hs

/-- A byte that a queued store does not name is the wave's own as before. -/
theorem Wave.ownByte_queueStore_other (loc : Nat) (h : lastByte bytes loc = none) :
    (w.queueStore bytes fb).ownByte loc = w.ownByte loc := by
  obtain ⟨task, hq⟩ := w.queueStore_eq bytes fb hs
  rw [hq]
  unfold Wave.ownByte
  dsimp only
  rw [List.foldl_append]
  cases bytes.isEmpty
  · simp [h]
  · rfl

/-- A byte that it names is the wave's own where nothing is held. -/
theorem Wave.ownByte_queueStore_same (loc : Nat) (b : Byte) (hold : w.hold = []) (h : lastByte bytes loc = some b) :
    (w.queueStore bytes fb).ownByte loc = some b := by
  obtain ⟨task, hq⟩ := w.queueStore_eq bytes fb hs
  have hne : bytes.isEmpty = false := by
    cases bytes with
    | nil => cases h
    | cons => rfl
  rw [hq]
  unfold Wave.ownByte
  dsimp only
  rw [List.foldl_append, hold, hne]
  simp [h]
end

/-! ### A store of several lanes (R100, R233) -/

/-- The bytes of a store of class 3, or of the other ones. -/
def partBytesOf (as : List (Nat × Access)) (bytes : Nat → List Byte) (fb : Bool) : List (Nat × Byte) :=
  lastBytes ((as.filter (fun a => (a.2.cls == 3) == fb)).flatMap (fun a => a.2.locs.zip (bytes a.1)))

theorem State.storeAll_eq (s : State) (as : List (Nat × Access)) (bytes : Nat → List Byte) (hs : s.cur.spec = 0) :
    s.storeAll as bytes (fun _ => false) =
      s.withCur ((s.cur.queueStore (partBytesOf as bytes false) false).queueStore (partBytesOf as bytes true) true) := by
  have hfilter : ∀ fb, as.filter (fun a => (a.2.cls == 3) == fb && false == false) = as.filter (fun a => (a.2.cls == 3) == fb) :=
    fun fb => List.filter_congr fun a _ => Bool.and_true _
  have hspec := Wave.spec_queueStore _ (partBytesOf as bytes true) true
    (Wave.spec_queueStore s.cur (partBytesOf as bytes false) false hs)
  unfold partBytesOf at hspec ⊢
  unfold State.storeAll
  simp only [hfilter, hspec, Nat.reduceBEq, Bool.false_and, Bool.false_eq_true, if_false]
  rfl

end Sys2Proof.Machine

namespace Sys2Proof.Machine

/-! ### The counts of an access (R129, R300) -/

@[simp] theorem length_leBytes (n v : Nat) : (leBytes n v).length = n := by rw [leBytes, List.length_map, List.length_range]

/-- A count changes the four bytes that hold it, and no more of memory. -/
theorem State.read_countUp (s : State) (g : Grid) (off n loc : Nat)
    (h : ¬ (g.ctx.status + off ≤ loc ∧ loc < g.ctx.status + off + 4)) :
    Memory.read (s.countUp g off n).mem loc = Memory.read s.mem loc := by
  unfold State.countUp
  split
  · rfl
  · refine s.read_makeVisible_other _ loc fun hmem => h ?_
    simp only [length_leBytes, List.map_map, List.mem_map, List.mem_range] at hmem
    obtain ⟨k, hk, rfl⟩ := hmem
    exact ⟨Nat.le_add_right .., Nat.add_lt_add_left hk _⟩

/-- What a run-ahead restores of the other waves stays as it is where bytes become visible. -/
theorem State.toArch_rest_makeVisible (s : State) (bs : List (Nat × Byte)) :
    (s.makeVisible bs).rest.map Wave.toArch = s.rest.map Wave.toArch := by
  change (s.rest.map _).map Wave.toArch = _
  rw [List.map_map]
  refine List.map_congr_left fun w _ => ?_
  rw [Function.comp_apply]
  split <;> rfl

theorem State.toArch_rest_countUp (s : State) (g : Grid) (off n : Nat) :
    (s.countUp g off n).rest.map Wave.toArch = s.rest.map Wave.toArch := by
  unfold State.countUp
  split
  · rfl
  · exact s.toArch_rest_makeVisible _

/-- Accesses of which no byte reads as zero count a contract mix at most (R129, R214). -/
theorem State.countAccess_of_no_zero (s : State) (as : List Access) (hs : s.cur.spec = 0) (hz : ∀ a ∈ as, a.zero = false) :
    s.countAccess as = s.countUp (s.gridOf s.cur) 0x14 (if as.any Access.mix then 1 else 0) := by
  have hany : as.any Access.zero = false := List.any_eq_false.mpr fun a ha => by rw [hz a ha]; decide
  unfold State.countAccess
  rw [hs, hany]
  rfl

/-! ### What an issue leaves of its effect -/

theorem Wave.sansPos_lane (w : Wave) (l : Nat) : (w.lane l).sansPos = (w.lanes.map Lane.sansPos).getD l Lane.zero := by
  unfold Wave.lane
  simp only [List.getD_eq_getElem?_getD, List.getElem?_map]
  cases w.lanes[l]? <;> rfl

/-- States that are the same but for an issue have lanes that are the same but for where they stand. -/
theorem sansPos_lane_of_sansIssue {t u : State} (h : t.sansIssue = u.sansIssue) (l : Nat) :
    (t.cur.lane l).sansPos = (u.cur.lane l).sansPos := by
  rw [Wave.sansPos_lane, Wave.sansPos_lane]
  exact congrArg (fun x : State => x.cur.lanes.getD l Lane.zero) h

/-- They read the same bytes. -/
theorem loadByte_of_sansIssue {t u : State} (h : t.sansIssue = u.sansIssue) (loc : Nat) : t.loadByte t.cur loc = u.loadByte u.cur loc := by
  have hload := congrArg (fun x : State => x.loadByte x.cur loc) h
  exact hload

theorem mem_of_sansIssue {t u : State} (h : t.sansIssue = u.sansIssue) : t.mem = u.mem := by
  have hmem := congrArg State.mem h
  exact hmem

theorem rest_of_sansIssue {t u : State} (h : t.sansIssue = u.sansIssue) : t.rest = u.rest := by
  have hrest := congrArg State.rest h
  exact hrest

theorem scalars_of_sansIssue {t u : State} (h : t.sansIssue = u.sansIssue) : t.cur.s = u.cur.s ∧ t.cur.vEmpty = u.cur.vEmpty := by
  have hs := congrArg (fun x : State => x.cur.s) h
  have hempty := congrArg (fun x : State => x.cur.vEmpty) h
  exact ⟨hs, hempty⟩

/-- Lanes that are the same but for where they stand hold the same registers, predicates and status. -/
theorem registers_of_sansPos {x y : Lane} (h : x.sansPos = y.sansPos) : x.v = y.v ∧ x.p = y.p ∧ x.flags = y.flags := by
  have hv := congrArg Lane.v h
  have hp := congrArg Lane.p h
  have hflags := congrArg Lane.flags h
  exact ⟨hv, hp, hflags⟩

/-! ### The effect of a store (R100, R129) -/

section
variable {f : FmtM} {s : State} {a : Nat → Access} (hr : Ready (.st f) s)
  (ha : ∀ l ∈ active (.st f) s,
    checkAccess s s.cur false needStore f.space.toNat (s.cur.lane l).tid (s.cur.effAddr f l) (accBytes f) = .ok (a l))

variable (f s a) in
/-- The lanes' accesses in the order of `$tid`. -/
def storeAccesses : List (Nat × Access) := (s.cur.byTid (active (.st f) s)).map (fun l => (l, a l))

variable (f s a) in
/-- The state after the counts of the accesses of a store. -/
def storeCounted : State := s.countAccess ((storeAccesses f s a).map Prod.snd)

variable (f s a) in
/-- The state after a store. -/
def storeEffect : State := (storeCounted f s a).storeAll (storeAccesses f s a) (storeBytes s.cur f) (fun _ => false)

include hr

include ha in
theorem storeCounted_eq : ∃ n, storeCounted f s a = s.countUp (s.gridOf s.cur) 0x14 n := by
  refine ⟨_, s.countAccess_of_no_zero _ (spec_of_ready hr) fun x hx => ?_⟩
  obtain ⟨p, hp, rfl⟩ := List.mem_map.mp hx
  obtain ⟨l, hl, rfl⟩ := List.mem_map.mp hp
  exact (access_of_checkAccess (ha l ((s.cur.mem_byTid _ l).mp hl))).2 rfl

theorem storeCounted_cur : (storeCounted f s a).cur.SameButMon s.cur := s.cur_countAccess _ (spec_of_ready hr)

theorem spec_storeCounted : (storeCounted f s a).cur.spec = 0 := by
  obtain ⟨m, hm⟩ := storeCounted_cur (a := a) hr
  rw [hm]
  exact spec_of_ready hr

include ha in
/-- The store issues with its effect. -/
theorem sansIssue_of_exec_st {t : State} (ht : exec (.st f) s = .next t) : t.sansIssue = (storeEffect f s a).sansIssue := by
  obtain ⟨t', ht', hmoves, -⟩ := (storeResults f s).1 a hr ha
  cases ht.symm.trans ht'
  exact hmoves.same

theorem storeEffect_eq : storeEffect f s a = (storeCounted f s a).withCur
    (((storeCounted f s a).cur.queueStore (partBytesOf (storeAccesses f s a) (storeBytes s.cur f) false) false).queueStore
      (partBytesOf (storeAccesses f s a) (storeBytes s.cur f) true) true) :=
  State.storeAll_eq _ _ _ (spec_storeCounted (a := a) hr)

/-- Of the wave a store changes what is pending, the monitor and what its task has stored. -/
theorem storeEffect_cur : ∃ m pw task, (storeEffect f s a).cur = { s.cur with mon := m, pw := pw, task := task } := by
  obtain ⟨m, hm⟩ := storeCounted_cur (a := a) hr
  have hs := spec_storeCounted (a := a) hr
  obtain ⟨task, h1⟩ := Wave.queueStore_eq _ (partBytesOf (storeAccesses f s a) (storeBytes s.cur f) false) false hs
  obtain ⟨task', h2⟩ := Wave.queueStore_eq _ (partBytesOf (storeAccesses f s a) (storeBytes s.cur f) true) true
    (Wave.spec_queueStore _ (partBytesOf (storeAccesses f s a) (storeBytes s.cur f) false) false hs)
  rw [storeEffect_eq hr, State.withCur_cur, h2, h1, hm]
  exact ⟨m, _, task', rfl⟩

include ha in
/-- A byte outside the count reads from memory as before. -/
theorem read_storeEffect (loc : Nat) (hout : ¬ ((s.gridOf s.cur).ctx.status + 0x14 ≤ loc ∧ loc < (s.gridOf s.cur).ctx.status + 0x18)) :
    Memory.read (storeEffect f s a).mem loc = Memory.read s.mem loc := by
  obtain ⟨n, hn⟩ := storeCounted_eq hr ha
  rw [storeEffect_eq hr, State.withCur_mem, hn]
  exact s.read_countUp _ _ _ _ hout

include ha in
theorem toArch_rest_storeEffect : (storeEffect f s a).rest.map Wave.toArch = s.rest.map Wave.toArch := by
  obtain ⟨n, hn⟩ := storeCounted_eq hr ha
  rw [storeEffect_eq hr, State.withCur_rest, hn]
  exact s.toArch_rest_countUp _ _ _

/-- A byte that no lane stores is the wave's own as before. -/
theorem ownByte_storeEffect_other (loc : Nat) (hout : ∀ l ∈ active (.st f) s, loc ∉ (a l).locs) :
    (storeEffect f s a).cur.ownByte loc = s.cur.ownByte loc := by
  have hnone : ∀ fb, lastByte (partBytesOf (storeAccesses f s a) (storeBytes s.cur f) fb) loc = none := by
    intro fb
    rw [partBytesOf, lastByte_lastBytes, lastByte_eq_none]
    intro hmem
    obtain ⟨b, hb, rfl⟩ := List.mem_map.mp hmem
    obtain ⟨p, hp, hb⟩ := List.mem_flatMap.mp hb
    obtain ⟨l, hl, rfl⟩ := List.mem_map.mp (List.mem_filter.mp hp).1
    exact hout l ((s.cur.mem_byTid _ l).mp hl) (List.of_mem_zip hb).1
  have hs := spec_storeCounted (a := a) hr
  obtain ⟨m, hm⟩ := storeCounted_cur (a := a) hr
  rw [storeEffect_eq hr, State.withCur_cur, Wave.ownByte_queueStore_other _ _ _ (Wave.spec_queueStore _ _ _ hs) _ (hnone true),
    Wave.ownByte_queueStore_other _ _ _ hs _ (hnone false), hm]
  rfl

/-- Where one lane stores and nothing is held, each byte that it stores is the wave's own. -/
theorem ownByte_storeEffect_same {l : Nat} (hact : active (.st f) s = [l]) (hold : s.cur.hold = []) (loc : Nat) (b : Byte)
    (hb : lastByte ((a l).locs.zip (storeBytes s.cur f l)) loc = some b) : (storeEffect f s a).cur.ownByte loc = some b := by
  have has : storeAccesses f s a = [(l, a l)] := by rw [storeAccesses, hact]; rfl
  have hpart : ∀ fb, lastByte (partBytesOf (storeAccesses f s a) (storeBytes s.cur f) fb) loc =
      if ((a l).cls == 3) = fb then some b else none := by
    intro fb
    rw [has, partBytesOf, lastByte_lastBytes]
    by_cases hcls : ((a l).cls == 3) = fb
    · simp [hcls, hb]
    · simp [hcls, lastByte]
  have hs := spec_storeCounted (a := a) hr
  obtain ⟨m, hm⟩ := storeCounted_cur (a := a) hr
  have hheld : (storeCounted f s a).cur.hold = [] := by rw [hm]; exact hold
  obtain ⟨task, hq⟩ := Wave.queueStore_eq _ (partBytesOf (storeAccesses f s a) (storeBytes s.cur f) false) false hs
  have hheld2 : ((storeCounted f s a).cur.queueStore (partBytesOf (storeAccesses f s a) (storeBytes s.cur f) false) false).hold = [] := by
    rw [hq]; exact hheld
  have hs2 := Wave.spec_queueStore _ (partBytesOf (storeAccesses f s a) (storeBytes s.cur f) false) false hs
  rw [storeEffect_eq hr, State.withCur_cur]
  cases hcls : ((a l).cls == 3) with
  | true => exact Wave.ownByte_queueStore_same _ _ _ hs2 _ _ hheld2 (by rw [hpart, if_pos hcls])
  | false =>
    rw [Wave.ownByte_queueStore_other _ _ _ hs2 _ (by rw [hpart, hcls]; rfl)]
    exact Wave.ownByte_queueStore_same _ _ _ hs _ _ hheld (by rw [hpart, if_pos hcls])
end

/-- A lane stores as many bytes as its access has (R97). -/
theorem length_storeBytes (w : Wave) (f : FmtM) (l : Nat) (h : wfData f = true) : (storeBytes w f l).length = accBytes f := by
  have hregs : ((List.range (dataRegs f)).flatMap (fun k => leBytes 4 (w.readV false l (f.rd.toNat + k)).toNat)).length =
      4 * dataRegs f := by
    simp [List.length_flatMap, Nat.mul_comm]
  rw [storeBytes, List.length_take, hregs]
  unfold wfData at h
  unfold dataRegs accBytes
  generalize f.width.toNat = n at h
  match n, h with
  | 0, _ | 1, _ | 2, _ | 3, _ | 4, _ => rfl

/-- Settles O17: a store queues its bytes as pending writes of the wave, and no more changes than the count of mixes. -/
theorem storeFrame : Obligations.StoreFrame := by
  refine ⟨fun f s t a hr ha ht => ?_, fun f s t l a hr hact ha hn hold ht => ?_⟩
  · intro count
    have hsame := sansIssue_of_exec_st hr ha ht
    obtain ⟨m, pw, task, hcur⟩ := storeEffect_cur (a := a) hr
    obtain ⟨hs, hempty⟩ := scalars_of_sansIssue hsame
    have hlane : ∀ l, (t.cur.lane l).sansPos = (s.cur.lane l).sansPos := fun l => by
      rw [sansPos_lane_of_sansIssue hsame l, hcur]
      rfl
    refine ⟨fun loc hout => ?_, fun loc hout hother => ?_, fun l r => ?_, fun l => (registers_of_sansPos (hlane l)).2, ?_, ?_, ?_⟩
    · rw [mem_of_sansIssue hsame]
      exact read_storeEffect hr ha loc hout
    · rw [loadByte_of_sansIssue hsame, State.loadByte, State.loadByte, ownByte_storeEffect_other hr loc hother,
        read_storeEffect hr ha loc hout]
    · rw [Lane.getV, (registers_of_sansPos (hlane l)).1]
      rfl
    · rw [hs, hcur]
    · rw [hempty, hcur]
    · rw [rest_of_sansIssue hsame]
      exact toArch_rest_storeEffect hr ha
  · have hall : ∀ k ∈ active (.st f) s,
        checkAccess s s.cur false needStore f.space.toNat (s.cur.lane k).tid (s.cur.effAddr f k) (accBytes f) = .ok a := by
      intro k hk
      rw [hact, List.mem_singleton] at hk
      rw [hk, ha]
    have hwf : wfData f = true := (Bool.and_eq_true_iff.mp (legal_of_ready hr)).1
    have hsame := sansIssue_of_exec_st hr hall ht
    have hzip := lastByte_zip a.locs (storeBytes s.cur f l) hn
      ((length_storeBytes s.cur f l hwf).trans (access_of_checkAccess ha).1.symm)
    apply (List.map_injective_iff.mpr (Option.some_injective Byte))
    rw [← hzip, List.map_map]
    refine List.map_congr_left fun loc hloc => ?_
    have hmem : lastByte (a.locs.zip (storeBytes s.cur f l)) loc ∈ (storeBytes s.cur f l).map some :=
      hzip ▸ List.mem_map_of_mem hloc
    obtain ⟨b, -, hb⟩ := List.mem_map.mp hmem
    rw [Function.comp_apply, loadByte_of_sansIssue hsame, State.loadByte, ownByte_storeEffect_same (a := fun _ => a) hr hact hold loc b hb.symm, ← hb]
    rfl

end Sys2Proof.Machine

namespace Sys2Proof.Machine

/-! ### Generations that time out, before an instruction (R161) -/

/-- A wave is another one but for the reason of its wait. -/
def Wave.SameButWhy (v w : Wave) : Prop := ∃ y, v = { w with why := y }

theorem State.cur_wildElems (s : State) (core k m : Nat) (f64 : Bool) : (s.wildElems core k m f64).cur = s.cur := by
  unfold State.wildElems
  split
  · rfl
  · dsimp only
    split <;> rfl

theorem State.cur_cvTimedOut (s : State) (grid team k : Nat) : (s.cvTimedOut grid team k).cur.SameButWhy s.cur := by
  have hwake : ∀ (u : State) (p : Wave → Bool), u.cur = s.cur →
      (u.mapWaves (fun w => if p w then { w with why := .none } else w)).cur.SameButWhy s.cur := by
    intro u p hu
    change (if p u.cur then { u.cur with why := .none } else u.cur : Wave).SameButWhy s.cur
    rw [hu]
    split
    · exact ⟨.none, rfl⟩
    · exact ⟨s.cur.why, rfl⟩
  unfold State.cvTimedOut
  refine hwake _ (fun w => w.key.grid == grid && w.key.team == team && w.why == .cv) ?_
  split
  · exact State.cur_wildElems ..
  · rfl

/-- Of the current wave the check of the bound changes no more than the reason of its wait. -/
theorem State.cur_cvTick (s : State) : s.cvTick.cur.SameButWhy s.cur := by
  unfold State.cvTick
  generalize List.range 8 = ks
  induction ks generalizing s with
  | nil => exact ⟨s.cur.why, rfl⟩
  | cons k r ih =>
    rw [List.foldl_cons]
    obtain ⟨y, hy⟩ := ih (if (s.cvOf k).counts && (s.cvOf k).start + s.cvBound s.cur.key.grid ≤ s.gtc then
      s.cvTimedOut s.cur.key.grid s.cur.key.team k else s)
    rw [hy]
    split
    · obtain ⟨z, hz⟩ := s.cur_cvTimedOut s.cur.key.grid s.cur.key.team k
      rw [hz]
      exact ⟨y, rfl⟩
    · exact ⟨y, rfl⟩

theorem State.cur_cvTick_stays (s : State) : s.cvTick.cur.Stays s.cur := by
  obtain ⟨y, hy⟩ := s.cur_cvTick
  rw [hy]
  exact ⟨rfl, rfl, rfl⟩

/-! ### The effect of `ffence` leaves key, lanes and speculation of the wave (R307, R318) -/

theorem Wave.Stays.refl (w : Wave) : w.Stays w := ⟨rfl, rfl, rfl⟩

theorem State.cur_sendOne_stays (s : State) (w : Wave) (k : Nat) (o : FabOut) (tag : Nat) (hw : w.Stays s.cur) :
    (s.sendOne w k o tag).cur.Stays s.cur := by
  unfold State.sendOne
  refine State.setWave_stays (s.setCore w.core _) _ ?_
  split <;> exact hw

theorem State.cur_pumpFrom_stays (s : State) (ks : List Nat) (hl : s.cur.lanes ≠ []) : (s.pumpFrom s.cur.key ks).cur.Stays s.cur := by
  induction ks generalizing s with
  | nil => exact .refl _
  | cons k r ih =>
    have hstep : ∀ u : State, u.cur.Stays s.cur → (u.pumpFrom s.cur.key r).cur.Stays s.cur := by
      intro u hu
      have hne : u.cur.lanes ≠ [] := by rw [hu.2.1]; exact hl
      rw [← hu.1]
      exact (ih u hne).trans hu
    unfold State.pumpFrom
    rw [s.findWave_cur hl]
    dsimp only
    split
    · exact .refl _
    · split
      · exact hstep s (.refl _)
      · split
        · refine hstep _ ?_
          change (if _ then _ else _ : Wave).Stays s.cur
          split
          · exact ⟨rfl, rfl, rfl⟩
          · exact .refl _
        · split
          · exact hstep _ (s.cur_sendOne_stays _ _ _ _ (.refl _))
          · exact hstep s (.refl _)

theorem State.cur_fabPump_stays (s : State) (hl : s.cur.lanes ≠ []) : (s.fabPump s.cur.key).cur.Stays s.cur := by
  unfold State.fabPump
  rw [s.findWave_cur hl]
  dsimp only
  split
  · exact .refl _
  · exact s.cur_pumpFrom_stays _ hl

theorem Wave.foldl_setIval_stays (w : Wave) (ds : List Nat) (i : Wave → Nat → Interval) :
    (ds.foldl (fun (w : Wave) d => w.setIval d (i w d)) w).Stays w := by
  induction ds generalizing w with
  | nil => exact .refl w
  | cons d r ih => exact (ih _).trans ⟨rfl, rfl, rfl⟩

theorem State.fenceStep_stays (s u : State) (only : Option Nat) (hl : s.cur.lanes ≠ []) (h : s.fenceStep only = .ready u) :
    u.cur.Stays s.cur := by
  unfold State.fenceStep at h
  dsimp only at h
  split at h
  · cases h
  · split at h
    · split at h
      · cases h
      · cases h
      · split at h <;> cases h
    · obtain rfl := FenceRes.ready.inj h
      generalize hv : List.foldl _ s.cur _ = v
      have hset : v.Stays s.cur := by
        rw [← hv]
        exact s.cur.foldl_setIval_stays _ _
      have hne : v.lanes ≠ [] := by rw [hset.2.1]; exact hl
      refine Wave.Stays.trans (State.cur_fabPump_stays _ ?_) ?_
      · exact hne
      · exact hset

/-! ### `exit` (R96) -/

theorem tids_of_stays {v w : Wave} (h : v.Stays w) (ls : List Nat) : ls.map (fun l => (v.lane l).tid) = ls.map (fun l => (w.lane l).tid) := by
  simp only [Wave.lane_congr h.2.1]

/-- With room in the engine's queue the lanes exit. -/
theorem exitNow_done (u : State) (act tids : List Nat) (htids : act.map (fun l => (u.cur.lane l).tid) = tids)
    (hroom : u.engineRoom (u.cvExitIssues u.cur.key tids) = true) :
    u.exitNow act = .done ((u.exitLanes act).exitEffects tids).exitLast act := by
  unfold State.exitNow
  rw [htids]
  exact if_neg (by rw [hroom]; decide)

/-- The last lanes of a wave exit once the effect of `ffence` is had, with no task open and nothing of the wave pending. -/
theorem exitWhole_done (s u : State) (act tids : List Nat) (hfence : s.fenceStep none = .ready u) (htask : u.cur.task = none)
    (hpend : u.cur.pend = []) (hprod : u.producing = false) (htids : act.map (fun l => (u.cur.lane l).tid) = tids)
    (hroom : u.engineRoom (u.cvExitIssues u.cur.key tids) = true) :
    s.exitWhole act = .done ((u.exitLanes act).exitEffects tids).exitLast act := by
  have horder : s.order false 5 = .ready u := by
    unfold State.order
    rw [if_pos (by decide), hfence]
    rfl
  have hreturn : ({ u with cur := u.returnAll u.cur } : State) = u := by
    unfold State.returnAll
    rw [hpend]
    rfl
  unfold State.exitWhole ordered
  simp only [horder, htask, hreturn, hprod, Option.isSome_none, Bool.false_eq_true, if_false]
  exact exitNow_done u act tids htids hroom

theorem bodyExit_of_calm (f : FmtJ) (iss act : List Nat) (s : State) (hsticky : s.stickyCheck act = none)
    (hcalm : s.cvTick.cvTrapAny iss = none) : bodyExit f iss act s =
      if s.cur.liveLanes.all act.contains then s.cvTick.exitWhole act else s.cvTick.exitNow act := by
  unfold bodyExit
  rw [hsticky]
  dsimp only
  rw [hcalm, ← Wave.liveLanes_congr s.cur_cvTick_stays.2.1]

/-- A lane that has exited stays so through the completion of a mask (R21). -/
theorem State.rejoinCheck_exited (s : State) (k l : Nat) (h : (s.cur.lane l).st = .exited) :
    ((s.rejoinCheck k).cur.lane l).st = .exited := by
  have hwake : ∀ w : Wave, (w.lane l).st = .exited → ((s.wake w (w.parkedOn k)).lane l).st = .exited := by
    intro w hw
    have hout : l ∉ w.parkedOn k := fun hmem => by
      have hpark := ((w.mem_parkedOn k l).mp hmem).2
      rw [hw] at hpark
      cases hpark
    unfold State.wake
    rw [s.advance_st _ _ (w.nodup_parkedOn k), Wave.lane_modLanes_not_mem _ _ _ _ hout]
    exact hw
  have hstep : ∀ (old w : Wave) (ls : List Nat), (s.stepAfterWait old w ls).lane l = w.lane l := by
    intro old w ls
    unfold State.stepAfterWait
    split
    · rfl
    · dsimp only
      unfold Wave.stepHeld
      split
      · rfl
      · split <;> rfl
  unfold State.rejoinCheck
  dsimp only
  split
  · have hw := hwake { s.cur with rejoin := s.cur.rejoin.set k Rejoin.zero } h
    dsimp only
    split
    · rw [hstep]
      exact hw
    · exact hw
  · exact h

theorem State.exitLanes_exited (s : State) (act : List Nat) (hn : act.Nodup) (l : Nat) (hl : l ∈ act) (hlt : l < s.cur.lanes.length) :
    ((s.exitLanes act).cur.lane l).st = .exited := by
  have hfold : ∀ (ks : List Nat) (u : State), (u.cur.lane l).st = .exited →
      ((ks.foldl (fun s k => s.rejoinCheck k) u).cur.lane l).st = .exited := by
    intro ks
    induction ks with
    | nil => exact fun u hu => hu
    | cons k r ih => exact fun u hu => ih _ (u.rejoinCheck_exited k l hu)
  refine hfold _ _ ?_
  change ((s.cur.modLanes act (fun x => { x with st := .exited })).lane l).st = .exited
  rw [Wave.lane_modLanes_mem _ _ _ _ hn hl hlt]

/-- Settles O14: without a sticky trap and without a timed-out signature the body is `exitNow`, or `exitWhole` for the last lanes. -/
theorem exitResults : Obligations.ExitResults := by
  refine ⟨fun f s => ?_, State.exitLanes_exited⟩
  intro act tids s0 exits hr hsticky hcalm
  have hbody := bodyExit_of_calm f s.cur.issuingSet act s hsticky hcalm
  have hstays : s0.cur.Stays s.cur := s.cur_cvTick_stays
  have hexits : ∀ u, bodyExit f s.cur.issuingSet act s = .done ((u.exitLanes act).exitEffects tids).exitLast act → exits u :=
    fun u hu => completesBut_of_done (.exit f) s _ act (bodyExit f) hr rfl hu
  refine ⟨fun ⟨l, hl, hout⟩ hroom => hexits s0 ?_, fun u hall hfence htask hpend hprod hroom => hexits u ?_⟩
  · rw [hbody, if_neg (fun h => hout (by simpa using List.all_eq_true.mp h l hl))]
    exact exitNow_done s0 act tids (tids_of_stays hstays act) (by rwa [hstays.1])
  · have hlanes : s0.cur.lanes ≠ [] := by
      rw [hstays.2.1]
      exact lanes_ne_nil_of_active _ s (active_ne_nil_of_ready hr)
    rw [hbody, if_pos (List.all_eq_true.mpr fun l hl => by simpa using hall l hl)]
    exact exitWhole_done s0 u act tids hfence htask hpend hprod
      (tids_of_stays ((s0.fenceStep_stays u none hlanes hfence).trans hstays) act) hroom

end Sys2Proof.Machine

namespace Sys2Proof.Machine

/-! ### The order of the checks (R98, R99) -/

theorem order_poisonCheck (s : State) (w : Wave) (need : AccNeed) (atomic : Bool) (x : Access) :
    7 ≤ (poisonCheck s w need atomic x).order := by
  unfold poisonCheck
  extract_lets bad
  split
  · split
    · exact (by decide : 7 ≤ 100)
    · exact Nat.le_refl 7
  · exact (by decide : 7 ≤ 100)

/-- A misaligned access traps before any other check. -/
theorem checkAccess_misaligned (s : State) (w : Wave) (now : Bool) (need : AccNeed) (space tid ea n : Nat) (halign : need.align = true)
    (h : (ea % n != 0) = true) : checkAccess s w now need space tid ea n = .trap 1 5 0 :=
  if_pos (by rw [halign, h]; rfl)

/-- An aligned access meets a later check, if any. -/
theorem order_checkAccess_aligned (s : State) (w : Wave) (now : Bool) (need : AccNeed) (space tid ea n : Nat)
    (h : (ea % n != 0) = false) : 1 < (checkAccess s w now need space tid ea n).order := by
  have hpoison : ∀ x, 1 < (poisonCheck s w need (need.r && need.w) x).order := fun x =>
    (by decide : 1 < 7).trans_le (order_poisonCheck ..)
  have hlater : ∀ (o c i : Nat), 1 < o → 1 < (LaneAcc.trap o c i).order := fun _ _ _ ho => ho
  unfold checkAccess
  dsimp only
  rw [h, Bool.and_false, if_neg Bool.false_ne_true]
  split
  · exact hlater 2 7 0 (by decide)
  · split
    · exact hlater 2 7 0 (by decide)
    · exact hpoison _
  · split
    · exact hlater 2 7 0 (by decide)
    · exact hpoison _
  · split
    · exact hlater 2 7 0 (by decide)
    · generalize (if now = true then _ else _ : Trans) = tr
      cases tr with
      | miss => exact (by decide : 1 < 3)
      | fault m => exact (by decide : 1 < 3)
      | hit size w0 w1 =>
        dsimp only
        split
        · exact hlater 4 7 0 (by decide)
        · split
          · exact hlater 5 8 _ (by decide)
          · split
            · exact hlater 6 7 0 (by decide)
            · exact hpoison _

theorem loadOutcome_misaligned (s : State) (space n l ea : Nat) (h : (ea % n != 0) = true) : s.loadOutcome space n l ea = .trap 1 5 0 := by
  unfold State.loadOutcome
  split
  · exact if_pos h
  · exact checkAccess_misaligned _ _ _ _ _ _ _ _ rfl h

theorem order_loadOutcome_aligned (s : State) (space n l ea : Nat) (h : (ea % n != 0) = false) :
    1 < (s.loadOutcome space n l ea).order := by
  unfold State.loadOutcome
  split
  · unfold walkerAccess
    rw [h, if_neg Bool.false_ne_true]
    split
    · exact (by decide : 1 < 4)
    · exact (by decide : 1 < 7).trans_le (order_poisonCheck ..)
  · exact order_checkAccess_aligned _ _ _ _ _ _ _ _ h

/-! ### The verdict on several lanes (R99, R273) -/

/-- The lanes that trap at the first failing check are some of those checked. -/
theorem lanes_of_verdict_trap {rs : List (Nat × LaneAcc)} {c : Nat} {ls : List Nat} {info : Nat} {lc : List (Nat × Nat)}
    (h : verdict rs = .trap c ls info lc) : ls ≠ [] ∧ ∀ l ∈ ls, ∃ r ∈ rs, r.1 = l := by
  unfold verdict at h
  split at h
  · cases h
  · split at h
    · cases h
    next o hleast =>
      split at h
      · cases h
      · split at h
        · cases h
        · cases h
          rw [minNat_eq_min?] at hleast
          obtain ⟨r, hr, hro⟩ := List.mem_map.mp (List.min?_mem hleast)
          refine ⟨List.ne_nil_of_mem (List.mem_map_of_mem (List.mem_filter.mpr ⟨hr, beq_iff_eq.mpr hro⟩)), fun l hl => ?_⟩
          obtain ⟨q, hq, hql⟩ := List.mem_map.mp hl
          exact ⟨q, (List.mem_filter.mp hq).1, hql⟩

/-- A trap of several lanes carries the address and the stamp of the one with the lowest `$tid`. -/
theorem failed_of_verdict_trap (s : State) (act : List Nat) (ea : Nat → Nat) {rs : List (Nat × LaneAcc)} {c : Nat} {ls : List Nat}
    {info : Nat} {lc : List (Nat × Nat)} (h : verdict rs = .trap c ls info lc) : failed s act ea rs false =
      some (.trap s ⟨c, ls, ea (s.cur.lowestTid ls),
        if c = 8 then ((rs.find? (fun r => r.1 == s.cur.lowestTid ls)).map (fun r => r.2.info)).getD 0 else 0,
        if c = 8 then s.contract else 0, lc⟩) := by
  obtain ⟨hne, hlanes⟩ := lanes_of_verdict_trap h
  obtain ⟨r, hr, hrl⟩ := hlanes _ (s.cur.lowestTid_mem ls hne)
  have hfound : (rs.find? (fun r => r.1 == s.cur.lowestTid ls)).isSome := List.find?_isSome.mpr ⟨r, hr, beq_iff_eq.mpr hrl⟩
  obtain ⟨q, hq⟩ := Option.isSome_iff_exists.mp hfound
  unfold failed
  rw [h]
  simp only [hq, Bool.false_eq_true, if_false, beq_iff_eq, Option.map_some, Option.getD_some]

/-- Where some lanes trap at a check, and no lane meets an earlier one, these lanes trap. -/
theorem verdict_of_least {act : List Nat} {chk : Nat → LaneAcc} {p : Nat → Bool} {o c : Nat}
    (hmiss : missesOf (act.map (fun l => (l, chk l))) = []) (hne : act.filter p ≠ []) (ho : o < 100) (h3 : o ≠ 3)
    (htrap : ∀ l ∈ act, p l = true → chk l = .trap o c 0) (hlater : ∀ l ∈ act, p l = false → o < (chk l).order) :
    ∃ lc, verdict (act.map (fun l => (l, chk l))) = .trap c (act.filter p) 0 lc := by
  have hhit : ∀ l ∈ act, ((chk l).order == o) = p l := by
    intro l hl
    cases hp : p l with
    | true => rw [htrap l hl hp]; exact beq_self_eq_true o
    | false => exact beq_eq_false_iff_ne.mpr (hlater l hl hp).ne'
  obtain ⟨l, r, hfirst⟩ := List.exists_cons_of_ne_nil hne
  obtain ⟨hl, hpl⟩ := List.mem_filter.mp (hfirst ▸ List.mem_cons_self : l ∈ act.filter p)
  have hleast : minNat ((act.map (fun l => (l, chk l))).map (fun r => r.2.order)) = some o := by
    rw [List.map_map, minNat_eq_min?, List.min?_eq_some_iff]
    refine ⟨List.mem_map.mpr ⟨l, hl, beq_iff_eq.mp ((hhit l hl).trans hpl)⟩, fun x hx => ?_⟩
    obtain ⟨k, hk, rfl⟩ := List.mem_map.mp hx
    cases hp : p k with
    | true => exact (beq_iff_eq.mp ((hhit k hk).trans hp)).ge
    | false => exact (hlater k hk hp).le
  have hfilter : (act.map (fun l => (l, chk l))).filter (fun r => r.2.order == o) = (act.filter p).map (fun l => (l, chk l)) := by
    rw [List.filter_map]
    exact congrArg (List.map _) (List.filter_congr hhit)
  refine ⟨act.map (fun l => (l, (chk l).cause)), ?_⟩
  unfold verdict
  rw [hmiss]
  dsimp only
  rw [hleast]
  dsimp only
  rw [hfilter, if_neg (by simpa using ho.ne), if_neg (by simpa using h3), hfirst, List.map_cons, List.head?_cons, htrap l hl hpl]
  simp only [Option.map_some, Option.getD_some, List.map_cons, List.map_map, Function.comp_def, List.map_id']
  rfl

/-! ### Access traps of loads and stores -/

theorem bodyLd_of_verdict_trap (f : FmtM) (iss act : List Nat) (s : State) {c : Nat} {ls : List Nat} {info : Nat} {lc : List (Nat × Nat)}
    (hc : c ≠ 9) (h : verdict (laneAccesses s needLoad f.space.toNat (accBytes f) act (s.cur.effAddr f)) = .trap c ls info lc) :
    let rs := laneAccesses s needLoad f.space.toNat (accBytes f) act (s.cur.effAddr f)
    bodyLd f iss act s = .trap s ⟨c, ls, s.cur.effAddr f (s.cur.lowestTid ls),
      if c = 8 then ((rs.find? (fun r => r.1 == s.cur.lowestTid ls)).map (fun r => r.2.info)).getD 0 else 0,
      if c = 8 then s.contract else 0, lc⟩ := by
  unfold bodyLd
  dsimp only
  rw [failed_of_verdict_trap s act (s.cur.effAddr f) h]
  exact if_neg (by simpa using hc)

theorem bodySt_of_verdict_trap (f : FmtM) (iss act : List Nat) (s : State) {c : Nat} {ls : List Nat} {info : Nat} {lc : List (Nat × Nat)}
    (h : verdict (laneAccesses s needStore f.space.toNat (accBytes f) (s.cur.byTid act) (s.cur.effAddr f)) = .trap c ls info lc) :
    let rs := laneAccesses s needStore f.space.toNat (accBytes f) (s.cur.byTid act) (s.cur.effAddr f)
    bodySt f iss act s = .trap s ⟨c, ls, s.cur.effAddr f (s.cur.lowestTid ls),
      if c = 8 then ((rs.find? (fun r => r.1 == s.cur.lowestTid ls)).map (fun r => r.2.info)).getD 0 else 0,
      if c = 8 then s.contract else 0, lc⟩ := by
  unfold bodySt
  dsimp only
  rw [failed_of_verdict_trap s act (s.cur.effAddr f) h]

/-- Misaligned lanes trap with the alignment cause, once no translation is missing. -/
theorem verdict_of_misaligned (s : State) (space n : Nat) (act : List Nat) (ea : Nat → Nat)
    (hmis : act.filter (fun l => ea l % n != 0) ≠ []) (hmiss : missesOf (laneAccesses s needLoad space n act ea) = []) :
    ∃ lc, verdict (laneAccesses s needLoad space n act ea) = .trap 5 (act.filter (fun l => ea l % n != 0)) 0 lc := by
  rw [laneAccesses_load] at hmiss ⊢
  exact verdict_of_least hmiss hmis (by decide) (by decide) (fun l _ hl => loadOutcome_misaligned s space n l (ea l) hl)
    (fun l _ hl => order_loadOutcome_aligned s space n l (ea l) hl)

/-! ### Instructions of a privileged mode (R206, R207, R274, R284, R295) -/

/-- A body that looks at the mode first traps outside a privileged one. -/
theorem traps_unprivileged {i : Instr} {s : State} {body : List Nat → List Nat → State → Res} (hr : Ready i s)
    (he : exec i s = issue i s body) (hwide : s.taskWide i = s) {rest : Res}
    (hbody : body s.cur.issuingSet (active i s) s = if !s.cur.privileged then .trap s (trapOf 7 (active i s)) else rest)
    (hpriv : s.cur.privileged = false) : Traps i s s (trapOf 7 (active i s)) :=
  traps_of_trap i s s _ body hr he (by rw [hwide, hbody, hpriv]; rfl)

/-- `wsw` traps where it would change the debug bit outside a privileged mode (R284). -/
theorem bodyWsw_unprivileged (f : FmtWsw) (iss act : List Nat) (s : State) (hmask : s.cur.getS f.sb.toNat &&& ~~~6 = 0)
    (hbit : tbit (s.cur.getS f.sb.toNat) 2 = true) (hpriv : s.cur.privileged = false) :
    bodyWsw f iss act s = .trap s (trapOf 7 act) :=
  (if_neg (by rw [hmask]; decide)).trans (if_pos (by rw [hbit, hpriv]; rfl))

/-- A return traps outside a handler. -/
theorem traps_outside_handler {i : Instr} {s : State} {body : List Nat → List Nat → State → Res} (hr : Ready i s)
    (he : exec i s = issue i s body) (hwide : s.taskWide i = s) {rest : Res}
    (hbody : body s.cur.issuingSet (active i s) s = if !s.cur.tm then .trap s (trapOf 1 s.cur.issuingSet) else rest)
    (htm : s.cur.tm = false) : Traps i s s (trapOf 1 s.cur.issuingSet) :=
  traps_of_trap i s s _ body hr he (by rw [hwide, hbody, htm]; rfl)

/-- Settles O40: the first failing check in the order of R99 decides, and the mode is looked at first. -/
theorem accessAndPrivilegeTraps : Obligations.AccessAndPrivilegeTraps := by
  refine ⟨fun f s => ⟨fun hr hmis hmiss => ?_, fun c ls info lc hc hr hv => ?_, fun c ls info lc hr hv => ?_⟩,
    fun s hpriv => ⟨fun f hr => ?_, fun f hr => ?_, fun f hr => ?_, fun f hr => ?_, fun f hr => ?_, fun f hr hmask hbit => ?_⟩,
    fun f s htm => ⟨fun hr => ?_, fun hr => ?_⟩⟩
  · obtain ⟨lc, hv⟩ := verdict_of_misaligned s _ _ _ _ hmis hmiss
    exact ⟨lc, traps_of_trap _ s s _ (bodyLd f) hr rfl (bodyLd_of_verdict_trap f _ _ s (by decide) hv)⟩
  · exact traps_of_trap _ s s _ (bodyLd f) hr rfl (bodyLd_of_verdict_trap f _ _ s hc hv)
  · exact traps_of_trap _ s s _ (bodySt f) hr rfl (bodySt_of_verdict_trap f _ _ s hv)
  · exact traps_unprivileged (body := bodyTlbw f) hr rfl rfl rfl hpriv
  · exact traps_unprivileged (body := bodyTlbiVa f) hr rfl rfl rfl hpriv
  · exact traps_unprivileged (body := bodyTlbiAsid f) hr rfl rfl rfl hpriv
  · exact traps_unprivileged hr rfl rfl rfl hpriv
  · exact traps_unprivileged (body := bodyMigrate f) hr rfl rfl rfl hpriv
  · exact traps_of_trap _ s s _ (bodyWsw f) hr rfl (bodyWsw_unprivileged f _ _ s hmask hbit hpriv)
  · exact traps_outside_handler (body := bodySret) hr rfl rfl rfl htm
  · exact traps_outside_handler (body := bodySretEsc) hr rfl rfl rfl htm

end Sys2Proof.Machine

namespace Sys2Proof.Machine

/-! ### The checks before a barrier instruction (R96, R153, R243) -/

/-- A release at the scope of a name is done at the release point: no name has the scope of the pod (R228, R242). -/
theorem order_nameScope (s : State) (g : Grid) (n : Nat) (h : s.released s.cur = true) : s.order true (nameScope g n) = .ready s := by
  have hscope : (nameScope g n == 5) = false := by
    unfold nameScope
    split
    · rfl
    · split <;> rfl
  unfold State.order
  rw [hscope]
  simp [h]

theorem bodyArrive_of_member (f : FmtBar) (stays : Bool) (iss act : List Nat) (s : State) (hsticky : s.stickyCheck act = none)
    (hcalm : s.cvTick.cvTrapAny iss = none)
    (hmem : (s.cvTick.teamOf s.cvTick.cur).hasMember f.n.toNat s.cvTick.cur.key.wave = true)
    (hrel : s.cvTick.released s.cvTick.cur = true) :
    let u := s.cvTick
    let v := u.cur.arrive f.n.toNat (u.barGen u.cur.key.grid u.cur.key.team f.n.toNat) stays act
    let held := act.filter (fun l => match (v.lane l).st with | .bar .. => true | _ => false)
    bodyArrive f stays iss act s = .done ((u.withCur (v.modLanes held (fun x => { x with iss := maskOf iss }))).barCheck 8 u.cur.key.grid
      u.cur.key.team f.n.toNat) held := by
  have hkey := s.cur_cvTick_stays.1
  unfold bodyArrive ordered
  simp only [hsticky, hcalm, ← hkey, hmem, order_nameScope _ _ _ hrel, Bool.not_true, Bool.false_eq_true, if_false]
  rfl

theorem bodyArrive_of_not_member (f : FmtBar) (stays : Bool) (iss act : List Nat) (s : State) (hsticky : s.stickyCheck act = none)
    (hcalm : s.cvTick.cvTrapAny iss = none)
    (hmem : (s.cvTick.teamOf s.cvTick.cur).hasMember f.n.toNat s.cvTick.cur.key.wave = false) :
    bodyArrive f stays iss act s = .trap s.cvTick ⟨12, iss, 0, f.n.toNat, 0, []⟩ := by
  have hkey := s.cur_cvTick_stays.1
  unfold bodyArrive
  simp only [hsticky, hcalm, ← hkey, hmem, Bool.not_false, if_true]
  rfl

theorem bodyBarw_of_calm (f : FmtBar) (iss act : List Nat) (s : State) (hsticky : s.stickyCheck act = none)
    (hcalm : s.cvTick.cvTrapAny iss = none) :
    let u := s.cvTick
    let due := if (u.teamOf u.cur).hasMember f.n.toNat u.cur.key.wave = true then
      act.filter (fun l => (u.cur.lane l).arr.contains f.n.toNat) else []
    bodyBarw f iss act s = .done (u.withCur (u.cur.modLanes due (fun x =>
      { x with st := .bar f.n.toNat (u.barGen u.cur.key.grid u.cur.key.team f.n.toNat) false false, iss := maskOf iss }))) due := by
  unfold bodyBarw
  simp only [hsticky, hcalm]
  rfl

/-! ### `bmask` (R243, R246) -/

section
variable (f : FmtBar) (s : State)

/-- The mask that `bmask` gives a name: the bits of the waves of the team. -/
def State.newMask : BitVec 32 := BitVec.ofNat 32 ((s.cur.getS f.sa.toNat).toNat % 2 ^ (s.teamOf s.cur).waves)

/-- No lane of a member has arrived at the name. -/
def State.nameClosed : Prop := ∀ x ∈ s.wavesOf (s.teamOf s.cur), (s.teamOf s.cur).hasMember f.n.toNat x.key.wave = true →
  ∀ y ∈ x.lanes, f.n.toNat ∉ y.arr

theorem nameClosed_iff : (s.wavesOf (s.teamOf s.cur)).any (fun w => (s.teamOf s.cur).hasMember f.n.toNat w.key.wave &&
    w.lanes.any (fun x => x.arr.contains f.n.toNat)) = false ↔ s.nameClosed f := by
  simp [State.nameClosed, List.any_eq_false]

theorem newMask_eq : (BitVec.ofNat 32 (nbits (s.cur.getS f.sa.toNat).toNat 0 (s.teamOf s.cur).waves) : BitVec 32) = s.newMask f := by
  rw [nbits, Nat.pow_zero, Nat.div_one]
  rfl

theorem bodyBmask_of_open (iss act : List Nat) (h : ¬ s.nameClosed f) : bodyBmask f iss act s = .trap s ⟨12, iss, 0, f.n.toNat, 0, []⟩ :=
  if_pos (Bool.of_not_eq_false fun hopen => h ((nameClosed_iff f s).mp hopen))

theorem bodyBmask_of_closed (iss act : List Nat) (h : s.nameClosed f) : bodyBmask f iss act s =
    if s.newMask f = 0 then .trap s ⟨1, iss, 0, 0, 0, []⟩
    else
      let t := s.teamOf s.cur
      .done ((s.setTeam { t with bar := t.bar.set f.n.toNat { t.name f.n.toNat with mask := s.newMask f } }).barCheck 8 s.cur.key.grid
        s.cur.key.team f.n.toNat) [] := by
  unfold bodyBmask
  simp only [(nameClosed_iff f s).mpr h, newMask_eq, Bool.false_eq_true, if_false, beq_iff_eq]
  rfl
end

/-! ### The sticky trap before a barrier instruction and `exit` (R153; log entry 154) -/

/-- The active lanes whose status meets the enable. -/
def State.flagged (s : State) (act : List Nat) : List Nat :=
  act.filter (fun l => (s.cur.lane l).flags &&& BitVec.ofNat 6 (s.gridOf s.cur).trapen.toNat != 0)

theorem stickyCheck_of_flagged (s : State) (act : List Nat) (htm : s.cur.tm = false) (hdue : s.flagsDue s.cur act = false)
    (hne : s.flagged act ≠ []) : s.stickyCheck act =
      some (.trap s ⟨19, s.flagged act, 0, 0, 0, (s.flagged act).map (fun l => (l, (s.cur.lane l).flags.toNat))⟩) := by
  have hlanes : s.stickyLanes act = s.flagged act := by
    unfold State.stickyLanes
    rw [htm]
    rfl
  obtain ⟨l, r, hcons⟩ := List.exists_cons_of_ne_nil hne
  unfold State.stickyCheck
  rw [hdue, hlanes, hcons]
  simp

/-- The check comes before all others of these instructions. -/
theorem traps_of_stickyCheck {i : Instr} {s : State} {t : TrapReq}
    (hi : (∃ f, i = .barr f ∨ i = .barw f ∨ i = .bara f) ∨ (∃ f, i = .exit f)) (hr : Ready i s)
    (h : s.stickyCheck (active i s) = some (.trap s t)) : Traps i s s t := by
  rcases hi with ⟨f, rfl | rfl | rfl⟩ | ⟨f, rfl⟩
  · refine traps_of_trap _ s s t (bodyArrive f false) hr rfl ?_
    change bodyArrive f false _ _ s = _
    unfold bodyArrive
    rw [h]
  · refine traps_of_trap _ s s t (bodyBarw f) hr rfl ?_
    change bodyBarw f _ _ s = _
    unfold bodyBarw
    rw [h]
  · refine traps_of_trap _ s s t (bodyArrive f true) hr rfl ?_
    change bodyArrive f true _ _ s = _
    unfold bodyArrive
    rw [h]
  · refine traps_of_trap _ s s t (bodyExit f) hr rfl ?_
    change bodyExit f _ _ s = _
    unfold bodyExit
    rw [h]

/-! ### A generation that is not complete (R244) -/

theorem gridName_of_lt {n : Nat} (h : n < 48) : gridName n = false := decide_eq_false (by omega)

theorem mem_scopeTeams (s : State) (grid team n : Nat) (hn : n < 48) (t : Team) :
    t ∈ s.scopeTeams grid team n ↔ t ∈ s.teams ∧ t.grid = grid ∧ t.idx = team := by
  simp [State.scopeTeams, gridName_of_lt hn]

theorem hasArrived_iff (w : Wave) (n : Nat) : w.hasArrived n = true ↔ ∀ x ∈ w.lanes, x.live = true → n ∈ x.arr := by
  unfold Wave.hasArrived
  rw [List.all_eq_true]
  refine forall₂_congr fun x _ => ?_
  cases x.live <;> simp

theorem teamArrived_iff (s : State) (t : Team) (n : Nat) : s.teamArrived t n = true ↔
    ∀ w ∈ s.wavesOf t, t.hasMember n w.key.wave = true → ∀ x ∈ w.lanes, x.live = true → n ∈ x.arr := by
  unfold State.teamArrived
  rw [List.all_eq_true]
  refine forall₂_congr fun w _ => ?_
  rw [← hasArrived_iff]
  cases t.hasMember n w.key.wave <;> simp

theorem barCheck_of_not_full (s : State) (fuel grid team n : Nat) (h : s.barFull grid team n = false) : s.barCheck fuel grid team n = s := by
  cases fuel with
  | zero => rfl
  | succ k => exact if_neg (by rw [h]; decide)

/-- Where a member has an unexited lane that has not arrived, nothing changes. -/
theorem barCheck_of_absent (s : State) (grid team n fuel : Nat) (hn : n < 48)
    (h : ∃ t ∈ s.teams, t.grid = grid ∧ t.idx = team ∧ ∃ w ∈ s.wavesOf t, t.hasMember n w.key.wave = true ∧
      ∃ x ∈ w.lanes, x.live = true ∧ n ∉ x.arr) : s.barCheck fuel grid team n = s := by
  obtain ⟨t, ht, hgrid, hidx, w, hw, hmem, x, hx, hlive, hout⟩ := h
  refine barCheck_of_not_full s fuel grid team n (Bool.eq_false_iff.mpr fun hfull => hout ?_)
  unfold State.barFull at hfull
  simp only [Bool.and_eq_true] at hfull
  obtain ⟨⟨-, hall⟩, -⟩ := hfull
  have harrived := List.all_eq_true.mp hall t ((mem_scopeTeams s grid team n hn t).mpr ⟨ht, hgrid, hidx⟩)
  exact (teamArrived_iff s t n).mp harrived w hw hmem x hx hlive

end Sys2Proof.Machine

namespace Sys2Proof.Machine

/-! ### Waves by their key -/

/-- No two waves have the same key. -/
def State.KeysNodup (s : State) : Prop := (s.waves.map Wave.key).Nodup

theorem State.KeysNodup.rest_ne_cur {s : State} (h : s.KeysNodup) {x : Wave} (hx : x ∈ s.rest) : x.key ≠ s.cur.key := by
  unfold State.KeysNodup State.waves at h
  rw [List.map_cons, List.nodup_cons] at h
  intro e
  exact h.1 (e ▸ List.mem_map_of_mem hx)

/-- Setting a wave replaces the one that has its key. -/
theorem State.KeysNodup.waves_setWave {s : State} (h : s.KeysNodup) (v : Wave) :
    (s.setWave v).waves = s.waves.map (fun x => if x.key = v.key then v else x) := by
  unfold State.setWave
  by_cases hk : s.cur.key = v.key
  · have hrest : s.rest.map (fun x => if x.key = v.key then v else x) = s.rest := by
      conv_rhs => rw [← List.map_id s.rest]
      exact List.map_congr_left fun x hx => if_neg fun e => h.rest_ne_cur hx (e.trans hk.symm)
    rw [if_pos hk]
    simp [State.waves, hk, hrest]
  · rw [if_neg hk]
    simp [State.waves, hk]

/-- A wave is the only one that has its key. -/
theorem State.KeysNodup.eq_of_key {s : State} (h : s.KeysNodup) {w x : Wave} (hw : w ∈ s.waves) (hx : x ∈ s.waves) (hk : x.key = w.key) :
    x = w := List.inj_on_of_nodup_map h hx hw hk

theorem State.KeysNodup.waves_setWave_self {s : State} (h : s.KeysNodup) {w : Wave} (hw : w ∈ s.waves) : (s.setWave w).waves = s.waves := by
  rw [h.waves_setWave]
  conv_rhs => rw [← List.map_id s.waves]
  refine List.map_congr_left fun x hx => ?_
  by_cases hk : x.key = w.key
  · exact (if_pos hk).trans (h.eq_of_key hw hx hk).symm
  · exact if_neg hk

theorem mem_of_findWave {s : State} {k : WKey} {w : Wave} (h : s.findWave k = some w) : w ∈ s.waves ∧ w.key = k := by
  have hp := List.find?_some h
  simp only [Bool.and_eq_true, beq_iff_eq] at hp
  exact ⟨List.mem_of_find?_eq_some h, hp.1⟩

theorem lanes_of_findWave_none {s : State} {k : WKey} (h : s.findWave k = none) {w : Wave} (hw : w ∈ s.waves) (hk : w.key = k) :
    w.lanes = [] := by
  have hp := List.find?_eq_none.mp h w hw
  simpa [hk] using hp

theorem State.mem_setWave (s : State) (w : Wave) : (s.setWave w).mem = s.mem := by
  unfold State.setWave
  split <;> rfl

theorem State.teams_setWave (s : State) (w : Wave) : (s.setWave w).teams = s.teams := by
  unfold State.setWave
  split <;> rfl

theorem Wave.lane_mem (w : Wave) {l : Nat} (h : l < w.lanes.length) : w.lane l ∈ w.lanes := by
  rw [Wave.lane, List.getD_eq_getElem _ _ h]
  exact List.getElem_mem h

theorem Wave.exists_lane (w : Wave) {x : Lane} (h : x ∈ w.lanes) : ∃ l < w.lanes.length, w.lane l = x := by
  obtain ⟨l, hl, e⟩ := List.mem_iff_getElem.mp h
  exact ⟨l, hl, by rw [Wave.lane, List.getD_eq_getElem _ _ hl, e]⟩

theorem Wave.lane_of_le (w : Wave) {l : Nat} (h : w.lanes.length ≤ l) : w.lane l = Lane.zero := List.getD_eq_default _ _ h

theorem Lane.onward_arr (x : Lane) (hd : Nat → Header) : (x.onward hd).arr = x.arr := by
  unfold Lane.onward
  split
  · rfl
  · split <;> rfl

theorem State.advance_arr (s : State) (w : Wave) (ls : List Nat) (hn : ls.Nodup) (l : Nat) :
    ((s.advance w ls).lane l).arr = (w.lane l).arr := by
  rw [w.lane_advance s ls hn]
  split
  · exact (w.lane l).onward_arr _
  · rfl

/-! ### The end of a wait (R244) -/

section
variable (n g : Nat)

/-- The lane waits for the generation of the name. -/
def LaneSt.waitsFor : LaneSt → Bool
  | .bar m h _ _ => m == n && h == g
  | _ => false

/-- What the lane does once the wait for the generation is over. -/
def LaneSt.woken (x : LaneSt) : LaneSt := if x.waitsFor n g then .run else x

theorem LaneSt.waitsFor_iff (x : LaneSt) : x.waitsFor n g = true ↔ ∃ a b, x = .bar n g a b := by
  cases x <;> simp [LaneSt.waitsFor]

@[simp] theorem LaneSt.woken_woken (x : LaneSt) : (x.woken n g).woken n g = x.woken n g := by
  by_cases h : x.waitsFor n g = true
  · have e : x.woken n g = .run := if_pos h
    rw [e]
    rfl
  · have e : x.woken n g = x := if_neg h
    rw [e, e]

theorem LaneSt.woken_ne_bar {x : LaneSt} (h : ∀ b, x ≠ .bar n g true b) (b : Bool) : x.woken n g ≠ .bar n g true b := by
  unfold LaneSt.woken
  split
  · exact fun e => by cases e
  · exact h b

/-- The lanes of the wave that wait for the generation. -/
def Wave.waiting (w : Wave) : List Nat := w.idx.filter (fun l => (w.lane l).st.waitsFor n g)

theorem Wave.mem_waiting (w : Wave) (l : Nat) : l ∈ w.waiting n g ↔ (w.lane l).st.waitsFor n g = true := by
  unfold Wave.waiting Wave.idx
  rw [List.mem_filter, List.mem_range, and_iff_right_iff_imp]
  intro h
  by_contra hl
  rw [w.lane_of_le (Nat.le_of_not_lt hl)] at h
  exact absurd h Bool.false_ne_true

theorem Wave.nodup_waiting (w : Wave) : (w.waiting n g).Nodup := List.nodup_range.filter _

/-- No lane of the wave arrives in the next generation as its wait ends. -/
def Wave.NoAgain (w : Wave) : Prop := ∀ l b, (w.lane l).st ≠ .bar n g true b

/-- Where no lane arrives again, the lanes that wait retire. -/
theorem barFinish_eq (s : State) (k : WKey) (w : Wave) (hw : s.findWave k = some w) (hno : w.NoAgain n g) :
    s.barFinish k n g = if (w.waiting n g).isEmpty then s else (s.setWave w).lateRetire k (w.waiting n g) := by
  have hwaits : ∀ l ∈ w.waiting n g, ∃ b, (w.lane l).st = .bar n g false b := by
    intro l hl
    obtain ⟨a, b, e⟩ := (LaneSt.waitsFor_iff n g _).mp ((w.mem_waiting n g l).mp hl)
    cases a with
    | false => exact ⟨b, e⟩
    | true => exact absurd e (hno l b)
  have hagain : (w.waiting n g).filter (fun l => match (w.lane l).st with | .bar _ _ a _ => a | _ => false) = [] := by
    rw [List.filter_eq_nil_iff]
    intro l hl
    obtain ⟨b, e⟩ := hwaits l hl
    simp [e]
  have hboth : (w.waiting n g).filter (fun l => match (w.lane l).st with | .bar _ _ a b => a && b | _ => false) = [] := by
    rw [List.filter_eq_nil_iff]
    intro l hl
    obtain ⟨b, e⟩ := hwaits l hl
    simp [e]
  have hall : (w.waiting n g).filter (fun l => !([] : List Nat).contains l) = w.waiting n g := List.filter_eq_self.mpr fun _ _ => rfl
  unfold State.barFinish
  rw [hw]
  by_cases he : (w.waiting n g).isEmpty = true
  · rw [if_pos he]
    exact if_pos he
  · rw [if_neg he]
    refine (if_neg he).trans ?_
    dsimp only
    erw [hagain, hboth, hall]
    exact if_neg he

/-- A lane retires from its wait: it is ready, and its arrivals are as before. -/
theorem State.lane_wake (s : State) (w : Wave) (l : Nat) : ((s.wake w (w.waiting n g)).lane l).arr = (w.lane l).arr ∧
    ((s.wake w (w.waiting n g)).lane l).st = (w.lane l).st.woken n g := by
  have hnd := w.nodup_waiting n g
  have hlane : ((w.modLanes (w.waiting n g) (fun x => { x with st := .run })).lane l).arr = (w.lane l).arr ∧
      ((w.modLanes (w.waiting n g) (fun x => { x with st := .run })).lane l).st = (w.lane l).st.woken n g := by
    by_cases hl : l ∈ w.waiting n g
    · have hlt : l < w.lanes.length := List.mem_range.mp (List.mem_of_mem_filter hl)
      rw [w.lane_modLanes_mem _ _ l hnd hl hlt]
      exact ⟨rfl, (if_pos ((w.mem_waiting n g l).mp hl)).symm⟩
    · rw [w.lane_modLanes_not_mem _ _ l hl]
      exact ⟨rfl, (if_neg (hl ∘ (w.mem_waiting n g l).mpr)).symm⟩
  unfold State.wake
  exact ⟨(s.advance_arr _ _ hnd l).trans hlane.1, (s.advance_st _ _ hnd l).trans hlane.2⟩

/-- The wave goes on with the lanes of the first whose wait is over, if it is one of those that are told. -/
def Wave.Woke (told : Prop) [Decidable told] (w v : Wave) : Prop :=
  v.key = w.key ∧ v.lanes.length = w.lanes.length ∧ ∀ l, (v.lane l).arr = (w.lane l).arr ∧
    (v.lane l).st = if told then (w.lane l).st.woken n g else (w.lane l).st

theorem Wave.length_wake (s : State) (w : Wave) (ls : List Nat) : (s.wake w ls).lanes.length = w.lanes.length := by
  rw [State.wake, State.advance_length, Wave.length_modLanes]

theorem Wave.key_wake (s : State) (w : Wave) (ls : List Nat) : (s.wake w ls).key = w.key := by
  have h := congrArg Wave.key ((w.modLanes ls (fun x => { x with st := .run })).sansIssue_advance s ls)
  obtain ⟨_, _, e⟩ := w.alike_modLanes ls (fun x => { x with st := .run })
  exact h.trans (by rw [e]; rfl)

/-- The step trap of a wait stands beside the lanes. -/
theorem State.stepAfterWait_lanes (s : State) (old w : Wave) (ls : List Nat) : (s.stepAfterWait old w ls).lanes = w.lanes ∧
    (s.stepAfterWait old w ls).key = w.key := by
  unfold State.stepAfterWait Wave.stepHeld
  split
  · exact ⟨rfl, rfl⟩
  · dsimp only
    split
    · exact ⟨rfl, rfl⟩
    · split <;> exact ⟨rfl, rfl⟩

/-- The wave that a late retirement of the waiting lanes leaves. -/
theorem lateRetire_woke (s : State) (w : Wave) (hw : s.findWave w.key = some w) : ∃ v, w.Woke n g True v ∧
    s.lateRetire w.key (w.waiting n g) = s.setWave v := by
  unfold State.lateRetire
  rw [hw]
  refine ⟨_, ⟨?_, ?_, fun l => ?_⟩, rfl⟩
  · exact (s.stepAfterWait_lanes _ _ _).2.trans (Wave.key_wake s w _)
  · exact (congrArg List.length (s.stepAfterWait_lanes w _ _).1).trans (Wave.length_wake s w (w.waiting n g))
  · have e := Wave.lane_congr (s.stepAfterWait_lanes w (w.both (fun w' => s.wake w' (w.waiting n g))) (w.waiting n g)).1 l
    have h := s.lane_wake n g w l
    rw [if_pos trivial]
    exact ⟨(congrArg Lane.arr e).trans h.1, (congrArg Lane.st e).trans h.2⟩

end
end Sys2Proof.Machine

namespace Sys2Proof.Machine

/-! ### The waits of all waves of a name end (R244) -/

section
variable (n g : Nat)

/-- The waits of the waves of these keys are over, and nothing else is changed of what the name depends on. -/
def State.Woke (ks : List WKey) (s u : State) : Prop :=
  u.mem = s.mem ∧ u.teams = s.teams ∧
    ∃ F : Wave → Wave, u.waves = s.waves.map F ∧ ∀ w ∈ s.waves, w.Woke n g (w.key ∈ ks) (F w)

theorem Wave.Woke.of_not {told : Prop} [Decidable told] (w : Wave) (h : ¬ told) : w.Woke n g told w :=
  ⟨rfl, rfl, fun _ => ⟨rfl, (if_neg h).symm⟩⟩

/-- A wave in which no lane waits is not changed. -/
theorem Wave.Woke.of_calm {told : Prop} [Decidable told] (w : Wave) (h : ∀ l, (w.lane l).st.waitsFor n g = false) : w.Woke n g told w := by
  refine ⟨rfl, rfl, fun l => ⟨rfl, ?_⟩⟩
  have e : (w.lane l).st.woken n g = (w.lane l).st := if_neg (by rw [h l]; exact Bool.false_ne_true)
  rw [e, ite_self]

theorem Wave.Woke.mono {p q : Prop} [Decidable p] [Decidable q] {w v : Wave} (h : w.Woke n g p v) (e : p ↔ q) : w.Woke n g q v := by
  obtain ⟨hkey, hlen, hlane⟩ := h
  refine ⟨hkey, hlen, fun l => ⟨(hlane l).1, (hlane l).2.trans ?_⟩⟩
  exact if_congr e rfl rfl

theorem Wave.Woke.trans {p q : Prop} [Decidable p] [Decidable q] {w v x : Wave} (h : w.Woke n g p v) (k : v.Woke n g q x) :
    w.Woke n g (p ∨ q) x := by
  obtain ⟨hkey, hlen, hlane⟩ := h
  obtain ⟨kkey, klen, klane⟩ := k
  refine ⟨kkey.trans hkey, klen.trans hlen, fun l => ⟨(klane l).1.trans (hlane l).1, ?_⟩⟩
  rw [(klane l).2, (hlane l).2]
  by_cases hp : p <;> by_cases hq : q <;> simp [hp, hq]

theorem Wave.Woke.noAgain {told : Prop} [Decidable told] {w v : Wave} (h : w.Woke n g told v) (hno : w.NoAgain n g) : v.NoAgain n g := by
  obtain ⟨-, -, hlane⟩ := h
  intro l b
  rw [(hlane l).2]
  split
  · exact LaneSt.woken_ne_bar n g (hno l) b
  · exact hno l b

theorem State.KeysNodup.woke {ks : List WKey} {s u : State} (h : s.KeysNodup) (hw : s.Woke n g ks u) : u.KeysNodup := by
  obtain ⟨-, -, F, hF, hwoke⟩ := hw
  unfold State.KeysNodup
  rw [hF, List.map_map]
  have e : s.waves.map (Wave.key ∘ F) = s.waves.map Wave.key := List.map_congr_left fun w hm => (hwoke w hm).1
  rw [e]
  exact h

theorem State.Woke.trans {ks ls : List WKey} {s u x : State} (h : s.Woke n g ks u) (k : u.Woke n g ls x) : s.Woke n g (ks ++ ls) x := by
  obtain ⟨hmem, hteams, F, hF, hwoke⟩ := h
  obtain ⟨kmem, kteams, G, hG, kwoke⟩ := k
  refine ⟨kmem.trans hmem, kteams.trans hteams, G ∘ F, by rw [hG, hF, List.map_map], fun w hw => ?_⟩
  have hv : F w ∈ u.waves := by
    rw [hF]
    exact List.mem_map_of_mem hw
  refine ((hwoke w hw).trans n g (kwoke (F w) hv)).mono n g ?_
  rw [(hwoke w hw).1, List.mem_append]

/-- Where nothing is changed and no wave of the key waits. -/
theorem State.Woke.of_calm (s : State) (k : WKey) (h : ∀ w ∈ s.waves, w.key = k → ∀ l, (w.lane l).st.waitsFor n g = false) :
    s.Woke n g [k] s := by
  refine ⟨rfl, rfl, id, (List.map_id _).symm, fun w hw => ?_⟩
  by_cases hk : w.key = k
  · exact Wave.Woke.of_calm n g w (h w hw hk)
  · exact Wave.Woke.of_not n g w (by simpa using hk)

theorem State.KeysNodup.woke_setWave {s : State} (h : s.KeysNodup) {w v : Wave} (hw : w ∈ s.waves) (hv : w.Woke n g True v) :
    s.Woke n g [w.key] (s.setWave v) := by
  refine ⟨s.mem_setWave v, s.teams_setWave v, _, h.waves_setWave v, fun x hx => ?_⟩
  by_cases hk : x.key = w.key
  · rw [if_pos (hk.trans hv.1.symm), h.eq_of_key hw hx hk]
    exact hv.mono n g (by simp)
  · rw [if_neg fun e => hk (e.trans hv.1)]
    exact Wave.Woke.of_not n g x (by simpa using hk)

/-- The waits of one wave end. -/
theorem State.KeysNodup.woke_barFinish {s : State} (h : s.KeysNodup) (k : WKey) (hno : ∀ w ∈ s.waves, w.key = k → w.NoAgain n g) :
    s.Woke n g [k] (s.barFinish k n g) := by
  cases hfind : s.findWave k with
  | none =>
    have e : s.barFinish k n g = s := by
      unfold State.barFinish
      rw [hfind]
    rw [e]
    refine State.Woke.of_calm n g s k fun w hw hk l => ?_
    rw [w.lane_of_le (by rw [lanes_of_findWave_none hfind hw hk]; exact Nat.zero_le l)]
    rfl
  | some w =>
    obtain ⟨hw, rfl⟩ := mem_of_findWave hfind
    rw [barFinish_eq n g s w.key w hfind (hno w hw rfl)]
    by_cases he : (w.waiting n g).isEmpty = true
    · rw [if_pos he]
      refine State.Woke.of_calm n g s w.key fun x hx hk l => ?_
      rw [h.eq_of_key hw hx hk]
      refine Bool.eq_false_iff.mpr fun hwaits => ?_
      have hl := (w.mem_waiting n g l).mpr hwaits
      rw [List.isEmpty_iff.mp he] at hl
      exact absurd hl List.not_mem_nil
    · rw [if_neg he]
      have hwaves := h.waves_setWave_self hw
      have hfind' : (s.setWave w).findWave w.key = some w := by
        unfold State.findWave
        rw [hwaves]
        exact hfind
      obtain ⟨v, hv, e⟩ := lateRetire_woke n g (s.setWave w) w hfind'
      have h' : (s.setWave w).KeysNodup := by
        unfold State.KeysNodup
        rw [hwaves]
        exact h
      rw [e]
      obtain ⟨hmem, hteams, F, hF, hwoke⟩ := h'.woke_setWave n g (hwaves ▸ hw) hv
      rw [hwaves] at hF hwoke
      exact ⟨hmem.trans (s.mem_setWave w), hteams.trans (s.teams_setWave w), F, hF, hwoke⟩

/-- The waits of several waves end. -/
theorem State.KeysNodup.woke_foldl_barFinish {s : State} (h : s.KeysNodup) (ks : List WKey)
    (hno : ∀ w ∈ s.waves, w.key ∈ ks → w.NoAgain n g) : s.Woke n g ks (ks.foldl (fun s k => s.barFinish k n g) s) := by
  induction ks generalizing s with
  | nil => exact ⟨rfl, rfl, id, (List.map_id _).symm, fun w _ => Wave.Woke.of_not n g w List.not_mem_nil⟩
  | cons k ks ih =>
    have hk := h.woke_barFinish n g k fun w hw e => hno w hw (by simp [e])
    refine State.Woke.trans n g hk (ih (h.woke n g hk) fun v hv hin => ?_)
    obtain ⟨-, -, F, hF, hwoke⟩ := hk
    rw [hF] at hv
    obtain ⟨w, hw, rfl⟩ := List.mem_map.mp hv
    rw [(hwoke w hw).1] at hin
    exact (hwoke w hw).noAgain n g (hno w hw (List.mem_cons_of_mem _ hin))

end
end Sys2Proof.Machine

namespace Sys2Proof.Machine

/-! ### The completion of a generation of a team-scope name (R244) -/

section
variable (grid team n : Nat)

/-- The wave is of the team. -/
def Wave.inTeam (w : Wave) : Bool := w.key.grid == grid && w.key.team == team

/-- The team with a name in a generation. -/
def Team.named (t : Team) (g : Nat) : Team := { t with bar := t.bar.set n { t.name n with gen := g } }

/-- What a change of the team's name makes of a team. -/
def Team.renamed (t : Team) (g : Nat) (x : Team) : Team := if x.grid = t.grid ∧ x.idx = t.idx then t.named n g else x

theorem Team.renamed_place (t : Team) (g : Nat) (x : Team) : (t.renamed n g x).grid = x.grid ∧ (t.renamed n g x).idx = x.idx := by
  unfold Team.renamed
  split
  · rename_i h
    exact ⟨h.1.symm, h.2.symm⟩
  · exact ⟨rfl, rfl⟩

/-- The team without arrivals at the name in its saved waves, if it is the one that is told. -/
def Team.cleared (t : Team) : Team :=
  if t.grid == grid && t.idx == team then { t with savedWaves := t.savedWaves.map (fun w => w.clearArr n) } else t

/-- The team's name in its next generation, with no arrival. -/
def State.nextGen (s : State) : State :=
  let u := (s.setTeam ((s.teamAt grid team).named n ((s.barGen grid team n + 1) % 2 ^ 32))).mapWaves
    (fun w => if w.inTeam grid team then w.clearArr n else w)
  { u with teams := u.teams.map (Team.cleared grid team n) }

theorem Team.cleared_place (t : Team) : (t.cleared grid team n).grid = t.grid ∧ (t.cleared grid team n).idx = t.idx ∧
    (t.cleared grid team n).bar = t.bar := by
  unfold Team.cleared
  split <;> exact ⟨rfl, rfl, rfl⟩

theorem closeAll_of_closed (s : State) (h : ∀ w ∈ s.waves, w.opens = []) : s.closeAll = s :=
  if_pos (List.all_eq_true.mpr fun w hw => by rw [h w hw]; rfl)

theorem barComplete_eq (s : State) (hn : n < 48) (hopens : ∀ w ∈ s.waves, w.opens = []) : s.barComplete grid team n =
    (((s.nextGen grid team n).waves.filter (fun w => w.inTeam grid team && !w.lanes.isEmpty)).map Wave.key).foldl
      (fun u k => u.barFinish k n (s.barGen grid team n)) (s.nextGen grid team n) := by
  unfold State.barComplete
  simp only [closeAll_of_closed s hopens, gridName_of_lt hn, Bool.false_or]
  rfl

/-- Where every wave of the team has arrived, some of them by an instruction, the generation completes. -/
theorem barCheck_of_full (s : State) (fuel : Nat) (hn : n < 48) (h : s.barFull grid team n = true) :
    s.barCheck (fuel + 1) grid team n = (s.barComplete grid team n).barCheck fuel grid team n := by
  have hck : s.checkpointAt grid n = (s, true) := if_pos (by rw [gridName_of_lt hn]; simp)
  conv_lhs => unfold State.barCheck
  rw [if_pos h, hck]
  rfl

theorem nextGen_waves (s : State) : (s.nextGen grid team n).waves =
    s.waves.map (fun w => if w.inTeam grid team then w.clearArr n else w) := rfl

theorem mem_nextGen_waves (s : State) (v : Wave) : v ∈ (s.nextGen grid team n).waves ↔
    ∃ w ∈ s.waves, (if w.inTeam grid team then w.clearArr n else w) = v := by
  rw [nextGen_waves, List.mem_map]

theorem Wave.lane_clearArr (w : Wave) (l : Nat) : ((w.clearArr n).lane l).arr = (w.lane l).arr.filter (· != n) ∧
    ((w.clearArr n).lane l).st = (w.lane l).st := by
  unfold Wave.lane Wave.clearArr
  by_cases h : l < w.lanes.length
  · simp [h]
  · have h' : w.lanes.length ≤ l := Nat.le_of_not_lt h
    simp [h', Lane.zero]

theorem Wave.not_mem_clearArr (w : Wave) {x : Lane} (h : x ∈ (w.clearArr n).lanes) : n ∉ x.arr := by
  obtain ⟨y, -, rfl⟩ := List.mem_map.mp h
  simp

theorem nextGen_keysNodup {s : State} (h : s.KeysNodup) : (s.nextGen grid team n).KeysNodup := by
  unfold State.KeysNodup
  rw [nextGen_waves, List.map_map]
  have e : s.waves.map (Wave.key ∘ fun w => if w.inTeam grid team then w.clearArr n else w) = s.waves.map Wave.key :=
    List.map_congr_left fun w _ => by
      dsimp only [Function.comp]
      split <;> rfl
  rw [e]
  exact h

/-- The saved waves of the team have no arrival at the name. -/
theorem nextGen_savedWaves (s : State) {t : Team} (ht : t ∈ (s.nextGen grid team n).teams) (hgrid : t.grid = grid) (hidx : t.idx = team)
    {w : Wave} (hw : w ∈ t.savedWaves) {x : Lane} (hx : x ∈ w.lanes) : n ∉ x.arr := by
  obtain ⟨t', -, rfl⟩ := List.mem_map.mp ht
  rw [(t'.cleared_place grid team n).1] at hgrid
  rw [(t'.cleared_place grid team n).2.1] at hidx
  unfold Team.cleared at hw
  rw [if_pos (by simp [hgrid, hidx])] at hw
  obtain ⟨w', -, rfl⟩ := List.mem_map.mp hw
  exact w'.not_mem_clearArr n hx

theorem mem_teamWaves (s : State) (w : Wave) :
    w ∈ s.teamWaves grid team ↔ w ∈ s.waves ∧ w.inTeam grid team = true ∧ w.lanes ≠ [] := by
  simp [State.teamWaves, Wave.inTeam, and_assoc]

/-- The team of a name is the one that is found. -/
theorem find_of_scopeTeams (s : State) (t : Team) (hn : n < 48) (ht : s.scopeTeams grid team n = [t]) :
    s.teams.find? (fun t => t.grid == grid && t.idx == team) = some t := by
  rw [← List.head?_filter]
  simp only [State.scopeTeams, gridName_of_lt hn, Bool.false_or] at ht
  rw [ht]
  rfl

/-- The team that is found where every team keeps its place. -/
theorem teamAt_of_map {s u : State} {t : Team} (f : Team → Team) (hf : ∀ x : Team, (f x).grid = x.grid ∧ (f x).idx = x.idx)
    (hu : u.teams = s.teams.map f) (ht : s.teams.find? (fun t => t.grid == grid && t.idx == team) = some t) :
    u.teamAt grid team = f t := by
  have hsame : (fun t : Team => t.grid == grid && t.idx == team) ∘ f = fun t => t.grid == grid && t.idx == team :=
    funext fun x => by rw [Function.comp_apply, (hf x).1, (hf x).2]
  unfold State.teamAt
  rw [hu, List.find?_map, hsame, ht]
  rfl

/-- The generation of the name goes on by one. -/
theorem nextGen_barGen (s : State) (t : Team) (hn : n < 48) (ht : s.scopeTeams grid team n = [t]) (hlen : n < t.bar.length) :
    (s.nextGen grid team n).barGen grid team n = (s.barGen grid team n + 1) % 2 ^ 32 := by
  have hfind := find_of_scopeTeams grid team n s t hn ht
  have hat : s.teamAt grid team = t := congrArg (fun o : Option Team => o.getD Team.zero) hfind
  generalize hg : (s.barGen grid team n + 1) % 2 ^ 32 = g
  have hu : (s.nextGen grid team n).teams = s.teams.map (Team.cleared grid team n ∘ t.renamed n g) := by
    rw [State.nextGen, hat, hg, ← List.map_map]
    rfl
  have hteam := teamAt_of_map grid team (Team.cleared grid team n ∘ t.renamed n g) (fun x => by
      obtain ⟨cgrid, cidx, -⟩ := (t.renamed n g x).cleared_place grid team n
      obtain ⟨rgrid, ridx⟩ := t.renamed_place n g x
      exact ⟨cgrid.trans rgrid, cidx.trans ridx⟩) hu hfind
  have hbar : ((s.nextGen grid team n).teamAt grid team).bar = t.bar.set n { t.name n with gen := g } := by
    rw [hteam, Function.comp_apply, ((t.renamed n g t).cleared_place grid team n).2.2]
    exact congrArg Team.bar (if_pos ⟨rfl, rfl⟩)
  rw [State.barGen, gridName_of_lt hn, Team.name, hbar]
  simp [hlen]

end

section
variable {s : State} {grid team n : Nat} {t : Team} (hn : n < 48) (ht : s.scopeTeams grid team n = [t])
  (hsaved : t.savedWaves = []) (hkeys : s.KeysNodup) (hopens : ∀ w ∈ s.waves, w.opens = [])
  (hagain : ∀ w ∈ s.teamWaves grid team, ∀ x ∈ w.lanes, ∀ b, x.st ≠ .bar n (s.barGen grid team n) true b)

include hn ht hsaved in
theorem barFull_of_arrived (hsome : ∃ w ∈ s.teamWaves grid team, ∃ x ∈ w.lanes, n ∈ x.arr)
    (hall : ∀ w ∈ s.teamWaves grid team, t.hasMember n w.key.wave = true → ∀ x ∈ w.lanes, x.live = true → n ∈ x.arr) :
    s.barFull grid team n = true := by
  have hteam : t ∈ s.teams ∧ t.grid = grid ∧ t.idx = team := (mem_scopeTeams s grid team n hn t).mp (by rw [ht]; exact List.mem_singleton_self t)
  obtain ⟨-, rfl, rfl⟩ := hteam
  have hwaves : s.wavesOf t = s.teamWaves t.grid t.idx := by rw [State.wavesOf, hsaved, List.append_nil]
  have harrived : s.teamArrived t n = true := (teamArrived_iff s t n).mpr (by rw [hwaves]; exact hall)
  obtain ⟨w, hw, x, hx, hin⟩ := hsome
  have hsome : s.someArrived t.grid t.idx n = true := by
    rw [State.someArrived, ht, List.any_cons, List.any_nil, Bool.or_false, hwaves]
    exact List.any_eq_true.mpr ⟨w, hw, List.any_eq_true.mpr ⟨x, hx, List.contains_iff_mem.mpr hin⟩⟩
  rw [State.barFull, hsome, ht, gridName_of_lt hn]
  simp [harrived]

include hn hkeys hopens hagain in
/-- The waits of the team's waves end as its generation completes. -/
theorem barComplete_woke : ∃ ks : List WKey, (∀ w ∈ s.teamWaves grid team, w.key ∈ ks) ∧
    (s.nextGen grid team n).Woke n (s.barGen grid team n) ks (s.barComplete grid team n) := by
  rw [barComplete_eq grid team n s hn hopens]
  refine ⟨_, fun w hw => ?_, (nextGen_keysNodup grid team n hkeys).woke_foldl_barFinish n _ _ fun v hv hin => ?_⟩
  · obtain ⟨hmem, hteam, hlanes⟩ := (mem_teamWaves grid team s w).mp hw
    refine List.mem_map.mpr ⟨w.clearArr n, List.mem_filter.mpr ⟨?_, ?_⟩, rfl⟩
    · exact (mem_nextGen_waves grid team n s _).mpr ⟨w, hmem, if_pos hteam⟩
    · have hne : (w.clearArr n).lanes.isEmpty = false := by simp [Wave.clearArr, hlanes]
      rw [hne]
      exact Bool.and_eq_true_iff.mpr ⟨hteam, rfl⟩
  · obtain ⟨v', hv', hkey⟩ := List.mem_map.mp hin
    obtain ⟨hv', hteam⟩ := List.mem_filter.mp hv'
    obtain ⟨hteam, hlanes⟩ := Bool.and_eq_true_iff.mp hteam
    obtain rfl := (nextGen_keysNodup grid team n hkeys).eq_of_key hv hv' hkey
    obtain ⟨w, hw, rfl⟩ := (mem_nextGen_waves grid team n s _).mp hv
    by_cases hin : w.inTeam grid team = true
    · rw [if_pos hin] at hlanes ⊢
      have hlanes : w.lanes ≠ [] := fun e => by simp [Wave.clearArr, e] at hlanes
      intro l b
      rw [(w.lane_clearArr n l).2]
      by_cases hl : l < w.lanes.length
      · exact hagain w ((mem_teamWaves grid team s w).mpr ⟨hw, hin, hlanes⟩) _ (w.lane_mem hl) b
      · rw [w.lane_of_le (Nat.le_of_not_lt hl)]
        exact fun e => by cases e
    · rw [if_neg hin] at hteam
      exact absurd hteam hin

/-- No lane has arrived in the next generation, nor where only waits end. -/
theorem someArrived_of_woke {ks : List WKey} {u : State} (hn : n < 48) (h : (s.nextGen grid team n).Woke n (s.barGen grid team n) ks u) :
    u.someArrived grid team n = false := by
  obtain ⟨-, hteams, F, hF, hwoke⟩ := h
  unfold State.someArrived
  rw [List.any_eq_false]
  intro t ht
  obtain ⟨ht, hgrid, hidx⟩ := (mem_scopeTeams u grid team n hn t).mp ht
  simp only [List.any_eq_true, List.contains_iff_mem, not_exists, not_and]
  intro v hv x hx
  rcases List.mem_append.mp hv with hv | hv
  · rw [hgrid, hidx] at hv
    obtain ⟨hv, hteam, -⟩ := (mem_teamWaves grid team u v).mp hv
    rw [hF] at hv
    obtain ⟨c, hc, rfl⟩ := List.mem_map.mp hv
    obtain ⟨hkey, -, hlane⟩ := hwoke c hc
    obtain ⟨w, -, rfl⟩ := (mem_nextGen_waves grid team n s c).mp hc
    obtain ⟨l, -, rfl⟩ := (F _).exists_lane hx
    have hin : w.inTeam grid team = true := by
      rw [Wave.inTeam, hkey] at hteam
      split at hteam <;> exact hteam
    rw [(hlane l).1, if_pos hin, (w.lane_clearArr n l).1]
    simp
  · rw [hteams] at ht
    exact nextGen_savedWaves grid team n s ht hgrid hidx hv hx

/-- What the lanes of a wave of the team do once the generation is complete. -/
theorem lane_of_woke {ks : List WKey} {u : State} (h : (s.nextGen grid team n).Woke n (s.barGen grid team n) ks u) {w : Wave}
    (hw : w ∈ s.teamWaves grid team) (hk : w.key ∈ ks) : ∃ v ∈ u.waves, v.key = w.key ∧ ∀ l,
      (v.lane l).arr = (w.lane l).arr.filter (· != n) ∧ (v.lane l).st = (w.lane l).st.woken n (s.barGen grid team n) := by
  obtain ⟨-, -, F, hF, hwoke⟩ := h
  obtain ⟨hmem, hteam, -⟩ := (mem_teamWaves grid team s w).mp hw
  have hc : w.clearArr n ∈ (s.nextGen grid team n).waves := (mem_nextGen_waves grid team n s _).mpr ⟨w, hmem, if_pos hteam⟩
  obtain ⟨hkey, -, hlane⟩ := hwoke _ hc
  refine ⟨F (w.clearArr n), by rw [hF]; exact List.mem_map_of_mem hc, hkey, fun l => ?_⟩
  obtain ⟨harr, hst⟩ := hlane l
  exact ⟨harr.trans (w.lane_clearArr n l).1, hst.trans ((if_pos hk).trans (by rw [(w.lane_clearArr n l).2]))⟩

include hn ht hsaved hkeys hopens hagain in
/-- THE GENERATION COMPLETES (R244). -/
theorem barCheck_completes (fuel : Nat) (hlen : n < t.bar.length) (hsome : ∃ w ∈ s.teamWaves grid team, ∃ x ∈ w.lanes, n ∈ x.arr)
    (hall : ∀ w ∈ s.teamWaves grid team, t.hasMember n w.key.wave = true → ∀ x ∈ w.lanes, x.live = true → n ∈ x.arr) :
    let u := s.barCheck (fuel + 1) grid team n
    u.barGen grid team n = (s.barGen grid team n + 1) % 2 ^ 32 ∧ u.mem = s.mem ∧
    ∀ w ∈ s.teamWaves grid team, ∃ v ∈ u.waves, v.key = w.key ∧ ∀ l,
      (v.lane l).arr = (w.lane l).arr.filter (· != n) ∧ (v.lane l).st = (w.lane l).st.woken n (s.barGen grid team n) := by
  obtain ⟨ks, hks, hwoke⟩ := barComplete_woke hn hkeys hopens hagain
  have hrest : (s.barComplete grid team n).barCheck fuel grid team n = s.barComplete grid team n :=
    barCheck_of_not_full _ _ _ _ _ (by rw [State.barFull, someArrived_of_woke hn hwoke]; rfl)
  rw [barCheck_of_full grid team n s fuel hn (barFull_of_arrived hn ht hsaved hsome hall), hrest]
  dsimp only
  refine ⟨?_, hwoke.1, fun w hw => lane_of_woke hwoke hw (hks w hw)⟩
  rw [← nextGen_barGen grid team n s t hn ht hlen]
  obtain ⟨-, hteams, -⟩ := hwoke
  unfold State.barGen State.teamAt
  rw [gridName_of_lt hn, hteams]
  rfl

end

/-- A lane that waits for the generation is ready once it is complete, and any other lane goes on as before. -/
theorem LaneSt.woken_cases (x : LaneSt) (n g : Nat) (hno : ∀ b, x ≠ .bar n g true b) :
    ((∃ b, x = .bar n g false b) → x.woken n g = .run) ∧ ((∀ b, x ≠ .bar n g false b) → x.woken n g = x) := by
  constructor
  · rintro ⟨b, rfl⟩
    exact if_pos ((LaneSt.waitsFor_iff n g _).mpr ⟨false, b, rfl⟩)
  · intro hne
    refine if_neg fun hwaits => ?_
    obtain ⟨a, b, e⟩ := (LaneSt.waitsFor_iff n g x).mp hwaits
    cases a with
    | false => exact hne b e
    | true => exact hno b e

/-- Settles O26: with the checks passed, the instruction's effect is the arrival or the wait of its lanes; a generation does not complete
while an unexited lane of a member has not arrived, and else wakes the lanes that wait. -/
theorem turnstileResults : Obligations.TurnstileResults := by
  unfold Obligations.TurnstileResults
  refine ⟨fun f s => ⟨?barr, ?bara, ?_, ?_⟩, fun i s hi hr htm hdue hne => ?_, fun s grid team n fuel hn h => ?_,
    fun s grid team n fuel t hn ht hlen hsaved hkeys hopens hsome hall hno => ?_⟩
  case barr | bara =>
    intro hr ⟨hsticky, hcalm⟩
    refine ⟨fun hmem hrel => ?_, fun hmem => ?_⟩
    · exact completesBut_of_done _ s _ _ (bodyArrive f _) hr rfl (bodyArrive_of_member f _ _ _ s hsticky hcalm hmem hrel)
    · exact traps_of_trap _ s _ _ (bodyArrive f _) hr rfl (bodyArrive_of_not_member f _ _ _ s hsticky hcalm hmem)
  · intro hr ⟨hsticky, hcalm⟩
    exact completesBut_of_done _ s _ _ (bodyBarw f) hr rfl (bodyBarw_of_calm f _ _ s hsticky hcalm)
  · intro hr
    refine ⟨fun hmask hclosed => ?_, fun hopen => ?_, fun hmask hclosed => ?_⟩
    · exact completes_of_done _ s _ (bodyBmask f) hr rfl ((bodyBmask_of_closed f s _ _ hclosed).trans (if_neg hmask))
    · exact traps_of_trap _ s _ _ (bodyBmask f) hr rfl (bodyBmask_of_open f s _ _ hopen)
    · exact traps_of_trap _ s _ _ (bodyBmask f) hr rfl ((bodyBmask_of_closed f s _ _ hclosed).trans (if_pos hmask))
  · exact traps_of_stickyCheck hi hr (stickyCheck_of_flagged s _ htm hdue hne)
  · exact barCheck_of_absent s grid team n fuel hn h
  · obtain ⟨hgen, hmem, hlanes⟩ := barCheck_completes hn ht hsaved hkeys hopens hno fuel hlen hsome hall
    refine ⟨hgen, hmem, fun w hw => ?_⟩
    obtain ⟨v, hv, hkey, hlane⟩ := hlanes w hw
    refine ⟨v, hv, hkey, fun l hl => ⟨(hlane l).1, ?_⟩⟩
    rw [(hlane l).2]
    exact LaneSt.woken_cases _ n _ (hno w hw _ (w.lane_mem hl))

end Sys2Proof.Machine

namespace Sys2Proof.Machine

/-! ### Packed operations (R141) -/

theorem Ty.wide_of_isHalf {t : Ty} (h : t.isHalf = true) : t.wide = false := by
  cases t with
  | f16 | bf16 => rfl
  | _ => exact absurd h Bool.false_ne_true

theorem wide_of_hadd2 {f : FmtA} (h : (Instr.hadd2 f).wellFormed = true) : f.ty.wide = false :=
  Ty.wide_of_isHalf (by simp only [Instr.wellFormed, wfA3, Bool.and_eq_true] at h; tauto)

theorem wide_of_hmul2 {f : FmtA} (h : (Instr.hmul2 f).wellFormed = true) : f.ty.wide = false := wide_of_hadd2 (f := f) h

theorem halfOf_zero (v : Nat) : halfOf v 0 = v % 2 ^ 16 := by simp [halfOf]
theorem halfOf_one (v : Nat) : halfOf v 1 = v / 2 ^ 16 % 2 ^ 16 := rfl

/-- Settles O8: each body gives every active lane the value of the operation that the statement names; the type of a packed
operation is one register wide. -/
theorem floatArithmeticResults : Obligations.FloatArithmeticResults := by
  refine ⟨fun f s => ⟨fun h => ?_, fun h => ?_, fun h => ?_, fun h => ?_, fun h => ?_, fun h => ?hadd2, fun h => ?hmul2⟩,
    fun f s => ⟨fun h => ?ffma, fun h => ?hfma2, fun h => ?fdot2⟩⟩
  case hadd2 =>
    rw [← wide_of_hadd2 (legal_of_ready h)]
    exact completes_bodyA3 h rfl rfl fun l => by simp only [packHalf, halfOf_zero, halfOf_one, modeA]
  case hmul2 =>
    rw [← wide_of_hmul2 (legal_of_ready h)]
    exact completes_bodyA3 h rfl rfl fun l => by simp only [packHalf, halfOf_zero, halfOf_one, modeA]
  case ffma => exact completes_bodyB h rfl rfl fun l => rfl
  case hfma2 => exact completes_bodyB h rfl rfl fun l => by simp only [packHalf, halfOf, modeB]
  case fdot2 => exact completes_bodyB h rfl rfl fun l => rfl
  all_goals exact completes_bodyA3 h rfl rfl fun l => rfl

end Sys2Proof.Machine

namespace Sys2Proof.Machine

/-! ### The number that a dyadic stands for -/

/-- The number m * 2^e. -/
def Dy.val (d : Dy) : ℚ := d.m * 2 ^ d.e

theorem shlInt_cast (m k : Int) (h : 0 ≤ k) : (shlInt m k : ℚ) = m * 2 ^ k := by
  obtain ⟨n, rfl⟩ := Int.eq_ofNat_of_zero_le h
  simp [shlInt]

theorem Dy.val_add (a b : Dy) : (a.add b).val = a.val + b.val := by
  unfold Dy.add
  split_ifs with ha hb
  · simp [Dy.val, ha]
  · simp [Dy.val, hb]
  · simp only [Dy.val]
    push_cast
    rw [shlInt_cast _ _ (by omega), shlInt_cast _ _ (by omega), add_mul, mul_assoc, mul_assoc, ← zpow_add₀ two_ne_zero,
      ← zpow_add₀ two_ne_zero, sub_add_cancel, sub_add_cancel]

theorem Dy.val_neg (a : Dy) : a.neg.val = -a.val := by simp [Dy.val, Dy.neg]

theorem Dy.val_sub (a b : Dy) : (a.sub b).val = a.val - b.val := by
  rw [Dy.sub, Dy.val_add, Dy.val_neg, sub_eq_add_neg]

theorem Dy.val_eq_zero (d : Dy) : d.val = 0 ↔ d.m = 0 := by
  rw [Dy.val, mul_eq_zero_iff_right (by positivity), Int.cast_eq_zero]

theorem Dy.val_pos (d : Dy) : 0 < d.val ↔ 0 < d.m := by
  rw [Dy.val, mul_pos_iff_of_pos_right (by positivity), Int.cast_pos]

theorem Dy.val_neg_iff (d : Dy) : d.val < 0 ↔ d.m < 0 := by
  rw [← neg_pos, ← Dy.val_neg, Dy.val_pos, Dy.neg, neg_pos]

theorem Dy.abs_val (d : Dy) : |d.val| = d.m.natAbs * 2 ^ d.e := by
  rw [Dy.val, abs_mul, abs_of_pos (a := (2 : ℚ) ^ d.e) (by positivity), Nat.cast_natAbs, Int.cast_abs]

/-! ### Binary exponents -/

theorem lt_two_pow_bitLen (n : Nat) : n < 2 ^ bitLen n := by
  unfold bitLen
  split_ifs with h
  · simp [h]
  · exact Nat.lt_log2_self

theorem two_pow_le_of_bitLen {n : Nat} (h : n ≠ 0) : ∃ k, bitLen n = k + 1 ∧ 2 ^ k ≤ n :=
  ⟨Nat.log2 n, if_neg h, Nat.log2_self_le h⟩

/-- The magnitude of a nonzero number lies between two powers of two. -/
theorem Dy.expo_spec {d : Dy} (h : d.m ≠ 0) : (2 : ℚ) ^ d.expo ≤ |d.val| ∧ |d.val| < 2 ^ (d.expo + 1) := by
  obtain ⟨k, hk, hle⟩ := two_pow_le_of_bitLen (Int.natAbs_ne_zero.mpr h)
  have hlt := lt_two_pow_bitLen d.m.natAbs
  rw [hk] at hlt
  have he : d.expo = k + d.e := by rw [Dy.expo, hk]; push_cast; ring
  rw [d.abs_val, he, show (k : Int) + d.e + 1 = ((k + 1 : Nat) : Int) + d.e by push_cast; ring, zpow_add₀ two_ne_zero,
    zpow_add₀ two_ne_zero, zpow_natCast, zpow_natCast]
  exact ⟨mul_le_mul_of_nonneg_right (by exact_mod_cast hle) (by positivity),
    mul_lt_mul_of_pos_right (by exact_mod_cast hlt) (by positivity)⟩

theorem zpow_lt_two_iff {i j : Int} : (2 : ℚ) ^ i < 2 ^ j ↔ i < j := zpow_lt_zpow_iff_right₀ one_lt_two
theorem zpow_le_two_iff {i j : Int} : (2 : ℚ) ^ i ≤ 2 ^ j ↔ i ≤ j := zpow_le_zpow_iff_right₀ one_lt_two

/-- The exponent is told by the powers of two around the magnitude. -/
theorem Dy.le_expo_iff {d : Dy} (h : d.m ≠ 0) (k : Int) : k ≤ d.expo ↔ 2 ^ k ≤ |d.val| := by
  obtain ⟨hle, hlt⟩ := Dy.expo_spec h
  constructor
  · intro hk
    exact (zpow_le_two_iff.mpr hk).trans hle
  · intro hk
    have := zpow_lt_two_iff.mp (hk.trans_lt hlt)
    omega

theorem Dy.expo_lt_iff {d : Dy} (h : d.m ≠ 0) (k : Int) : d.expo < k ↔ |d.val| < 2 ^ k := by
  rw [← not_le, Dy.le_expo_iff h, not_le]

theorem Dy.abs_lt_of_expo_lt {a b : Dy} (ha : a.m ≠ 0) (hb : b.m ≠ 0) (h : a.expo < b.expo) : |a.val| < |b.val| :=
  ((Dy.expo_lt_iff ha _).mp h).trans_le (Dy.expo_spec hb).1

theorem Dy.lt_iff (a b : Dy) : a.lt b = true ↔ a.val < b.val := by
  unfold Dy.lt
  by_cases ha : a.m = 0
  · rw [if_pos ha, decide_eq_true_iff, (a.val_eq_zero).mpr ha, b.val_pos]
  by_cases hb : b.m = 0
  · rw [if_neg ha, if_pos hb, decide_eq_true_iff, (b.val_eq_zero).mpr hb, a.val_neg_iff]
  simp only [if_neg ha, if_neg hb, Bool.and_eq_true, decide_eq_true_eq]
  rcases lt_or_gt_of_ne ha with ha' | ha' <;> rcases lt_or_gt_of_ne hb with hb' | hb'
  · have hva := (a.val_neg_iff).mpr ha'
    have hvb := (b.val_neg_iff).mpr hb'
    simp only [ha', ha'.not_gt, hb'.not_gt, and_false, false_and, if_false]
    split_ifs with he
    · rw [decide_eq_true_iff, ← Dy.val_neg_iff, Dy.val_sub, sub_neg]
    · have hab := @Dy.abs_lt_of_expo_lt a b ha hb
      have hba := @Dy.abs_lt_of_expo_lt b a hb ha
      rw [abs_of_neg hva, abs_of_neg hvb] at hab hba
      rw [decide_eq_true_iff]
      exact ⟨fun h => by linarith [hba h], fun h => by
        by_contra hn
        linarith [hab (by omega)]⟩
  · rw [if_pos ⟨ha', hb'⟩]
    exact ⟨fun _ => ((a.val_neg_iff).mpr ha').trans ((b.val_pos).mpr hb'), fun _ => rfl⟩
  · rw [if_neg (fun h => absurd h.1 ha'.not_gt), if_pos ⟨ha', hb'⟩]
    exact ⟨fun h => absurd h (by decide), fun h => absurd (((b.val_neg_iff).mpr hb').trans ((a.val_pos).mpr ha')) h.not_gt⟩
  · have hva := (a.val_pos).mpr ha'
    have hvb := (b.val_pos).mpr hb'
    simp only [ha', ha'.not_gt, hb'.not_gt, and_false, false_and, if_false, if_true]
    split_ifs with he
    · rw [decide_eq_true_iff, ← Dy.val_neg_iff, Dy.val_sub, sub_neg]
    · have hab := @Dy.abs_lt_of_expo_lt a b ha hb
      have hba := @Dy.abs_lt_of_expo_lt b a hb ha
      rw [abs_of_pos hva, abs_of_pos hvb] at hab hba
      rw [decide_eq_true_iff]
      exact ⟨hab, fun h => by
        by_contra hn
        linarith [hba (by omega)]⟩

/-! ### Rounding to an integer (R116) -/

/-- The sign of a number. -/
def sgn (neg : Bool) : Int := if neg then -1 else 1

@[simp] theorem sgn_true : sgn true = -1 := rfl
@[simp] theorem sgn_false : sgn false = 1 := rfl
theorem abs_sgn_mul (neg : Bool) (x : ℚ) : |(sgn neg : ℚ) * x| = |x| := by cases neg <;> simp

/-- A number that an integer does not equal is rounded to one of the two integers around it. -/
theorem roundsToInt_between {mode : RMode} (hmode : mode ≠ .odd) (neg : Bool) {x : ℚ} {q : Nat} {up : Bool} (hlo : (q : ℚ) < x)
    (hhi : x < q + 1) (hup : up = match mode with
      | .rn => decide (1 / 2 < x - q) || (decide (x - q = 1 / 2) && q % 2 == 1) | .rz => false | .rm => neg | .rp => !neg
      | .odd => q % 2 == 0) :
    RoundsToInt mode (sgn neg * x) (sgn neg * (if up then q + 1 else q : Nat)) := by
  have hq : (0 : ℚ) ≤ q := by positivity
  have hx : 0 < x := hq.trans_lt hlo
  cases mode with
  | odd => exact absurd rfl hmode
  | rz =>
    have hsq : (sgn neg : ℚ) * sgn neg = 1 := by cases neg <;> simp
    simp only [RoundsToInt, hup, Bool.false_eq_true, if_false, Int.cast_mul, abs_sgn_mul, Int.cast_natCast, abs_of_pos hx, Nat.abs_cast]
    exact ⟨by rw [mul_mul_mul_comm, hsq]; positivity, hlo.le, hhi⟩
  | rm | rp => rw [hup]; cases neg <;> simp [RoundsToInt] <;> constructor <;> linarith
  | rn =>
    have habs (k : ℚ) : |(sgn neg : ℚ) * x - sgn neg * k| = |x - k| := by rw [← mul_sub, abs_sgn_mul]
    have hpar (k : Int) : (sgn neg * k) % 2 = 0 ↔ k % 2 = 0 := by cases neg <;> simp
    simp only [RoundsToInt, Int.cast_mul, habs, hpar]
    cases up with
    | false =>
      simp only [Bool.false_eq_true, if_false, Int.cast_natCast, abs_of_pos (sub_pos.mpr hlo)]
      simp only [Bool.false_eq, Bool.or_eq_false_iff, decide_eq_false_iff_not, not_lt, Bool.and_eq_false_iff, beq_eq_false_iff_ne] at hup
      exact ⟨hup.1, fun h => by have := hup.2.resolve_left (fun hn => hn h); omega⟩
    | true =>
      have hneg : x - ((q + 1 : Nat) : ℚ) < 0 := by push_cast; linarith
      simp only [if_true, Int.cast_natCast, abs_of_neg hneg]
      simp only [Bool.true_eq, Bool.or_eq_true, decide_eq_true_eq, Bool.and_eq_true, beq_iff_eq] at hup
      push_cast
      exact ⟨by rcases hup with h | h <;> linarith, fun h => by rcases hup with h' | h' <;> [linarith; omega]⟩

/-- A number that is an integer stays. -/
theorem roundsToInt_self (mode : RMode) (k : Int) : RoundsToInt mode k k := by
  cases mode <;> simp [RoundsToInt, mul_self_nonneg]

/-- Where a number rounds to an even integer, its half rounds to the half of that. -/
theorem RoundsToInt.half {mode : RMode} {x : ℚ} {k : Int} (h : RoundsToInt mode x (2 * k)) : RoundsToInt mode (x / 2) k := by
  have habs (y : ℚ) : |y / 2| = |y| / 2 := by rw [abs_div, abs_two]
  cases mode with
  | rz =>
    obtain ⟨h1, h2, h3⟩ := h
    push_cast [abs_mul, abs_two] at h1 h2 h3
    refine ⟨by linarith, ?_, ?_⟩ <;> rw [habs] <;> linarith
  | rm | rp =>
    obtain ⟨h1, h2⟩ := h
    push_cast at h1 h2
    constructor <;> linarith
  | rn | odd =>
    obtain ⟨h1, -⟩ := h
    push_cast at h1
    have h2 : |x / 2 - k| ≤ 1 / 4 := by rw [show x / 2 - k = (x - 2 * k) / 2 by ring, habs]; linarith
    exact ⟨by linarith, fun h3 => by linarith⟩

/-- Rounding passes no integer bound of the magnitude. -/
theorem RoundsToInt.abs_le_of_le {mode : RMode} {x : ℚ} {k N : Int} (h : RoundsToInt mode x k) (hx : |x| ≤ N) : |k| ≤ N := by
  rw [abs_le'] at hx
  obtain ⟨h1, h2⟩ := hx
  cases mode with
  | rz =>
    obtain ⟨-, h3, -⟩ := h
    exact_mod_cast h3.trans (abs_le'.mpr ⟨h1, h2⟩)
  | rm =>
    obtain ⟨h3, h4⟩ := h
    have : k ≤ N := by exact_mod_cast h3.trans h1
    have : -N < k + 1 := by exact_mod_cast (by linarith : (-N : ℚ) < k + 1)
    exact abs_le'.mpr ⟨by omega, by omega⟩
  | rp =>
    obtain ⟨h3, h4⟩ := h
    have : -k ≤ N := by exact_mod_cast (by linarith : (-k : ℚ) ≤ N)
    have : k < N + 1 := by exact_mod_cast (by linarith : (k : ℚ) < N + 1)
    exact abs_le'.mpr ⟨by omega, by omega⟩
  | rn | odd =>
    obtain ⟨h3, -⟩ := h
    rw [abs_le'] at h3
    have : k < N + 1 := by exact_mod_cast (by linarith : (k : ℚ) < N + 1)
    have : -k < N + 1 := by exact_mod_cast (by linarith : (-k : ℚ) < N + 1)
    exact abs_le'.mpr ⟨by omega, by omega⟩

theorem RoundsToInt.le_abs_of_le {mode : RMode} {x : ℚ} {k N : Int} (h : RoundsToInt mode x k) (hx : (N : ℚ) ≤ |x|) : N ≤ |k| := by
  cases mode with
  | rz =>
    obtain ⟨-, -, h3⟩ := h
    have : N < |k| + 1 := by exact_mod_cast hx.trans_lt h3
    omega
  | rm =>
    obtain ⟨h3, h4⟩ := h
    rcases le_abs.mp hx with h | h
    · have : N < k + 1 := by exact_mod_cast h.trans_lt h4
      exact le_abs.mpr (.inl (by omega))
    · have : N ≤ -k := by exact_mod_cast (by linarith : (N : ℚ) ≤ -k)
      exact le_abs.mpr (.inr this)
  | rp =>
    obtain ⟨h3, h4⟩ := h
    rcases le_abs.mp hx with h | h
    · have : N ≤ k := by exact_mod_cast h.trans h3
      exact le_abs.mpr (.inl this)
    · have : N < -k + 1 := by exact_mod_cast (by linarith : (N : ℚ) < -k + 1)
      exact le_abs.mpr (.inr (by omega))
  | rn | odd =>
    obtain ⟨h3, -⟩ := h
    rw [abs_le'] at h3
    rcases le_abs.mp hx with h | h
    · have : N < k + 1 := by exact_mod_cast (by linarith : (N : ℚ) < k + 1)
      exact le_abs.mpr (.inl (by omega))
    · have : N < -k + 1 := by exact_mod_cast (by linarith : (N : ℚ) < -k + 1)
      exact le_abs.mpr (.inr (by omega))

end Sys2Proof.Machine

namespace Sys2Proof.Machine

/-- Where a shift `s` that is cut short at `t` leaves a remainder, quotient and remainder by `2^t` tell where the exact quotient
lies. -/
theorem shift_parts (m s : Nat) (hs : 0 < s) {t : Nat} (ht : t = min s (bitLen m + 2)) (hr : m % 2 ^ t ≠ 0) {x : ℚ}
    (hx : x = m * 2 ^ (-(s : Int))) :
    ((m / 2 ^ t : Nat) : ℚ) < x ∧ x < (m / 2 ^ t : Nat) + 1 ∧ (2 ^ (t - 1) < m % 2 ^ t ↔ 1 / 2 < x - (m / 2 ^ t : Nat)) ∧
      (m % 2 ^ t = 2 ^ (t - 1) ↔ x - (m / 2 ^ t : Nat) = 1 / 2) := by
  rw [zpow_neg, zpow_natCast, ← div_eq_mul_inv] at hx
  have hm := lt_two_pow_bitLen m
  rcases le_or_gt s (bitLen m + 2) with hle | hgt
  · obtain rfl : t = s := by omega
    obtain ⟨k, rfl⟩ : ∃ k, t = k + 1 := ⟨t - 1, by omega⟩
    have hp : (0 : ℚ) < 2 ^ k := by positivity
    have hr0 : (0 : ℚ) < (m % 2 ^ (k + 1) : Nat) := by exact_mod_cast Nat.pos_of_ne_zero hr
    have hr1 : ((m % 2 ^ (k + 1) : Nat) : ℚ) < 2 * 2 ^ k := by
      have := Nat.mod_lt m (Nat.two_pow_pos (k + 1))
      rw [pow_succ] at this
      exact_mod_cast (by omega : m % 2 ^ (k + 1) < 2 * 2 ^ k)
    have hxq : x - (m / 2 ^ (k + 1) : Nat) = (m % 2 ^ (k + 1) : Nat) / (2 * 2 ^ k) := by
      rw [hx, eq_div_iff (by positivity), sub_mul, pow_succ, mul_comm ((2 : ℚ) ^ k) 2, div_mul_cancel₀ _ (by positivity), sub_eq_iff_eq_add]
      rw [pow_succ, mul_comm _ 2]
      exact_mod_cast (Nat.mod_add_div' m (2 * 2 ^ k)).symm
    refine ⟨sub_pos.mp (by rw [hxq]; positivity), ?_, ?_, ?_⟩
    · rw [← sub_lt_iff_lt_add', hxq, div_lt_one (by positivity)]; exact hr1
    · rw [hxq, lt_div_iff₀ (by positivity), Nat.add_sub_cancel, ← Nat.cast_lt (α := ℚ)]
      push_cast
      constructor <;> intro h <;> linarith
    · rw [hxq, div_eq_iff (by positivity), Nat.add_sub_cancel, ← Nat.cast_inj (R := ℚ)]
      push_cast
      constructor <;> intro h <;> linarith
  · obtain rfl : t = bitLen m + 2 := by omega
    have hmt : m < 2 ^ (bitLen m + 2) := hm.trans (Nat.pow_lt_pow_right (by omega) (by omega))
    rw [Nat.mod_eq_of_lt hmt] at hr ⊢
    rw [Nat.div_eq_of_lt hmt, Nat.cast_zero, sub_zero, zero_add]
    have hx0 : 0 < x := by rw [hx]; have := Nat.pos_of_ne_zero hr; positivity
    have hx1 : x < 1 / 2 := by
      rw [hx, div_lt_iff₀ (by positivity)]
      have h1 : (2 : ℚ) ^ (bitLen m + 1) ≤ 2 ^ (s - 1) := pow_le_pow_right₀ (by norm_num) (by omega)
      have h2 : (m : ℚ) < 2 ^ bitLen m := by exact_mod_cast hm
      rw [show s = s - 1 + 1 by omega, pow_succ]
      rw [pow_succ] at h1
      linarith [show (0 : ℚ) < 2 ^ bitLen m by positivity]
    have hhalf : m < 2 ^ (bitLen m + 2 - 1) := hm.trans (Nat.pow_lt_pow_right (by omega) (by omega))
    exact ⟨hx0, by linarith, iff_of_false hhalf.not_gt (by linarith), iff_of_false hhalf.ne (by linarith)⟩

/-- A quotient with a remainder `r` is rounded up in magnitude (R116). -/
def roundUp (mode : RMode) (neg : Bool) (q r half : Nat) : Bool :=
  match mode with
  | .rn => decide (half < r) || (r == half && q % 2 == 1)
  | .rz => false
  | .rm => neg
  | .rp => !neg
  | .odd => q % 2 == 0

theorem roundShift_left (mode : RMode) (neg : Bool) (m n : Nat) : roundShift mode neg m (-(n : Int)) = (m * 2 ^ n, false) := by
  rw [roundShift, if_pos (by omega), neg_neg, Int.toNat_natCast]

theorem roundShift_right (mode : RMode) (neg : Bool) (m : Nat) {n t : Nat} (hn : 0 < n) (ht : t = min n (bitLen m + 2)) :
    roundShift mode neg m n = if m % 2 ^ t == 0 then (m / 2 ^ t, false)
      else (if roundUp mode neg (m / 2 ^ t) (m % 2 ^ t) (2 ^ (t - 1)) then m / 2 ^ t + 1 else m / 2 ^ t, true) := by
  subst ht
  rw [roundShift, if_neg (by omega)]
  rfl

/-- A shift that is cut short leaves a remainder unless the number is 0. -/
theorem eq_zero_of_cut {m n t : Nat} (ht : t = min n (bitLen m + 2)) (hcut : t < n) (hr : m % 2 ^ t = 0) : m = 0 := by
  have hmt : m < 2 ^ t := (lt_two_pow_bitLen m).trans (Nat.pow_lt_pow_right (by omega) (by omega))
  rwa [Nat.mod_eq_of_lt hmt] at hr

theorem natCast_ne_of_between {q k : Nat} {x : ℚ} (hlo : (q : ℚ) < x) (hhi : x < q + 1) : (k : ℚ) ≠ x := by
  rintro rfl
  have h1 : q < k := by exact_mod_cast hlo
  have h2 : k < q + 1 := by exact_mod_cast hhi
  omega

/-- m / 2^s is rounded as R116 says, and the mark tells whether it changed. -/
theorem roundShift_spec {mode : RMode} (hmode : mode ≠ .odd) (neg : Bool) (m : Nat) (s : Int) :
    RoundsToInt mode (sgn neg * (m * 2 ^ (-s))) (sgn neg * (roundShift mode neg m s).1) ∧
      ((roundShift mode neg m s).2 = false ↔ ((roundShift mode neg m s).1 : ℚ) = m * 2 ^ (-s)) := by
  have hexact {q : Nat} (hq : (q : ℚ) = m * 2 ^ (-s)) :
      RoundsToInt mode (sgn neg * (m * 2 ^ (-s))) (sgn neg * q) ∧ (false = false ↔ (q : ℚ) = m * 2 ^ (-s)) := by
    refine ⟨?_, iff_of_true rfl hq⟩
    rw [← hq]
    exact_mod_cast roundsToInt_self mode (sgn neg * q)
  rcases le_or_gt s 0 with hs | hs
  · obtain ⟨n, rfl⟩ : ∃ n : Nat, s = -(n : Int) := ⟨s.natAbs, by omega⟩
    rw [roundShift_left]
    exact hexact (by rw [neg_neg, zpow_natCast]; push_cast; rfl)
  · obtain ⟨n, rfl⟩ := Int.eq_ofNat_of_zero_le hs.le
    obtain ⟨t, ht⟩ : ∃ t, t = min n (bitLen m + 2) := ⟨_, rfl⟩
    rw [roundShift_right mode neg m (by omega) ht]
    by_cases hr : m % 2 ^ t = 0
    · rw [if_pos (beq_iff_eq.mpr hr)]
      refine hexact ?_
      rcases (show t ≤ n by omega).eq_or_lt with rfl | hcut
      · rw [zpow_neg, zpow_natCast, eq_mul_inv_iff_mul_eq₀ (by positivity)]
        exact_mod_cast Nat.div_mul_cancel (Nat.dvd_of_mod_eq_zero hr)
      · simp [eq_zero_of_cut ht hcut hr]
    · rw [if_neg (by rwa [beq_iff_eq])]
      obtain ⟨hlo, hhi, hhalf, htie⟩ := shift_parts m n (by omega) ht hr rfl
      refine ⟨roundsToInt_between hmode neg hlo hhi ?_, iff_of_false (by simp) (natCast_ne_of_between hlo hhi)⟩
      cases mode <;> simp only [roundUp, ← hhalf, ← htie, beq_eq_decide]

end Sys2Proof.Machine

namespace Sys2Proof.Machine

/-! ### Codes of the formats that keep subnormals and have infinities (R106) -/

/-- What the four formats of the vector unit have in common. -/
structure FFmt.Ieee (f : FFmt) : Prop where
  sub : f.sub = true
  hasInf : f.hasInf = true
  hasSig : f.hasSig = true
  fb_pos : 1 ≤ f.fb
  bias_pos : 1 ≤ f.bias
  eb_ge : 4 ≤ 2 ^ f.eb
  room : f.bias + f.fb + 2 ≤ 2 ^ f.eb

theorem FFmt.ieee_of_mem {f : FFmt} (h : f ∈ [fF64, fF32, fF16, fBf16]) : f.Ieee := by
  simp only [List.mem_cons, List.not_mem_nil, or_false] at h
  rcases h with rfl | rfl | rfl | rfl <;> constructor <;> decide

/-- The exponent of the last place of the subnormals. -/
def FFmt.low (f : FFmt) : Int := f.emin - f.fb

/-- The sign, the significand, and the places of its last bit above that of the subnormals, as the fields of a code tell them. -/
def FFmt.signOf (f : FFmt) (c : Nat) : Bool := c / 2 ^ (f.eb + f.fb) % 2 == 1
def FFmt.sigOf (f : FFmt) (c : Nat) : Nat := if expField f c = 0 then fracField f c else 2 ^ f.fb + fracField f c
def FFmt.place (f : FFmt) (c : Nat) : Nat := expField f c - 1

theorem expField_lt (f : FFmt) (c : Nat) : expField f c < 2 ^ f.eb := Nat.mod_lt _ (Nat.two_pow_pos _)
theorem fracField_lt (f : FFmt) (c : Nat) : fracField f c < 2 ^ f.fb := Nat.mod_lt _ (Nat.two_pow_pos _)

theorem FFmt.signBit_eq (f : FFmt) (neg : Bool) : f.signBit neg = neg.toNat * (2 ^ f.eb * 2 ^ f.fb) := by
  cases neg <;> simp [FFmt.signBit, pow_add]

section
variable (f : FFmt) (neg : Bool) {ex fr : Nat} (hex : ex < 2 ^ f.eb) (hfr : fr < 2 ^ f.fb)
include hex hfr

/-- The fields of a code put together from a sign, an exponent and a fraction. -/
theorem FFmt.fields_of_parts : f.signBit neg + ex * 2 ^ f.fb + fr < 2 ^ (1 + f.eb + f.fb) ∧
    expField f (f.signBit neg + ex * 2 ^ f.fb + fr) = ex ∧ fracField f (f.signBit neg + ex * 2 ^ f.fb + fr) = fr ∧
    (f.signBit neg + ex * 2 ^ f.fb + fr) / 2 ^ (f.eb + f.fb) = neg.toNat := by
  have hdiv : (f.signBit neg + ex * 2 ^ f.fb + fr) / 2 ^ f.fb = neg.toNat * 2 ^ f.eb + ex := by
    rw [f.signBit_eq, ← mul_assoc, ← add_mul, mul_comm, Nat.mul_add_div (Nat.two_pow_pos _), Nat.div_eq_of_lt hfr, add_zero]
  have hmod : (f.signBit neg + ex * 2 ^ f.fb + fr) % 2 ^ f.fb = fr := by
    rw [f.signBit_eq, ← mul_assoc, ← add_mul, mul_comm, Nat.mul_add_mod, Nat.mod_eq_of_lt hfr]
  have hsign : (f.signBit neg + ex * 2 ^ f.fb + fr) / 2 ^ (f.eb + f.fb) = neg.toNat := by
    rw [pow_add, mul_comm (2 ^ f.eb), ← Nat.div_div_eq_div_mul, hdiv, mul_comm, Nat.mul_add_div (Nat.two_pow_pos _), Nat.div_eq_of_lt hex,
      add_zero]
  refine ⟨?_, ?_, hmod, hsign⟩
  · rw [add_assoc 1, pow_add, pow_one]
    refine (Nat.div_lt_iff_lt_mul (Nat.two_pow_pos _)).mp ?_
    rw [hsign]
    cases neg <;> decide
  · rw [expField, hdiv, mul_comm, Nat.mul_add_mod, Nat.mod_eq_of_lt hex]

theorem FFmt.signOf_parts : f.signOf (f.signBit neg + ex * 2 ^ f.fb + fr) = neg := by
  obtain ⟨-, -, -, hsign⟩ := f.fields_of_parts neg hex hfr
  rw [FFmt.signOf, hsign]
  cases neg <;> rfl
end

/-- A code is put together from its fields. -/
theorem FFmt.parts_of_fields (f : FFmt) {c : Nat} (hc : c < 2 ^ (1 + f.eb + f.fb)) :
    c = f.signBit (f.signOf c) + expField f c * 2 ^ f.fb + fracField f c := by
  have hsign : (f.signOf c).toNat = c / 2 ^ f.fb / 2 ^ f.eb := by
    have hlt : c / 2 ^ (f.eb + f.fb) < 2 := by
      rw [Nat.div_lt_iff_lt_mul (Nat.two_pow_pos _)]
      rwa [add_assoc, pow_add, pow_one] at hc
    rw [Nat.div_div_eq_div_mul, mul_comm, ← pow_add, FFmt.signOf]
    generalize c / 2 ^ (f.eb + f.fb) = n at hlt ⊢
    interval_cases n <;> rfl
  rw [f.signBit_eq, hsign, expField, fracField, ← mul_assoc, ← add_mul, Nat.div_add_mod', Nat.div_add_mod']

theorem FFmt.sigOf_lt (f : FFmt) (c : Nat) : f.sigOf c < 2 ^ (f.fb + 1) := by
  have := fracField_lt f c
  rw [FFmt.sigOf, pow_succ]
  split_ifs <;> omega

theorem FFmt.place_le {f : FFmt} (hf : f.Ieee) {c : Nat} (hc : finiteCode f c) : f.place c ≤ 2 ^ f.eb - 3 := by
  have hne := hc.2
  have := hf.eb_ge
  have := expField_lt f c
  rw [FFmt.place]
  omega

/-- The number of a code is its significand at its place. -/
theorem codeVal_eq (f : FFmt) (c : Nat) : codeVal f c = sgn (f.signOf c) * (f.sigOf c * 2 ^ (f.low + f.place c)) := by
  have hs : (if c / 2 ^ (f.eb + f.fb) % 2 = 1 then -1 else 1 : ℚ) = sgn (f.signOf c) := by
    unfold FFmt.signOf sgn
    by_cases h : c / 2 ^ (f.eb + f.fb) % 2 = 1 <;> simp [h]
  rw [codeVal, hs, FFmt.sigOf, FFmt.place, FFmt.low, FFmt.emin]
  split_ifs with h
  · rw [h]; simp
  · rw [show (expField f c : Int) - f.bias - f.fb = 1 - f.bias - f.fb + ((expField f c - 1 : Nat) : Int) by omega]

theorem abs_codeVal (f : FFmt) (c : Nat) : |codeVal f c| = f.sigOf c * 2 ^ (f.low + f.place c) := by
  rw [codeVal_eq, abs_sgn_mul, abs_of_nonneg (by positivity)]

/-- The value that a code of a number decodes to. -/
theorem FFmt.decode_finite {f : FFmt} (hf : f.Ieee) {c : Nat} (hc : finiteCode f c) :
    f.decode c = .fin (f.signOf c) (f.sigOf c) (f.low + f.place c) := by
  have hne : (expField f c == 2 ^ f.eb - 1) = false := beq_eq_false_iff_ne.mpr hc.2
  unfold FFmt.decode
  simp only [hf.hasInf, hf.sub, Bool.true_and, Bool.not_true, Bool.false_and, Bool.false_eq_true, if_false, if_true]
  change (if (expField f c == 2 ^ f.eb - 1) = true then _ else if (expField f c == 0) = true then FVal.fin (f.signOf c) (fracField f c) _
    else FVal.fin (f.signOf c) (2 ^ f.fb + fracField f c) ((expField f c : Int) - _ - _)) = _
  rw [hne, FFmt.sigOf, FFmt.place, FFmt.low]
  by_cases h : expField f c = 0
  · simp [h]
  · simp only [beq_iff_eq, h, if_false, Bool.false_eq_true, FVal.fin.injEq, true_and, FFmt.emin]
    omega

/-- The number of a value that is finite. -/
def FVal.num (v : FVal) : ℚ := v.dy.val

theorem FVal.num_fin (neg : Bool) (m : Nat) (e : Int) : (FVal.fin neg m e).num = sgn neg * (m * 2 ^ e) := by
  cases neg <;> simp [FVal.num, FVal.dy, Dy.val]

/-! ### Codes at a place -/

/-- The code whose significand is `K` at the place `h`. -/
def FFmt.gridCode (f : FFmt) (neg : Bool) (h K : Nat) : Nat := f.signBit neg + h * 2 ^ f.fb + K

theorem FFmt.gridCode_succ (f : FFmt) (neg : Bool) (h : Nat) : f.gridCode neg h (2 ^ (f.fb + 1)) = f.gridCode neg (h + 1) (2 ^ f.fb) := by
  unfold FFmt.gridCode
  ring

theorem FFmt.gridCode_mod_two {f : FFmt} (hf : f.Ieee) (neg : Bool) (h K : Nat) : f.gridCode neg h K % 2 = K % 2 := by
  obtain ⟨n, hn⟩ : ∃ n, f.fb = n + 1 := ⟨f.fb - 1, by have := hf.fb_pos; omega⟩
  rw [FFmt.gridCode, f.signBit_eq, hn, pow_succ, show neg.toNat * (2 ^ f.eb * (2 ^ n * 2)) + h * (2 ^ n * 2) + K =
    K + 2 * (neg.toNat * 2 ^ f.eb * 2 ^ n + h * 2 ^ n) by ring, Nat.add_mul_mod_self_left]

/-- The fields of the code at a place. -/
theorem FFmt.gridCode_spec {f : FFmt} (hf : f.Ieee) (neg : Bool) {h K : Nat} (hK : K < 2 ^ (f.fb + 1)) (hh : h = 0 ∨ 2 ^ f.fb ≤ K)
    (hfit : h ≤ 2 ^ f.eb - 3) :
    finiteCode f (f.gridCode neg h K) ∧ f.signOf (f.gridCode neg h K) = neg ∧
      codeVal f (f.gridCode neg h K) = sgn neg * (K * 2 ^ (f.low + h)) := by
  have hgrid : ∃ ex fr, ex < 2 ^ f.eb - 1 ∧ fr < 2 ^ f.fb ∧ f.gridCode neg h K = f.signBit neg + ex * 2 ^ f.fb + fr ∧ ex - 1 = h ∧
      (if ex = 0 then fr else 2 ^ f.fb + fr) = K := by
    have := hf.eb_ge
    rw [pow_succ] at hK
    rcases lt_or_ge K (2 ^ f.fb) with hlt | hge
    · obtain rfl : h = 0 := by omega
      exact ⟨0, K, by omega, hlt, by rw [FFmt.gridCode], rfl, rfl⟩
    · refine ⟨h + 1, K - 2 ^ f.fb, by omega, by omega, ?_, rfl, ?_⟩
      · rw [FFmt.gridCode, add_mul]; omega
      · rw [if_neg (by omega)]; omega
  obtain ⟨ex, fr, hex, hfr, hcode, rfl, rfl⟩ := hgrid
  have hex' : ex < 2 ^ f.eb := by omega
  obtain ⟨hlt, hexp, hfrac, -⟩ := f.fields_of_parts neg hex' hfr
  have hsign := f.signOf_parts neg hex' hfr
  rw [← hcode] at hlt hexp hfrac hsign
  refine ⟨⟨hlt, by omega⟩, hsign, ?_⟩
  rw [codeVal_eq, hsign, FFmt.sigOf, FFmt.place, hexp, hfrac]

theorem maxVal_eq {f : FFmt} (hf : f.Ieee) : maxVal f = (2 ^ (f.fb + 1) - 1) * 2 ^ (f.low + (2 ^ f.eb - 3 : Nat)) := by
  have := hf.eb_ge
  have hpow : ((2 ^ f.eb : Nat) : Int) = 2 ^ f.eb := by push_cast; rfl
  rw [maxVal, Nat.cast_sub Nat.one_le_two_pow, FFmt.low, FFmt.emin]
  push_cast
  congr 2
  omega

theorem abs_codeVal_le {f : FFmt} (hf : f.Ieee) {c : Nat} (hc : finiteCode f c) : |codeVal f c| ≤ maxVal f := by
  have hsig : (f.sigOf c : ℚ) ≤ 2 ^ (f.fb + 1) - 1 := by
    rw [le_sub_iff_add_le]
    exact_mod_cast f.sigOf_lt c
  have hplace : f.low + f.place c ≤ f.low + (2 ^ f.eb - 3 : Nat) := by have := FFmt.place_le hf hc; omega
  rw [abs_codeVal, maxVal_eq hf]
  exact mul_le_mul hsig (zpow_le_two_iff.mpr hplace) (by positivity) ((Nat.cast_nonneg _).trans hsig)

/-- A number on the grid of a place that is within the range has a code. -/
theorem FFmt.gridCode_of_le {f : FFmt} (hf : f.Ieee) (neg : Bool) {h K : Nat} (hK : K ≤ 2 ^ (f.fb + 1)) (hh : h = 0 ∨ 2 ^ f.fb ≤ K)
    (hfit : K * 2 ^ (f.low + h) ≤ maxVal f) :
    finiteCode f (f.gridCode neg h K) ∧ codeVal f (f.gridCode neg h K) = sgn neg * (K * 2 ^ (f.low + h)) := by
  have htop {j : Nat} (hj : (2 : ℚ) ^ f.fb * 2 ^ (f.low + j) ≤ maxVal f) : j ≤ 2 ^ f.eb - 3 := by
    have hlt : (2 : ℚ) ^ f.fb * 2 ^ (f.low + j) < 2 ^ (f.fb + 1) * 2 ^ (f.low + (2 ^ f.eb - 3 : Nat)) := by
      refine hj.trans_lt ?_
      rw [maxVal_eq hf]
      exact mul_lt_mul_of_pos_right (by linarith) (by positivity)
    rw [← zpow_natCast, ← zpow_natCast, ← zpow_add₀ two_ne_zero, ← zpow_add₀ two_ne_zero, zpow_lt_two_iff] at hlt
    omega
  rcases hK.eq_or_lt with rfl | hlt
  · have hval : ((2 ^ (f.fb + 1) : Nat) : ℚ) * 2 ^ (f.low + h) = (2 ^ f.fb : Nat) * 2 ^ (f.low + (h + 1 : Nat)) := by
      rw [Nat.cast_add, ← add_assoc, zpow_add₀ two_ne_zero (f.low + h)]
      push_cast
      ring
    rw [f.gridCode_succ, hval]
    rw [hval] at hfit
    have hspec := FFmt.gridCode_spec hf neg (K := 2 ^ f.fb) (Nat.pow_lt_pow_right (by omega) (by omega)) (.inr le_rfl)
      (htop (by exact_mod_cast hfit))
    exact ⟨hspec.1, hspec.2.2⟩
  · have hplace : h ≤ 2 ^ f.eb - 3 := by
      rcases hh with rfl | hh
      · omega
      · exact htop ((mul_le_mul_of_nonneg_right (by exact_mod_cast hh) (by positivity)).trans hfit)
    have hspec := FFmt.gridCode_spec hf neg hlt hh hplace
    exact ⟨hspec.1, hspec.2.2⟩

end Sys2Proof.Machine

namespace Sys2Proof.Machine

/-! ### A number rounded on the grid of a place is rounded to the format (R116) -/

/-- `y` is an integer, or lies below an integer that is no larger than `x` in magnitude: it is not between `x` and a neighbour of `x`. -/
def OffGap (x y : ℚ) : Prop := (∃ i : Int, y = i) ∨ ∃ N : Int, |y| < N ∧ (N : ℚ) ≤ |x|

/-- Of the integers, and of numbers below an integer that is itself no larger than the number in magnitude, none is nearer, or
in the direction of the mode, than the rounded integer. -/
theorem RoundsToInt.best {mode : RMode} {x : ℚ} {k : Int} (h : RoundsToInt mode x k) {y : ℚ} (hy : OffGap x y) :
    match mode with
    | .rz => |y| ≤ |x| → |y| ≤ |(k : ℚ)|
    | .rm => y ≤ x → y ≤ k
    | .rp => x ≤ y → k ≤ y
    | _ => |k - x| ≤ |y - x| ∧ (|y - x| = |k - x| → y ≠ k → k % 2 = 0) := by
  cases mode with
  | rz =>
    intro hyx
    rcases hy with ⟨i, rfl⟩ | ⟨N, hyN, hNx⟩
    · obtain ⟨-, -, h3⟩ := h
      have : |i| < |k| + 1 := by exact_mod_cast hyx.trans_lt h3
      exact_mod_cast (by omega : |i| ≤ |k|)
    · exact hyN.le.trans (by exact_mod_cast h.le_abs_of_le hNx)
  | rm =>
    intro hyx
    obtain ⟨h1, h2⟩ := h
    rcases hy with ⟨i, rfl⟩ | ⟨N, hyN, hNx⟩
    · have : i < k + 1 := by exact_mod_cast hyx.trans_lt h2
      exact_mod_cast (by omega : i ≤ k)
    · rw [abs_lt] at hyN
      rcases le_abs.mp hNx with hx | hx
      · have : N < k + 1 := by exact_mod_cast hx.trans_lt h2
        have : (N : ℚ) ≤ k := by exact_mod_cast (by omega : N ≤ k)
        linarith
      · linarith
  | rp =>
    intro hyx
    obtain ⟨h1, h2⟩ := h
    rcases hy with ⟨i, rfl⟩ | ⟨N, hyN, hNx⟩
    · have : k < i + 1 := by exact_mod_cast (by linarith : (k : ℚ) < i + 1)
      exact_mod_cast (by omega : k ≤ i)
    · rw [abs_lt] at hyN
      rcases le_abs.mp hNx with hx | hx
      · linarith
      · have : k < -N + 1 := by exact_mod_cast (by linarith : (k : ℚ) < -N + 1)
        have : (k : ℚ) ≤ -N := by exact_mod_cast (by omega : k ≤ -N)
        linarith
  | rn | odd =>
    obtain ⟨hnear, htie⟩ := h
    rw [abs_sub_comm] at hnear htie
    have hint (i : Int) : |(k : ℚ) - x| ≤ |i - x| ∧ (|(i : ℚ) - x| = |k - x| → (i : ℚ) ≠ k → k % 2 = 0) := by
      rcases eq_or_ne i k with rfl | hne
      · exact ⟨le_rfl, fun _ hne => absurd rfl hne⟩
      · have h1 : (1 : ℚ) ≤ |(i : ℚ) - k| := by exact_mod_cast Int.one_le_abs (sub_ne_zero.mpr hne)
        have h2 : |(i : ℚ) - k| ≤ |i - x| + |k - x| := by rw [abs_sub_comm (k : ℚ)]; exact abs_sub_le _ _ _
        exact ⟨by linarith, fun heq _ => htie (by linarith)⟩
    rcases hy with ⟨i, rfl⟩ | ⟨N, hyN, hNx⟩
    · exact hint i
    · have hlt : |(k : ℚ) - x| < |y - x| := by
        rw [abs_lt] at hyN
        rcases le_abs.mp hNx with hx | hx
        · have h1 := (hint N).1
          rw [abs_of_nonpos (by linarith : (N : ℚ) - x ≤ 0)] at h1
          rw [abs_of_neg (by linarith : y - x < 0)]
          linarith
        · have h1 := (hint (-N)).1
          push_cast at h1
          rw [abs_of_nonneg (by linarith : 0 ≤ -(N : ℚ) - x)] at h1
          rw [abs_of_pos (by linarith : 0 < y - x)]
          linarith
      exact ⟨hlt.le, fun heq => absurd heq hlt.ne'⟩

/-- Where no number of the format lies strictly between two neighbours of the grid, rounding to the grid is rounding to the format. -/
theorem roundsTo_of_roundsToInt {f : FFmt} {mode : RMode} {q : ℚ} {r : Nat} {k g : Int} (hr : codeVal f r = k * 2 ^ g)
    (hpar : k % 2 = 0 → r % 2 = 0) (hx : RoundsToInt mode (q / 2 ^ g) k)
    (hgrid : ∀ y, OffGap (q / 2 ^ g) (codeVal f y / 2 ^ g)) :
    RoundsTo f mode q r := by
  have hp : (0 : ℚ) < 2 ^ g := by positivity
  have hdiv (a : ℚ) : |a| / 2 ^ g = |a / 2 ^ g| := by rw [abs_div, abs_of_pos hp]
  have hk : codeVal f r / 2 ^ g = k := by rw [hr, mul_div_cancel_right₀ _ hp.ne']
  have hle (a b : ℚ) : a ≤ b ↔ a / 2 ^ g ≤ b / 2 ^ g := (div_le_div_iff_of_pos_right hp).symm
  have hbest y := hx.best (hgrid y)
  cases mode with
  | rz =>
    refine ⟨?_, by rw [hle, hdiv, hdiv, hk]; exact hx.2.1, fun y hy => ?_⟩
    · have hq : q = q / 2 ^ g * 2 ^ g := (div_mul_cancel₀ q hp.ne').symm
      rw [hr, hq, mul_mul_mul_comm]
      exact mul_nonneg hx.1 (mul_self_nonneg _)
    · rw [hle, hle |codeVal f y|, hdiv, hdiv, hdiv, hk]
      exact hbest y
  | rm =>
    refine ⟨by rw [hle, hk]; exact hx.1, fun y hy => ?_⟩
    rw [hle, hle (codeVal f y), hk]
    exact hbest y
  | rp =>
    refine ⟨by rw [hle, hk]; exact hx.1, fun y hy => ?_⟩
    rw [hle, hle (codeVal f r), hk]
    exact hbest y
  | rn | odd =>
    intro y hy
    obtain ⟨h1, h2⟩ := hbest y
    rw [hle, hdiv, hdiv, sub_div, sub_div, hk]
    refine ⟨h1, fun heq hne => hpar (h2 ?_ fun h => hne ?_)⟩
    · rw [← hk, ← sub_div, ← sub_div, ← hdiv, ← hdiv, heq]
    · rw [← hk] at h
      exact (div_left_inj' hp.ne').mp h

/-- A number of the format is on the grid of a place, or below every number that has that place. -/
theorem codeVal_on_grid (f : FFmt) {h : Nat} {q : ℚ} (hgap : h = 0 ∨ 2 ^ f.fb ≤ |q / 2 ^ (f.low + h)|) (y : Nat) :
    OffGap (q / 2 ^ (f.low + h)) (codeVal f y / 2 ^ (f.low + h)) := by
  rcases le_or_gt h (f.place y) with hle | hlt
  · refine .inl ⟨sgn (f.signOf y) * (f.sigOf y * 2 ^ (f.place y - h)), ?_⟩
    rw [codeVal_eq, mul_div_assoc, mul_div_assoc, ← zpow_sub₀ two_ne_zero,
      show f.low + f.place y - (f.low + h) = ((f.place y - h : Nat) : Int) by omega]
    push_cast
    rfl
  · refine .inr ⟨2 ^ f.fb, ?_, by push_cast; exact hgap.resolve_left (by omega)⟩
    have hs : (f.sigOf y : ℚ) < 2 ^ (f.fb + 1) := by exact_mod_cast f.sigOf_lt y
    have hz : (2 : ℚ) ^ ((f.place y : Int) - h) ≤ 2 ^ (-1 : Int) := zpow_le_two_iff.mpr (by omega)
    rw [abs_div, abs_codeVal, abs_of_pos (by positivity), mul_div_assoc, ← zpow_sub₀ two_ne_zero, add_sub_add_left_eq_sub]
    push_cast
    calc (f.sigOf y : ℚ) * 2 ^ ((f.place y : Int) - h) ≤ f.sigOf y * 2 ^ (-1 : Int) := mul_le_mul_of_nonneg_left hz (by positivity)
      _ < 2 ^ (f.fb + 1) * 2 ^ (-1 : Int) := mul_lt_mul_of_pos_right hs (by positivity)
      _ = 2 ^ f.fb := by rw [pow_succ, zpow_neg_one, mul_inv_cancel_right₀ two_ne_zero]

section
variable {f : FFmt} (hf : f.Ieee) {mode : RMode} (neg : Bool)
include hf

/-- A number rounded on the grid of its place, within the range. -/
theorem roundedResult_of_grid {q : ℚ} {h K : Nat} {ch : Bool} {fl : BitVec 6} (hK : K ≤ 2 ^ (f.fb + 1)) (hh : h = 0 ∨ 2 ^ f.fb ≤ K)
    (hfit : K * 2 ^ (f.low + h) ≤ maxVal f) (hround : RoundsToInt mode (q / 2 ^ (f.low + h)) (sgn neg * K))
    (hgap : h = 0 ∨ 2 ^ f.fb ≤ |q / 2 ^ (f.low + h)|) (hch : ch = false ↔ (sgn neg * (K * 2 ^ (f.low + h)) : ℚ) = q)
    (hfl : fl &&& flInexact ≠ 0) : RoundedResult f mode q (f.gridCode neg h K, flIf ch fl) := by
  obtain ⟨hfin, hval⟩ := FFmt.gridCode_of_le hf neg hK hh hfit
  refine ⟨fun _ => ⟨roundsTo_of_roundsToInt (by rw [hval]; push_cast; ring) (fun hpar => ?_) hround fun y => codeVal_on_grid f hgap y,
    fun heq => ?_, fun hne => ?_⟩, fun hnot => absurd hfin hnot⟩
  · rw [FFmt.gridCode_mod_two hf]
    cases neg <;> simp at hpar <;> omega
  · rw [hch.mpr (hval ▸ heq)]; rfl
  · cases ch with
    | false => exact absurd (hval.trans (hch.mp rfl)) hne
    | true => exact hfl

/-- An infinity is the overflow of a number beyond the largest. -/
theorem roundedResult_inf {a : ℚ} (ha : maxVal f < a) :
    RoundedResult f mode (sgn neg * a) (f.signBit neg + f.infCode, flOverflow ||| flInexact) := by
  have hpos : 0 < a := ((abs_nonneg _).trans (abs_codeVal_le hf (FFmt.gridCode_spec hf neg (h := 0) (K := 0) (Nat.two_pow_pos _)
    (.inl rfl) (Nat.zero_le _)).1)).trans_lt ha
  have hex : 2 ^ f.eb - 1 < 2 ^ f.eb := Nat.sub_lt (Nat.two_pow_pos _) one_pos
  obtain ⟨-, hexp, hfrac, hsign⟩ := f.fields_of_parts neg hex (Nat.two_pow_pos _)
  rw [FFmt.infCode, if_pos hf.hasInf]
  refine ⟨fun hfin => absurd hexp hfin.2, fun _ => ⟨?_, hexp, hfrac, rfl, ?_⟩⟩
  · rwa [abs_sgn_mul, abs_of_pos hpos]
  · rw [← add_zero (f.signBit neg + _), hsign]
    cases neg <;> simp [hpos, hpos.le]

omit hf in
theorem flOverflow_inexact : (flOverflow ||| flInexact) &&& flInexact ≠ 0 := by decide

/-- The largest number is the rounding towards zero of a number beyond it. -/
theorem roundedResult_max {a : ℚ} (ha : maxVal f < a) (hdir : mode = .rz ∨ mode = .rm ∧ neg = false ∨ mode = .rp ∧ neg = true) :
    RoundedResult f mode (sgn neg * a) (f.signBit neg + f.maxCode, flOverflow ||| flInexact) := by
  have hcode : f.signBit neg + f.maxCode = f.gridCode neg (2 ^ f.eb - 3) (2 ^ (f.fb + 1) - 1) := by
    have := hf.eb_ge
    have := Nat.two_pow_pos f.fb
    rw [FFmt.maxCode, if_pos hf.hasInf, FFmt.gridCode, show 2 ^ f.eb - 2 = 2 ^ f.eb - 3 + 1 by omega, add_mul, pow_succ]
    omega
  have hspec := FFmt.gridCode_spec hf neg (h := 2 ^ f.eb - 3) (K := 2 ^ (f.fb + 1) - 1) (by have := Nat.two_pow_pos (f.fb + 1); omega)
    (.inr (by have := Nat.two_pow_pos f.fb; rw [pow_succ]; omega)) le_rfl
  rw [← hcode, Nat.cast_sub Nat.one_le_two_pow] at hspec
  push_cast at hspec
  rw [← maxVal_eq hf] at hspec
  obtain ⟨hfin, -, hval⟩ := hspec
  have hmax : 0 ≤ maxVal f := (abs_nonneg _).trans (abs_codeVal_le hf hfin)
  have hle y (hy : finiteCode f y) := abs_le.mp (abs_codeVal_le hf hy)
  refine ⟨fun _ => ⟨?_, fun heq => ?_, fun _ => flOverflow_inexact⟩, fun hnot => absurd hfin hnot⟩
  · rcases hdir with rfl | ⟨rfl, rfl⟩ | ⟨rfl, rfl⟩
    · refine ⟨?_, ?_, fun y hy _ => ?_⟩
      · rw [hval, mul_mul_mul_comm, ← Int.cast_mul, show sgn neg * sgn neg = 1 by cases neg <;> rfl, Int.cast_one, one_mul]
        exact mul_nonneg hmax (hmax.trans ha.le)
      · rw [hval, abs_sgn_mul, abs_sgn_mul, abs_of_nonneg hmax, abs_of_nonneg (hmax.trans ha.le)]
        exact ha.le
      · rw [hval, abs_sgn_mul, abs_of_nonneg hmax]
        exact abs_codeVal_le hf hy
    · simp only [RoundsTo, hval, sgn_false, Int.cast_one, one_mul]
      exact ⟨ha.le, fun y hy _ => (hle y hy).2⟩
    · simp only [RoundsTo, hval, sgn_true, Int.cast_neg, Int.cast_one, neg_mul, one_mul]
      exact ⟨neg_le_neg ha.le, fun y hy _ => (hle y hy).1⟩
  · rw [hval] at heq
    exact absurd (mul_left_cancel₀ (by cases neg <;> simp) heq) ha.ne

theorem roundedResult_overflow {a : ℚ} (ha : maxVal f < a) : RoundedResult f mode (sgn neg * a) (f.overflow mode neg) := by
  have hinf := roundedResult_inf hf neg (mode := mode) ha
  have hmax := roundedResult_max hf neg (mode := mode) ha
  unfold FFmt.overflow
  cases mode with
  | rn | odd => simpa [hf.hasInf] using hinf
  | rz => simpa using hmax (.inl rfl)
  | rm => cases neg with
    | false => simpa using hmax (.inr (.inl ⟨rfl, rfl⟩))
    | true => simpa [hf.hasInf] using hinf
  | rp => cases neg with
    | false => simpa [hf.hasInf] using hinf
    | true => simpa using hmax (.inr (.inr ⟨rfl, rfl⟩))
end

end Sys2Proof.Machine

namespace Sys2Proof.Machine

/-! ### A number is packed by its value -/

/-- A shift that leaves a whole number discards nothing. -/
theorem shift_eq {q K : Nat} {sh : Int} (h : (K : ℚ) = q * 2 ^ sh) : q * 2 ^ sh.toNat / 2 ^ (-sh).toNat = K := by
  rcases le_total 0 sh with hs | hs
  · obtain ⟨n, rfl⟩ := Int.eq_ofNat_of_zero_le hs
    rw [zpow_natCast] at h
    simp only [Int.toNat_natCast, Int.toNat_neg_natCast, pow_zero, Nat.div_one]
    exact_mod_cast h.symm
  · obtain ⟨n, hn⟩ := Int.eq_ofNat_of_zero_le (neg_nonneg.mpr hs)
    obtain rfl : sh = -(n : Int) := by omega
    rw [zpow_neg, zpow_natCast, eq_mul_inv_iff_mul_eq₀ (by positivity)] at h
    have hq : q = K * 2 ^ n := by exact_mod_cast h.symm
    simp only [neg_neg, Int.toNat_natCast, Int.toNat_neg_natCast, pow_zero, mul_one, hq]
    exact Nat.mul_div_cancel _ (Nat.two_pow_pos _)

theorem FFmt.emin_eq (f : FFmt) : f.emin = f.fb + f.low := by rw [FFmt.low]; omega

/-- The exponent of a number at a place. -/
theorem FFmt.expo_of_place (f : FFmt) {d : Dy} (hm : d.m ≠ 0) {h K : Nat} (habs : |d.val| = K * 2 ^ (f.low + h)) (hK : K < 2 ^ (f.fb + 1))
    (hge : 2 ^ f.fb ≤ K) : d.expo = f.emin + h := by
  have hpow : (0 : ℚ) < 2 ^ (f.low + h) := by positivity
  have hge' : (2 : ℚ) ^ f.fb ≤ K := by exact_mod_cast hge
  have hK' : (K : ℚ) < 2 ^ (f.fb + 1) := by exact_mod_cast hK
  refine le_antisymm ?_ ((Dy.le_expo_iff hm _).mpr ?_)
  · rw [← Int.lt_add_one_iff, Dy.expo_lt_iff hm, habs, f.emin_eq, show (f.fb : Int) + f.low + h + 1 = ((f.fb + 1 : Nat) : Int) + (f.low + h) by
      push_cast; ring, zpow_add₀ two_ne_zero ((f.fb + 1 : Nat) : Int), zpow_natCast]
    exact mul_lt_mul_of_pos_right hK' hpow
  · rw [habs, f.emin_eq, add_assoc, zpow_add₀ two_ne_zero, zpow_natCast]
    exact mul_le_mul_of_nonneg_right hge' hpow.le

theorem FFmt.expo_lt_emin (f : FFmt) {d : Dy} (hm : d.m ≠ 0) {K : Nat} (habs : |d.val| = K * 2 ^ f.low) (hK : K < 2 ^ f.fb) :
    d.expo < f.emin := by
  have hK' : (K : ℚ) < 2 ^ f.fb := by exact_mod_cast hK
  rw [Dy.expo_lt_iff hm, habs, f.emin_eq, zpow_add₀ two_ne_zero, zpow_natCast]
  exact mul_lt_mul_of_pos_right hK' (by positivity)

/-- The code depends on the number alone, not on how it is spread over significand and exponent. -/
theorem FFmt.pack_eq (f : FFmt) (neg : Bool) {q h K : Nat} {e : Int} (hval : (q : ℚ) * 2 ^ e = K * 2 ^ (f.low + h))
    (hK : K < 2 ^ (f.fb + 1)) (hh : h = 0 ∨ 2 ^ f.fb ≤ K) : f.pack neg q e = f.gridCode neg h K := by
  rcases eq_or_ne q 0 with rfl | hq
  · obtain rfl : K = 0 := by
      rw [Nat.cast_zero, zero_mul] at hval
      exact_mod_cast (mul_eq_zero.mp hval.symm).resolve_right (by positivity)
    obtain rfl : h = 0 := hh.resolve_right (by have := Nat.two_pow_pos f.fb; omega)
    simp [FFmt.pack, FFmt.gridCode]
  have hm : ({ m := q, e := e } : Dy).m ≠ 0 := Int.natCast_ne_zero.mpr hq
  have habs : |({ m := q, e := e } : Dy).val| = K * 2 ^ (f.low + h) := by rw [Dy.abs_val, ← hval, Int.natAbs_natCast]
  have hshift {sh : Int} (hsh : sh = e - (f.low + h)) : q * 2 ^ sh.toNat / 2 ^ (-sh).toNat = K :=
    shift_eq (by rw [hsh, zpow_sub₀ two_ne_zero, ← mul_div_assoc, eq_div_iff (by positivity)]; exact hval.symm)
  unfold FFmt.pack
  rw [if_neg (by simpa using hq)]
  rcases lt_or_ge K (2 ^ f.fb) with hlt | hge
  · obtain rfl : h = 0 := by omega
    rw [if_pos (f.expo_lt_emin hm (by simpa using habs) hlt)]
    dsimp only
    rw [hshift (by rw [FFmt.low, Nat.cast_zero, add_zero]), FFmt.gridCode, zero_mul, add_zero]
  · have hexpo := f.expo_of_place hm habs hK hge
    rw [hexpo, if_neg (by omega)]
    dsimp only
    rw [hshift (sh := f.fb - (f.emin + h - e)) (by rw [f.emin_eq]; ring), FFmt.gridCode, show f.emin + h + f.bias = ((h + 1 : Nat) : Int) by
      rw [FFmt.emin]; push_cast; omega, Int.toNat_natCast, add_mul]
    omega

theorem FFmt.pack_eq_of_le (f : FFmt) (neg : Bool) {q h K : Nat} {e : Int} (hval : (q : ℚ) * 2 ^ e = K * 2 ^ (f.low + h))
    (hK : K ≤ 2 ^ (f.fb + 1)) (hh : h = 0 ∨ 2 ^ f.fb ≤ K) : f.pack neg q e = f.gridCode neg h K := by
  rcases hK.lt_or_eq with hlt | rfl
  · exact f.pack_eq neg hval hlt hh
  · rw [f.gridCode_succ]
    refine f.pack_eq neg ?_ (Nat.pow_lt_pow_right (by omega) (by omega)) (.inr le_rfl)
    rw [hval, Nat.cast_add, ← add_assoc, zpow_add₀ two_ne_zero (f.low + h)]
    push_cast
    ring

/-! ### Rounding to the format (R116) -/

/-- A number with a sign as a dyadic. -/
def Dy.ofSigned (neg : Bool) (m : Nat) (e : Int) : Dy := { m := if neg then -(m : Int) else m, e := e }

theorem Dy.natAbs_ofSigned (neg : Bool) (m : Nat) (e : Int) : (Dy.ofSigned neg m e).m.natAbs = m := by cases neg <;> simp [Dy.ofSigned]

theorem Dy.ofSigned_lt (neg : Bool) {m : Nat} (hm : m ≠ 0) (e : Int) : decide ((Dy.ofSigned neg m e).m < 0) = neg := by
  cases neg <;> simp [Dy.ofSigned]; omega

section
variable {mode : RMode} (neg : Bool) {m : Nat} (hm : m ≠ 0) (e : Int)
include hm

/-- Rounding to `p` bits is rounding at the place of the last of them. -/
theorem Dy.round_eq (p : Nat) : let s : Int := (bitLen m : Int) - p
    (((Dy.ofSigned neg m e).round mode p).1.m.natAbs : ℚ) * 2 ^ ((Dy.ofSigned neg m e).round mode p).1.e =
        (roundShift mode neg m s).1 * 2 ^ (e + s) ∧
      ((Dy.ofSigned neg m e).round mode p).2 = (roundShift mode neg m s).2 := by
  dsimp only
  unfold Dy.round
  rw [Dy.natAbs_ofSigned, Dy.ofSigned_lt neg hm]
  rcases le_or_gt ((bitLen m : Int) - p) 0 with hs | hs
  · obtain ⟨n, hn⟩ : ∃ n : Nat, (bitLen m : Int) - p = -(n : Int) := ⟨((bitLen m : Int) - p).natAbs, by omega⟩
    rw [hn, roundShift_left, if_pos (by omega), Dy.natAbs_ofSigned]
    refine ⟨?_, rfl⟩
    rw [zpow_add₀ two_ne_zero, zpow_neg, zpow_natCast]
    push_cast
    rw [show (m : ℚ) * 2 ^ n * (2 ^ e * (2 ^ n)⁻¹) = m * 2 ^ e * (2 ^ n * (2 ^ n)⁻¹) by ring, mul_inv_cancel₀ (by positivity), mul_one]
    rfl
  · have habs (q : Nat) : (if (Dy.ofSigned neg m e).m < 0 then -(q : Int) else q).natAbs = q := by split_ifs <;> simp
    rw [if_neg (by omega)]
    simp only [habs]
    exact ⟨rfl, trivial⟩

/-- The place that keeps `fb + 1` bits of a number. -/
theorem significand_bounds (fb : Nat) : (2 : ℚ) ^ fb ≤ m * 2 ^ (-((bitLen m : Int) - (fb + 1 : Nat))) ∧
    (m : ℚ) * 2 ^ (-((bitLen m : Int) - (fb + 1 : Nat))) < 2 ^ (fb + 1) := by
  obtain ⟨k, hk, hle⟩ := two_pow_le_of_bitLen hm
  have hlt := lt_two_pow_bitLen m
  have hle' : (2 : ℚ) ^ k ≤ m := by exact_mod_cast hle
  have hlt' : (m : ℚ) < 2 ^ (k + 1) := by rw [← hk]; exact_mod_cast hlt
  have hpow : (0 : ℚ) < 2 ^ (-((bitLen m : Int) - (fb + 1 : Nat))) := by positivity
  have hcut (j : Nat) : (2 : ℚ) ^ (fb + j) = 2 ^ (k + j) * 2 ^ (-((bitLen m : Int) - (fb + 1 : Nat))) := by
    rw [← zpow_natCast, ← zpow_natCast, ← zpow_add₀ two_ne_zero, hk]
    congr 1
    push_cast
    ring
  have h0 := hcut 0
  rw [hcut 1]
  rw [add_zero, add_zero] at h0
  rw [h0]
  exact ⟨mul_le_mul_of_nonneg_right hle' hpow.le, mul_lt_mul_of_pos_right hlt' hpow⟩
end

end Sys2Proof.Machine

namespace Sys2Proof.Machine

theorem Dy.abs_abs_val (d : Dy) : d.abs.val = d.m.natAbs * 2 ^ d.e := by simp [Dy.val, Dy.abs]

theorem FFmt.maxDy_val {f : FFmt} (hf : f.Ieee) : f.maxDy.val = maxVal f := by
  rw [FFmt.maxDy, if_pos hf.hasInf, Dy.val, maxVal, Nat.cast_sub Nat.one_le_two_pow]
  push_cast
  rfl

/-! ### The three ways in which `round` ends -/

section
variable (f : FFmt) (flush : Bool) (mode : RMode) (neg : Bool) {m : Nat} (hm : m ≠ 0) (e : Int)
include hm

theorem FFmt.round_of_beyond (h : f.maxDy.lt ((Dy.ofSigned neg m e).round mode (f.fb + 1)).1.abs = true) :
    f.round flush mode neg m e = ((f.overflow mode neg).1, (f.overflow mode neg).2, true) := by
  unfold FFmt.round
  rw [if_neg (by simpa using hm)]
  exact if_pos h

theorem FFmt.round_of_tiny (h : f.maxDy.lt ((Dy.ofSigned neg m e).round mode (f.fb + 1)).1.abs = false)
    (htiny : ((Dy.ofSigned neg m e).round mode (f.fb + 1)).1.expo < f.emin) (hkeeps : (!f.sub || (f.flushes && flush)) = false) :
    f.round flush mode neg m e = (f.pack neg (roundShift mode neg m (f.low - e)).1 f.low,
      flIf (roundShift mode neg m (f.low - e)).2 (flUnderflow ||| flInexact), false) := by
  unfold FFmt.round
  rw [if_neg (by simpa using hm)]
  refine (if_neg (by rw [Bool.not_eq_true]; exact h)).trans ((if_pos htiny).trans ?_)
  rw [hkeeps]
  rfl

theorem FFmt.round_of_normal (h : f.maxDy.lt ((Dy.ofSigned neg m e).round mode (f.fb + 1)).1.abs = false)
    (hnormal : ¬ ((Dy.ofSigned neg m e).round mode (f.fb + 1)).1.expo < f.emin) :
    f.round flush mode neg m e = (f.pack neg ((Dy.ofSigned neg m e).round mode (f.fb + 1)).1.m.natAbs
      ((Dy.ofSigned neg m e).round mode (f.fb + 1)).1.e,
      flIf ((Dy.ofSigned neg m e).round mode (f.fb + 1)).2 flInexact, false) := by
  unfold FFmt.round
  rw [if_neg (by simpa using hm)]
  exact (if_neg (by rw [Bool.not_eq_true]; exact h)).trans (if_neg hnormal)
end

/-! ### `round` rounds (R116) -/

/-- What rounds beyond the largest number lies beyond it. -/
theorem maxVal_lt_of_rounded {f : FFmt} (hf : f.Ieee) {mode : RMode} {neg : Bool} {x : ℚ} {K : Nat} {g : Int} (hx : 2 ^ f.fb ≤ x)
    (hround : RoundsToInt mode (sgn neg * x) (sgn neg * K)) (hbeyond : maxVal f < K * 2 ^ g) : maxVal f < x * 2 ^ g := by
  have hpow : (0 : ℚ) < 2 ^ g := by positivity
  have hxabs : |(sgn neg : ℚ) * x| = x := by rw [abs_sgn_mul, abs_of_nonneg ((by positivity : (0 : ℚ) ≤ 2 ^ f.fb).trans hx)]
  have hKabs : |sgn neg * (K : Int)| = K := by cases neg <;> simp
  rw [maxVal_eq hf] at hbeyond ⊢
  generalize f.low + ((2 ^ f.eb - 3 : Nat) : Int) = top at hbeyond ⊢
  rcases le_or_gt g top with hle | hgt
  · obtain ⟨n, hn⟩ := Int.le.dest hle
    subst hn
    by_contra hnot
    rw [zpow_add₀ two_ne_zero, zpow_natCast, mul_comm ((2 : ℚ) ^ g), ← mul_assoc] at hnot hbeyond
    have hN : ((((2 ^ (f.fb + 1) - 1) * 2 ^ n : Int)) : ℚ) = (2 ^ (f.fb + 1) - 1) * 2 ^ n := by push_cast; rfl
    have hK := hround.abs_le_of_le (N := (2 ^ (f.fb + 1) - 1) * 2 ^ n)
      (by rw [hxabs, hN]; exact le_of_mul_le_mul_right (not_lt.mp hnot) hpow)
    rw [hKabs] at hK
    have hK' : (K : ℚ) ≤ (2 ^ (f.fb + 1) - 1) * 2 ^ n := by rw [← hN]; exact_mod_cast hK
    exact absurd hbeyond (not_lt.mpr (mul_le_mul_of_nonneg_right hK' hpow.le))
  · calc (2 ^ (f.fb + 1) - 1 : ℚ) * 2 ^ top < 2 ^ (f.fb + 1) * 2 ^ top := mul_lt_mul_of_pos_right (by linarith) (by positivity)
      _ = 2 ^ f.fb * 2 ^ (top + 1) := by rw [zpow_add_one₀ two_ne_zero]; ring
      _ ≤ x * 2 ^ g := mul_le_mul hx (zpow_le_two_iff.mpr (by omega)) (by positivity) (by linarith [show (0 : ℚ) < 2 ^ f.fb by positivity])

theorem flUnderflow_inexact : (flUnderflow ||| flInexact) &&& flInexact ≠ 0 := by decide
theorem flInexact_self : flInexact &&& flInexact ≠ 0 := by decide

/-- A number with its `fb + 1` leading bits before the point as `x`, in units of `2^g`, and `K` as the integer to which they round. -/
structure Significand (f : FFmt) (mode : RMode) (neg : Bool) (m : Nat) (e : Int) (x : ℚ) (K : Nat) (g : Int) : Prop where
  unit : g = (bitLen m : Int) - 1 + e - f.fb
  exact_eq : (m : ℚ) * 2 ^ e = x * 2 ^ g
  lo : 2 ^ f.fb ≤ x
  hi : x < 2 ^ (f.fb + 1)
  rounds : RoundsToInt mode (sgn neg * x) (sgn neg * K)
  rounded : (((Dy.ofSigned neg m e).round mode (f.fb + 1)).1.m.natAbs : ℚ) * 2 ^ ((Dy.ofSigned neg m e).round mode (f.fb + 1)).1.e = K * 2 ^ g
  same : ((Dy.ofSigned neg m e).round mode (f.fb + 1)).2 = false ↔ (K : ℚ) = x

theorem exists_significand (f : FFmt) {mode : RMode} (hmode : mode ≠ .odd) (neg : Bool) {m : Nat} (hm : m ≠ 0) (e : Int) :
    ∃ x K g, Significand f mode neg m e x K g := by
  obtain ⟨hu, hch⟩ := Dy.round_eq (mode := mode) neg hm e (f.fb + 1)
  obtain ⟨hround, hexact⟩ := roundShift_spec hmode neg m ((bitLen m : Int) - (f.fb + 1 : Nat))
  obtain ⟨hlo, hhi⟩ := significand_bounds hm f.fb
  refine ⟨_, _, e + ((bitLen m : Int) - (f.fb + 1 : Nat)), by push_cast; ring, ?_, hlo, hhi, hround, hu, hch ▸ hexact⟩
  rw [mul_assoc, ← zpow_add₀ two_ne_zero]
  congr 2
  ring

theorem abs_sgn_mul_int (neg : Bool) (K : Nat) : |sgn neg * (K : Int)| = K := by cases neg <;> simp

namespace Significand
variable {f : FFmt} {mode : RMode} {neg : Bool} {m : Nat} {e : Int} {x : ℚ} {K : Nat} {g : Int} (h : Significand f mode neg m e x K g)
include h

theorem pos : 0 < x := (by positivity : (0 : ℚ) < 2 ^ f.fb).trans_le h.lo

theorem abs_eq : |(sgn neg : ℚ) * x| = x := by rw [abs_sgn_mul, abs_of_pos h.pos]

theorem le_K : 2 ^ f.fb ≤ K := by
  have hK := h.rounds.le_abs_of_le (N := 2 ^ f.fb) (by rw [h.abs_eq]; exact_mod_cast h.lo)
  rw [abs_sgn_mul_int] at hK
  exact_mod_cast hK

theorem K_le : K ≤ 2 ^ (f.fb + 1) := by
  have hK := h.rounds.abs_le_of_le (N := 2 ^ (f.fb + 1)) (by rw [h.abs_eq]; exact_mod_cast h.hi.le)
  rw [abs_sgn_mul_int] at hK
  exact_mod_cast hK

/-- The rounded number against a power of two. -/
theorem expo_lt_iff (k : Int) : ((Dy.ofSigned neg m e).round mode (f.fb + 1)).1.expo < k ↔ (K : ℚ) * 2 ^ g < 2 ^ k := by
  have hne : ((Dy.ofSigned neg m e).round mode (f.fb + 1)).1.m ≠ 0 := by
    intro h0
    have hr := h.rounded
    rw [h0, Int.natAbs_zero, Nat.cast_zero, zero_mul] at hr
    have hK := (Nat.two_pow_pos f.fb).trans_le h.le_K
    have : (0 : ℚ) < K * 2 ^ g := by positivity
    linarith
  rw [Dy.expo_lt_iff hne, Dy.abs_val, h.rounded]

theorem beyond_iff (hf : f.Ieee) : f.maxDy.lt ((Dy.ofSigned neg m e).round mode (f.fb + 1)).1.abs = true ↔ maxVal f < K * 2 ^ g := by
  rw [Dy.lt_iff, FFmt.maxDy_val hf, Dy.abs_abs_val, h.rounded]

/-- Beyond the largest number: an overflow. -/
theorem roundedResult_of_beyond (hf : f.Ieee) (hbeyond : maxVal f < K * 2 ^ g) :
    RoundedResult f mode (sgn neg * (m * 2 ^ e)) (f.overflow mode neg) := by
  rw [h.exact_eq]
  exact roundedResult_overflow hf neg (maxVal_lt_of_rounded hf h.lo h.rounds hbeyond)

/-- Below the smallest normal number: rounded again, at the place of the subnormals. -/
theorem roundedResult_of_tiny (hf : f.Ieee) (hmode : mode ≠ .odd) (htiny : g < f.low) :
    RoundedResult f mode (sgn neg * (m * 2 ^ e)) (f.pack neg (roundShift mode neg m (f.low - e)).1 f.low,
      flIf (roundShift mode neg m (f.low - e)).2 (flUnderflow ||| flInexact)) := by
  obtain ⟨hround, hexact⟩ := roundShift_spec hmode neg m (f.low - e)
  have hquot : (m : ℚ) * 2 ^ e / 2 ^ f.low = m * 2 ^ (-(f.low - e)) := by rw [mul_div_assoc, ← zpow_sub₀ two_ne_zero, neg_sub]
  rw [← hquot] at hround hexact
  generalize (roundShift mode neg m (f.low - e)).1 = q at hround hexact ⊢
  have hq : q ≤ 2 ^ f.fb := by
    have hle : (m : ℚ) * 2 ^ e / 2 ^ f.low ≤ 2 ^ f.fb := by
      rw [div_le_iff₀ (by positivity), h.exact_eq]
      calc x * 2 ^ g ≤ 2 ^ (f.fb + 1) * 2 ^ (f.low - 1) :=
            mul_le_mul h.hi.le (zpow_le_two_iff.mpr (by omega)) (by positivity) (by positivity)
        _ = 2 ^ f.fb * 2 ^ f.low := by rw [zpow_sub_one₀ two_ne_zero, pow_succ]; ring
    have hK := hround.abs_le_of_le (N := 2 ^ f.fb) (by rw [abs_sgn_mul, abs_of_nonneg (by positivity)]; exact_mod_cast hle)
    rw [abs_sgn_mul_int] at hK
    exact_mod_cast hK
  have hq' : q ≤ 2 ^ (f.fb + 1) := hq.trans (Nat.pow_le_pow_right (by omega) (by omega))
  have hlow : f.low + (0 : Nat) = f.low := by simp
  rw [f.pack_eq_of_le neg (h := 0) (K := q) (by rw [hlow]) hq' (.inl rfl)]
  refine roundedResult_of_grid hf neg hq' (.inl rfl) ?_ (by rw [hlow, mul_div_assoc]; exact hround) (.inl rfl) ?_ flUnderflow_inexact
  · rw [maxVal_eq hf]
    have hq1 : (q : ℚ) ≤ 2 ^ f.fb := by exact_mod_cast hq
    have h1 : (1 : ℚ) ≤ 2 ^ f.fb := one_le_pow₀ one_le_two
    exact mul_le_mul (by rw [pow_succ]; linarith) (zpow_le_two_iff.mpr (by omega)) (by positivity) (by rw [pow_succ]; linarith)
  · rw [hexact, hlow, mul_right_inj' (by cases neg <;> simp), eq_div_iff (by positivity)]

/-- A number below the normal ones that rounds to one of them has rounded up to the smallest. -/
theorem carries (hnormal : 2 ^ f.emin ≤ (K : ℚ) * 2 ^ g) (hlt : g < f.low) : K = 2 ^ (f.fb + 1) ∧ g = f.low - 1 := by
  have hK : (K : ℚ) ≤ 2 ^ (f.fb + 1) := by exact_mod_cast h.K_le
  have hg : g = f.low - 1 := by
    have hle := hnormal.trans (mul_le_mul_of_nonneg_right hK (by positivity))
    rw [← zpow_natCast, ← zpow_add₀ two_ne_zero, zpow_le_two_iff, f.emin_eq] at hle
    push_cast at hle
    omega
  refine ⟨h.K_le.antisymm ?_, hg⟩
  rw [hg, f.emin_eq, show (f.fb : Int) + f.low = (f.fb + 1 : Nat) + (f.low - 1) by push_cast; ring, zpow_add₀ two_ne_zero, zpow_natCast] at hnormal
  exact_mod_cast le_of_mul_le_mul_right hnormal (by positivity)

/-- Otherwise: the number with the rounded significand. -/
theorem roundedResult_of_normal (hf : f.Ieee) {q : Nat} {i : Int} {ch : Bool} (hq : (q : ℚ) * 2 ^ i = K * 2 ^ g)
    (hch : ch = false ↔ (K : ℚ) = x) (hfit : K * 2 ^ g ≤ maxVal f) (hnormal : 2 ^ f.emin ≤ (K : ℚ) * 2 ^ g) :
    RoundedResult f mode (sgn neg * (m * 2 ^ e)) (f.pack neg q i, flIf ch flInexact) := by
  have hsame : ch = false ↔ (sgn neg * (K * 2 ^ g) : ℚ) = sgn neg * (m * 2 ^ e) := by
    rw [hch, h.exact_eq, mul_right_inj' (by cases neg <;> simp), mul_left_inj' (by positivity)]
  have hdiv : (m : ℚ) * 2 ^ e / 2 ^ g = x := by rw [h.exact_eq, mul_div_cancel_right₀ _ (by positivity)]
  rcases le_or_gt f.low g with hge | hlt
  · obtain ⟨n, rfl⟩ := Int.le.dest hge
    rw [f.pack_eq_of_le neg hq h.K_le (.inr h.le_K)]
    refine roundedResult_of_grid hf neg h.K_le (.inr h.le_K) hfit ?_ (.inr ?_) hsame flInexact_self
    · rw [mul_div_assoc, hdiv]; exact h.rounds
    · rw [mul_div_assoc, hdiv, h.abs_eq]; exact h.lo
  · obtain ⟨rfl, rfl⟩ := h.carries hnormal hlt
    have hcarry : ((2 ^ (f.fb + 1) : Nat) : ℚ) * 2 ^ (f.low - 1) = (2 ^ f.fb : Nat) * 2 ^ (f.low + (0 : Nat)) := by
      rw [zpow_sub_one₀ two_ne_zero, pow_succ, Nat.cast_zero, add_zero]
      push_cast
      ring
    have hle : 2 ^ f.fb ≤ 2 ^ (f.fb + 1) := Nat.pow_le_pow_right (by omega) (by omega)
    rw [hcarry] at hq hfit hsame
    rw [f.pack_eq_of_le neg hq hle (.inl rfl)]
    refine roundedResult_of_grid hf neg hle (.inl rfl) hfit ?_ (.inl rfl) hsame flInexact_self
    have hhalf : (sgn neg * ((m : ℚ) * 2 ^ e)) / 2 ^ (f.low + (0 : Nat)) = sgn neg * x / 2 := by
      rw [h.exact_eq, zpow_sub_one₀ two_ne_zero, Nat.cast_zero, add_zero, div_eq_iff (by positivity)]
      ring
    rw [hhalf]
    refine RoundsToInt.half ?_
    have hrounds := h.rounds
    rw [pow_succ] at hrounds
    push_cast at hrounds ⊢
    rwa [show (2 : Int) * (sgn neg * 2 ^ f.fb) = sgn neg * (2 ^ f.fb * 2) by ring]
end Significand

/-- A nonzero number is rounded to the format, unless the contract flushes it. -/
theorem FFmt.round_spec {f : FFmt} (hf : f.Ieee) {mode : RMode} (hmode : mode ≠ .odd) {flush : Bool} (neg : Bool) {m : Nat} (hm : m ≠ 0)
    {e : Int} (hkeeps : (f.flushes && flush) = false ∨ f.emin ≤ (bitLen m : Int) - 1 + e) :
    RoundedResult f mode (sgn neg * (m * 2 ^ e)) ((f.round flush mode neg m e).1, (f.round flush mode neg m e).2.1) := by
  obtain ⟨x, K, g, h⟩ := exists_significand f hmode neg hm e
  by_cases hbeyond : maxVal f < K * 2 ^ g
  · rw [f.round_of_beyond flush mode neg hm e ((h.beyond_iff hf).mpr hbeyond)]
    exact h.roundedResult_of_beyond hf hbeyond
  have hfit := Bool.eq_false_iff.mpr (mt (h.beyond_iff hf).mp hbeyond)
  by_cases htiny : ((Dy.ofSigned neg m e).round mode (f.fb + 1)).1.expo < f.emin
  · have hg : g < f.low := by
      have hlt := (h.expo_lt_iff _).mp htiny
      have hK : (2 : ℚ) ^ f.fb ≤ K := by exact_mod_cast h.le_K
      have := (mul_le_mul_of_nonneg_right hK (by positivity : (0 : ℚ) ≤ 2 ^ g)).trans_lt hlt
      rw [← zpow_natCast, ← zpow_add₀ two_ne_zero, zpow_lt_two_iff, f.emin_eq] at this
      omega
    have hunit := h.unit
    have hemin := f.emin_eq
    rw [f.round_of_tiny flush mode neg hm e hfit htiny (by rw [hf.sub, hkeeps.resolve_right (by omega)]; rfl)]
    exact h.roundedResult_of_tiny hf hmode hg
  · rw [f.round_of_normal flush mode neg hm e hfit htiny]
    exact h.roundedResult_of_normal hf h.rounded h.same (not_lt.mp hbeyond) (not_lt.mp (mt (h.expo_lt_iff _).mpr htiny))

end Sys2Proof.Machine

namespace Sys2Proof.Machine

/-! ### Exact results and sums rounded once (R116) -/

section
variable {f : FFmt} (hf : f.Ieee) {mode : RMode} (hmode : mode ≠ .odd)

include hf in
theorem roundedResult_zero (mode : RMode) (neg : Bool) : RoundedResult f mode 0 (f.signBit neg, 0) := by
  have hcode : f.gridCode neg 0 0 = f.signBit neg := by simp [FFmt.gridCode]
  rw [← hcode]
  refine roundedResult_of_grid hf neg (ch := false) (fl := flInexact) (Nat.zero_le _) (.inl rfl) ?_ ?_ (.inl rfl)
    (iff_of_true rfl (by simp)) flInexact_self
  · rw [maxVal_eq hf, Nat.cast_zero, zero_mul]
    exact mul_nonneg (sub_nonneg.mpr (one_le_pow₀ one_le_two)) (by positivity)
  · simpa using roundsToInt_self mode 0

theorem Dy.val_eq_sgn (d : Dy) : d.val = sgn (decide (d.m < 0)) * (d.m.natAbs * 2 ^ d.e) := by
  have hm : (d.m : ℚ) = sgn (decide (d.m < 0)) * d.m.natAbs := by
    rw [← Int.cast_natCast, ← Int.cast_mul]
    congr 1
    by_cases h : d.m < 0
    · simp [h, abs_of_neg h]
    · simp [h, abs_of_nonneg (not_lt.mp h)]
  rw [Dy.val, ← mul_assoc, ← hm]

include hf hmode

/-- A number is rounded to the format, unless the contract flushes it; a zero keeps the sign given. -/
theorem FFmt.roundDy_spec {flush : Bool} (zeroNeg : Bool) (d : Dy)
    (hkeeps : (f.flushes && flush) = false ∨ (d.m ≠ 0 → f.emin ≤ d.expo)) :
    RoundedResult f mode d.val ((f.roundDy flush mode zeroNeg d).1, (f.roundDy flush mode zeroNeg d).2.1) := by
  unfold FFmt.roundDy
  split_ifs with hm
  · rw [(d.val_eq_zero).mpr hm]
    exact roundedResult_zero hf mode zeroNeg
  · rw [d.val_eq_sgn]
    exact FFmt.round_spec hf hmode _ (Int.natAbs_ne_zero.mpr hm) (hkeeps.imp_right fun h => h hm)

/-- The same of a magnitude with a sign. -/
theorem FFmt.round_spec_of_keeps {flush : Bool} (hkeeps : (f.flushes && flush) = false) (neg : Bool) (m : Nat) (e : Int) :
    RoundedResult f mode (FVal.fin neg m e).num ((f.round flush mode neg m e).1, (f.round flush mode neg m e).2.1) := by
  rw [FVal.num_fin]
  rcases eq_or_ne m 0 with rfl | hm
  · simpa [FFmt.round] using roundedResult_zero hf mode neg
  · exact FFmt.round_spec hf hmode neg hm (.inl hkeeps)

/-- A sum of two finite addends is rounded once. -/
theorem FFmt.sum_spec {contract : Nat} (hkeeps : (f.flushes && flushVec contract) = false) {ops : List FVal} (hops : ops.any FVal.isNan = false)
    (n n' : Bool) (m m' : Nat) (e e' : Int) :
    RoundedResult f mode ((FVal.fin n m e).num + (FVal.fin n' m' e').num) (f.sum contract mode false ops [.fin n m e, .fin n' m' e']) := by
  have hval : ([FVal.fin n m e, FVal.fin n' m' e'].foldl (fun acc v => acc.add v.dy) ({ m := 0, e := 0 } : Dy)).val =
      (FVal.fin n m e).num + (FVal.fin n' m' e').num := by
    simp only [List.foldl_cons, List.foldl_nil, Dy.val_add, FVal.num]
    rw [(Dy.val_eq_zero _).mpr rfl, zero_add]
  rw [← hval]
  unfold FFmt.sum
  rw [hops]
  exact FFmt.roundDy_spec hf hmode _ _ (.inl hkeeps)
end

/-- A number of the format is rounded to itself. -/
theorem RoundedResult.codeVal_eq_of_exact {f : FFmt} (hf : f.Ieee) {q : ℚ} {r : Nat × BitVec 6} (h : RoundedResult f .rn q r) {y : Nat}
    (hy : finiteCode f y) (hq : codeVal f y = q) : codeVal f r.1 = q := by
  have hfin : finiteCode f r.1 := by
    by_contra hnot
    have hle := abs_codeVal_le hf hy
    rw [hq] at hle
    exact absurd (h.2 hnot).1 hle.not_gt
  have hnear := ((h.1 hfin).1 y hy).1
  rw [hq, sub_self, abs_zero] at hnear
  exact sub_eq_zero.mp (abs_eq_zero.mp (hnear.antisymm (abs_nonneg _)))

theorem FFmt.codeVal_encodeExact {f : FFmt} (hf : f.Ieee) (neg : Bool) (m : Nat) (e : Int) {y : Nat} (hy : finiteCode f y)
    (hval : codeVal f y = (FVal.fin neg m e).num) : codeVal f (f.encodeExact (.fin neg m e)) = (FVal.fin neg m e).num :=
  RoundedResult.codeVal_eq_of_exact hf (FFmt.round_spec_of_keeps hf (by decide) (by simp) neg m e) hy hval

/-! ### The value that an operand is read as (R132) -/

section
variable {f : FFmt} (hf : f.Ieee) {contract : Nat}
include hf

theorem FFmt.read_finite (hkeeps : (f.flushes && flushIn contract) = false) {c : Nat} (hc : finiteCode f c) :
    f.read contract c = .fin (f.signOf c) (f.sigOf c) (f.low + f.place c) := by
  rw [FFmt.read, hkeeps, Bool.false_and, FFmt.decode_finite hf hc]
  rfl

end

theorem FVal.num_of_code (f : FFmt) (c : Nat) : (FVal.fin (f.signOf c) (f.sigOf c) (f.low + f.place c)).num = codeVal f c := by
  rw [FVal.num_fin, codeVal_eq]

theorem FVal.num_negate (neg : Bool) (m : Nat) (e : Int) : (FVal.fin neg m e).negate.num = -(FVal.fin neg m e).num := by
  change (FVal.fin (!neg) m e).num = _
  rw [FVal.num_fin, FVal.num_fin]
  cases neg <;> simp

theorem FVal.num_mul (n n' : Bool) (m m' : Nat) (e e' : Int) :
    (FVal.fin (n != n') (m * m') (e + e')).num = (FVal.fin n m e).num * (FVal.fin n' m' e').num := by
  have hs : (sgn (n != n') : ℚ) = sgn n * sgn n' := by cases n <;> cases n' <;> simp
  simp only [FVal.num_fin, hs, zpow_add₀ (two_ne_zero (α := ℚ)), Nat.cast_mul]
  ring

/-! ### Arithmetic (R135) -/

section
variable {f : FFmt} (hf : f.Ieee) {mode : RMode} (hmode : mode ≠ .odd) {contract : Nat} (hkeeps : (f.flushes && flushIn contract) = false)
  {a b : Nat} (ha : finiteCode f a) (hb : finiteCode f b)
include hf hmode hkeeps ha hb

theorem fadd_rounded : RoundedResult f mode (codeVal f a + codeVal f b) (f.fadd contract mode a b) := by
  rw [FFmt.fadd, FFmt.read_finite hf hkeeps ha, FFmt.read_finite hf hkeeps hb, ← FVal.num_of_code f a, ← FVal.num_of_code f b]
  exact FFmt.sum_spec hf hmode hkeeps rfl ..

theorem fsub_rounded : RoundedResult f mode (codeVal f a - codeVal f b) (f.fsub contract mode a b) := by
  rw [FFmt.fsub, FFmt.read_finite hf hkeeps ha, FFmt.read_finite hf hkeeps hb, ← FVal.num_of_code f a, ← FVal.num_of_code f b, sub_eq_add_neg,
    ← FVal.num_negate]
  exact FFmt.sum_spec hf hmode hkeeps rfl ..

theorem fmul_rounded : RoundedResult f mode (codeVal f a * codeVal f b) (f.fmul contract mode a b) := by
  rw [FFmt.fmul, FFmt.read_finite hf hkeeps ha, FFmt.read_finite hf hkeeps hb, ← FVal.num_of_code f a, ← FVal.num_of_code f b, ← FVal.num_mul]
  exact FFmt.round_spec_of_keeps hf hmode hkeeps ..

theorem ffma_rounded {c : Nat} (hc : finiteCode f c) :
    RoundedResult f mode (codeVal f a * codeVal f b + codeVal f c) (f.ffma contract mode a b c) := by
  rw [FFmt.ffma, FFmt.read_finite hf hkeeps ha, FFmt.read_finite hf hkeeps hb, FFmt.read_finite hf hkeeps hc, ← FVal.num_of_code f a,
    ← FVal.num_of_code f b, ← FVal.num_of_code f c, ← FVal.num_mul]
  exact FFmt.sum_spec hf hmode hkeeps rfl ..
end

/-! ### Compares (R137) -/

theorem FVal.isZero_iff (n : Bool) (m : Nat) (e : Int) : (FVal.fin n m e).isZero = true ↔ (FVal.fin n m e).num = 0 := by
  rw [FVal.num, Dy.val_eq_zero, FVal.isZero, FVal.dy, beq_iff_eq]
  cases n <;> simp

section
variable (n n' : Bool) (m m' : Nat) (e e' : Int)

/-- Of two numbers that are not both zero, the order tells which is below. -/
theorem FVal.lt_fin (h : ((FVal.fin n m e).isZero && (FVal.fin n' m' e').isZero) = false) :
    (FVal.fin n m e).lt (FVal.fin n' m' e') = true ↔ (FVal.fin n m e).num < (FVal.fin n' m' e').num := by
  have hlt : (FVal.fin n m e).lt (FVal.fin n' m' e') = (FVal.fin n m e).dy.lt (FVal.fin n' m' e').dy := by
    refine if_neg ?_
    rw [Bool.not_eq_true]
    exact h
  rw [hlt, Dy.lt_iff, FVal.num, FVal.num]

theorem FVal.lt_iff : (!((FVal.fin n m e).isZero && (FVal.fin n' m' e').isZero) && (FVal.fin n m e).lt (FVal.fin n' m' e')) = true ↔
    (FVal.fin n m e).num < (FVal.fin n' m' e').num := by
  cases hz : ((FVal.fin n m e).isZero && (FVal.fin n' m' e').isZero) with
  | false => exact FVal.lt_fin _ _ _ _ _ _ hz
  | true =>
    obtain ⟨h1, h2⟩ := Bool.and_eq_true_iff.mp hz
    rw [(FVal.isZero_iff ..).mp h1, (FVal.isZero_iff ..).mp h2]
    simp

theorem FVal.eq_iff : (FVal.fin n m e).eq (FVal.fin n' m' e') = true ↔ (FVal.fin n m e).num = (FVal.fin n' m' e').num := by
  rw [FVal.eq, Bool.or_eq_true, Bool.and_eq_true, Bool.not_eq_true', Bool.not_eq_true']
  cases hz : ((FVal.fin n m e).isZero && (FVal.fin n' m' e').isZero) with
  | false =>
    rw [Bool.eq_false_iff, Bool.eq_false_iff, Ne, Ne, FVal.lt_fin _ _ _ _ _ _ hz, FVal.lt_fin _ _ _ _ _ _ (by rwa [Bool.and_comm]), not_lt, not_lt]
    simp only [Bool.false_eq_true, or_false]
    exact ⟨fun h => h.2.antisymm h.1, fun h => ⟨h.ge, h.le⟩⟩
  | true =>
    obtain ⟨h1, h2⟩ := Bool.and_eq_true_iff.mp hz
    simp [(FVal.isZero_iff ..).mp h1, (FVal.isZero_iff ..).mp h2]
end

/-- The condition of a compare of two numbers, by its code (R137). -/
def comparesNum (cond : Nat) (x y : ℚ) : Prop :=
  match cond with
  | 0 => x = y | 1 => x ≠ y | 2 => x < y | 3 => x ≤ y | 4 => y < x | _ => y ≤ x

theorem not_eq_true_iff_of {b : Bool} {p : Prop} (h : b = true ↔ p) : (!b) = true ↔ ¬ p := by
  rw [← h, Bool.not_eq_true', Bool.not_eq_true]

/-- What a compare tells of two numbers. -/
theorem fcmp_finite {f : FFmt} (hf : f.Ieee) {contract : Nat} (hkeeps : (f.flushes && flushIn contract) = false) {a b : Nat}
    (ha : finiteCode f a) (hb : finiteCode f b) {cond : Nat} (hcond : cond < 6) :
    (f.fcmp contract cond a b).2 = 0 ∧ ((f.fcmp contract cond a b).1 = true ↔ comparesNum cond (codeVal f a) (codeVal f b)) := by
  have heq := FVal.eq_iff (f.signOf a) (f.signOf b) (f.sigOf a) (f.sigOf b) (f.low + f.place a) (f.low + f.place b)
  have hlt := FVal.lt_iff (f.signOf a) (f.signOf b) (f.sigOf a) (f.sigOf b) (f.low + f.place a) (f.low + f.place b)
  have hgt := FVal.lt_iff (f.signOf b) (f.signOf a) (f.sigOf b) (f.sigOf a) (f.low + f.place b) (f.low + f.place a)
  rw [Bool.and_comm (FVal.isZero _)] at hgt
  rw [FVal.num_of_code, FVal.num_of_code] at heq hlt hgt
  have hnan : ∀ n m e, (FVal.fin n m e).isNan = false := fun _ _ _ => rfl
  have hsig : ∀ n m e n' m' e', sigFlag [.fin n m e, .fin n' m' e'] = 0 := fun _ _ _ _ _ _ => rfl
  unfold FFmt.fcmp
  rw [FFmt.read_finite hf hkeeps ha, FFmt.read_finite hf hkeeps hb]
  simp only [hnan, hsig, Bool.or_false, Bool.false_or, Bool.not_false, Bool.true_and]
  have hcases : cond = 0 ∨ cond = 1 ∨ cond = 2 ∨ cond = 3 ∨ cond = 4 ∨ cond = 5 := by omega
  rcases hcases with rfl | rfl | rfl | rfl | rfl | rfl
  · exact ⟨rfl, heq⟩
  · exact ⟨rfl, not_eq_true_iff_of heq⟩
  · exact ⟨rfl, hlt⟩
  · exact ⟨rfl, (not_eq_true_iff_of hgt).trans not_lt⟩
  · exact ⟨rfl, hgt⟩
  · exact ⟨rfl, (not_eq_true_iff_of hlt).trans not_lt⟩

/-! ### Rounding to an integer in the format (R139) -/

theorem finiteCode_zero {f : FFmt} (hf : f.Ieee) (neg : Bool) : finiteCode f (f.gridCode neg 0 0) ∧ codeVal f (f.gridCode neg 0 0) = 0 := by
  obtain ⟨hfin, -, hval⟩ := FFmt.gridCode_spec hf neg (h := 0) (K := 0) (Nat.two_pow_pos _) (.inl rfl) (Nat.zero_le _)
  exact ⟨hfin, by rw [hval]; simp⟩

/-- An integer of no more bits than the fraction has a code. -/
theorem exists_code_of_nat {f : FFmt} (hf : f.Ieee) (neg : Bool) {K : Nat} (hK : K ≤ 2 ^ f.fb) :
    ∃ y, finiteCode f y ∧ codeVal f y = (FVal.fin neg K 0).num := by
  rw [FVal.num_fin, zpow_zero, mul_one]
  rcases eq_or_ne K 0 with rfl | hne
  · exact ⟨_, (finiteCode_zero hf neg).1, by rw [(finiteCode_zero hf neg).2]; simp⟩
  obtain ⟨k, hk, hle⟩ := two_pow_le_of_bitLen hne
  have hlt := lt_two_pow_bitLen K
  have hkfb : k ≤ f.fb := (Nat.pow_le_pow_iff_right (by omega)).mp (hle.trans hK)
  obtain ⟨j, hj⟩ := Nat.exists_eq_add_of_le hkfb
  obtain ⟨h, hh⟩ := Int.eq_ofNat_of_zero_le (show 0 ≤ f.bias - 1 + k by have := hf.bias_pos; omega)
  have hlow : f.low + h = -(j : Int) := by rw [← hh, FFmt.low, FFmt.emin, hj]; push_cast; ring
  have hfit : h ≤ 2 ^ f.eb - 3 := by
    have hroom := hf.room
    have hpow : ((2 ^ f.eb : Nat) : Int) = 2 ^ f.eb := by push_cast; rfl
    omega
  rw [hk] at hlt
  obtain ⟨hfin, -, hval⟩ := FFmt.gridCode_spec hf neg (K := K * 2 ^ j)
    (by rw [hj, add_right_comm, pow_add]; exact Nat.mul_lt_mul_of_pos_right hlt (Nat.two_pow_pos j))
    (.inr (by rw [hj, pow_add]; exact Nat.mul_le_mul_right _ hle)) hfit
  refine ⟨_, hfin, ?_⟩
  rw [hval, hlow, zpow_neg, zpow_natCast]
  push_cast
  rw [mul_inv_cancel_right₀ (by positivity)]

theorem fround_finite {f : FFmt} (hf : f.Ieee) {mode : RMode} (hmode : mode ≠ .odd) {contract : Nat}
    (hkeeps : (f.flushes && flushIn contract) = false) {a : Nat} (ha : finiteCode f a) :
    ∃ k : Int, codeVal f (f.fround contract mode a).1 = k ∧ RoundsToInt mode (codeVal f a) k ∧ (f.fround contract mode a).2 = 0 := by
  have hval := FVal.num_of_code f a
  have hlt := f.sigOf_lt a
  unfold FFmt.fround
  rw [FFmt.read_finite hf hkeeps ha]
  generalize f.signOf a = n, f.sigOf a = m, f.low + (f.place a : Int) = e at hval hlt
  dsimp only
  split_ifs with he
  · obtain ⟨j, rfl⟩ := Int.eq_ofNat_of_zero_le he
    have hint : codeVal f a = ((sgn n * (m * 2 ^ j) : Int) : ℚ) := by
      rw [← hval, FVal.num_fin, zpow_natCast]
      push_cast
      rfl
    refine ⟨sgn n * (m * 2 ^ j), ?_, by rw [hint]; exact roundsToInt_self .., rfl⟩
    rw [FFmt.codeVal_encodeExact hf n m j ha hval.symm, hval, hint]
  · obtain ⟨hround, -⟩ := roundShift_spec hmode n m (-e)
    rw [neg_neg, ← FVal.num_fin, hval] at hround
    generalize (roundShift mode n m (-e)).1 = q at hround ⊢
    have hq : q ≤ 2 ^ f.fb := by
      have habs : |codeVal f a| ≤ (2 ^ f.fb : Int) := by
        rw [← hval, FVal.num_fin, abs_sgn_mul, abs_of_nonneg (by positivity)]
        push_cast
        have hm : (m : ℚ) ≤ 2 ^ (f.fb + 1) := by exact_mod_cast hlt.le
        calc (m : ℚ) * 2 ^ e ≤ 2 ^ (f.fb + 1) * 2 ^ (-1 : Int) :=
              mul_le_mul hm (zpow_le_two_iff.mpr (by omega)) (by positivity) (by positivity)
          _ = 2 ^ f.fb := by rw [pow_succ, zpow_neg_one, mul_inv_cancel_right₀ two_ne_zero]
      have hK := hround.abs_le_of_le habs
      rw [abs_sgn_mul_int] at hK
      exact_mod_cast hK
    obtain ⟨y, hy, hyval⟩ := exists_code_of_nat hf n hq
    refine ⟨sgn n * q, ?_, hround, rfl⟩
    rw [FFmt.codeVal_encodeExact hf n q 0 hy hyval, FVal.num_fin]
    push_cast
    ring

end Sys2Proof.Machine

namespace Sys2Proof.Machine

/-! ### NaN operands (R121, R132) -/

theorem or_one_eq (m : Nat) : m ||| 1 = if m % 2 = 1 then m else m + 1 := by
  have hdiv : (m ||| 1) / 2 = m / 2 := by rw [Nat.or_div_two]; exact Nat.or_zero _
  have hmod : (m ||| 1) % 2 = 1 := Nat.or_mod_two_eq_one.mpr (.inr rfl)
  split_ifs <;> omega

/-- Setting a bit. -/
theorem or_two_pow (n k : Nat) : n ||| 2 ^ k = if n / 2 ^ k % 2 = 1 then n else n + 2 ^ k := by
  have hdiv : (n ||| 2 ^ k) / 2 ^ k = n / 2 ^ k ||| 1 := by rw [Nat.or_div_two_pow, Nat.div_self (Nat.two_pow_pos k)]
  have hmod : (n ||| 2 ^ k) % 2 ^ k = n % 2 ^ k := by rw [Nat.or_mod_two_pow, Nat.mod_self]; exact Nat.or_zero _
  rw [← Nat.div_add_mod (n ||| 2 ^ k) (2 ^ k), hdiv, hmod, or_one_eq]
  split_ifs
  · exact Nat.div_add_mod n _
  · rw [Nat.mul_add, mul_one, add_right_comm, Nat.div_add_mod]

section
variable {f : FFmt} (hf : f.Ieee)
include hf

/-- The value that a code with the highest exponent decodes to. -/
theorem FFmt.decode_of_top {c : Nat} (hc : expField f c = 2 ^ f.eb - 1) : f.decode c = if fracField f c = 0 then .inf (f.signOf c)
    else .nan (f.signOf c) (decide (fracField f c < 2 ^ (f.fb - 1))) (fracField f c * 2 ^ (52 - f.fb)) := by
  have hex : (c / 2 ^ f.fb % 2 ^ f.eb == 2 ^ f.eb - 1) = true := beq_iff_eq.mpr hc
  unfold FFmt.decode
  simp only [hf.hasInf, hf.hasSig, hex, Bool.true_and, if_true, beq_iff_eq]
  rfl

theorem FFmt.read_nan (contract : Nat) {c : Nat} (hc : nanCode f c) : f.read contract c =
    .nan (f.signOf c) (decide (fracField f c < 2 ^ (f.fb - 1))) (fracField f c * 2 ^ (52 - f.fb)) := by
  obtain ⟨-, hex, hfrac⟩ := hc
  unfold FFmt.read
  rw [FFmt.decode_of_top hf hex, if_neg hfrac]
  exact if_neg (by simp [FFmt.isSubnormal])

theorem FFmt.isNan_read_of_not_nan (contract : Nat) {c : Nat} (hlt : c < 2 ^ (1 + f.eb + f.fb)) (hc : ¬ nanCode f c) :
    (f.read contract c).isNan = false := by
  have hdec : (f.decode c).isNan = false := by
    by_cases hex : expField f c = 2 ^ f.eb - 1
    · have hfrac : fracField f c = 0 := by
        by_contra hne
        exact hc ⟨hlt, hex, hne⟩
      rw [FFmt.decode_of_top hf hex, if_pos hfrac]
      rfl
    · rw [FFmt.decode_finite hf ⟨hlt, hex⟩]
      rfl
  unfold FFmt.read
  dsimp only
  split_ifs
  · rfl
  · exact hdec

omit hf in
theorem FVal.isSig_of_not_nan {v : FVal} (h : v.isNan = false) : v.isSig = false := by
  cases v with
  | nan => exact absurd h (by simp [FVal.isNan])
  | inf | fin => rfl

theorem FFmt.isNan_read_iff (contract : Nat) {c : Nat} (hlt : c < 2 ^ (1 + f.eb + f.fb)) : (f.read contract c).isNan = true ↔ nanCode f c := by
  by_cases hc : nanCode f c
  · rw [FFmt.read_nan hf contract hc]
    exact iff_of_true rfl hc
  · rw [FFmt.isNan_read_of_not_nan hf contract hlt hc]
    exact iff_of_false Bool.false_ne_true hc

theorem FFmt.isSig_read_iff (contract : Nat) {c : Nat} (hlt : c < 2 ^ (1 + f.eb + f.fb)) : (f.read contract c).isSig = true ↔ sigCode f c := by
  by_cases hc : nanCode f c
  · rw [FFmt.read_nan hf contract hc, FVal.isSig, decide_eq_true_iff, sigCode, and_iff_right hc]
  · rw [FVal.isSig_of_not_nan (v := f.read contract c) (FFmt.isNan_read_of_not_nan hf contract hlt hc)]
    exact iff_of_false Bool.false_ne_true fun h => hc h.1

/-- A NaN keeps its sign and payload, with the highest fraction bit set. -/
theorem FFmt.quiet_eq_or {c : Nat} (hc : nanCode f c) :
    f.quiet (f.signOf c) (fracField f c * 2 ^ (52 - f.fb)) = c ||| 2 ^ (f.fb - 1) := by
  obtain ⟨hlt, hex, -⟩ := hc
  obtain ⟨k, hk⟩ : ∃ k, f.fb = k + 1 := ⟨f.fb - 1, by have := hf.fb_pos; omega⟩
  have hbit : c / 2 ^ k % 2 = fracField f c / 2 ^ k % 2 := by
    rw [fracField, hk, pow_succ, Nat.mod_mul_right_div_self, Nat.mod_mod]
  have hparts := f.parts_of_fields hlt
  rw [hex] at hparts
  unfold FFmt.quiet
  rw [Nat.mul_div_cancel _ (Nat.two_pow_pos _), hk, Nat.add_sub_cancel, ← hk, or_two_pow, hbit]
  simp only [beq_iff_eq]
  split_ifs
  · exact hparts.symm
  · rw [← add_assoc, ← hparts]
end

/-- What a sum with a NaN operand gives: the NaN result, with invalid where an operand is signalling. -/
theorem FFmt.sum_nan (f : FFmt) (contract : Nat) (mode : RMode) {ops : List FVal} (addends : List FVal) (h : ops.any FVal.isNan = true) :
    f.sum contract mode false ops addends = (f.nanOf contract ops, sigFlag ops) := by
  unfold FFmt.sum
  refine (if_pos (by rw [h]; rfl)).trans ?_
  simp [flIf]

theorem mulVal_nan {x y : FVal} (h : [x, y].any FVal.isNan = true) : ∃ n s p, mulVal x y = some (.nan n s p) := by
  cases x with
  | nan n s p => exact ⟨n, s, p, rfl⟩
  | inf n | fin n => cases y with
    | nan n s p => exact ⟨n, s, p, rfl⟩
    | inf n | fin n => exact absurd h (by simp [FVal.isNan])

theorem FFmt.fmul_nan (f : FFmt) (contract : Nat) (mode : RMode) {a b : Nat} (h : [f.read contract a, f.read contract b].any FVal.isNan = true) :
    f.fmul contract mode a b = (f.nanOf contract [f.read contract a, f.read contract b], sigFlag [f.read contract a, f.read contract b]) := by
  obtain ⟨n, s, p, hmul⟩ := mulVal_nan h
  unfold FFmt.fmul
  dsimp only
  rw [hmul]

/-- The NaN that a contract gives. -/
theorem FFmt.nanOf_canonical (f : FFmt) {contract : Nat} (hc : contract = 0x300 ∨ contract = 0x400) (ops : List FVal) :
    f.nanOf contract ops = f.cnan := by
  have hkeep : keepsNan contract = false := by rcases hc with rfl | rfl <;> rfl
  unfold FFmt.nanOf
  rw [hkeep]
  split <;> rfl

theorem FFmt.nanOf_first {f : FFmt} (hf : f.Ieee) {contract : Nat} (hc : contract = 0x100 ∨ contract = 0x200)
    {ops : List FVal} {n s : Bool} {p : Nat}
    (hfirst : ops.find? FVal.isNan = some (.nan n s p)) : f.nanOf contract ops = f.quiet n p := by
  have hkeep : keepsNan contract = true := by rcases hc with rfl | rfl <;> rfl
  unfold FFmt.nanOf
  rw [hfirst, hkeep, hf.hasSig]
  rfl

/-- The results of the two-operand operations on a NaN, as the codes tell them. -/
theorem nan_result {f : FFmt} (hf : f.Ieee) {contract : Nat} {a b : Nat} (ha : a < 2 ^ (1 + f.eb + f.fb)) (hb : b < 2 ^ (1 + f.eb + f.fb))
    (hnan : nanCode f a ∨ nanCode f b) {r : Nat × BitVec 6}
    (hr : r = (f.nanOf contract [f.read contract a, f.read contract b], sigFlag [f.read contract a, f.read contract b])) :
    (contract = 0x300 ∨ contract = 0x400 → r.1 = f.cnan) ∧
    (contract = 0x100 ∨ contract = 0x200 → (nanCode f a → r.1 = a ||| 2 ^ (f.fb - 1)) ∧ (¬ nanCode f a → r.1 = b ||| 2 ^ (f.fb - 1))) ∧
    (r.2 = flInvalid ∧ (sigCode f a ∨ sigCode f b) ∨ r.2 = 0 ∧ ¬ sigCode f a ∧ ¬ sigCode f b) := by
  subst hr
  refine ⟨fun hc => f.nanOf_canonical hc _, fun hc => ⟨fun h => ?_, fun h => ?_⟩, ?_⟩
  · rw [← FFmt.quiet_eq_or hf h]
    exact FFmt.nanOf_first hf hc (by rw [FFmt.read_nan hf contract h]; rfl)
  · have hb' := hnan.resolve_left h
    rw [← FFmt.quiet_eq_or hf hb']
    refine FFmt.nanOf_first hf hc (s := decide (fracField f b < 2 ^ (f.fb - 1))) ?_
    rw [List.find?_cons_of_neg (by rw [FFmt.isNan_read_of_not_nan hf contract ha h]; exact Bool.false_ne_true), FFmt.read_nan hf contract hb']
    rfl
  · have hany : [f.read contract a, f.read contract b].any FVal.isSig = true ↔ sigCode f a ∨ sigCode f b := by
      rw [← FFmt.isSig_read_iff hf contract ha, ← FFmt.isSig_read_iff hf contract hb]
      simp
    rw [← not_or, ← hany, sigFlag]
    cases [f.read contract a, f.read contract b].any FVal.isSig <;> simp [flIf]

/-! ### Conversions (R143, R145) -/

theorem RMode.ofCode_ne_odd (c : Nat) : RMode.ofCode c ≠ .odd := by
  unfold RMode.ofCode
  split <;> simp

/-- The four formats of the vector unit have the four lowest codes of R53. -/
theorem fmtOf_mem {c : Nat} (hc : c < 4) : fmtOf c ∈ [fF64, fF32, fF16, fBf16] ∧ fmtBits c = 1 + (fmtOf c).eb + (fmtOf c).fb := by
  interval_cases c <;> decide

theorem fcvt_rounded {f : FFmt} (hf : f.Ieee) {contract dst src rnd x : Nat} (hdst : dst < 4) (hsrc : src < 4) (hfmt : fmtOf dst = f) (hrnd : rnd < 4)
    (hx : finiteCode (fmtOf src) x) (hkeeps : flushIn contract = false) :
    RoundedResult f (RMode.ofCode rnd) (codeVal (fmtOf src) x) (fcvtVal contract dst src rnd false 0 x) := by
  obtain ⟨hmem, hbits⟩ := fmtOf_mem hsrc
  have hread : readFmt contract src x = .fin ((fmtOf src).signOf x) ((fmtOf src).sigOf x) ((fmtOf src).low + (fmtOf src).place x) := by
    unfold readFmt
    rw [hbits, Nat.mod_eq_of_lt hx.1, if_neg (by simp; omega)]
    exact FFmt.read_finite (FFmt.ieee_of_mem hmem) (by rw [hkeeps, Bool.and_false]) hx
  unfold fcvtVal
  have hdp8 : (dst == 6) = false := beq_eq_false_iff_ne.mpr (by omega)
  have hsr : (rnd == 4) = false := beq_eq_false_iff_ne.mpr (by omega)
  rw [hread, ← FVal.num_of_code, hfmt]
  simp only [hdp8, hsr, Bool.false_and, Bool.false_eq_true, if_false]
  exact FFmt.roundDy_spec hf (RMode.ofCode_ne_odd rnd) _ _ (.inl (by rw [show flushVec contract = flushIn contract from rfl, hkeeps, Bool.and_false]))

theorem icvtf_rounded {f : FFmt} (hf : f.Ieee) {mode : RMode} (hmode : mode ≠ .odd) (contract : Nat) {dst : Nat} (src : Nat)
    (hfmt : fmtOf dst = f) (x : Nat) :
    RoundedResult f mode (if fmtSigned src then (((BitVec.ofNat (fmtBits src) x).toInt : Int) : ℚ) else ((x % 2 ^ fmtBits src : Nat) : ℚ))
      (icvtfVal contract dst src mode x) := by
  have hint (i : Int) : RoundedResult f mode i ((f.roundDy (flushVec contract) mode false (Dy.ofInt i)).1,
      (f.roundDy (flushVec contract) mode false (Dy.ofInt i)).2.1) := by
    have hval : (Dy.ofInt i).val = i := by simp [Dy.ofInt, Dy.val]
    rw [← hval]
    refine FFmt.roundDy_spec hf hmode _ _ (.inr fun hne => ?_)
    obtain ⟨k, hk, -⟩ := two_pow_le_of_bitLen (Int.natAbs_ne_zero.mpr hne)
    have hbias := hf.bias_pos
    rw [Dy.expo, hk, FFmt.emin, Dy.ofInt]
    push_cast
    omega
  unfold icvtfVal
  rw [hfmt]
  dsimp only
  split_ifs
  · rw [toSigned_eq_toInt]
    exact hint _
  · exact_mod_cast hint ((x % 2 ^ fmtBits src : Nat) : Int)

/-- Contracts and formats that keep subnormals (R121). -/
theorem flushes_and_flushIn {f : FFmt} {contract : Nat} (h : f = fF64 ∨ f = fF16 ∨ contract = 0x300 ∨ contract = 0x400) :
    (f.flushes && flushIn contract) = false := by
  rcases h with rfl | rfl | rfl | rfl
  · rfl
  · rfl
  · exact Bool.and_false _
  · exact Bool.and_false _

/-- Settles O18: every operation rounds an exact number once, and `round` gives the code of the number of the format that rounding on
the grid of the number's place selects; a NaN operand ends an operation before it rounds. -/
theorem floatRoundingLaws : Obligations.FloatRoundingLaws := by
  intro f contract mode hmem hmode
  have hf := FFmt.ieee_of_mem hmem
  refine ⟨fun hk a b c ha hb hc => ?_, fun a b ha hb hnan op hop => ?_, fun dst src hdst hsrc hfmt rnd hrnd x hx hcontract => ?_,
    fun dst src _ _ _ hfmt x => icvtf_rounded hf hmode contract src hfmt x⟩
  · have hkeeps := flushes_and_flushIn hk
    refine ⟨fadd_rounded hf hmode hkeeps ha hb, fsub_rounded hf hmode hkeeps ha hb, fmul_rounded hf hmode hkeeps ha hb,
      ffma_rounded hf hmode hkeeps ha hb hc, fround_finite hf hmode hkeeps ha, fun cond hcond => ?_⟩
    obtain ⟨hflag, hiff⟩ := fcmp_finite hf hkeeps ha hb hcond
    exact ⟨hflag, hiff.trans (by unfold comparesNum; rfl)⟩
  · have hany : [f.read contract a, f.read contract b].any FVal.isNan = true := by
      rw [← FFmt.isNan_read_iff hf contract ha, ← FFmt.isNan_read_iff hf contract hb] at hnan
      simpa using hnan
    simp only [List.mem_cons, List.not_mem_nil, or_false] at hop
    rcases hop with rfl | rfl | rfl
    · exact nan_result hf ha hb hnan (f.sum_nan contract mode _ hany)
    · exact nan_result hf ha hb hnan (f.sum_nan contract mode _ hany)
    · exact nan_result hf ha hb hnan (f.fmul_nan contract mode hany)
  · exact fcvt_rounded hf hdst hsrc hfmt hrnd hx (by rcases hcontract with rfl | rfl <;> rfl)

end Sys2Proof.Machine

namespace Sys2Proof.Machine

/-! ### The engine and the timeout of a generation (R161, R169) -/

/-- MMA OPERATION COMPLETE: the operation is carried to its last product, and the status of its tile is that of the generation. -/
theorem exec_mmaOperationComplete (s : State) (core k : Nat) {e : EngEntry} {f : FmtX} {scratch : Bool} {handle : Word64} {cv gen n b : Nat}
    {frags : List Frag} {kp : Nat} {part : Map (BitVec 64)} {op : Option (List Byte)} (hget : (s.coreAt core).engine[k]? = some e)
    (hop : e.op = .mma f scratch handle cv gen n b frags kp part op) (hready : engineReady (s.coreAt core).engine k = true) :
    let team := s.teamAt e.who.grid e.who.team
    let tile := team.tileBase + e.tile
    let inp := (s.dequeue core k).opInputs team f scratch handle frags op
    let r := (inp.1.runOp e f scratch n inp.2.1 kp (shapeK f.shape.toNat) part inp.2.2).1.wildElems team.core tile
      (wildRows e.wild (shapeM f.shape.toNat)) (f.fc == 0)
    let st := (r.tileAt team.core tile).status
    let c := team.cvAt cv
    exec (.mmaOperationComplete core k) s = .next ((r.setTeam (team.setCv cv { c with
      st := if c.gen = gen then .done else c.st, done := mput c.done gen st })).wakeEngine e.who.grid e.who.team) := by
  obtain ⟨who, tile, op', wild⟩ := e
  dsimp only at hop
  subst hop
  change execMmaOperationComplete core k s = _
  unfold execMmaOperationComplete
  simp only [hget, hready, if_true, beq_iff_eq]

theorem State.teams_wildElems (s : State) (core k m : Nat) (f64 : Bool) : (s.wildElems core k m f64).teams = s.teams := by
  unfold State.wildElems
  dsimp only
  split_ifs <;> rfl

theorem State.gtc_wildElems (s : State) (core k m : Nat) (f64 : Bool) : (s.wildElems core k m f64).gtc = s.gtc := by
  unfold State.wildElems
  dsimp only
  split_ifs <;> rfl

/-- A convergence register whose generation has timed out. -/
def Cv.expired (c : Cv) : Cv :=
  { c with st := .timedOut, signed := [], frags := [], spoiled := 0, timed := mput c.timed c.gen (maskOf c.signed) }

theorem State.teams_cvTimedOut (s : State) (grid team k : Nat) : (s.cvTimedOut grid team k).teams =
    (s.setTeam ((s.teamAt grid team).setCv k ((s.teamAt grid team).cvAt k).expired)).teams := by
  unfold State.cvTimedOut
  dsimp only [State.mapWaves]
  split_ifs
  · exact State.teams_wildElems ..
  · rfl

theorem State.gtc_cvTimedOut (s : State) (grid team k : Nat) : (s.cvTimedOut grid team k).gtc = s.gtc := by
  unfold State.cvTimedOut
  dsimp only [State.mapWaves]
  split_ifs
  · exact State.gtc_wildElems ..
  · rfl

theorem Team.cvAt_setCv (t : Team) {k : Nat} (c : Cv) (hk : k < t.cv.length) : (t.setCv k c).cvAt k = c := by
  simp [Team.cvAt, Team.setCv, List.getD_eq_getElem?_getD, hk]

theorem Team.cvAt_zero (k : Nat) : Team.zero.cvAt k = Cv.zero := by
  unfold Team.cvAt
  rw [show Team.zero.cv = List.replicate 8 Cv.zero from rfl, List.getD_eq_getElem?_getD, List.getElem?_replicate]
  split_ifs <;> rfl

/-- A team with a declared generation is one of the teams, with the grid and the index by which it was found. -/
theorem find_of_declared (s : State) (grid team cv : Nat) (h : ((s.teamAt grid team).cvAt cv).st = .declared) :
    s.teams.find? (fun t => t.grid == grid && t.idx == team) = some (s.teamAt grid team) ∧
      (s.teamAt grid team).grid = grid ∧ (s.teamAt grid team).idx = team := by
  cases hfind : s.teams.find? (fun t => t.grid == grid && t.idx == team) with
  | none =>
    rw [State.teamAt, hfind, Option.getD_none, Team.cvAt_zero] at h
    exact absurd h (by decide)
  | some t =>
    have hname := List.find?_some hfind
    rw [Bool.and_eq_true, beq_iff_eq, beq_iff_eq] at hname
    rw [State.teamAt, hfind]
    exact ⟨rfl, hname⟩

theorem State.teamAt_setTeam_same {s : State} {grid team : Nat} {t : Team} (hgrid : t.grid = grid) (hidx : t.idx = team)
    {x : Team} (hfind : s.teams.find? (fun t => t.grid == grid && t.idx == team) = some x) : (s.setTeam t).teamAt grid team = t := by
  have hname := List.find?_some hfind
  rw [Bool.and_eq_true, beq_iff_eq, beq_iff_eq] at hname
  refine (teamAt_of_map grid team (fun x => if x.grid = t.grid ∧ x.idx = t.idx then t else x) (fun y => ?_) rfl hfind).trans
    (if_pos ⟨hname.1.trans hgrid.symm, hname.2.trans hidx.symm⟩)
  split_ifs with hy
  · exact ⟨hy.1.symm, hy.2.symm⟩
  · exact ⟨rfl, rfl⟩

/-- The time at which a register's generation reaches the bound. -/
def State.atBound (s : State) (grid team cv : Nat) : State :=
  { s with gtc := max s.gtc (((s.teamAt grid team).cvAt cv).start + s.cvBound grid) }

/-- CONVERGENCE TIMEOUT (R161). -/
theorem convergenceTimeout_expires (s : State) (grid team cv : Nat) (hsaved : (s.teamAt grid team).saved = false)
    (hst : ((s.teamAt grid team).cvAt cv).st = .declared) (hword : ((s.teamAt grid team).cvAt cv).word ≠ none)
    (hcv : cv < (s.teamAt grid team).cv.length) : ∃ u : State, exec (.convergenceTimeout grid team cv) s = .next u ∧
      (u.teamAt (s.teamAt grid team).grid (s.teamAt grid team).idx).cvAt cv = ((s.teamAt grid team).cvAt cv).expired ∧
      ((s.teamAt grid team).cvAt cv).start + s.cvBound grid ≤ u.gtc := by
  obtain ⟨hfind, hgrid, hidx⟩ := find_of_declared s grid team cv hst
  have hcounts : ((s.teamAt grid team).cvAt cv).counts = true := by
    rw [Cv.counts, hst, Option.isSome_iff_ne_none.mpr hword]
    rfl
  refine ⟨(s.atBound grid team cv).cvTimedOut grid team cv, ?_, ?_, ?_⟩
  · change execConvergenceTimeout grid team cv s = _
    unfold execConvergenceTimeout
    simp only [hsaved, hcounts, Bool.not_true, Bool.or_self, Bool.false_eq_true, if_false]
    rfl
  · have hteam : ((s.atBound grid team cv).cvTimedOut grid team cv).teamAt grid team =
        (s.teamAt grid team).setCv cv ((s.teamAt grid team).cvAt cv).expired := by
      unfold State.teamAt
      rw [State.teams_cvTimedOut]
      exact State.teamAt_setTeam_same (s := s.atBound grid team cv) hgrid hidx hfind
    rw [hgrid, hidx, hteam, Team.cvAt_setCv _ _ hcv]
  · rw [State.gtc_cvTimedOut]
    exact le_max_right ..

end Sys2Proof.Machine

namespace Sys2Proof.Machine

/-! ### Elements of a row (R163) -/

/-- A byte of a row of registers. -/
theorem getD_elemBytes (es : List Elem) (j : Nat) : (elemBytes es).getD j 0 = (es.getD (j / 4) 0).toNat / 2 ^ (8 * (j % 4)) % 256 := by
  induction es generalizing j with
  | nil => simp [elemBytes]
  | cons e r ih =>
    have hlen : ((leBytes 4 e.toNat).map BitVec.toNat).length = 4 := by simp [leBytes]
    have hcons : elemBytes (e :: r) = (leBytes 4 e.toNat).map BitVec.toNat ++ elemBytes r := rfl
    rw [hcons]
    rcases lt_or_ge j 4 with hj | hj
    · rw [List.getD_append _ _ _ _ (by omega), Nat.div_eq_of_lt hj, Nat.mod_eq_of_lt hj]
      interval_cases j <;> rfl
    · obtain ⟨i, rfl⟩ := Nat.exists_eq_add_of_le hj
      rw [List.getD_append_right _ _ _ _ (by omega), hlen, Nat.add_sub_cancel_left, ih, Nat.add_div_left _ (by omega), Nat.add_mod_left]
      rfl

theorem rowElem_one (bs : List Nat) (j : Nat) : rowElem bs 1 j = bs.getD j 0 := by
  rw [rowElem, one_mul, List.getD_eq_getElem?_getD]
  cases h : bs[j]? with
  | none =>
    rw [List.drop_eq_nil_of_le (List.getElem?_eq_none_iff.mp h)]
    rfl
  | some b =>
    obtain ⟨hj, rfl⟩ := List.getElem?_eq_some_iff.mp h
    rw [List.drop_eq_getElem_cons hj, List.take_succ_cons, List.take_zero, List.foldr_cons, List.foldr_nil, Option.getD_some]
    rfl

/-- Byte `j` of a row of 8 registers that `n` members hold: that of the member of rank `r mod n`; a member without fragments holds
zeros. -/
def fragByte (part : Frag → List Elem) (frags : List Frag) (n r j : Nat) : Nat :=
  match frags.find? (fun x => x.rank == r % n) with
  | some x => ((part x).getD (8 * (r / n) + j / 4) 0).toNat / 2 ^ (8 * (j % 4)) % 256
  | none => 0

theorem rowElem_rowBytes (part : Frag → List Elem) (frags : List Frag) (n r : Nat) {j : Nat} (hj : j < 32) :
    rowElem (rowBytes (frags.map (fun x => (x.rank, part x))) n 8 0 r) 1 j = fragByte part frags n r j := by
  rw [rowElem_one, rowBytes, fragByte, List.find?_map]
  change (match (frags.find? (fun x : Frag => x.rank == r % n)).map (fun x : Frag => (x.rank, part x)) with
    | some (_, es) => elemBytes ((es.drop (8 * (r / n))).take 8) | none => List.replicate (4 * 8) 0).getD j 0 = _
  cases frags.find? (fun x : Frag => x.rank == r % n) with
  | none =>
    dsimp only [Option.map_none]
    rw [List.getD_eq_getElem?_getD, List.getElem?_replicate, if_pos (by omega)]
    rfl
  | some x =>
    dsimp only [Option.map_some]
    rw [getD_elemBytes, List.getD_eq_getElem?_getD, List.getElem?_take_of_lt (by omega), List.getElem?_drop, ← List.getD_eq_getElem?_getD]

/-- The number of a byte of an integer format (R123). -/
def byteNum (fmt : BitVec 4) (x : Nat) : Int := if fmt = 7 ∧ 128 ≤ x then (x : Int) - 256 else x

theorem matInt_eq_byteNum {fmt : BitVec 4} (hfmt : fmt = 7 ∨ fmt = 8) {x : Nat} (hx : x < 256) : matInt fmt.toNat x = byteNum fmt x := by
  rcases hfmt with rfl | rfl
  · rw [matInt, byteNum, show (7 : BitVec 4).toNat = 7 from rfl, toSigned]
    simp only [beq_self_eq_true, if_true, true_and]
    split_ifs <;> omega
  · rw [matInt, byteNum, if_neg (by decide), if_neg (by simp)]
    omega

theorem fragByte_lt (part : Frag → List Elem) (frags : List Frag) (n r j : Nat) : fragByte part frags n r j < 256 := by
  unfold fragByte
  split
  · exact Nat.mod_lt _ (by decide)
  · decide

/-! ### The k-steps of an integer element (R123, R178) -/

theorem foldl_add_eq (l : List Int) (a : Int) : l.foldl (· + ·) a = a + l.sum := by
  induction l generalizing a with
  | nil => simp
  | cons x r ih => rw [List.foldl_cons, ih, List.sum_cons, add_assoc]

theorem intStep_acc (k0 : Nat) (is : List Int) (x : Elt) :
    intStep k0 is x = { x with acc := wrapTo 32 ((x.acc : Int) + ((is.drop k0).take 8).sum) } := by
  rw [intStep, foldl_add_eq]

theorem wrapTo_wrapTo_add (n : Nat) (x y : Int) : wrapTo n ((wrapTo n x : Int) + y) = wrapTo n (x + y) := by
  have h : (0 : Int) < (2 ^ n : Nat) := by positivity
  rw [wrapTo, wrapTo, wrapTo, Int.toNat_of_nonneg (Int.emod_nonneg _ h.ne'), Int.emod_add_emod]

/-- Four steps of eight products add all 32 of them. -/
theorem stepsFrom_int (contract : Nat) {f : FmtX} (hf : f.fc = 11) (ps : List (FVal × BitVec 6)) {is : List Int} (his : is.length = 32) (x : Elt) :
    stepsFrom 40 contract f 32 0 32 ps is x = { x with acc := wrapTo 32 ((x.acc : Int) + is.sum) } := by
  have hstep (fuel k0 : Nat) (hk : k0 < 32) (y : Elt) :
      stepsFrom (fuel + 1) contract f 32 k0 32 ps is y = stepsFrom fuel contract f 32 (k0 + 8) 32 ps is (intStep k0 is y) := by
    rw [stepsFrom, if_neg (by omega)]
    simp [hf, kStep]
  have hsum : is.sum = (is.drop 0 |>.take 8).sum + (is.drop 8 |>.take 8).sum + (is.drop 16 |>.take 8).sum + (is.drop 24 |>.take 8).sum := by
    have h1 := List.sum_take_add_sum_drop is 8
    have h2 := List.sum_take_add_sum_drop (is.drop 8) 8
    have h3 := List.sum_take_add_sum_drop (is.drop 16) 8
    rw [List.drop_drop] at h2 h3
    rw [List.drop_zero, List.take_of_length_le (l := is.drop 24) (by simp [his])]
    norm_num at h2 h3
    omega
  rw [hstep 39 0 (by omega), hstep 38 8 (by omega), hstep 37 16 (by omega), hstep 36 24 (by omega), stepsFrom, if_pos (by omega)]
  simp only [intStep_acc, wrapTo_wrapTo_add, hsum]
  congr 2
  ring

end Sys2Proof.Machine

namespace Sys2Proof.Machine

/-! ### An integer operation on a tile (R123, R167) -/

/-- The place of the `n`-th element of a shape of `m` columns in a tile of 64. -/
def tilePlace (m n : Nat) : Nat := 64 * (n / m) + n % m

theorem tilePlace_eq_iff {m : Nat} (hm : 0 < m) (hm64 : m ≤ 64) (n r c : Nat) (hc : c < m) : tilePlace m n = 64 * r + c ↔ n = m * r + c := by
  have hlt := Nat.mod_lt n hm
  have hdiv := Nat.div_add_mod n m
  unfold tilePlace
  constructor
  · intro h
    obtain rfl : n / m = r := by omega
    omega
  · rintro rfl
    rw [Nat.mul_add_div hm, Nat.div_eq_of_lt hc, Nat.mul_add_mod, Nat.mod_eq_of_lt hc, add_zero]

theorem exists_row_col {m n : Nat} (hm : 0 < m) (hn : n < m * m) : ∃ r < m, ∃ c < m, n = m * r + c :=
  ⟨n / m, Nat.div_lt_of_lt_mul hn, n % m, Nat.mod_lt n hm, (Nat.div_add_mod n m).symm⟩

/-- The tile once the `n`-th element has gained the sum of its products. -/
def gainElem (m : Nat) (sum : Nat → Int) (t : Tile) (n : Nat) : Tile :=
  (tilePut t Tile.zero false (tilePlace m n) (wrapTo 32 (((mgetD t.elems (tilePlace m n) 0).toNat : Int) + sum n))).1

theorem wrapTo_32_lt (x : Int) : wrapTo 32 x < 2 ^ 32 := by
  unfold wrapTo
  omega

theorem gainElem_elems (m : Nat) (sum : Nat → Int) (t : Tile) (n x : Nat) : (mgetD (gainElem m sum t n).elems x 0).toNat =
    if tilePlace m n = x then wrapTo 32 (((mgetD t.elems x 0).toNat : Int) + sum n) else (mgetD t.elems x 0).toNat := by
  rw [gainElem, tilePut, mgetD_mputD]
  split_ifs with h
  · rw [BitVec.toNat_ofNat, Nat.mod_eq_of_lt ((wrapTo_32_lt _).trans (by decide)), h]
  · rfl

theorem gainElem_status (m : Nat) (sum : Nat → Int) (t : Tile) (n : Nat) : (gainElem m sum t n).status = t.status := rfl

theorem foldl_gainElem_status (m : Nat) (sum : Nat → Int) (ns : List Nat) (t : Tile) : (ns.foldl (gainElem m sum) t).status = t.status := by
  induction ns generalizing t with
  | nil => rfl
  | cons n r ih => rw [List.foldl_cons, ih, gainElem_status]

theorem foldl_gainElem_other (m : Nat) (sum : Nat → Int) (ns : List Nat) (t : Tile) (x : Nat) (hx : ∀ n ∈ ns, tilePlace m n ≠ x) :
    (mgetD (ns.foldl (gainElem m sum) t).elems x 0).toNat = (mgetD t.elems x 0).toNat := by
  induction ns generalizing t with
  | nil => rfl
  | cons n r ih =>
    rw [List.foldl_cons, ih _ fun k hk => hx k (List.mem_cons_of_mem _ hk), gainElem_elems, if_neg (hx n List.mem_cons_self)]

theorem foldl_gainElem_mem (m : Nat) (sum : Nat → Int) {ns : List Nat} (hns : ns.Nodup) (t : Tile) {n : Nat} (hn : n ∈ ns)
    (hinj : ∀ k ∈ ns, tilePlace m k = tilePlace m n → k = n) : (mgetD (ns.foldl (gainElem m sum) t).elems (tilePlace m n) 0).toNat =
      wrapTo 32 (((mgetD t.elems (tilePlace m n) 0).toNat : Int) + sum n) := by
  induction ns generalizing t with
  | nil => exact absurd hn List.not_mem_nil
  | cons k r ih =>
    obtain ⟨hk, hr⟩ := List.nodup_cons.mp hns
    rw [List.foldl_cons]
    rcases List.mem_cons.mp hn with rfl | hmem
    · rw [foldl_gainElem_other _ _ _ _ _ fun j hj heq => hk (hinj j (List.mem_cons_of_mem _ hj) heq ▸ hj), gainElem_elems, if_pos rfl]
    · rw [ih hr _ hmem fun j hj => hinj j (List.mem_cons_of_mem _ hj), gainElem_elems,
        if_neg fun heq => hk (hinj k List.mem_cons_self heq ▸ hmem)]

/-- The whole shape gains the sums of its products; a tile holds nothing else new. -/
theorem foldl_gainElem_shape {m : Nat} (hm : 0 < m) (hm64 : m ≤ 64) (sum : Nat → Int) (t : Tile) :
    (∀ r < m, ∀ c < m, (mgetD ((List.range (m * m)).foldl (gainElem m sum) t).elems (64 * r + c) 0).toNat =
      wrapTo 32 (((mgetD t.elems (64 * r + c) 0).toNat : Int) + sum (m * r + c))) ∧
    ∀ x, ¬ (x / 64 < m ∧ x % 64 < m) →
      (mgetD ((List.range (m * m)).foldl (gainElem m sum) t).elems x 0).toNat = (mgetD t.elems x 0).toNat := by
  refine ⟨fun r hr c hc => ?_, fun x hx => foldl_gainElem_other m sum _ t x fun n hn heq => hx ?_⟩
  · have hplace := (tilePlace_eq_iff hm hm64 (m * r + c) r c hc).mpr rfl
    have hlt : m * r + c < m * m := by
      have := Nat.mul_le_mul_left m hr
      rw [Nat.mul_succ] at this
      omega
    rw [← hplace]
    refine foldl_gainElem_mem m sum List.nodup_range t (List.mem_range.mpr hlt) fun k _ heq => ?_
    rwa [hplace, tilePlace_eq_iff hm hm64 _ _ _ hc] at heq
  · obtain ⟨r, hr, c, hc, rfl⟩ := exists_row_col hm (List.mem_range.mp hn)
    rw [(tilePlace_eq_iff hm hm64 _ r c hc).mpr rfl] at heq
    omega

/-- The sum of the products of the `n`-th element of a shape. -/
def elemSum (f : FmtX) (as bs : Nat → List Nat) (n : Nat) : Int :=
  (elemInts f 32 (as (n / shapeM f.shape.toNat)) (bs (n % shapeM f.shape.toNat))).sum

/-- An integer operation adds the sum of 32 products to every element of its shape, and sets no flag. -/
theorem runSteps_int (contract : Nat) {f : FmtX} (hfc : f.fc = 11) (hk : shapeK f.shape.toNat = 32) (as bs : Nat → List Nat)
    (codes : Nat → Nat) (r : OpRun) :
    (runSteps contract f as bs codes 0 32 r).lo =
      (List.range (shapeM f.shape.toNat * shapeM f.shape.toNat)).foldl (gainElem (shapeM f.shape.toNat) (elemSum f as bs)) r.lo ∧
    (runSteps contract f as bs codes 0 32 r).flags = r.flags := by
  have hisInt : (f.fc == 11) = true := beq_iff_eq.mpr hfc
  have hf64 : (f.fc == 0) = false := by rw [hfc]; rfl
  have hlen (n : Nat) : (elemInts f 32 (as (n / shapeM f.shape.toNat)) (bs (n % shapeM f.shape.toNat))).length = 32 := by simp [elemInts]
  unfold runSteps
  simp only [hisInt, hf64, hk, if_true, stepsFrom_int contract hfc _ (hlen _)]
  generalize List.range (shapeM f.shape.toNat * shapeM f.shape.toNat) = ns
  induction ns generalizing r with
  | nil => exact ⟨rfl, rfl⟩
  | cons n ns ih =>
    simp only [List.foldl_cons]
    obtain ⟨hlo, hflags⟩ := ih _
    rw [hlo, hflags]
    refine ⟨congrArg (List.foldl _ · ns) ?_, BitVec.or_zero⟩
    simp only [gainElem, tilePut, tileElem, elemSum, tilePlace, Bool.false_eq_true, if_false, add_zero]

end Sys2Proof.Machine

namespace Sys2Proof.Machine

/-! ### The engine completes an integer operation (R169) -/

theorem State.tileAt_putTile (s : State) (core k : Nat) (t : Tile) : (s.putTile core k t).tileAt core k = t := by
  rw [State.tileAt, State.putTile, State.coreAt_setCore, if_pos rfl, mgetD_mputD, if_pos rfl]

theorem State.tileAt_dequeue (s : State) (core k c j : Nat) : (s.dequeue core k).tileAt c j = s.tileAt c j := by
  rw [State.tileAt, State.dequeue, State.coreAt_setCore]
  split_ifs with h
  · subst h; rfl
  · rfl

/-- Fragments that no write has left open are read as they were signed (R164). -/
theorem State.opInputs_of_closed (s : State) (t : Team) (f : FmtX) (handle : Word64) {frags : List Frag}
    (h : ∀ x ∈ frags, x.alt = [] ∧ x.late = []) : s.opInputs t f false handle frags none = (s, frags, []) := by
  have hclosed : frags.any (fun x => !(x.alt.isEmpty && x.late.isEmpty)) = false := by
    rw [List.any_eq_false]
    intro x hx
    obtain ⟨halt, hlate⟩ := h x hx
    simp [halt, hlate]
  unfold State.opInputs
  simp only [hclosed, Bool.false_eq_true, if_false]

/-- The rows of A and the columns of B of an integer operation. -/
def intRows (part : Frag → List Elem) (frags : List Frag) (n : Nat) : Nat → List Nat := rowBytes (frags.map (fun x => (x.rank, part x))) n 8 0

/-- A tile once every element of the shape has gained the sum of its products. -/
def intTile (f : FmtX) (frags : List Frag) (n : Nat) (t : Tile) : Tile :=
  (List.range (shapeM f.shape.toNat * shapeM f.shape.toNat)).foldl
    (gainElem (shapeM f.shape.toNat) (elemSum f (intRows Frag.a frags n) (intRows Frag.b frags n))) t

/-- The tile before the first product: as it is, or cleared by `.z`. -/
def State.opStart (s : State) (f : FmtX) (core k : Nat) : Tile := if f.z then Tile.cleared (tagOfFmt f.fc.toNat) else s.tileAt core k

/-- An integer operation from its first product to its last. -/
theorem State.runOp_int (s : State) (e : EngEntry) {f : FmtX} (hfc : f.fc = 11) (hfa : f.fa = 7 ∨ f.fa = 8) (hfb : f.fb = 7 ∨ f.fb = 8)
    (hk : shapeK f.shape.toNat = 32) (n : Nat) (frags : List Frag) (part : Map (BitVec 64)) :
    let team := s.teamAt e.who.grid e.who.team
    let t := (s.runOp e f false n frags 0 32 part []).1.tileAt team.core (team.tileBase + e.tile)
    let u := intTile f frags n (s.opStart f team.core (team.tileBase + e.tile))
    t.elems = u.elems ∧ t.status = u.status := by
  have hra : ra f = 8 := by rcases hfa with h | h <;> simp [ra, h]
  have hzero {x : BitVec 4} (hx : x = 7 ∨ x = 8) : zeroOf x.toNat = 0 := by rcases hx with rfl | rfl <;> rfl
  have hf64 : (f.fc == 0) = false := by rw [hfc]; rfl
  have hone : (f.fc != 0) = true := by rw [hfc]; rfl
  unfold State.runOp
  simp only [hra, hzero hfa, hzero hfb, hf64, hone, Bool.false_eq_true, if_false, if_true, State.tileAt_putTile, beq_self_eq_true, Bool.and_true]
  obtain ⟨hlo, hflags⟩ := runSteps_int ((s.grids.find? (fun g => g.id == (s.teamAt e.who.grid e.who.team).grid)).getD Grid.zero).p.contract hfc hk
    (intRows Frag.a frags n) (intRows Frag.b frags n) (fun _ => 0x78)
    { lo := s.opStart f (s.teamAt e.who.grid e.who.team).core ((s.teamAt e.who.grid e.who.team).tileBase + e.tile),
      hi := Tile.zero, part := part, flags := 0 }
  refine ⟨congrArg Tile.elems hlo, ?_⟩
  exact (congrArg (_ ||| ·) hflags).trans (BitVec.or_zero.trans (congrArg Tile.status hlo))


theorem elemSum_intRows {f : FmtX} (hfa : f.fa = 7 ∨ f.fa = 8) (hfb : f.fb = 7 ∨ f.fb = 8) (frags : List Frag) (n r : Nat) {c : Nat}
    (hc : c < shapeM f.shape.toNat) : elemSum f (intRows Frag.a frags n) (intRows Frag.b frags n) (shapeM f.shape.toNat * r + c) =
      ((List.range 32).map (fun j => byteNum f.fa (fragByte Frag.a frags n r j) * byteNum f.fb (fragByte Frag.b frags n c j))).sum := by
  have hm : 0 < shapeM f.shape.toNat := by omega
  rw [elemSum, Nat.mul_add_div hm, Nat.div_eq_of_lt hc, Nat.mul_add_mod, Nat.mod_eq_of_lt hc, add_zero, elemInts]
  refine congrArg List.sum (List.map_congr_left fun j hj => ?_)
  rw [intRows, intRows, rowElem_rowBytes _ _ _ _ (List.mem_range.mp hj), rowElem_rowBytes _ _ _ _ (List.mem_range.mp hj),
    matInt_eq_byteNum hfa (fragByte_lt ..), matInt_eq_byteNum hfb (fragByte_lt ..)]

/-- The tile of an integer operation once the engine has completed it. -/
theorem mmaOperationComplete_int (s : State) (core k : Nat) {e : EngEntry} {f : FmtX} {handle : Word64} {cv gen n b : Nat} {frags : List Frag}
    (hget : (s.coreAt core).engine[k]? = some e) (hop : e.op = .mma f false handle cv gen n b frags 0 [] none)
    (hready : engineReady (s.coreAt core).engine k = true) (hwild : e.wild = 0) (hclosed : ∀ x ∈ frags, x.alt = [] ∧ x.late = [])
    (hfc : f.fc = 11) (hfa : f.fa = 7 ∨ f.fa = 8) (hfb : f.fb = 7 ∨ f.fb = 8) (hk : shapeK f.shape.toNat = 32) :
    let team := s.teamAt e.who.grid e.who.team
    ∃ t, exec (.mmaOperationComplete core k) s = .next t ∧
      let u := intTile f frags n (s.opStart f team.core (team.tileBase + e.tile))
      (t.tileAt team.core (team.tileBase + e.tile)).elems = u.elems ∧ (t.tileAt team.core (team.tileBase + e.tile)).status = u.status := by
  refine ⟨_, exec_mmaOperationComplete s core k hget hop hready, ?_⟩
  rw [State.opInputs_of_closed _ _ f handle hclosed, hwild, hk]
  have hrun := (s.dequeue core k).runOp_int e hfc hfa hfb hk n frags []
  have hteam : (s.dequeue core k).teamAt e.who.grid e.who.team = s.teamAt e.who.grid e.who.team := rfl
  have hstart (c j : Nat) : (s.dequeue core k).opStart f c j = s.opStart f c j := by rw [State.opStart, State.tileAt_dequeue, State.opStart]
  dsimp only at hrun
  rw [hteam, hstart] at hrun
  exact hrun

theorem State.opStart_elem (s : State) (f : FmtX) (core k x : Nat) :
    (mgetD (s.opStart f core k).elems x 0).toNat = if f.z then (0 : Nat) else (mgetD (s.tileAt core k).elems x 0).toNat := by
  unfold State.opStart
  split_ifs <;> rfl

theorem State.opStart_status (s : State) (f : FmtX) (core k : Nat) :
    (s.opStart f core k).status = if f.z then 0 else (s.tileAt core k).status := by
  unfold State.opStart
  split_ifs <;> rfl

theorem wrapTo_32_cast (x : Int) : (wrapTo 32 x : Int) = x % 2 ^ 32 := Int.toNat_of_nonneg (Int.emod_nonneg _ (by decide))

/-- Settles O29: the event's equation; for the integer shapes, four k-steps add the 32 products to each element of the shape in turn;
and the team of the generation that times out is found again with the register as the timeout leaves it. -/
theorem engineOperationResults : Obligations.EngineOperationResults := by
  refine ⟨fun s core k e f scratch handle cv gen n b frags kp part op hget hop hready => exec_mmaOperationComplete s core k hget hop hready,
    fun s core k e f handle cv gen n b frags hget hop hready hwild hclosed hfc hfa hfb hshape => ?_,
    fun s grid team cv hsaved hst hword _ hcv => ?_⟩
  · have hk : shapeK f.shape.toNat = 32 := by rcases hshape with h | h <;> rw [h] <;> rfl
    have hm : 0 < shapeM f.shape.toNat ∧ shapeM f.shape.toNat ≤ 64 := by rcases hshape with h | h <;> rw [h] <;> decide
    obtain ⟨t, hexec, helems, hstatus⟩ := mmaOperationComplete_int s core k hget hop hready hwild hclosed hfc hfa hfb hk
    obtain ⟨hin, hout⟩ := foldl_gainElem_shape hm.1 hm.2 (elemSum f (intRows Frag.a frags n) (intRows Frag.b frags n))
      (s.opStart f (s.teamAt e.who.grid e.who.team).core ((s.teamAt e.who.grid e.who.team).tileBase + e.tile))
    refine ⟨t, hexec, ?_, fun r hr c hc => ?_, fun x hx => ?_⟩
    · rw [hstatus, intTile, foldl_gainElem_status, State.opStart_status]
    · rw [helems, intTile, hin r hr c hc, wrapTo_32_cast, elemSum_intRows hfa hfb frags n r hc, State.opStart_elem]
      rfl
    · rw [helems, intTile, hout x hx, State.opStart_elem]
  · obtain ⟨u, hexec, hreg, hgtc⟩ := convergenceTimeout_expires s grid team cv hsaved hst hword hcv
    refine ⟨u, hexec, ?_⟩
    dsimp only
    rw [hreg]
    exact ⟨rfl, rfl, rfl, (mget_mput _ _ _ _).trans (if_pos rfl), hgtc⟩

end Sys2Proof.Machine

namespace Sys2Proof.Machine

/-! ### Float inspection and conversions (R137 to R145) -/

/-- An instruction of one vector source, of widths of its own, gives every active lane the value of its operation. -/
theorem completes_bodyA2_widths {i : Instr} {s : State} (h : Ready i s) (hwide : s.taskWide i = s) {f : FmtA} {wd wa : Bool}
    {op : Nat → Nat × BitVec 6} {val : Nat → Nat × BitVec 6} (he : exec i s = issue i s (bodyA2 f wd wa op))
    (hval : ∀ l, op (s.cur.readX f.p wa l f.va.toNat) = val l) : Completes i s (putA f s (active i s) wd val) := by
  refine completes_of_done i s _ _ h he ?_
  rw [hwide, ← funext hval]
  rfl

theorem completes_fcmp {f : FmtA} {s : State} (h : Ready (.fcmp f) s) :
    let r := fun l => (tyFmt f.ty).fcmp s.contract f.minor.toNat (s.cur.readX false f.ty.wide l f.va.toNat)
      (s.cur.readX false f.ty.wide l f.vb.toNat)
    Completes (.fcmp f) s (s.withCur ((s.cur.writePreds f.vd.toNat (active (.fcmp f) s) (fun l => (r l).1)).orFlags
      (active (.fcmp f) s) (fun l => (r l).2))) := by
  have hexec : exec (.fcmp f) s = issue (.fcmp f) s (bodyFcmp f) := rfl
  exact completes_of_done _ s _ _ h hexec rfl

/-- Settles O9: each body gives every active lane the model's value of its operands; `fcmp` writes predicates and ORs its flags. -/
theorem floatInspectionResults : Obligations.FloatInspectionResults := by
  intro f s
  refine ⟨fun h => ?fcmp, fun h => ?fclass, fun h => ?_, fun h => ?fscale, fun h => ?_, fun h => ?_⟩
  case fcmp => exact completes_fcmp h
  case fclass => exact completes_bodyA2_widths h rfl rfl fun l => rfl
  case fscale => exact completes_bodyA3n h rfl rfl fun l => by rw [toSigned_eq_toInt, modeA]
  all_goals exact completes_bodyA2 h rfl rfl fun l => rfl

/-- The state after `fcvt`, before the draws of `.sr` count. -/
theorem bodyFcvt_eq (f : FmtA) (iss act : List Nat) (s : State) {sr : Bool} (hsr : (f.rnd.toNat == 4) = sr) :
    bodyFcvt f iss act s = .done (s.withCur
      (let w := s.cur.writeFlagged f.p (fmtWide (cvtDst f)) f.vd.toNat act (fun l =>
        fcvtVal s.contract (cvtDst f) (cvtSrc f) f.rnd.toNat f.sat (if sr then (s.draw l 7).toNat else 0)
          (s.cur.readX f.p (fmtWide (cvtSrc f)) l f.va.toNat))
       if sr then w.drew act 7 else w)) [] := by
  subst hsr
  rfl

/-- Settles O10: without `.sr` a conversion draws nothing, and with it every active lane draws once. -/
theorem conversionResults : Obligations.ConversionResults := by
  intro f s
  refine ⟨fun h hrnd => ?_, fun h hrnd => ?_, fun h => ?_, fun h => ?_⟩
  · have hsr : (f.rnd.toNat == 4) = false := beq_eq_false_iff_ne.mpr fun e => hrnd (BitVec.eq_of_toNat_eq e)
    exact completes_of_done _ s _ _ h rfl (bodyFcvt_eq f _ _ s hsr)
  · have hsr : (f.rnd.toNat == 4) = true := by rw [hrnd]; rfl
    refine completes_of_done _ s _ _ h rfl ((bodyFcvt_eq f _ _ s hsr).trans ?_)
    rw [hrnd]
    rfl
  · exact completes_bodyA2_widths h rfl rfl fun l => rfl
  · exact completes_bodyA2_widths h rfl rfl fun l => rfl

end Sys2Proof.Machine

namespace Sys2Proof.Machine

/-! ### Operands of the function unit (R132, R147) -/

/-- What the three formats of the function unit have in common. -/
structure FFmt.FuncFmt (f : FFmt) : Prop extends f.Ieee where
  format : f = fF64 ∨ f = fF32 ∨ f = fF16
  range : (2 ^ f.eb : Nat) = 2 * f.bias + 2
  fb_lt_bias : f.fb + 1 ≤ f.bias
  fb_le : f.fb ≤ 52
  fb_ge : 10 ≤ f.fb
  small : f.bias + f.fb ≤ 2 ^ f.fb
  one_rounded : ∀ flush, f.round flush .rn false 1 0 = ((2 ^ (f.eb - 1) - 1) * 2 ^ f.fb, 0, false)
  flushes_iff : f.flushes = true ↔ f = fF32
  newton_iff : (f.fb != 52) = false ↔ f = fF64

theorem FFmt.funcFmt_of_mem {f : FFmt} (h : f ∈ [fF64, fF32, fF16]) : f.FuncFmt := by
  have hf : f.Ieee := FFmt.ieee_of_mem (List.mem_append_left [fBf16] h)
  simp only [List.mem_cons, List.not_mem_nil, or_false] at h
  rcases h with rfl | rfl | rfl <;> exact { hf with
    format := by decide, range := by decide, fb_lt_bias := by decide, fb_le := by decide, fb_ge := by decide, small := by decide,
    one_rounded := by decide, flushes_iff := by decide, newton_iff := by decide }

theorem FFmt.FuncFmt.one_eq {f : FFmt} (hf : f.FuncFmt) : f.encodeExact (.fin false 1 0) = (2 ^ (f.eb - 1) - 1) * 2 ^ f.fb := by
  rw [FFmt.encodeExact, hf.one_rounded]

section
variable {f : FFmt} (hf : f.FuncFmt) {contract : Nat}

/-- The contract keeps the operand: it is no subnormal that is flushed. -/
def FFmt.keeps (f : FFmt) (contract a : Nat) : Prop := f ≠ fF32 ∨ 0x300 ≤ contract ∨ expField f a ≠ 0

/-- A code of the highest exponent with an empty fraction is an infinity. -/
theorem FFmt.read_inf (hf : f.Ieee) (n : Bool) : f.read contract (f.signBit n + (2 ^ f.eb - 1) * 2 ^ f.fb) = .inf n := by
  have hex : 2 ^ f.eb - 1 < 2 ^ f.eb := Nat.sub_lt (Nat.two_pow_pos _) one_pos
  obtain ⟨-, hexp, hfrac, -⟩ := f.fields_of_parts n hex (Nat.two_pow_pos _)
  have hsign := f.signOf_parts n hex (Nat.two_pow_pos _)
  rw [add_zero] at hexp hfrac hsign
  rw [FFmt.read, FFmt.decode_of_top hf hexp, if_pos hfrac, hsign]
  exact if_neg (by simp [FFmt.isSubnormal])

/-- A code with empty exponent and fraction is a zero of its sign. -/
theorem FFmt.read_zero (hf : f.Ieee) (n : Bool) : f.read contract (f.signBit n) = .fin n 0 f.low := by
  have hcode : f.gridCode n 0 0 = f.signBit n := by simp [FFmt.gridCode]
  have hfin := (finiteCode_zero hf n).1
  obtain ⟨-, hexp, hfrac, -⟩ := f.fields_of_parts n (Nat.two_pow_pos f.eb) (Nat.two_pow_pos f.fb)
  have hsign := f.signOf_parts n (Nat.two_pow_pos f.eb) (Nat.two_pow_pos f.fb)
  rw [zero_mul, add_zero, add_zero] at hexp hfrac hsign
  rw [hcode] at hfin
  rw [FFmt.read, FFmt.decode_finite hf hfin, FFmt.sigOf, FFmt.place, hexp, hfrac, hsign]
  refine (if_neg (by simp [FFmt.isSubnormal])).trans ?_
  simp

theorem emin_le_abs_codeVal {a : Nat} (hexp : expField f a ≠ 0) : (2 : ℚ) ^ f.emin ≤ |codeVal f a| := by
  have hsig : (2 : ℚ) ^ f.fb ≤ f.sigOf a := by
    rw [FFmt.sigOf, if_neg hexp]
    exact_mod_cast Nat.le_add_right _ _
  rw [abs_codeVal, f.emin_eq, zpow_add₀ two_ne_zero, zpow_natCast]
  exact mul_le_mul hsig (zpow_le_two_iff.mpr (by omega)) (by positivity) (by positivity)

/-- A number that is kept is read as it is (R121). -/
theorem FFmt.read_of_keeps (hf : f.FuncFmt) {a : Nat} (ha : finiteCode f a) (hk : f.keeps contract a) :
    f.read contract a = .fin (f.signOf a) (f.sigOf a) (f.low + f.place a) := by
  rw [FFmt.read, FFmt.decode_finite hf.toIeee ha]
  refine if_neg fun hflush => ?_
  simp only [Bool.and_eq_true, hf.flushes_iff] at hflush
  obtain ⟨⟨h32, hin⟩, hsub⟩ := hflush
  have hc : ¬ 0x300 ≤ contract := by
    simp only [flushIn, Bool.or_eq_true, beq_iff_eq] at hin
    omega
  have hexp : expField f a ≠ 0 := (hk.resolve_left (not_not_intro h32)).resolve_left hc
  simp only [FFmt.isSubnormal, Bool.and_eq_true, bne_iff_ne, decide_eq_true_eq] at hsub
  obtain ⟨⟨hne, -⟩, hlt⟩ := hsub
  rw [Dy.expo_lt_iff (Int.natCast_ne_zero.mpr hne), Dy.abs_val, Int.natAbs_natCast, ← abs_codeVal] at hlt
  exact hlt.not_ge (emin_le_abs_codeVal hexp)

/-- A subnormal operand that the contract flushes is a zero of its sign (R121). -/
theorem FFmt.read_of_flushed (hf : f.FuncFmt) (hcontract : contract ∈ [0x100, 0x200, 0x300, 0x400]) {a : Nat} (ha : finiteCode f a)
    (hk : ¬ f.keeps contract a) : ∃ e, f.read contract a = .fin (f.signOf a) 0 e := by
  simp only [FFmt.keeps, not_or, not_not, not_le] at hk
  obtain ⟨h32, hc, hexp⟩ := hk
  have hflush : (f.flushes && flushIn contract) = true := by
    simp only [List.mem_cons, List.not_mem_nil, or_false] at hcontract
    rw [hf.flushes_iff.mpr h32]
    rcases hcontract with rfl | rfl | rfl | rfl
    · rfl
    · rfl
    all_goals omega
  have hsig : f.sigOf a = fracField f a := if_pos hexp
  rw [FFmt.read, FFmt.decode_finite hf.toIeee ha, hflush, Bool.true_and, hsig]
  by_cases hzero : fracField f a = 0
  · exact ⟨_, by rw [hzero]; exact if_neg (by simp [FFmt.isSubnormal])⟩
  · refine ⟨0, if_pos ?_⟩
    have hlt : (({ m := (fracField f a : Int), e := f.low + (f.place a : Int) } : Dy)).expo < f.emin := by
      rw [FFmt.place, hexp]
      refine f.expo_lt_emin (K := fracField f a) (Int.natCast_ne_zero.mpr hzero) ?_ (fracField_lt f a)
      rw [Dy.abs_val]
      simp
    simp [FFmt.isSubnormal, hzero, hf.sub, hlt]

end

end Sys2Proof.Machine

namespace Sys2Proof.Machine

/-! ### Special operands (R132, R147) -/

section
variable {f : FFmt} (hf : f.FuncFmt) (contract : Nat) (mode : RMode)

/-- The canonical NaN of an operand outside the domain. -/
def FFmt.outside (f : FFmt) : Nat × BitVec 6 := (f.cnan, flInvalid)

/-- A NaN operand ends every function (R132). -/
theorem func_of_nan {a : Nat} {n s : Bool} {p : Nat} (hread : f.read contract a = .nan n s p) (op : Func) :
    f.func contract op mode a = (f.nanOf contract [.nan n s p], flIf s flInvalid) := by
  unfold FFmt.func
  rw [hread]

/-- The functions of an infinity. -/
theorem func_of_inf {a : Nat} {n : Bool} (hread : f.read contract a = .inf n) :
    f.func contract .ex2 mode a = (if n then 0 else f.signBit false + f.infCode, 0) ∧
    f.func contract .lg2 mode a = (if n then f.outside else (f.signBit false + f.infCode, 0)) ∧
    f.func contract .rcp mode a = (f.signBit n, 0) ∧
    f.func contract .rsq mode a = (if n then f.outside else (0, 0)) ∧
    f.func contract .sqrt mode a = (if n then f.outside else (f.signBit false + f.infCode, 0)) ∧
    f.func contract .sin2 mode a = f.outside ∧ f.func contract .cos2 mode a = f.outside := by
  unfold FFmt.func
  rw [hread]
  exact ⟨rfl, rfl, rfl, rfl, rfl, rfl, rfl⟩

/-- The functions of a zero. -/
theorem func_of_zero {a : Nat} {n : Bool} {e : Int} (hread : f.read contract a = .fin n 0 e) :
    f.func contract .ex2 mode a = (f.encodeExact (.fin false 1 0), 0) ∧
    f.func contract .lg2 mode a = (f.signBit true + f.infCode, flDivzero) ∧
    f.func contract .rcp mode a = (f.signBit n + f.infCode, flDivzero) ∧
    f.func contract .rsq mode a = (f.signBit n + f.infCode, flDivzero) ∧
    f.func contract .sqrt mode a = (f.signBit n, 0) ∧
    f.func contract .sin2 mode a = (f.signBit n, 0) ∧
    f.func contract .cos2 mode a = (f.encodeExact (.fin false 1 0), 0) := by
  unfold FFmt.func
  rw [hread]
  exact ⟨rfl, rfl, rfl, rfl, rfl, rfl, rfl⟩

/-- The functions of a number that is not zero. -/
theorem func_of_fin {a : Nat} {n : Bool} {m : Nat} {e : Int} (hread : f.read contract a = .fin n m e) (hm : m ≠ 0) :
    let x := Dy.ofSigned n m e
    f.func contract .ex2 mode a = fex2Path f contract x ∧
    f.func contract .lg2 mode a = (if n then f.outside else flg2Path f contract x) ∧
    f.func contract .rcp mode a = frcpPath f contract (f.fb != 52) x ∧
    f.func contract .rsq mode a = (if n then f.outside else frsqPath f contract (f.fb != 52) x) ∧
    f.func contract .sqrt mode a = (if n then f.outside else
      ((f.round (flushVec contract) mode false (sqrtJam m e).1 (sqrtJam m e).2).1,
        (f.round (flushVec contract) mode false (sqrtJam m e).1 (sqrtJam m e).2).2.1)) ∧
    f.func contract .sin2 mode a = trigPath f contract false x ∧ f.func contract .cos2 mode a = trigPath f contract true x := by
  have hne : (m == 0) = false := beq_eq_false_iff_ne.mpr hm
  unfold FFmt.func
  rw [hread]
  simp only [hne]
  exact ⟨rfl, rfl, rfl, rfl, rfl, rfl, rfl⟩

/-- The functions of a flushed operand are those of the zero of its sign (R121). -/
theorem func_congr_zero {a b : Nat} {n : Bool} {e e' : Int} (ha : f.read contract a = .fin n 0 e) (hb : f.read contract b = .fin n 0 e')
    (op : Func) : f.func contract op mode a = f.func contract op mode b := by
  have h := func_of_zero contract mode ha
  have h' := func_of_zero contract mode hb
  cases op <;> simp only [h, h']

include hf in
theorem func_of_flushed (hcontract : contract ∈ [0x100, 0x200, 0x300, 0x400]) {a : Nat} (ha : finiteCode f a) (hk : ¬ f.keeps contract a)
    (op : Func) : f.func contract op mode a = f.func contract op mode (a / 2 ^ (f.eb + f.fb) * 2 ^ (f.eb + f.fb)) := by
  obtain ⟨e, hread⟩ := FFmt.read_of_flushed hf hcontract ha hk
  have hzero : a / 2 ^ (f.eb + f.fb) * 2 ^ (f.eb + f.fb) = f.signBit (f.signOf a) := by
    obtain ⟨hlt, -⟩ := ha
    have hsign : a / 2 ^ (f.eb + f.fb) < 2 := by
      rw [Nat.div_lt_iff_lt_mul (Nat.two_pow_pos _)]
      rwa [add_assoc, pow_add, pow_one] at hlt
    rw [FFmt.signOf, FFmt.signBit]
    generalize a / 2 ^ (f.eb + f.fb) = b at hsign ⊢
    interval_cases b <;> simp
  rw [hzero]
  exact func_congr_zero contract mode hread (FFmt.read_zero hf.toIeee _) op

include hf in
/-- What every function makes of a NaN, as the code tells it (R121, R132). -/
theorem func_of_nanCode (hcontract : contract ∈ [0x100, 0x200, 0x300, 0x400]) (op : Func) {a : Nat} (ha : nanCode f a) :
    (f.func contract op mode a).1 = (if 0x300 ≤ contract then f.cnan else a ||| 2 ^ (f.fb - 1)) ∧
    (sigCode f a → (f.func contract op mode a).2 = flInvalid) ∧ (¬ sigCode f a → (f.func contract op mode a).2 = 0) := by
  have hread := FFmt.read_nan hf.toIeee contract ha
  have hsig : decide (fracField f a < 2 ^ (f.fb - 1)) = true ↔ sigCode f a := by rw [decide_eq_true_iff, sigCode, and_iff_right ha]
  rw [func_of_nan contract mode hread op]
  refine ⟨?_, fun h => ?_, fun h => ?_⟩
  · dsimp only
    simp only [List.mem_cons, List.not_mem_nil, or_false] at hcontract
    split_ifs with hc
    · exact f.nanOf_canonical (contract := contract) (by omega) _
    · rw [← FFmt.quiet_eq_or hf.toIeee ha]
      exact FFmt.nanOf_first (contract := contract) hf.toIeee (by omega) rfl
  · rw [hsig.mpr h]
    rfl
  · rw [Bool.eq_false_iff.mpr (mt hsig.mp h)]
    rfl

/-- The special operands of every function (R147). -/
def SpecialOperands (f : FFmt) (contract : Nat) (mode : RMode) : Prop :=
  let val := f.func contract
  let inf := (2 ^ f.eb - 1) * 2 ^ f.fb
  let neg := 2 ^ (f.eb + f.fb)
  let one := (2 ^ (f.eb - 1) - 1) * 2 ^ f.fb
  let nan := (f.cnan, flInvalid)
  (val .ex2 mode inf = (inf, 0) ∧ val .ex2 mode (neg + inf) = (0, 0) ∧ val .ex2 mode 0 = (one, 0) ∧ val .ex2 mode neg = (one, 0)) ∧
  (val .lg2 mode inf = (inf, 0) ∧ val .lg2 mode (neg + inf) = nan ∧
    val .lg2 mode 0 = (neg + inf, flDivzero) ∧ val .lg2 mode neg = (neg + inf, flDivzero)) ∧
  (val .rcp mode inf = (0, 0) ∧ val .rcp mode (neg + inf) = (neg, 0) ∧
    val .rcp mode 0 = (inf, flDivzero) ∧ val .rcp mode neg = (neg + inf, flDivzero)) ∧
  (val .rsq mode inf = (0, 0) ∧ val .rsq mode (neg + inf) = nan ∧
    val .rsq mode 0 = (inf, flDivzero) ∧ val .rsq mode neg = (neg + inf, flDivzero)) ∧
  (val .sqrt mode inf = (inf, 0) ∧ val .sqrt mode (neg + inf) = nan ∧ val .sqrt mode 0 = (0, 0) ∧ val .sqrt mode neg = (neg, 0)) ∧
  (val .sin2 mode inf = nan ∧ val .sin2 mode (neg + inf) = nan ∧ val .sin2 mode 0 = (0, 0) ∧ val .sin2 mode neg = (neg, 0)) ∧
  (val .cos2 mode inf = nan ∧ val .cos2 mode (neg + inf) = nan ∧ val .cos2 mode 0 = (one, 0) ∧ val .cos2 mode neg = (one, 0))

include hf in
theorem specialOperands : SpecialOperands f contract mode := by
  have hinf : f.infCode = (2 ^ f.eb - 1) * 2 ^ f.fb := if_pos hf.hasInf
  have hneg : f.signBit true = 2 ^ (f.eb + f.fb) := rfl
  have hpos : f.signBit false = 0 := rfl
  have rinf := FFmt.read_inf (contract := contract) hf.toIeee false
  have rinfNeg := FFmt.read_inf (contract := contract) hf.toIeee true
  have rzero := FFmt.read_zero (contract := contract) hf.toIeee false
  have rzeroNeg := FFmt.read_zero (contract := contract) hf.toIeee true
  rw [hpos, zero_add] at rinf
  rw [hneg] at rinfNeg rzeroNeg
  rw [hpos] at rzero
  have finf := func_of_inf contract mode rinf
  have finfNeg := func_of_inf contract mode rinfNeg
  have fzero := func_of_zero contract mode rzero
  have fzeroNeg := func_of_zero contract mode rzeroNeg
  simp only [hinf, hneg, hpos, hf.one_eq, zero_add, if_true, Bool.false_eq_true, if_false] at finf finfNeg fzero fzeroNeg
  unfold SpecialOperands
  simp only [finf, finfNeg, fzero, fzeroNeg, FFmt.outside, and_self]
end

end Sys2Proof.Machine

namespace Sys2Proof.Machine

/-! ### Dyadic arithmetic by value -/

theorem Dy.val_mul (a b : Dy) : (a.mul b).val = a.val * b.val := by
  rw [Dy.val, Dy.val, Dy.val, Dy.mul, zpow_add₀ two_ne_zero]
  push_cast
  ring

theorem Dy.val_scale (a : Dy) (k : Int) : (a.scale k).val = a.val * 2 ^ k := by
  rw [Dy.val, Dy.val, Dy.scale, zpow_add₀ two_ne_zero, mul_assoc]

theorem Dy.val_ofNat (n : Nat) : (Dy.ofNat n).val = n := by simp [Dy.val, Dy.ofNat]
theorem Dy.val_ofInt (n : Int) : (Dy.ofInt n).val = n := by simp [Dy.val, Dy.ofInt]

theorem Dy.m_eq_zero_of_val {d : Dy} (h : d.val = 0) : d.m = 0 := (d.val_eq_zero).mp h

theorem Dy.mul_m_of_right {a b : Dy} (h : b.m = 0) : (a.mul b).m = 0 := by rw [Dy.mul, h, mul_zero]
theorem Dy.mul_m_of_left {a b : Dy} (h : a.m = 0) : (a.mul b).m = 0 := by rw [Dy.mul, h, zero_mul]

/-- A number of no more bits than are kept is not rounded. -/
theorem Dy.rnW_of_le {d : Dy} {w : Nat} (h : bitLen d.m.natAbs ≤ w) : d.rnW w = d := by
  unfold Dy.rnW Dy.round
  rw [if_pos (by omega)]

theorem Dy.rnW_m_of_zero {d : Dy} (h : d.m = 0) (w : Nat) : (d.rnW w).m = 0 := by
  rw [Dy.rnW_of_le (by rw [h]; exact Nat.zero_le _), h]

/-- An integer is its own floor. -/
theorem Dy.floorAt_of_int {d : Dy} {k I : Int} (h : d.val * 2 ^ k = I) : d.floorAt k = I := by
  have hval : (d.m : ℚ) * 2 ^ (d.e + k) = I := by rw [← h, Dy.val, zpow_add₀ two_ne_zero, mul_assoc]
  unfold Dy.floorAt
  dsimp only
  split_ifs with he
  · exact_mod_cast (shlInt_cast _ _ he).trans hval
  · obtain ⟨n, hn⟩ : ∃ n : Nat, d.e + k = -(n : Int) := ⟨(-(d.e + k)).toNat, by omega⟩
    rw [hn, zpow_neg, zpow_natCast, mul_inv_eq_iff_eq_mul₀ (by positivity)] at hval
    have hm : d.m = I * 2 ^ n := by exact_mod_cast hval
    rw [hn, neg_neg, Int.toNat_natCast]
    rcases eq_or_ne I 0 with rfl | hI
    · simp [hm]
    · have hlen : n ≤ bitLen d.m.natAbs := by
        have hlt := lt_two_pow_bitLen d.m.natAbs
        have hge : 2 ^ n ≤ d.m.natAbs := by
          rw [hm, Int.natAbs_mul, Int.natAbs_pow]
          exact Nat.le_mul_of_pos_left _ (Int.natAbs_pos.mpr hI)
        exact ((Nat.pow_lt_pow_iff_right (by omega)).mp (hge.trans_lt hlt)).le
      rw [min_eq_left (by omega), hm]
      push_cast
      exact Int.mul_ediv_cancel _ (by positivity)

/-- An integer is rounded to itself. -/
theorem RoundsToInt.eq_of_int {I k : Int} (h : RoundsToInt .rn I k) : k = I := by
  obtain ⟨hle, -⟩ := h
  have hlt : |I - k| < 1 := by
    have : |((I - k : Int) : ℚ)| < 1 := by push_cast; linarith
    exact_mod_cast this
  have := Int.abs_lt_one_iff.mp hlt
  omega

/-- The integer nearest to a dyadic, as `trigPath` takes it (R150). -/
def Dy.nearest (y : Dy) : Int :=
  if 0 ≤ y.e then shlInt y.m y.e
  else if y.m < 0 then -((roundShift .rn (y.m < 0) y.m.natAbs (-y.e)).1 : Int) else (roundShift .rn (y.m < 0) y.m.natAbs (-y.e)).1

theorem Dy.nearest_of_int {y : Dy} {I : Int} (h : y.val = I) : y.nearest = I := by
  unfold Dy.nearest
  split_ifs with he hneg
  · exact_mod_cast (shlInt_cast _ _ he).trans h
  all_goals
    obtain ⟨hround, -⟩ := roundShift_spec (mode := .rn) (by decide) (decide (y.m < 0)) y.m.natAbs (-y.e)
    rw [neg_neg, ← Dy.val_eq_sgn, h] at hround
    have heq := hround.eq_of_int
    simp only [hneg, decide_true, decide_false, sgn_true, sgn_false, neg_one_mul, one_mul] at heq ⊢
    exact heq

/-! ### The paths at their exact points (R148 to R150) -/

section
variable (f : FFmt) (contract : Nat)

theorem tabN_eq (rev : Nat) : tabN rev = 2 ^ (if tabN rev == 32 then 5 else 6) := by
  unfold tabN
  split_ifs <;> simp_all

theorem rn32_m_of_mul_zero {a b : Dy} (h : b.m = 0) : (rn32 (a.mul b)).m = 0 := Dy.rnW_m_of_zero (Dy.mul_m_of_right h) _

/-- `fex2` of an integer is the rounding of a power of two. -/
theorem fex2Path_of_int {x : Dy} {n : Int} (hx : x.val = n) : fex2Path f contract x = finish f contract true { m := 1, e := n } := by
  have htab := tabN_eq (funcRev contract)
  unfold fex2Path
  dsimp only
  generalize (if tabN (funcRev contract) == 32 then 5 else 6) = lg at htab ⊢
  rw [htab]
  have hk : x.floorAt lg = n * (2 ^ lg : Nat) := Dy.floorAt_of_int (by rw [hx, zpow_natCast]; push_cast; rfl)
  have hr : (x.sub { m := x.floorAt lg, e := -(lg : Int) }).m = 0 := by
    refine Dy.m_eq_zero_of_val ?_
    rw [Dy.val_sub, hx, Dy.val, hk, zpow_neg, zpow_natCast]
    push_cast
    rw [mul_inv_cancel_right₀ (by positivity), sub_self]
  have hn : n * ((2 ^ lg : Nat) : Int) / (2 ^ lg : Nat) = n := Int.mul_ediv_cancel _ (by positivity)
  generalize x.sub { m := x.floorAt lg, e := -(lg : Int) } = r at hr ⊢
  rw [hk, hn, sub_self]
  have hp {p : Dy} : (Dy.ofNat 1).add (rn32 (p.mul r)) = Dy.ofNat 1 := by
    rw [Dy.add, if_neg (by decide), if_pos (rn32_m_of_mul_zero hr)]
  rw [hp, hr]
  have hy : ({ m := 1, e := 0 } : Dy).mul (Dy.ofNat 1) = { m := 1, e := 0 } := rfl
  have hround : rn32 { m := 1, e := 0 } = { m := 1, e := 0 } := by decide
  have ht : exp2Tab (tabW (funcRev contract)) lg 0 = { m := 1, e := 0 } := rfl
  rw [show (0 : Int).toNat = 0 from rfl, ht, hy, hround, ite_self, Dy.scale, zero_add]
  rfl

theorem rnQuot_self {n : Nat} (hn : n = 32 ∨ n = 64) : (rnQuot 12 n n).val = 1 := by
  have h : ∃ i : Nat, rnQuot 12 n n = { m := (2 ^ i : Nat), e := -(i : Int) } := by
    rcases hn with rfl | rfl
    · exact ⟨11, by decide⟩
    · exact ⟨11, by decide⟩
  obtain ⟨i, h⟩ := h
  rw [h, Dy.val, zpow_neg, zpow_natCast]
  push_cast
  exact mul_inv_cancel₀ (by positivity)

theorem tabN_cases (rev : Nat) : tabN rev = 32 ∨ tabN rev = 64 := by
  unfold tabN
  split_ifs
  · exact .inl rfl
  · exact .inr rfl

/-- `flg2` of a power of two is the rounding of its exponent. -/
theorem flg2Path_of_pow2 {x : Dy} {n : Int} (hx : x.val = 2 ^ n) : ∃ d : Dy, d.val = n ∧ flg2Path f contract x = finish f contract true d := by
  have hne : x.m ≠ 0 := by rw [Ne, ← x.val_eq_zero, hx]; positivity
  have he : x.expo = n := by
    obtain ⟨hle, hlt⟩ := Dy.expo_spec hne
    rw [hx, abs_of_pos (by positivity)] at hle hlt
    have h1 := zpow_le_two_iff.mp hle
    have h2 := zpow_lt_two_iff.mp hlt
    omega
  have hm : (x.scale (-n)).val = 1 := by rw [Dy.val_scale, hx, ← zpow_add₀ two_ne_zero, add_neg_cancel, zpow_zero]
  have hm1 : ((x.scale (-n)).sub (Dy.ofNat 1)).val = 0 := by rw [Dy.val_sub, hm, Dy.val_ofNat, Nat.cast_one, sub_self]
  have hj : (((x.scale (-n)).sub (Dy.ofNat 1)).mul (Dy.ofNat (tabN (funcRev contract)))).floorAt 0 = 0 :=
    Dy.floorAt_of_int (by rw [Dy.val_mul, hm1]; simp)
  have hg := rnQuot_self (tabN_cases (funcRev contract))
  have hz : (rn32 (((x.scale (-n)).mul (rnQuot 12 (tabN (funcRev contract)) (tabN (funcRev contract)))).sub (Dy.ofNat 1))).m = 0 :=
    Dy.rnW_m_of_zero (Dy.m_eq_zero_of_val (by rw [Dy.val_sub, Dy.val_mul, hm, hg, Dy.val_ofNat]; simp)) _
  unfold flg2Path
  simp only [he, hj, Int.toNat_zero, add_zero, beq_self_eq_true, if_true, Dy.m_eq_zero_of_val hm1]
  refine ⟨_, ?_, rfl⟩
  rw [Dy.val_add, Dy.val_add, (Dy.val_eq_zero _).mpr (rn32_m_of_mul_zero hz), Dy.val_ofInt]
  simp [Dy.val]

/-- The sine and the cosine of a number of quarter turns. -/
def quarterSin (k : Int) : Int := if k % 4 = 1 then 1 else if k % 4 = 3 then -1 else 0
def quarterCos (k : Int) : Int := if k % 4 = 0 then 1 else if k % 4 = 2 then -1 else 0

theorem quarterSin_succ (k : Int) : quarterSin (k + 1) = quarterCos k := by
  unfold quarterSin quarterCos
  split_ifs <;> omega

theorem quarterSin_cast (k : Int) : (quarterSin k : ℚ) = if k % 4 = 1 then 1 else if k % 4 = 3 then -1 else 0 := by
  unfold quarterSin
  split_ifs <;> simp

theorem quarterCos_cast (k : Int) : (quarterCos k : ℚ) = if k % 4 = 0 then 1 else if k % 4 = 2 then -1 else 0 := by
  unfold quarterCos
  split_ifs <;> simp

theorem quarterSin_emod (k : Int) : quarterSin (k % 4) = quarterSin k := by unfold quarterSin; rw [Int.emod_emod]
theorem quarterSin_natAbs_le (k : Int) : (quarterSin k).natAbs ≤ 1 := by unfold quarterSin; split_ifs <;> decide
theorem quarterCos_natAbs_le (k : Int) : (quarterCos k).natAbs ≤ 1 := by unfold quarterCos; split_ifs <;> decide

/-- The table of sines at a quarter turn (R150). -/
theorem sinTab_of_quarter (w : Nat) {N : Nat} (hN : 0 < N) {r : Nat} (hr : r < 4) : sinTab w (r * N) (4 * N) = { m := quarterSin r, e := 0 } := by
  have hq : 4 * N / 4 = N := Nat.mul_div_cancel_left N (by decide)
  unfold sinTab
  simp only [hq, Nat.mul_mod_left, Nat.mul_div_cancel r hN, beq_self_eq_true, if_true]
  interval_cases r <;> rfl

theorem quarter_place (k : Int) {N : Nat} (hN : 0 < N) : (k * N % ((4 * N : Nat) : Int)).toNat = (k % 4).toNat * N := by
  have h4 := Int.emod_nonneg k (show (4 : Int) ≠ 0 by decide)
  push_cast
  rw [mul_comm k, mul_comm 4, Int.mul_emod_mul_of_pos _ _ (by exact_mod_cast hN), mul_comm (N : Int),
    Int.toNat_mul h4 (Int.natCast_nonneg N), Int.toNat_natCast]

theorem sinTab_of_int (w : Nat) (k : Int) {N : Nat} (hN : 0 < N) :
    sinTab w (k * N % ((4 * N : Nat) : Int)).toNat (4 * N) = { m := quarterSin k, e := 0 } := by
  have h4 := Int.emod_nonneg k (show (4 : Int) ≠ 0 by decide)
  rw [quarter_place k hN, sinTab_of_quarter w hN (by omega), Int.toNat_of_nonneg h4, quarterSin_emod]

theorem cosTab_of_int (w : Nat) (k : Int) {N : Nat} (hN : 0 < N) :
    cosTab w (k * N % ((4 * N : Nat) : Int)).toNat (4 * N) = { m := quarterCos k, e := 0 } := by
  have hplace : ((k * N % ((4 * N : Nat) : Int)).toNat + 4 * N / 4) % (4 * N) = ((k + 1) * N % ((4 * N : Nat) : Int)).toNat := by
    rw [quarter_place k hN, quarter_place (k + 1) hN, Nat.mul_div_cancel_left N (by decide), ← Nat.succ_mul, Nat.mul_mod_mul_right]
    congr 1
    omega
  rw [cosTab, hplace, sinTab_of_int w _ hN, quarterSin_succ]

theorem tabW_pos (rev : Nat) : 1 ≤ tabW rev := by
  unfold tabW
  split_ifs <;> decide

theorem Dy.rnW_mul_one {w : Nat} (hw : 1 ≤ w) {c : Dy} (hc : c.m.natAbs ≤ 1) : (Dy.rnW w (c.mul (Dy.ofNat 1))).val = c.val := by
  have hlen : bitLen (c.m * 1).natAbs ≤ w := by
    rw [mul_one]
    interval_cases c.m.natAbs
    · exact Nat.zero_le _
    · exact hw
  rw [Dy.rnW_of_le (d := c.mul (Dy.ofNat 1)) hlen, Dy.val_mul, Dy.val_ofNat, Nat.cast_one, mul_one]

/-- The sum of R150 from the entries of the tables and the remainder of the angle. -/
def trigSum (w : Nat) (isCos : Bool) (s c t : Dy) : Dy :=
  let u := Dy.rnW w (twoPi.mul t)
  let ww := Dy.rnW w (u.mul u)
  let su := Dy.rnW w (u.sub (Dy.rnW w (u.mul (Dy.rnW w (ww.mul (rnQuot w 1 6))))))
  let cu := Dy.rnW w ((Dy.ofNat 1).sub (ww.scale (-1)))
  if isCos then (Dy.rnW w (c.mul cu)).sub (Dy.rnW w (s.mul su)) else (Dy.rnW w (s.mul cu)).add (Dy.rnW w (c.mul su))

/-- Without a remainder of the angle the sum is the entry of the table. -/
theorem trigSum_of_zero {w : Nat} (hw : 1 ≤ w) (isCos : Bool) {s c t : Dy} (hs : s.m.natAbs ≤ 1) (hc : c.m.natAbs ≤ 1) (ht : t.m = 0) :
    (trigSum w isCos s c t).val = if isCos then c.val else s.val := by
  unfold trigSum
  dsimp only
  have hu := Dy.rnW_m_of_zero (Dy.mul_m_of_right (a := twoPi) ht) w
  generalize Dy.rnW w (twoPi.mul t) = u at hu ⊢
  have hww := Dy.rnW_m_of_zero (Dy.mul_m_of_right (a := u) hu) w
  generalize Dy.rnW w (u.mul u) = ww at hww ⊢
  have hcu : Dy.rnW w ((Dy.ofNat 1).sub (ww.scale (-1))) = Dy.ofNat 1 := by
    have hsub : (Dy.ofNat 1).sub (ww.scale (-1)) = Dy.ofNat 1 := by simp [Dy.sub, Dy.add, Dy.neg, Dy.scale, Dy.ofNat, hww]
    rw [hsub]
    exact Dy.rnW_of_le hw
  have hsu : (Dy.rnW w (u.sub (Dy.rnW w (u.mul (Dy.rnW w (ww.mul (rnQuot w 1 6))))))).m = 0 := by
    refine Dy.rnW_m_of_zero (Dy.m_eq_zero_of_val ?_) w
    rw [Dy.val_sub, (Dy.val_eq_zero _).mpr hu, (Dy.val_eq_zero _).mpr (Dy.rnW_m_of_zero (Dy.mul_m_of_left hu) w), sub_self]
  have hcross (a : Dy) := (Dy.val_eq_zero _).mpr (Dy.rnW_m_of_zero (Dy.mul_m_of_right (a := a) hsu) w)
  rw [hcu]
  cases isCos
  · exact (Dy.val_add _ _).trans (by rw [hcross, add_zero, Dy.rnW_mul_one hw hs]; rfl)
  · exact (Dy.val_sub _ _).trans (by rw [hcross, sub_zero, Dy.rnW_mul_one hw hc]; rfl)

theorem trigPath_eq (isCos : Bool) (x : Dy) : trigPath f contract isCos x =
    let w := tabW (funcRev contract)
    let d := 4 * tabN (funcRev contract)
    let y := x.mul (Dy.ofNat d)
    let t := (y.sub (Dy.ofInt y.nearest)).scale (-(if d == 128 then 7 else 8))
    let a := (y.nearest % (d : Int)).toNat
    finish f contract (t.m == 0 && a % (d / 4) == 0) (trigSum w isCos (sinTab w a d) (cosTab w a d) t) := rfl

/-- `fsin2` and `fcos2` of a multiple of a quarter are the roundings of 0, 1 or -1. -/
theorem trigPath_of_quarter (isCos : Bool) {x : Dy} {k : Int} (hx : x.val = k / 4) :
    ∃ d : Dy, d.val = (if isCos then quarterCos k else quarterSin k : Int) ∧ trigPath f contract isCos x = finish f contract true d := by
  have hN : 0 < tabN (funcRev contract) := by rcases tabN_cases (funcRev contract) with h | h <;> rw [h] <;> decide
  have hi : (x.mul (Dy.ofNat (4 * tabN (funcRev contract)))).val = (k * tabN (funcRev contract) : Int) := by
    rw [Dy.val_mul, hx, Dy.val_ofNat]
    push_cast
    ring
  have ht (lg : Int) : (((x.mul (Dy.ofNat (4 * tabN (funcRev contract)))).sub (Dy.ofInt (k * tabN (funcRev contract)))).scale lg).m = 0 :=
    Dy.m_eq_zero_of_val (by rw [Dy.val_scale, Dy.val_sub, hi, Dy.val_ofInt, sub_self, zero_mul])
  rw [trigPath_eq]
  dsimp only
  rw [Dy.nearest_of_int hi, ht, sinTab_of_int _ k hN, cosTab_of_int _ k hN, quarter_place k hN, Nat.mul_div_cancel_left _ (by decide : 0 < 4),
    Nat.mul_mod_left]
  refine ⟨_, ?_, rfl⟩
  rw [trigSum_of_zero (tabW_pos _) isCos (quarterSin_natAbs_le k) (quarterCos_natAbs_le k) (ht _)]
  cases isCos <;> simp [Dy.val]
end

end Sys2Proof.Machine

namespace Sys2Proof.Machine

/-! ### Numbers of the format -/

/-- The number is one of the format. -/
def FFmt.IsNum (f : FFmt) (v : ℚ) : Prop := ∃ y, finiteCode f y ∧ codeVal f y = v

theorem finiteCode.isNum {f : FFmt} {y : Nat} (h : finiteCode f y) : f.IsNum (codeVal f y) := ⟨y, h, rfl⟩

/-- The code is that of the number exactly, without a flag. -/
def Exact (f : FFmt) (r : Nat × BitVec 6) (q : ℚ) : Prop := finiteCode f r.1 ∧ codeVal f r.1 = q ∧ r.2 = 0

/-- The rounding of a number of the format is exact. -/
theorem RoundedResult.exact {f : FFmt} (hf : f.Ieee) {q : ℚ} {r : Nat × BitVec 6} (h : RoundedResult f .rn q r) (hq : f.IsNum q) :
    Exact f r q := by
  obtain ⟨y, hy, rfl⟩ := hq
  have hval := h.codeVal_eq_of_exact hf hy rfl
  have hfin : finiteCode f r.1 := by
    by_contra hnot
    exact (abs_codeVal_le hf hy).not_gt (h.2 hnot).1
  exact ⟨hfin, hval, (h.1 hfin).2.1 hval⟩

theorem sigOf_eq_zero_iff {f : FFmt} {a : Nat} : f.sigOf a = 0 ↔ codeVal f a = 0 := by
  rw [← abs_eq_zero, abs_codeVal, mul_eq_zero_iff_right (by positivity), Nat.cast_eq_zero]

/-- A number that is not zero is no smaller than the smallest subnormal. -/
theorem two_zpow_low_le {f : FFmt} {a : Nat} (hne : codeVal f a ≠ 0) : 2 ^ f.low ≤ |codeVal f a| := by
  have hsig : (1 : ℚ) ≤ f.sigOf a := by exact_mod_cast Nat.one_le_iff_ne_zero.mpr (mt sigOf_eq_zero_iff.mp hne)
  rw [abs_codeVal]
  calc (2 : ℚ) ^ f.low ≤ 2 ^ (f.low + f.place a) := zpow_le_two_iff.mpr (by omega)
    _ ≤ f.sigOf a * 2 ^ (f.low + f.place a) := le_mul_of_one_le_left (by positivity) hsig

theorem FFmt.low_eq (f : FFmt) : f.low = 1 - f.bias - f.fb := rfl

section
variable {f : FFmt} (hf : f.FuncFmt)
include hf

theorem FFmt.FuncFmt.top_eq : f.low + (2 ^ f.eb - 3 : Nat) = f.bias - f.fb := by
  have := hf.range
  have := hf.fb_lt_bias
  rw [f.low_eq]
  omega

theorem FFmt.FuncFmt.maxVal_eq : maxVal f = (2 ^ (f.fb + 1) - 1) * 2 ^ (f.bias - f.fb) := by
  rw [Sys2Proof.Machine.maxVal_eq hf.toIeee, hf.top_eq]

/-- The powers of two within the range. -/
theorem two_zpow_le_maxVal_iff (n : Int) : (2 : ℚ) ^ n ≤ maxVal f ↔ n ≤ f.bias := by
  have hsplit (j : Nat) : (2 : ℚ) ^ (f.bias + j) = 2 ^ (f.fb + j) * 2 ^ (f.bias - f.fb) := by
    rw [← zpow_natCast, ← zpow_add₀ two_ne_zero]
    congr 1
    push_cast
    ring
  have hpow : (0 : ℚ) < 2 ^ (f.bias - f.fb) := by positivity
  rw [hf.maxVal_eq]
  constructor
  · intro h
    have hlt : (2 : ℚ) ^ n < 2 ^ (f.bias + (1 : Nat)) := by
      refine h.trans_lt ?_
      rw [hsplit 1]
      exact mul_lt_mul_of_pos_right (by linarith) hpow
    have := zpow_lt_two_iff.mp hlt
    push_cast at this
    omega
  · intro h
    calc (2 : ℚ) ^ n ≤ 2 ^ (f.bias + (0 : Nat)) := zpow_le_two_iff.mpr (by push_cast; omega)
      _ = 2 ^ (f.fb + 0) * 2 ^ (f.bias - f.fb) := hsplit 0
      _ ≤ _ := by
        refine mul_le_mul_of_nonneg_right ?_ hpow.le
        have : (1 : ℚ) ≤ 2 ^ f.fb := one_le_pow₀ one_le_two
        rw [add_zero, pow_succ]
        linarith

/-- Every power of two from the smallest subnormal to the range's top is a number of the format. -/
theorem isNum_two_zpow {n : Int} (hlow : f.low ≤ n) (htop : n ≤ f.bias) : f.IsNum (2 ^ n) := by
  have hcode {h K : Nat} (hK : K ≤ 2 ^ (f.fb + 1)) (hh : h = 0 ∨ 2 ^ f.fb ≤ K)
      (hn : (2 : ℚ) ^ n = K * 2 ^ (f.low + h)) : f.IsNum (2 ^ n) := by
    obtain ⟨hfin, hval⟩ := FFmt.gridCode_of_le hf.toIeee false hK hh (by rw [← hn, two_zpow_le_maxVal_iff hf]; exact htop)
    exact ⟨_, hfin, by rw [hval, hn, sgn_false, Int.cast_one, one_mul]⟩
  obtain ⟨j, hj⟩ := Int.le.dest hlow
  rcases le_or_gt j f.fb with hle | hgt
  · refine hcode (h := 0) (K := 2 ^ j) (Nat.pow_le_pow_right (by decide) (by omega)) (.inl rfl) ?_
    rw [← hj, zpow_add₀ two_ne_zero, zpow_natCast, Nat.cast_zero, add_zero, mul_comm]
    push_cast
    rfl
  · refine hcode (h := j - f.fb) (K := 2 ^ f.fb) (Nat.pow_le_pow_right (by decide) (by omega)) (.inr le_rfl) ?_
    rw [← hj, Nat.cast_pow, ← zpow_natCast, Nat.cast_ofNat, ← zpow_add₀ two_ne_zero]
    congr 1
    omega

theorem isNum_int {k : Int} (hk : k.natAbs ≤ 2 ^ f.fb) : f.IsNum k := by
  obtain ⟨y, hy, hval⟩ := exists_code_of_nat hf.toIeee (decide (k < 0)) hk
  refine ⟨y, hy, ?_⟩
  rw [hval, FVal.num_fin, ← Dy.val_ofInt k, Dy.val_eq_sgn]
  rfl

/-- A power of two that is the number of a code is within the range. -/
theorem exponent_bounds {a : Nat} (ha : finiteCode f a) {n : Int} (hn : codeVal f a = 2 ^ n) : f.low ≤ n ∧ n ≤ f.bias := by
  have habs : |codeVal f a| = 2 ^ n := by rw [hn, abs_of_pos (by positivity)]
  exact ⟨zpow_le_two_iff.mp (habs ▸ two_zpow_low_le (by rw [hn]; positivity)),
    (two_zpow_le_maxVal_iff hf n).mp (habs ▸ abs_codeVal_le hf.toIeee ha)⟩
end

/-! ### The last rounding at an exact point (R147) -/

section
variable {f : FFmt} (hf : f.FuncFmt) (contract : Nat)

theorem finish_exact_eq (d : Dy) : finish f contract true d =
    ((f.roundDy (flushVec contract) .rn false d).1, (f.roundDy (flushVec contract) .rn false d).2.1) := by
  unfold finish
  simp [flIf]

theorem finish_zero {d : Dy} (hd : d.m = 0) : finish f contract true d = (0, 0) := by
  rw [finish_exact_eq, FFmt.roundDy, if_pos hd]
  rfl

theorem Dy.emin_le_expo_of_int (hf : f.Ieee) {d : Dy} {k : Int} (hd : d.val = k) (hne : d.m ≠ 0) : f.emin ≤ d.expo := by
  have hbias := hf.bias_pos
  have hk : k ≠ 0 := fun h0 => hne (Dy.m_eq_zero_of_val (by rw [hd, h0, Int.cast_zero]))
  refine (show f.emin ≤ 0 by rw [FFmt.emin]; omega).trans ((Dy.le_expo_iff hne 0).mpr ?_)
  rw [hd, zpow_zero]
  exact_mod_cast Int.one_le_abs hk

include hf

theorem finish_exact_int {d : Dy} {k : Int} (hd : d.val = k) (hk : k.natAbs ≤ 2 ^ f.fb) : Exact f (finish f contract true d) k := by
  rw [finish_exact_eq, ← hd]
  refine RoundedResult.exact hf.toIeee ?_ (hd ▸ isNum_int hf hk)
  exact FFmt.roundDy_spec hf.toIeee (by decide) false d (.inr fun hne => Dy.emin_le_expo_of_int hf.toIeee hd hne)

omit hf in
/-- The rounding of a power of two is taken from `round`. -/
theorem finish_two_pow (n : Int) : finish f contract true { m := 1, e := n } =
    ((f.round (flushVec contract) .rn false 1 n).1, (f.round (flushVec contract) .rn false 1 n).2.1) := by
  rw [finish_exact_eq]
  rfl

omit hf in
theorem round_one_eq (f : FFmt) (n : Int) : ((Dy.ofSigned false 1 n).round .rn (f.fb + 1)).1 = { m := 1, e := n } :=
  Dy.rnW_of_le (d := Dy.ofSigned false 1 n) (by change 1 ≤ _; omega)

omit hf in
theorem expo_one (n : Int) : ({ m := 1, e := n } : Dy).expo = n := by
  change (1 : Int) - 1 + n = n
  omega

theorem beyond_one_iff (n : Int) : f.maxDy.lt ((Dy.ofSigned false 1 n).round .rn (f.fb + 1)).1.abs = true ↔ f.bias < n := by
  rw [round_one_eq f, Dy.lt_iff, FFmt.maxDy_val hf.toIeee, ← not_iff_not, not_lt, not_lt, ← two_zpow_le_maxVal_iff hf]
  simp [Dy.val, Dy.abs]

/-- A power of two of the format is exact, unless the contract flushes it. -/
theorem round_one_exact {flush : Bool} {n : Int} (hlow : f.low ≤ n) (htop : n ≤ f.bias) (hkeeps : (f.flushes && flush) = false ∨ f.emin ≤ n) :
    Exact f ((f.round flush .rn false 1 n).1, (f.round flush .rn false 1 n).2.1) (2 ^ n) := by
  have hround := FFmt.round_spec hf.toIeee (mode := .rn) (flush := flush) (by decide) false (m := 1) (by decide) (e := n)
    (hkeeps.imp_right fun h => h.trans (by change n ≤ (1 : Int) - 1 + n; omega))
  rw [sgn_false, Int.cast_one, Nat.cast_one, one_mul, one_mul] at hround
  exact hround.exact hf.toIeee (isNum_two_zpow hf hlow htop)

theorem round_one_overflow (flush : Bool) {n : Int} (htop : f.bias < n) :
    f.round flush .rn false 1 n = ((2 ^ f.eb - 1) * 2 ^ f.fb, flOverflow ||| flInexact, true) := by
  rw [FFmt.round_of_beyond f flush .rn false (by decide) n ((beyond_one_iff hf n).mpr htop), FFmt.overflow]
  simp [hf.hasInf, FFmt.infCode, FFmt.signBit]

theorem round_one_flushed {n : Int} (hn : n < f.emin) (hflush : (f.flushes && true) = true) :
    f.round true .rn false 1 n = (0, flUnderflow ||| flInexact, false) := by
  have hfit : f.maxDy.lt ((Dy.ofSigned false 1 n).round .rn (f.fb + 1)).1.abs = false := by
    have := hf.bias_pos
    rw [Bool.eq_false_iff, Ne, beyond_one_iff hf, not_lt]
    rw [FFmt.emin] at hn
    omega
  have htiny : ((Dy.ofSigned false 1 n).round .rn (f.fb + 1)).1.expo < f.emin := by rwa [round_one_eq f, expo_one]
  unfold FFmt.round
  refine (if_neg (by decide)).trans ((if_neg (by rw [Bool.not_eq_true]; exact hfit)).trans ((if_pos htiny).trans (if_pos ?_)))
  rw [hflush, Bool.or_true]

/-- Half of the smallest subnormal and less become zero. -/
theorem round_one_underflow {flush : Bool} {n : Int} (hn : n < f.low) (hkeeps : (f.flushes && flush) = false) :
    f.round flush .rn false 1 n = (0, flUnderflow ||| flInexact, false) := by
  have hbias := hf.bias_pos
  have hemin := f.emin_eq
  have hfit : f.maxDy.lt ((Dy.ofSigned false 1 n).round .rn (f.fb + 1)).1.abs = false := by
    rw [Bool.eq_false_iff, Ne, beyond_one_iff hf, not_lt]
    rw [f.low_eq] at hn
    omega
  have htiny : ((Dy.ofSigned false 1 n).round .rn (f.fb + 1)).1.expo < f.emin := by rw [round_one_eq f, expo_one]; omega
  rw [f.round_of_tiny flush .rn false (by decide) n hfit htiny (by rw [hf.sub, hkeeps]; rfl)]
  obtain ⟨hround, hexact⟩ := roundShift_spec (mode := .rn) (by decide) false 1 (f.low - n)
  rw [sgn_false, Int.cast_one, one_mul, one_mul, Nat.cast_one, one_mul] at hround
  rw [Nat.cast_one, one_mul] at hexact
  have hpos : (0 : ℚ) < 2 ^ (-(f.low - n)) := by positivity
  have hhalf : (2 : ℚ) ^ (-(f.low - n)) ≤ 1 / 2 := by
    rw [one_div, ← zpow_neg_one, zpow_le_two_iff]
    omega
  generalize roundShift .rn false 1 (f.low - n) = r at hround hexact ⊢
  obtain ⟨hnear, htie⟩ := hround
  rw [Int.cast_natCast] at hnear htie
  have hzero : r.1 = 0 := by
    rw [abs_le] at hnear
    have h1 : (r.1 : ℚ) ≤ 1 := by linarith
    have h1' : r.1 ≤ 1 := by exact_mod_cast h1
    by_contra hne
    obtain hone : r.1 = 1 := by omega
    rw [hone] at hnear htie
    have := htie (by rw [abs_of_nonpos (by push_cast; linarith)]; push_cast at hnear ⊢; linarith)
    omega
  have hch : r.2 = true := by
    rw [← Bool.not_eq_false, hexact, hzero, Nat.cast_zero]
    exact hpos.ne
  rw [hzero, hch]
  simp [FFmt.pack, FFmt.signBit, flIf]
end

end Sys2Proof.Machine

namespace Sys2Proof.Machine

/-! ### The functions at their exact points, by the operand's code (R148 to R150) -/

section
variable {f : FFmt} {a : Nat}

theorem signOf_of_neg (h : codeVal f a < 0) : f.signOf a = true := by
  by_contra hsign
  rw [codeVal_eq, Bool.eq_false_iff.mpr hsign, sgn_false, Int.cast_one, one_mul] at h
  exact h.not_ge (by positivity)

theorem signOf_of_pos (h : 0 < codeVal f a) : f.signOf a = false := by
  by_contra hsign
  rw [codeVal_eq, Bool.eq_true_of_not_eq_false hsign, sgn_true, Int.cast_neg, Int.cast_one, neg_one_mul, neg_pos] at h
  exact h.not_ge (by positivity)

/-- The number of an operand's value. -/
theorem ofSigned_val (f : FFmt) (a : Nat) : (Dy.ofSigned (f.signOf a) (f.sigOf a) (f.low + f.place a)).val = codeVal f a :=
  FVal.num_of_code f a

/-- No result is flushed where the format keeps subnormals, or the contract does (R121). -/
theorem flushes_flushVec_of_keeps (hf : f.FuncFmt) {contract : Nat} (h : f ≠ fF32 ∨ 0x300 ≤ contract) :
    (f.flushes && flushVec contract) = false := by
  rcases h with h | h
  · rw [Bool.eq_false_iff.mpr (mt hf.flushes_iff.mp h), Bool.false_and]
  · have hflush : flushVec contract = false := by
      simp only [flushVec, Bool.or_eq_false_iff, beq_eq_false_iff_ne]
      omega
    rw [hflush, Bool.and_false]

section
variable (hf : f.FuncFmt) {contract : Nat} (mode : RMode) (ha : finiteCode f a) (hk : f.keeps contract a)
include hf ha hk

/-- The functions of a number that is kept and is not zero. -/
theorem func_of_nonzero (hne : codeVal f a ≠ 0) :
    let x := Dy.ofSigned (f.signOf a) (f.sigOf a) (f.low + f.place a)
    f.func contract .ex2 mode a = fex2Path f contract x ∧
    f.func contract .lg2 mode a = (if f.signOf a then f.outside else flg2Path f contract x) ∧
    f.func contract .rcp mode a = frcpPath f contract (f.fb != 52) x ∧
    f.func contract .rsq mode a = (if f.signOf a then f.outside else frsqPath f contract (f.fb != 52) x) ∧
    f.func contract .sqrt mode a = (if f.signOf a then f.outside else
      ((f.round (flushVec contract) mode false (sqrtJam (f.sigOf a) (f.low + f.place a)).1 (sqrtJam (f.sigOf a) (f.low + f.place a)).2).1,
        (f.round (flushVec contract) mode false (sqrtJam (f.sigOf a) (f.low + f.place a)).1 (sqrtJam (f.sigOf a) (f.low + f.place a)).2).2.1)) ∧
    f.func contract .sin2 mode a = trigPath f contract false x ∧ f.func contract .cos2 mode a = trigPath f contract true x :=
  func_of_fin contract mode (FFmt.read_of_keeps hf ha hk) (mt sigOf_eq_zero_iff.mp hne)

/-- The functions of a zero. -/
theorem func_of_codeVal_zero (h0 : codeVal f a = 0) :
    f.func contract .ex2 mode a = ((2 ^ (f.eb - 1) - 1) * 2 ^ f.fb, 0) ∧ f.func contract .sin2 mode a = (f.signBit (f.signOf a), 0) ∧
      f.func contract .cos2 mode a = ((2 ^ (f.eb - 1) - 1) * 2 ^ f.fb, 0) := by
  have hread := FFmt.read_of_keeps hf ha hk
  rw [sigOf_eq_zero_iff.mpr h0] at hread
  obtain ⟨hex2, -, -, -, -, hsin, hcos⟩ := func_of_zero contract mode hread
  rw [hf.one_eq] at hex2 hcos
  exact ⟨hex2, hsin, hcos⟩

theorem func_of_negative (hneg : codeVal f a < 0) :
    f.func contract .lg2 mode a = f.outside ∧ f.func contract .rsq mode a = f.outside ∧ f.func contract .sqrt mode a = f.outside := by
  obtain ⟨-, hlg2, -, hrsq, hsqrt, -, -⟩ := func_of_nonzero hf mode ha hk hneg.ne
  rw [signOf_of_neg hneg, if_pos rfl] at hlg2 hrsq hsqrt
  exact ⟨hlg2, hrsq, hsqrt⟩

/-- `fex2` of an integer is a power of two, rounded. -/
theorem ex2_of_int {n : Int} (hn : codeVal f a = n) : f.func contract .ex2 mode a =
    ((f.round (flushVec contract) .rn false 1 n).1, (f.round (flushVec contract) .rn false 1 n).2.1) := by
  by_cases h0 : codeVal f a = 0
  · obtain rfl : n = 0 := by exact_mod_cast hn.symm.trans h0
    rw [hf.one_rounded]
    exact (func_of_codeVal_zero hf mode ha hk h0).1
  · rw [← finish_two_pow, ← fex2Path_of_int f contract ((ofSigned_val f a).trans hn)]
    exact (func_of_nonzero hf mode ha hk h0).1

theorem lg2_of_two_zpow {n : Int} (hn : codeVal f a = 2 ^ n) : Exact f (f.func contract .lg2 mode a) n := by
  have hpos : 0 < codeVal f a := by rw [hn]; positivity
  obtain ⟨-, hlg2, -⟩ := func_of_nonzero hf mode ha hk hpos.ne'
  rw [signOf_of_pos hpos, if_neg Bool.false_ne_true, ← signOf_of_pos hpos] at hlg2
  obtain ⟨d, hd, hpath⟩ := flg2Path_of_pow2 f contract ((ofSigned_val f a).trans hn)
  rw [hlg2, hpath]
  refine finish_exact_int hf contract hd ?_
  obtain ⟨hlow, htop⟩ := exponent_bounds hf ha hn
  have hsmall := hf.small
  have hbias := hf.bias_pos
  rw [f.low_eq] at hlow
  have hpow : ((2 ^ f.fb : Nat) : Int) = 2 ^ f.fb := by push_cast; rfl
  omega

/-- `fsin2` and `fcos2` of a multiple of a quarter. -/
theorem trig_of_quarter {k : Int} (hq : codeVal f a = k / 4) :
    Exact f (f.func contract .sin2 mode a) (quarterSin k) ∧ Exact f (f.func contract .cos2 mode a) (quarterCos k) ∧
    (k ≠ 0 → k % 2 = 0 → (f.func contract .sin2 mode a).1 = 0) ∧ (k % 2 = 1 → (f.func contract .cos2 mode a).1 = 0) := by
  by_cases h0 : codeVal f a = 0
  · obtain rfl : k = 0 := by
      rw [h0, eq_comm, div_eq_zero_iff] at hq
      exact_mod_cast hq.resolve_right (by norm_num)
    obtain ⟨-, hsin, hcos⟩ := func_of_codeVal_zero hf mode ha hk h0
    have hone := round_one_exact hf (flush := false) (n := 0) (by rw [f.low_eq]; have := hf.bias_pos; omega) (by have := hf.bias_pos; omega)
      (.inl (Bool.and_false _))
    have hzero := finiteCode_zero hf.toIeee (f.signOf a)
    rw [hf.one_rounded] at hone
    rw [FFmt.gridCode, zero_mul, add_zero, add_zero] at hzero
    rw [hsin, hcos]
    exact ⟨⟨hzero.1, hzero.2, rfl⟩, by simpa [quarterCos] using hone, fun h => absurd rfl h, fun h => absurd h (by decide)⟩
  · obtain ⟨-, -, -, -, -, hsin, hcos⟩ := func_of_nonzero hf mode ha hk h0
    obtain ⟨d, hd, hsinPath⟩ := trigPath_of_quarter f contract false ((ofSigned_val f a).trans hq)
    obtain ⟨d', hd', hcosPath⟩ := trigPath_of_quarter f contract true ((ofSigned_val f a).trans hq)
    rw [if_neg Bool.false_ne_true] at hd
    rw [if_pos rfl] at hd'
    have hfit {i : Int} (hi : i.natAbs ≤ 1) : i.natAbs ≤ 2 ^ f.fb := hi.trans Nat.one_le_two_pow
    rw [hsin, hcos, hsinPath, hcosPath]
    refine ⟨finish_exact_int hf contract hd (hfit (quarterSin_natAbs_le k)), finish_exact_int hf contract hd' (hfit (quarterCos_natAbs_le k)),
      fun _ heven => ?_, fun hodd => ?_⟩
    · have hs : quarterSin k = 0 := by unfold quarterSin; split_ifs <;> omega
      rw [finish_zero contract (Dy.m_eq_zero_of_val (by rw [hd, hs, Int.cast_zero]))]
    · have hc : quarterCos k = 0 := by unfold quarterCos; split_ifs <;> omega
      rw [finish_zero contract (Dy.m_eq_zero_of_val (by rw [hd', hc, Int.cast_zero]))]

/-- `fex2` of an integer, by where the power of two lies in the range (R148). -/
theorem ex2_clauses (hcontract : contract ∈ [0x100, 0x200, 0x300, 0x400]) (h64 : f ≠ fF64) {n : Int} (hn : codeVal f a = n) :
    (1 - f.bias ≤ n → n ≤ f.bias → Exact f (f.func contract .ex2 mode a) (2 ^ n)) ∧
    (1 - f.bias - f.fb ≤ n → n < 1 - f.bias → if f = fF16 ∨ 0x300 ≤ contract then Exact f (f.func contract .ex2 mode a) (2 ^ n)
      else f.func contract .ex2 mode a = (0, flUnderflow ||| flInexact)) ∧
    (n < 1 - f.bias - f.fb → f.func contract .ex2 mode a = (0, flUnderflow ||| flInexact)) ∧
    (f.bias < n → f.func contract .ex2 mode a = ((2 ^ f.eb - 1) * 2 ^ f.fb, flOverflow ||| flInexact)) := by
  rw [ex2_of_int hf mode ha hk hn]
  have hflush (h : ¬ (f = fF16 ∨ 0x300 ≤ contract)) {n : Int} (hn : n < f.emin) :
      f.round (flushVec contract) .rn false 1 n = (0, flUnderflow ||| flInexact, false) := by
    obtain ⟨h16, hc⟩ := not_or.mp h
    have h32 : f = fF32 := (hf.format.resolve_left h64).resolve_right h16
    have hvec : flushVec contract = true := by
      simp only [List.mem_cons, List.not_mem_nil, or_false] at hcontract
      simp only [flushVec, Bool.or_eq_true, beq_iff_eq]
      omega
    rw [hvec]
    exact round_one_flushed hf hn (by rw [hf.flushes_iff.mpr h32]; rfl)
  have hkeep (h : f = fF16 ∨ 0x300 ≤ contract) : (f.flushes && flushVec contract) = false :=
    flushes_flushVec_of_keeps hf (h.imp_left (by rintro rfl; decide))
  refine ⟨fun h1 h2 => ?_, fun h1 h2 => ?_, fun h1 => ?_, fun h1 => ?_⟩
  · exact round_one_exact hf (by rw [f.low_eq]; omega) h2 (.inr h1)
  · split_ifs with h
    · exact round_one_exact hf h1 (by have := hf.bias_pos; omega) (.inl (hkeep h))
    · rw [hflush h h2]
  · by_cases h : f = fF16 ∨ 0x300 ≤ contract
    · rw [round_one_underflow hf h1 (hkeep h)]
    · rw [hflush h (by rw [FFmt.emin]; omega)]
  · rw [round_one_overflow hf _ h1]
end
end

end Sys2Proof.Machine

namespace Sys2Proof.Machine

/-! ### A dyadic that rounds as a number does -/

/-- The dyadic `Q` lies on the same side of every multiple of `2^g` as the number `ρ`, which has more than 64 bits before that place. -/
structure StandsFor (Q : ℚ) (ρ : ℝ) (g : Int) : Prop where
  le_iff : ∀ i : Int, i * 2 ^ g ≤ Q ↔ (i : ℝ) * 2 ^ g ≤ ρ
  ge_iff : ∀ i : Int, Q ≤ i * 2 ^ g ↔ ρ ≤ (i : ℝ) * 2 ^ g
  fine : (2 : ℝ) ^ (g + 64) ≤ ρ

/-- A number of the form `N + 1/2` stands for every number between `N` and `N + 1`, and `N` for itself. -/
theorem standsFor_of_floor {N s : Nat} {x ρ : ℝ} {Q : ℚ} {g : Int} (hlo : N ≤ x) (hhi : x < N + 1) (hs : s = if x = N then 0 else 1)
    (hρ : ρ = x * 2 ^ g) (hQ : Q = (2 * N + s : Nat) * 2 ^ (g - 1)) (hfine : 2 ^ 64 ≤ N) : StandsFor Q ρ g := by
  have hpow : (0 : ℝ) < 2 ^ g := by positivity
  have hpowQ : (0 : ℚ) < 2 ^ g := by positivity
  have hQ' : Q = (N + s / 2) * 2 ^ g := by
    rw [hQ, zpow_sub_one₀ two_ne_zero]
    push_cast
    ring
  have hle (i : Int) : (i : ℚ) ≤ N + s / 2 ↔ i ≤ N := by
    constructor
    · intro h
      have hs1 : (s : ℚ) ≤ 1 := by split_ifs at hs <;> simp [hs]
      have : (i : ℚ) < (N + 1 : Int) := by push_cast; linarith
      exact Int.lt_add_one_iff.mp (by exact_mod_cast this)
    · intro h
      have : (i : ℚ) ≤ N := by exact_mod_cast h
      have : (0 : ℚ) ≤ s / 2 := by positivity
      linarith
  have hleR (i : Int) : (i : ℝ) ≤ x ↔ i ≤ N := by
    constructor
    · intro h
      have : (i : ℝ) < (N + 1 : Int) := by push_cast; linarith
      exact Int.lt_add_one_iff.mp (by exact_mod_cast this)
    · intro h
      have : (i : ℝ) ≤ N := by exact_mod_cast h
      linarith
  have hge (i : Int) : (N : ℚ) + s / 2 ≤ i ↔ x ≤ i := by
    split_ifs at hs with hx
    · subst hs hx
      norm_num
      exact ⟨fun h => by exact_mod_cast h, fun h => by exact_mod_cast h⟩
    · subst hs
      constructor
      · intro h
        have : (N : ℚ) < i := by push_cast at h; linarith
        have hN : (N : Int) < i := by exact_mod_cast this
        have : ((N + 1 : Int) : ℝ) ≤ i := by exact_mod_cast hN
        push_cast at this
        linarith
      · intro h
        have hne : (N : ℝ) < i := (lt_of_le_of_ne hlo (Ne.symm hx)).trans_le h
        have hN : (N : Int) + 1 ≤ i := by exact_mod_cast hne
        have : ((N + 1 : Int) : ℚ) ≤ i := by exact_mod_cast hN
        push_cast at this ⊢
        linarith
  refine ⟨fun i => ?_, fun i => ?_, ?_⟩
  · rw [hQ', hρ, mul_le_mul_iff_left₀ hpowQ, mul_le_mul_iff_left₀ hpow, hle, hleR]
  · rw [hQ', hρ, mul_le_mul_iff_left₀ hpowQ, mul_le_mul_iff_left₀ hpow, hge]
  · rw [hρ, add_comm, zpow_add₀ two_ne_zero]
    refine mul_le_mul_of_nonneg_right (le_trans ?_ hlo) hpow.le
    exact_mod_cast hfine

theorem zpow_le_two_iff_real {i j : Int} : (2 : ℝ) ^ i ≤ 2 ^ j ↔ i ≤ j := zpow_le_zpow_iff_right₀ one_lt_two

theorem two_zpow_eq_mul {g p : Int} (hp : g ≤ p) : ∃ i : Int, (2 : ℚ) ^ p = i * 2 ^ g ∧ (2 : ℝ) ^ p = i * 2 ^ g := by
  obtain ⟨n, rfl⟩ := Int.le.dest hp
  exact ⟨2 ^ n, by rw [add_comm, zpow_add₀ two_ne_zero]; push_cast; rfl, by rw [add_comm, zpow_add₀ two_ne_zero]; push_cast; rfl⟩

namespace StandsFor
variable {Q : ℚ} {ρ : ℝ} {g : Int} (h : StandsFor Q ρ g)
include h

theorem fine_Q : (2 : ℚ) ^ (g + 64) ≤ Q := by
  obtain ⟨i, hi, hiR⟩ := two_zpow_eq_mul (g := g) (p := g + 64) (by omega)
  rw [hi, h.le_iff, ← hiR]
  exact h.fine

theorem two_zpow_le_iff (p : Int) : (2 : ℚ) ^ p ≤ Q ↔ (2 : ℝ) ^ p ≤ ρ := by
  rcases le_or_gt g p with hp | hp
  · obtain ⟨i, hi, hiR⟩ := two_zpow_eq_mul hp
    rw [hi, h.le_iff, ← hiR]
  · exact iff_of_true ((zpow_le_two_iff.mpr (by omega)).trans h.fine_Q) ((zpow_le_two_iff_real.mpr (by omega)).trans h.fine)

theorem le_two_zpow {p : Int} (hp : ρ ≤ 2 ^ p) : Q ≤ 2 ^ p := by
  have hgp : g ≤ p := by
    have := zpow_le_two_iff_real.mp (h.fine.trans hp)
    omega
  obtain ⟨i, hi, hiR⟩ := two_zpow_eq_mul hgp
  rw [hi, h.ge_iff, ← hiR]
  exact hp

theorem pos : 0 < Q := (by positivity : (0 : ℚ) < 2 ^ (g + 64)).trans_le h.fine_Q
end StandsFor

/-- A number of the format from which on every number of the format is a multiple of `2^(g + 1)`, and which is no larger than `Q`. -/
structure Anchor (f : FFmt) (Q : ℚ) (g : Int) (A : ℚ) : Prop where
  isNum : f.IsNum A
  pos : 0 < A
  le : A ≤ Q
  multiple : ∀ y, f.IsNum y → A ≤ y → ∃ i : Int, y = i * 2 ^ (g + 1)

theorem anchor_two_zpow {f : FFmt} (hf : f.FuncFmt) {Q : ℚ} {g p : Int} (hlow : f.low ≤ p) (htop : p ≤ f.bias) (hg : g + 1 + f.fb ≤ p)
    (hp : 2 ^ p ≤ Q) : Anchor f Q g (2 ^ p) := by
  refine ⟨isNum_two_zpow hf hlow htop, by positivity, hp, ?_⟩
  rintro _ ⟨y, hy, rfl⟩ hle
  have hsig : (f.sigOf y : ℚ) < 2 ^ (f.fb + 1) := by exact_mod_cast f.sigOf_lt y
  have hlt : |codeVal f y| < 2 ^ (((f.fb + 1 : Nat) : Int) + (f.low + f.place y)) := by
    rw [abs_codeVal, zpow_add₀ two_ne_zero ((f.fb + 1 : Nat) : Int), zpow_natCast]
    exact mul_lt_mul_of_pos_right hsig (by positivity)
  have hplace := zpow_lt_two_iff.mp ((hle.trans (le_abs_self _)).trans_lt hlt)
  push_cast at hplace
  obtain ⟨n, hn⟩ := Int.le.dest (show g + 1 ≤ f.low + f.place y by omega)
  refine ⟨sgn (f.signOf y) * f.sigOf y * 2 ^ n, ?_⟩
  rw [codeVal_eq, ← hn, zpow_add₀ two_ne_zero, zpow_natCast]
  push_cast
  ring

/-- Of two numbers, which is nearer is told by their middle. -/
theorem nearer_iff {α : Type} [Field α] [LinearOrder α] [IsStrictOrderedRing α] (v y x : α) :
    |v - x| ≤ |y - x| ↔ (v < y → 2 * x ≤ v + y) ∧ (y < v → v + y ≤ 2 * x) := by
  rw [← sq_le_sq]
  rcases lt_trichotomy v y with h | rfl | h
  · simp only [h, h.not_gt, true_imp_iff, false_imp_iff, and_true]
    have hpos := sub_pos.mpr h
    constructor
    · intro hle
      by_contra hnot
      nlinarith [mul_pos hpos (sub_pos.mpr (not_le.mp hnot))]
    · intro hle
      nlinarith [mul_nonneg hpos.le (sub_nonneg.mpr hle)]
  · simp
  · simp only [h, h.not_gt, true_imp_iff, false_imp_iff, true_and]
    have hpos := sub_pos.mpr h
    constructor
    · intro hle
      by_contra hnot
      nlinarith [mul_pos hpos (sub_pos.mpr (not_le.mp hnot))]
    · intro hle
      nlinarith [mul_nonneg hpos.le (sub_nonneg.mpr hle)]

/-- `v` is a nearest number of the format. -/
def Nearest (f : FFmt) (x v : ℚ) : Prop := f.IsNum v ∧ ∀ y, f.IsNum y → |v - x| ≤ |y - x|

section
variable {f : FFmt} {Q A : ℚ} {ρ : ℝ} {g : Int} (h : StandsFor Q ρ g) (hA : Anchor f Q g A)
include h hA

/-- The numbers of the format from the anchor on are told apart from `ρ` by `Q`, and so are the middles of two of them. -/
theorem num_le_iff {y : ℚ} (hy : f.IsNum y) (hAy : A ≤ y) : (y ≤ Q ↔ (y : ℝ) ≤ ρ) ∧ (Q ≤ y ↔ ρ ≤ y) := by
  obtain ⟨i, rfl⟩ := hA.multiple y hy hAy
  have hQ : (i : ℚ) * 2 ^ (g + 1) = (2 * i : Int) * 2 ^ g := by
    rw [zpow_add_one₀ two_ne_zero]; push_cast; ring
  have hR : (((i : ℚ) * 2 ^ (g + 1) : ℚ) : ℝ) = (2 * i : Int) * 2 ^ g := by
    push_cast; rw [zpow_add_one₀ two_ne_zero]; ring
  rw [hR, hQ]
  exact ⟨h.le_iff _, h.ge_iff _⟩

theorem middle_le_iff {y z : ℚ} (hy : f.IsNum y) (hAy : A ≤ y) (hz : f.IsNum z) (hAz : A ≤ z) :
    (y + z ≤ 2 * Q ↔ (y + z : ℝ) ≤ 2 * ρ) ∧ (2 * Q ≤ y + z ↔ 2 * ρ ≤ y + z) := by
  obtain ⟨i, rfl⟩ := hA.multiple y hy hAy
  obtain ⟨j, rfl⟩ := hA.multiple z hz hAz
  have hle := h.le_iff (i + j)
  have hge := h.ge_iff (i + j)
  have hQ : (i : ℚ) * 2 ^ (g + 1) + j * 2 ^ (g + 1) = 2 * ((i + j : Int) * 2 ^ g) := by
    rw [zpow_add_one₀ two_ne_zero]; push_cast; ring
  have hR : (((i : ℚ) * 2 ^ (g + 1) : ℚ) : ℝ) + ((j * 2 ^ (g + 1) : ℚ) : ℝ) = 2 * ((i + j : Int) * 2 ^ g) := by
    push_cast; rw [zpow_add_one₀ two_ne_zero]; ring
  rw [hQ, hR, mul_le_mul_iff_right₀ two_pos, mul_le_mul_iff_right₀ two_pos, mul_le_mul_iff_right₀ two_pos, mul_le_mul_iff_right₀ two_pos]
  exact ⟨hle, hge⟩

omit h in
/-- A nearest number does not lie below the anchor. -/
theorem Nearest.anchor_le {v : ℚ} (hv : Nearest f Q v) : A ≤ v := by
  by_contra hlt
  have hnear := ((nearer_iff v A Q).mp (hv.2 A hA.isNum)).1 (not_le.mp hlt)
  linarith [hA.le]

/-- A number of the format that is nearest to `Q` is nearest to `ρ`, and a tie at `ρ` is one at `Q`. -/
theorem Nearest.standsFor {v : ℚ} (hv : Nearest f Q v) {y : ℚ} (hy : f.IsNum y) :
    |(v : ℝ) - ρ| ≤ |(y : ℝ) - ρ| ∧ (|(y : ℝ) - ρ| = |(v : ℝ) - ρ| → |y - Q| = |v - Q|) := by
  have hAv := hv.anchor_le hA
  have hmid := (nearer_iff v y Q).mp (hv.2 y hy)
  rcases le_or_gt A y with hAy | hyA
  · have hsides := middle_le_iff h hA hv.1 hAv hy hAy
    have hle : |(v : ℝ) - ρ| ≤ |(y : ℝ) - ρ| := by
      rw [nearer_iff, ← hsides.1, ← hsides.2, Rat.cast_lt, Rat.cast_lt]
      exact hmid
    refine ⟨hle, fun heq => ?_⟩
    rcases abs_eq_abs.mp heq with h1 | h1
    · rw [Rat.cast_injective (sub_left_injective h1)]
    · have h2 : (v : ℝ) + y = 2 * ρ := by linarith
      have h3 : v + y = 2 * Q := le_antisymm (hsides.1.mpr h2.le) (hsides.2.mpr h2.ge)
      rw [show y - Q = -(v - Q) by linarith, abs_neg]
  · have hA2 : v + A ≤ 2 * Q := by
      rcases hAv.eq_or_lt with rfl | hlt
      · linarith [hA.le]
      · exact ((nearer_iff v A Q).mp (hv.2 A hA.isNum)).2 hlt
    have hρ := (middle_le_iff h hA hv.1 hAv hA.isNum le_rfl).1.mp hA2
    have hyA' : (y : ℝ) < A := Rat.cast_lt.mpr hyA
    have hAv' : (A : ℝ) ≤ v := Rat.cast_le.mpr hAv
    refine ⟨(nearer_iff _ _ _).mpr ⟨fun hlt => absurd hlt (by linarith), fun _ => by linarith⟩, fun heq => ?_⟩
    rcases abs_eq_abs.mp heq with h1 | h1 <;> linarith
end

end Sys2Proof.Machine

namespace Sys2Proof.Machine

/-! ### The rounding of a dyadic that stands for a root or a quotient -/

theorem finiteCode.neg_code {f : FFmt} {y : Nat} (hy : finiteCode f y) : f.IsNum (-codeVal f y) := by
  obtain ⟨hlt, hexp⟩ := hy
  have hex := expField_lt f y
  obtain ⟨hlt', hexp', hfrac', -⟩ := f.fields_of_parts (!f.signOf y) hex (fracField_lt f y)
  have hsign := f.signOf_parts (!f.signOf y) hex (fracField_lt f y)
  refine ⟨_, ⟨hlt', hexp'.symm ▸ hexp⟩, ?_⟩
  have hsig : f.sigOf ((f.signBit !f.signOf y) + expField f y * 2 ^ f.fb + fracField f y) = f.sigOf y := by
    rw [FFmt.sigOf, hexp', hfrac', FFmt.sigOf]
  have hplace : f.place ((f.signBit !f.signOf y) + expField f y * 2 ^ f.fb + fracField f y) = f.place y := by
    rw [FFmt.place, hexp', FFmt.place]
  rw [codeVal_eq, codeVal_eq, hsign, hsig, hplace]
  cases f.signOf y <;> simp

theorem FFmt.IsNum.sgn_mul {f : FFmt} {v : ℚ} (h : f.IsNum v) (neg : Bool) : f.IsNum (sgn neg * v) := by
  obtain ⟨y, hy, rfl⟩ := h
  cases neg
  · simpa using hy.isNum
  · simpa using hy.neg_code

theorem isNum_maxVal {f : FFmt} (hf : f.Ieee) : f.IsNum (maxVal f) := by
  have hval : ((2 ^ (f.fb + 1) - 1 : Nat) : ℚ) * 2 ^ (f.low + (2 ^ f.eb - 3 : Nat)) = maxVal f := by
    rw [maxVal_eq hf, Nat.cast_sub Nat.one_le_two_pow]
    push_cast
    rfl
  obtain ⟨hfin, hcode⟩ := FFmt.gridCode_of_le hf false (h := 2 ^ f.eb - 3) (K := 2 ^ (f.fb + 1) - 1) (Nat.sub_le _ _)
    (.inr (by have := Nat.two_pow_pos f.fb; rw [pow_succ]; omega)) hval.le
  exact ⟨_, hfin, by rw [hcode, hval, sgn_false, Int.cast_one, one_mul]⟩

/-- A rounding to nearest gives a nearest number. -/
theorem RoundsTo.nearest {f : FFmt} {q : ℚ} {r : Nat} (h : RoundsTo f .rn q r) (hr : finiteCode f r) : Nearest f q (codeVal f r) := by
  refine ⟨hr.isNum, ?_⟩
  rintro _ ⟨y, hy, rfl⟩
  exact (h y hy).1

/-- A rounding down of a positive number. -/
theorem RoundsTo.down {f : FFmt} {mode : RMode} (hmode : mode = .rz ∨ mode = .rm) {q : ℚ} (hq : 0 < q) {r : Nat} (h : RoundsTo f mode q r) :
    codeVal f r ≤ q ∧ ∀ y, f.IsNum y → 0 ≤ y → y ≤ q → y ≤ codeVal f r := by
  rcases hmode with rfl | rfl
  · obtain ⟨hsign, hle, hbest⟩ := h
    have hv : 0 ≤ codeVal f r := nonneg_of_mul_nonneg_left hsign hq
    rw [abs_of_nonneg hv, abs_of_pos hq] at hle
    refine ⟨hle, ?_⟩
    rintro _ ⟨y, hy, rfl⟩ hy0 hyq
    have := hbest y hy (by rwa [abs_of_nonneg hy0, abs_of_pos hq])
    rwa [abs_of_nonneg hy0, abs_of_nonneg hv] at this
  · obtain ⟨hle, hbest⟩ := h
    refine ⟨hle, ?_⟩
    rintro _ ⟨y, hy, rfl⟩ - hyq
    exact hbest y hy hyq

theorem RoundsTo.anchor_le {f : FFmt} {mode : RMode} (hmode : mode ≠ .odd) {Q A : ℚ} {g : Int} (hA : Anchor f Q g A) {r : Nat}
    (hr : finiteCode f r) (h : RoundsTo f mode Q r) : A ≤ codeVal f r := by
  have hQ := hA.pos.trans_le hA.le
  cases mode with
  | odd => exact absurd rfl hmode
  | rn => exact (RoundsTo.nearest h hr).anchor_le hA
  | rz => exact (RoundsTo.down (.inl rfl) hQ h).2 A hA.isNum hA.pos.le hA.le
  | rm => exact (RoundsTo.down (.inr rfl) hQ h).2 A hA.isNum hA.pos.le hA.le
  | rp => exact hA.le.trans h.1

/-- The square root against a number, by squares. -/
theorem le_sqrt_iff {y q : ℚ} (hy : 0 ≤ y) (hq : 0 ≤ q) : (y : ℝ) ≤ √(q : ℝ) ↔ y * y ≤ q := by
  rw [Real.le_sqrt (by exact_mod_cast hy) (by exact_mod_cast hq), ← pow_two]
  exact_mod_cast Iff.rfl

theorem sqrt_le_iff {y q : ℚ} (hy : 0 ≤ y) : √(q : ℝ) ≤ (y : ℝ) ↔ q ≤ y * y := by
  rw [Real.sqrt_le_left (by exact_mod_cast hy), ← pow_two]
  exact_mod_cast Iff.rfl

section
variable {f : FFmt} (hf : f.FuncFmt)
include hf

/-- Where a dyadic stands for a root in the range of the normal numbers, its rounding is that of the root. -/
theorem roundsRoot_of_standsFor {mode : RMode} (hmode : mode ≠ .odd) {q Q : ℚ} (hq : 0 ≤ q) {g : Int} (h : StandsFor Q √(q : ℝ) g)
    (hlo : 2 ^ f.emin ≤ √(q : ℝ)) (hhi : √(q : ℝ) ≤ 2 ^ f.bias) {r : Nat × BitVec 6} (hr : RoundedResult f mode Q r)
    (hfl : r.2 = 0 ∨ r.2 = flInexact) : RoundsRoot f mode q r := by
  obtain ⟨A, hA⟩ : ∃ A, Anchor f Q g A := by
    have hfine : (2 : ℝ) ^ (g + 1 + f.fb) ≤ √(q : ℝ) := (zpow_le_two_iff_real.mpr (by have := hf.fb_le; omega)).trans h.fine
    have hp : (2 : ℝ) ^ max f.emin (g + 1 + f.fb) ≤ √(q : ℝ) := by
      rcases max_cases f.emin (g + 1 + f.fb) with hm | hm <;> rw [hm.1] <;> assumption
    refine ⟨_, anchor_two_zpow hf ?_ (zpow_le_two_iff_real.mp (hp.trans hhi)) (le_max_right _ _) ((h.two_zpow_le_iff _).mpr hp)⟩
    exact (by rw [f.emin_eq]; omega : f.low ≤ f.emin).trans (le_max_left _ _)
  have hfin : finiteCode f r.1 := by
    by_contra hnot
    obtain ⟨hbeyond, -⟩ := hr.2 hnot
    rw [abs_of_pos h.pos] at hbeyond
    exact hbeyond.not_ge ((h.le_two_zpow hhi).trans ((two_zpow_le_maxVal_iff hf _).mpr le_rfl))
  obtain ⟨hround, hexact, hinexact⟩ := hr.1 hfin
  have hAv := RoundsTo.anchor_le hmode hA hfin hround
  have hv := hA.pos.trans_le hAv
  obtain ⟨hvle, hvge⟩ := num_le_iff h hA hfin.isNum hAv
  have hsame : codeVal f r.1 * codeVal f r.1 = q ↔ codeVal f r.1 = Q := by
    rw [le_antisymm_iff, ← le_sqrt_iff hv.le hq, ← sqrt_le_iff hv.le, ← hvle, ← hvge, ← le_antisymm_iff]
  refine ⟨hfin, hv, ?_, fun y hy hy0 => ?_⟩
  · split_ifs with hsq
    · exact hexact (hsame.mp hsq)
    · exact hfl.resolve_left fun h0 => hinexact (mt hsame.mpr hsq) (by rw [h0]; rfl)
  · have hdown (hdir : codeVal f r.1 ≤ Q ∧ ∀ y, f.IsNum y → 0 ≤ y → y ≤ Q → y ≤ codeVal f r.1) :
        codeVal f r.1 * codeVal f r.1 ≤ q ∧ (codeVal f y * codeVal f y ≤ q → codeVal f y ≤ codeVal f r.1) := by
      refine ⟨(le_sqrt_iff hv.le hq).mp (hvle.mp hdir.1), fun hsq => ?_⟩
      rcases le_or_gt A (codeVal f y) with hAy | hyA
      · exact hdir.2 _ hy.isNum hy0 ((num_le_iff h hA hy.isNum hAy).1.mpr ((le_sqrt_iff hy0 hq).mpr hsq))
      · exact hyA.le.trans hAv
    cases mode with
    | odd => exact absurd rfl hmode
    | rz => exact hdown (RoundsTo.down (.inl rfl) h.pos hround)
    | rm => exact hdown (RoundsTo.down (.inr rfl) h.pos hround)
    | rp =>
      obtain ⟨hle, hbest⟩ := hround
      refine ⟨(sqrt_le_iff hv.le).mp (hvge.mp hle), fun hsq => ?_⟩
      have hAy : A ≤ codeVal f y := by
        rw [← Rat.cast_le (K := ℝ)]
        exact ((num_le_iff h hA hA.isNum le_rfl).1.mp hA.le).trans ((sqrt_le_iff hy0).mpr hsq)
      exact hbest y hy ((num_le_iff h hA hy.isNum hAy).2.mpr ((sqrt_le_iff hy0).mpr hsq))
    | rn =>
      have hmid := (nearer_iff _ _ _).mp ((RoundsTo.nearest hround hfin).standsFor h hA hy.isNum).1
      rw [Rat.cast_lt, Rat.cast_lt] at hmid
      have hhalf : ((codeVal f r.1 : ℚ) : ℝ) + (codeVal f y : ℚ) = 2 * ((codeVal f r.1 + codeVal f y) / 2 : ℚ) := by push_cast; ring
      have hmean : 0 ≤ (codeVal f r.1 + codeVal f y) / 2 := by linarith
      rw [hhalf, mul_le_mul_iff_right₀ two_pos, mul_le_mul_iff_right₀ two_pos, le_sqrt_iff hmean hq, sqrt_le_iff hmean] at hmid
      exact ⟨fun hlt => by linarith [hmid.1 hlt], fun hlt => by linarith [hmid.2 hlt]⟩

/-- Where a dyadic stands for a number in the range of the format, its rounding to nearest is that of the number. -/
theorem roundedResult_of_standsFor (neg : Bool) {q Q : ℚ} {g : Int} (h : StandsFor Q (q : ℝ) g) (hlow : 2 ^ f.low ≤ q)
    (hg : g + 1 + f.fb ≤ f.bias) {r : Nat × BitVec 6} (hr : RoundedResult f .rn (sgn neg * Q) r) : RoundedResult f .rn (sgn neg * q) r := by
  obtain ⟨A, hA⟩ : ∃ A, Anchor f Q g A := by
    have hfine : (2 : ℝ) ^ (g + 1 + f.fb) ≤ q := (zpow_le_two_iff_real.mpr (by have := hf.fb_le; omega)).trans h.fine
    have hlow' : (2 : ℝ) ^ f.low ≤ q := by
      have := Rat.cast_le (K := ℝ).mpr hlow
      rwa [Rat.cast_zpow, Rat.cast_ofNat] at this
    have hp : (2 : ℝ) ^ max f.low (g + 1 + f.fb) ≤ q := by
      rcases max_cases f.low (g + 1 + f.fb) with hm | hm <;> rw [hm.1] <;> assumption
    exact ⟨_, anchor_two_zpow hf (le_max_left _ _) (max_le (by rw [f.low_eq]; have := hf.bias_pos; omega) hg) (le_max_right _ _)
      ((h.two_zpow_le_iff _).mpr hp)⟩
  have hq : 0 < q := (by positivity : (0 : ℚ) < 2 ^ f.low).trans_le hlow
  have hsq : (sgn neg : ℚ) * sgn neg = 1 := by cases neg <;> simp
  have hcancel (y : ℚ) : sgn neg * (sgn neg * y) = y := by rw [← mul_assoc, hsq, one_mul]
  have hflip (y x : ℚ) : |y - sgn neg * x| = |sgn neg * y - x| := by rw [← abs_sgn_mul neg, mul_sub, hcancel]
  refine ⟨fun hfin => ?_, fun hnot => ?_⟩
  · obtain ⟨hround, hexact, hinexact⟩ := hr.1 hfin
    have hnear : Nearest f Q (sgn neg * codeVal f r.1) := by
      refine ⟨hfin.isNum.sgn_mul neg, fun y hy => ?_⟩
      obtain ⟨z, hz, hzy⟩ := hy.sgn_mul neg
      have := (hround z hz).1
      rwa [hflip, hflip, hzy, hcancel] at this
    obtain ⟨hvle, hvge⟩ := num_le_iff h hA hnear.1 (hnear.anchor_le hA)
    have hsame : codeVal f r.1 = sgn neg * q ↔ codeVal f r.1 = sgn neg * Q := by
      have hmove (x : ℚ) : codeVal f r.1 = sgn neg * x ↔ sgn neg * codeVal f r.1 = x :=
        ⟨fun e => by rw [e, hcancel], fun e => by rw [← e, hcancel]⟩
      rw [hmove, hmove, le_antisymm_iff, le_antisymm_iff, hvle, hvge, Rat.cast_le, Rat.cast_le]
    refine ⟨fun y hy => ?_, fun heq => hexact (hsame.mp heq), fun hne => hinexact (mt hsame.mpr hne)⟩
    obtain ⟨hle, htie⟩ := hnear.standsFor h hA (hy.isNum.sgn_mul neg)
    rw [hflip, hflip]
    refine ⟨by exact_mod_cast hle, fun heq hne => ?_⟩
    have heqQ := htie (by exact_mod_cast heq)
    rw [← hflip, ← hflip] at heqQ
    exact (hround y hy).2 heqQ hne
  · obtain ⟨hbeyond, hexp, hfrac, hflag, hsign⟩ := hr.2 hnot
    have hiff {x : ℚ} (hx : 0 < x) : sgn neg * x < 0 ↔ neg = true := by cases neg <;> simp [hx, hx.le]
    rw [abs_sgn_mul, abs_of_pos h.pos] at hbeyond
    refine ⟨?_, hexp, hfrac, hflag, by rw [hsign, hiff h.pos, hiff hq]⟩
    rw [abs_sgn_mul, abs_of_pos hq]
    by_contra hle
    obtain ⟨z, hz, hzA⟩ := hA.isNum
    have hAmax : A ≤ maxVal f := hzA ▸ (le_abs_self _).trans (abs_codeVal_le hf.toIeee hz)
    have := (num_le_iff h hA (isNum_maxVal hf.toIeee) hAmax).2.mpr (by exact_mod_cast not_lt.mp hle)
    exact hbeyond.not_ge this
end

/-- An inexact flag beside that of the rounding changes nothing where the number is none of the format. -/
theorem RoundedResult.or_inexact {f : FFmt} {mode : RMode} {q : ℚ} {r : Nat × BitVec 6} (h : RoundedResult f mode q r) {b : Bool}
    (hb : b = false → ¬ f.IsNum q) : RoundedResult f mode q (r.1, r.2 ||| flIf (!b) flInexact) := by
  cases b with
  | true => simpa [flIf] using h
  | false =>
    have hset : ∀ x : BitVec 6, (x ||| flInexact) &&& flInexact ≠ 0 := by decide
    refine ⟨fun hfin => ⟨(h.1 hfin).1, fun heq => absurd ⟨_, hfin, heq⟩ (hb rfl), fun _ => hset _⟩, fun hnot => ?_⟩
    obtain ⟨hbeyond, hexp, hfrac, hflag, hsign⟩ := h.2 hnot
    refine ⟨hbeyond, hexp, hfrac, ?_, hsign⟩
    exact (congrArg (· ||| flInexact) hflag).trans (by decide)

/-- A number in the range of the normal numbers is rounded without a flag or with inexact alone. -/
theorem FFmt.round_flags_of_normal {f : FFmt} (hf : f.Ieee) {mode : RMode} (hmode : mode ≠ .odd) (flush : Bool) {m : Nat} (hm : m ≠ 0) {e : Int}
    (hlo : (2 : ℚ) ^ f.emin ≤ m * 2 ^ e) (hhi : (m : ℚ) * 2 ^ e ≤ maxVal f) :
    (f.round flush mode false m e).2.1 = 0 ∨ (f.round flush mode false m e).2.1 = flInexact := by
  obtain ⟨x, K, g, h⟩ := exists_significand f hmode false hm e
  rw [h.exact_eq] at hlo hhi
  have hfit : ¬ maxVal f < K * 2 ^ g := fun hbeyond => (maxVal_lt_of_rounded hf h.lo h.rounds hbeyond).not_ge hhi
  have hg : f.low ≤ g := by
    have hlt := hlo.trans_lt (mul_lt_mul_of_pos_right h.hi (by positivity : (0 : ℚ) < 2 ^ g))
    rw [← zpow_natCast, ← zpow_add₀ two_ne_zero, zpow_lt_two_iff, f.emin_eq] at hlt
    push_cast at hlt
    omega
  have hnormal : ¬ (K : ℚ) * 2 ^ g < 2 ^ f.emin := by
    rw [not_lt, f.emin_eq, zpow_add₀ two_ne_zero, zpow_natCast]
    exact mul_le_mul (by exact_mod_cast h.le_K) (zpow_le_two_iff.mpr hg) (by positivity) (by positivity)
  rw [f.round_of_normal flush mode false hm e (Bool.eq_false_iff.mpr (mt (h.beyond_iff hf).mp hfit)) (mt (h.expo_lt_iff _).mp hnormal)]
  unfold flIf
  split_ifs
  · exact .inr rfl
  · exact .inl rfl

end Sys2Proof.Machine

namespace Sys2Proof.Machine

/-! ### Integer roots and quotients -/

/-- A step of Newton's iteration stays at or above the root. -/
theorem sqrt_le_newton {n x : Nat} (hx : 0 < x) : Nat.sqrt n ≤ (x + n / x) / 2 := by
  have hsq := Nat.sqrt_le n
  have hlt : n < (n / x + 1) * x := by rw [add_mul, one_mul, mul_comm]; exact Nat.lt_mul_div_succ n hx |>.trans_eq (by ring)
  generalize Nat.sqrt n = s, n / x = b at hsq hlt ⊢
  rw [Nat.le_div_iff_mul_le two_pos]
  by_contra hnot
  have hb : b + 1 + x ≤ 2 * s := by omega
  nlinarith [sq_nonneg ((s : Int) - x)]

/-- From at or above the root, each step halves the distance at least (R151). -/
theorem isqrtLoop_eq {n : Nat} (hn : 0 < n) (fuel : Nat) {x : Nat} (hle : Nat.sqrt n ≤ x) (hfuel : x < Nat.sqrt n + 2 ^ fuel) :
    isqrtLoop (fuel + 1) n x = Nat.sqrt n := by
  have hs : 0 < Nat.sqrt n := Nat.sqrt_pos.mpr hn
  have hdone (k : Nat) : isqrtLoop (k + 1) n (Nat.sqrt n) = Nat.sqrt n := by
    have hdiv : Nat.sqrt n ≤ n / Nat.sqrt n := (Nat.le_div_iff_mul_le hs).mpr (Nat.sqrt_le n)
    unfold isqrtLoop
    exact if_neg (by omega)
  induction fuel generalizing x with
  | zero =>
    obtain rfl : x = Nat.sqrt n := by omega
    exact hdone 0
  | succ fuel ih =>
    rcases hle.eq_or_lt with rfl | hlt
    · exact hdone _
    · have hdiv : n / x < Nat.sqrt n + 1 := by
        rw [Nat.div_lt_iff_lt_mul (by omega)]
        exact (Nat.lt_succ_sqrt n).trans_le (Nat.mul_le_mul_left _ hlt)
      unfold isqrtLoop
      refine (if_pos (by omega)).trans (ih (sqrt_le_newton (by omega)) ?_)
      rw [pow_succ] at hfuel
      omega

theorem isqrt_eq_sqrt (n : Nat) : isqrt n = Nat.sqrt n := by
  unfold isqrt
  split_ifs with h0
  · rw [beq_iff_eq.mp h0, Nat.sqrt_zero]
  · have hn : 0 < n := Nat.pos_of_ne_zero (by simpa using h0)
    have hlt := lt_two_pow_bitLen n
    refine isqrtLoop_eq hn (bitLen n + 1) ?_ ?_
    · rw [← Nat.lt_succ_iff, Nat.sqrt_lt]
      refine hlt.trans_le ?_
      calc 2 ^ bitLen n ≤ 2 ^ ((bitLen n + 1) / 2 + (bitLen n + 1) / 2) := Nat.pow_le_pow_right two_pos (by omega)
        _ ≤ _ := by rw [pow_add]; exact Nat.mul_le_mul (Nat.le_succ _) (Nat.le_succ _)
    · exact (Nat.pow_lt_pow_right (by omega) (by omega : (bitLen n + 1) / 2 < bitLen n + 1)).trans_le (Nat.le_add_left _ _)

/-- The integer root of the floor of a square is the floor of the number. -/
theorem isqrt_floor {T : Nat} {x : ℝ} (hx : 0 ≤ x) (hlo : T ≤ x ^ 2) (hhi : x ^ 2 < T + 1) : (isqrt T : ℝ) ≤ x ∧ x < isqrt T + 1 := by
  rw [isqrt_eq_sqrt]
  constructor
  · refine le_of_sq_le_sq ?_ hx
    have : (Nat.sqrt T ^ 2 : ℝ) ≤ T := by exact_mod_cast (pow_two (Nat.sqrt T)).trans_le (Nat.sqrt_le T)
    linarith
  · refine lt_of_pow_lt_pow_left₀ 2 (by positivity) (hhi.trans_le ?_)
    have : T + 1 ≤ (Nat.sqrt T + 1) ^ 2 := by rw [pow_two]; exact Nat.lt_succ_sqrt T
    exact_mod_cast this

theorem two_pow_le_isqrt {T k : Nat} (h : 2 ^ (k + k) ≤ T) : 2 ^ k ≤ isqrt T := by
  rw [isqrt_eq_sqrt, Nat.le_sqrt, ← pow_add]
  exact h

/-- The number of a pair of a significand and an exponent. -/
def jamVal (r : Nat × Int) : ℚ := r.1 * 2 ^ r.2

theorem sqrt_mul_two_zpow_double (y : ℝ) (j : Int) : √(y * 2 ^ (j + j)) = √y * 2 ^ j := by
  rw [zpow_add₀ two_ne_zero, Real.sqrt_mul' _ (by positivity), Real.sqrt_mul_self (by positivity)]

/-- `sqrtJam` stands for the square root. -/
theorem sqrtJam_standsFor {m : Nat} (hm : m ≠ 0) (e : Int) :
    StandsFor (jamVal (sqrtJam m e)) √((m * 2 ^ e : ℚ) : ℝ) ((sqrtJam m e).2 + 1) := by
  unfold sqrtJam
  generalize hk : 256 + (if (e % 2 == 0) then 0 else 1 : Nat) = k
  obtain ⟨j, hj⟩ : ∃ j, e - k = j + j := by
    refine ⟨(e - k) / 2, ?_⟩
    subst hk
    split_ifs with h
    · rw [beq_iff_eq] at h; push_cast; omega
    · rw [beq_iff_eq] at h; push_cast; omega
  have hk256 : 256 ≤ k := by omega
  have hhalf : (e - k) / 2 = j := by omega
  have hT : 2 ^ (128 + 128) ≤ m * 2 ^ k := (Nat.pow_le_pow_right two_pos hk256).trans (Nat.le_mul_of_pos_left _ (Nat.pos_of_ne_zero hm))
  dsimp only
  generalize hn : m * 2 ^ k = n at hT ⊢
  have hnR : (n : ℝ) = m * 2 ^ k := by rw [← hn]; push_cast; rfl
  have hsq : √(n : ℝ) ^ 2 = n := Real.sq_sqrt (Nat.cast_nonneg n)
  obtain ⟨hlo, hhi⟩ := isqrt_floor (Real.sqrt_nonneg _) hsq.ge (hsq.trans_lt (lt_add_one _))
  rw [hhalf]
  refine standsFor_of_floor hlo hhi (s := if isqrt n * isqrt n == n then 0 else 1) ?_ ?_ ?_ ?_
  · have hiff : isqrt n * isqrt n = n ↔ √(n : ℝ) = isqrt n := by
      rw [Real.sqrt_eq_iff_mul_self_eq (Nat.cast_nonneg n) (Nat.cast_nonneg _)]
      exact_mod_cast eq_comm
    simp only [beq_iff_eq, hiff]
  · rw [sub_add_cancel, ← sqrt_mul_two_zpow_double, hnR, mul_assoc, ← zpow_natCast, ← zpow_add₀ two_ne_zero, ← hj]
    push_cast
    rw [add_sub_cancel]
  · rw [jamVal, sub_add_cancel]
  · exact (Nat.pow_le_pow_right two_pos (by omega)).trans (two_pow_le_isqrt hT)

theorem quotJam_one (m : Nat) : quotJam 128 1 m = (2 * (2 ^ (129 + bitLen m) / m) + (if 2 ^ (129 + bitLen m) % m = 0 then 0 else 1),
    -((129 + bitLen m : Nat) : Int) - 1) := by
  have hk : 128 + bitLen m + 2 - min (bitLen 1) (128 + bitLen m + 2) = 129 + bitLen m := by
    rw [show bitLen 1 = 1 from rfl]
    omega
  unfold quotJam
  simp only [hk, one_mul, beq_iff_eq]

/-- `quotJam` stands for the reciprocal. -/
theorem quotJam_standsFor {m : Nat} (hm : m ≠ 0) (e : Int) :
    StandsFor (jamVal ((quotJam 128 1 m).1, (quotJam 128 1 m).2 - e)) ((1 / (m * 2 ^ e) : ℚ) : ℝ) (-((129 + bitLen m : Nat) : Int) - e) := by
  have hmR : (0 : ℝ) < m := by exact_mod_cast Nat.pos_of_ne_zero hm
  have hlen := lt_two_pow_bitLen m
  have hN : 2 ^ 64 ≤ 2 ^ (129 + bitLen m) / m := by
    rw [Nat.le_div_iff_mul_le (Nat.pos_of_ne_zero hm), pow_add]
    exact Nat.mul_le_mul (by decide) hlen.le
  rw [quotJam_one]
  generalize 129 + bitLen m = k at hN ⊢
  refine standsFor_of_floor (N := 2 ^ k / m) (x := 2 ^ k / m) ?_ ?_ (s := if 2 ^ k % m = 0 then 0 else 1) ?_ ?_ ?_ hN
  · exact_mod_cast Nat.cast_div_le (α := ℝ) (m := 2 ^ k) (n := m)
  · rw [div_lt_iff₀ hmR]
    exact_mod_cast Nat.lt_mul_of_div_lt (Nat.lt_succ_self _) (Nat.pos_of_ne_zero hm)
  · have hiff : 2 ^ k % m = 0 ↔ (2 ^ k / m : ℝ) = (2 ^ k / m : Nat) := by
      rw [div_eq_iff hmR.ne', ← Nat.dvd_iff_mod_eq_zero, Nat.dvd_iff_div_mul_eq]
      exact_mod_cast eq_comm
    simp only [hiff]
  · rw [zpow_sub₀ two_ne_zero, zpow_neg, zpow_natCast]
    push_cast
    field_simp
  · rw [jamVal]
    congr 2
    ring

/-- The root that `rsqrtJam` takes of a significand whose exponent is even. -/
def rsqrtRoot (m k : Nat) : Nat := isqrt (2 ^ (2 * k) / m)

theorem rsqrtJam_eq (m : Nat) (e : Int) : ∃ (m' : Nat) (j : Int), (m' = 0 → m = 0) ∧ (m' * 2 ^ (j + j) : ℚ) = m * 2 ^ e ∧
    let k := bitLen m' + 70
    rsqrtJam m e = (2 * rsqrtRoot m' k + (if rsqrtRoot m' k * rsqrtRoot m' k * m' = 2 ^ (2 * k) then 0 else 1), -(k : Int) - j - 1) := by
  unfold rsqrtJam rsqrtRoot
  by_cases he : e % 2 = 0
  · refine ⟨m, e / 2, id, by rw [show e / 2 + e / 2 = e by omega], ?_⟩
    simp only [he, beq_self_eq_true, if_true, beq_iff_eq]
  · refine ⟨2 * m, (e - 1) / 2, fun h => by omega, ?_, ?_⟩
    · rw [show (e - 1) / 2 + (e - 1) / 2 = e - 1 by omega, zpow_sub_one₀ two_ne_zero]
      push_cast
      ring
    · simp only [beq_iff_eq, he, if_false]

/-- `rsqrtJam` stands for the reciprocal of the square root. -/
theorem rsqrtJam_standsFor {m : Nat} (hm : m ≠ 0) (e : Int) :
    StandsFor (jamVal (rsqrtJam m e)) √((1 / (m * 2 ^ e) : ℚ) : ℝ) ((rsqrtJam m e).2 + 1) := by
  obtain ⟨m', j, hm', hval, heq⟩ := rsqrtJam_eq m e
  have hpos : 0 < m' := Nat.pos_of_ne_zero (mt hm' hm)
  have hmR : (0 : ℝ) < m' := by exact_mod_cast hpos
  have hlen := lt_two_pow_bitLen m'
  rw [heq, ← hval]
  dsimp only
  generalize hk : bitLen m' + 70 = k
  have hT : 2 ^ (64 + 64) ≤ 2 ^ (2 * k) / m' := by
    have hsplit : 2 ^ (2 * k) = 2 ^ (140 + bitLen m') * 2 ^ bitLen m' := by rw [← pow_add]; congr 1; omega
    rw [Nat.le_div_iff_mul_le hpos, hsplit]
    exact Nat.mul_le_mul (Nat.pow_le_pow_right two_pos (by omega)) hlen.le
  have hx : √(2 ^ (2 * k) / m' : ℝ) ^ 2 = 2 ^ (2 * k) / m' := Real.sq_sqrt (by positivity)
  have hfloor : ((2 ^ (2 * k) / m' : Nat) : ℝ) ≤ √(2 ^ (2 * k) / m' : ℝ) ^ 2 ∧
      √(2 ^ (2 * k) / m' : ℝ) ^ 2 < (2 ^ (2 * k) / m' : Nat) + 1 := by
    rw [hx]
    constructor
    · exact_mod_cast Nat.cast_div_le (α := ℝ) (m := 2 ^ (2 * k)) (n := m')
    · rw [div_lt_iff₀ hmR]
      exact_mod_cast Nat.lt_mul_of_div_lt (Nat.lt_succ_self _) hpos
  obtain ⟨hlo, hhi⟩ := isqrt_floor (Real.sqrt_nonneg _) hfloor.1 hfloor.2
  have hfine := two_pow_le_isqrt hT
  change 2 ^ 64 ≤ rsqrtRoot m' k at hfine
  change (rsqrtRoot m' k : ℝ) ≤ _ at hlo
  change _ < (rsqrtRoot m' k : ℝ) + 1 at hhi
  generalize rsqrtRoot m' k = r at hlo hhi hfine ⊢
  refine standsFor_of_floor hlo hhi (s := if r * r * m' = 2 ^ (2 * k) then 0 else 1) ?_ ?_ ?_ hfine
  · have hiff : r * r * m' = 2 ^ (2 * k) ↔ √(2 ^ (2 * k) / m' : ℝ) = r := by
      rw [Real.sqrt_eq_iff_mul_self_eq (by positivity) (Nat.cast_nonneg _), div_eq_iff hmR.ne']
      exact_mod_cast eq_comm
    simp only [hiff]
  · rw [sub_add_cancel, ← sqrt_mul_two_zpow_double]
    congr 1
    rw [show -(k : Int) - j + (-(k : Int) - j) = -((2 * k : Nat) : Int) - (j + j) by push_cast; ring,
      zpow_sub₀ two_ne_zero, zpow_neg, zpow_natCast]
    push_cast
    field_simp
  · rw [jamVal, sub_add_cancel]

end Sys2Proof.Machine

namespace Sys2Proof.Machine

/-! ### Roots and reciprocals are correctly rounded (R151) -/

/-- A natural number that a power of two brings to 1 is a power of two. -/
theorem eq_two_pow_of_mul_zpow {n : Nat} {t : Int} (h : (n : ℚ) * 2 ^ t = 1) : ∃ u : Nat, n = 2 ^ u ∧ t = -(u : Int) := by
  have hn : (n : ℚ) = 2 ^ (-t) := by rw [zpow_neg, eq_inv_of_mul_eq_one_left h]
  have hne : n ≠ 0 := by
    rintro rfl
    simp at h
  have ht : 0 ≤ -t := by
    rw [← zpow_le_two_iff, ← hn, zpow_zero]
    exact_mod_cast Nat.one_le_iff_ne_zero.mpr hne
  obtain ⟨u, hu⟩ := Int.eq_ofNat_of_zero_le ht
  rw [hu, zpow_natCast] at hn
  exact ⟨u, by exact_mod_cast hn, by omega⟩

theorem Dy.isPow2_ofSigned (neg : Bool) (i : Nat) (e : Int) :
    (Dy.ofSigned neg (2 ^ i) e).isPow2 = true ∧ (Dy.ofSigned neg (2 ^ i) e).expo = i + e := by
  have hlen : bitLen (2 ^ i) = i + 1 := by rw [bitLen, if_neg (Nat.two_pow_pos i).ne', Nat.log2_two_pow]
  constructor
  · rw [Dy.isPow2, Dy.natAbs_ofSigned, hlen]
    simp
  · rw [Dy.expo, Dy.natAbs_ofSigned, hlen]
    simp [Dy.ofSigned]

section
variable {f : FFmt} {m : Nat} {e : Int}

/-- A reciprocal that is a number of the format is that of a power of two. -/
theorem isPow2_of_isNum_inv (neg : Bool) (h : f.IsNum (1 / (m * 2 ^ e))) (hm : m ≠ 0) : (Dy.ofSigned neg m e).isPow2 = true := by
  obtain ⟨y, -, hy⟩ := h
  have hmQ : (0 : ℚ) < m := by exact_mod_cast Nat.pos_of_ne_zero hm
  have habs : (f.sigOf y : ℚ) * 2 ^ (f.low + f.place y) = 1 / (m * 2 ^ e) := by
    rw [← abs_codeVal, hy, abs_of_pos (by positivity)]
  obtain ⟨u, hu, -⟩ := eq_two_pow_of_mul_zpow (n := f.sigOf y * m) (t := f.low + f.place y + e) (by
    rw [eq_div_iff (by positivity)] at habs
    rw [zpow_add₀ two_ne_zero _ e, ← habs]
    push_cast
    ring)
  obtain ⟨i, -, rfl⟩ := (Nat.dvd_prime_pow Nat.prime_two).mp (Dvd.intro_left _ hu)
  exact (Dy.isPow2_ofSigned neg i e).1

/-- A reciprocal of which the root is a number of the format is that of a power of four. -/
theorem isPow4_of_isNum_sqrt_inv {v : ℚ} (hv : f.IsNum v) (h : v * v = 1 / (m * 2 ^ e)) (hm : m ≠ 0) : (Dy.ofSigned false m e).isPow4 = true := by
  obtain ⟨y, -, rfl⟩ := hv
  have hmQ : (0 : ℚ) < m := by exact_mod_cast Nat.pos_of_ne_zero hm
  rw [← abs_mul_abs_self, abs_codeVal, eq_div_iff (by positivity)] at h
  obtain ⟨u, hu, ht⟩ := eq_two_pow_of_mul_zpow (n := f.sigOf y * f.sigOf y * m) (t := f.low + f.place y + (f.low + f.place y) + e) (by
    rw [zpow_add₀ two_ne_zero _ e, zpow_add₀ two_ne_zero (f.low + f.place y), ← h]
    push_cast
    ring)
  obtain ⟨i, -, rfl⟩ := (Nat.dvd_prime_pow Nat.prime_two).mp (Dvd.intro_left _ hu)
  obtain ⟨j, -, hj⟩ := (Nat.dvd_prime_pow Nat.prime_two).mp (Dvd.intro _ ((mul_assoc _ _ _).symm.trans hu))
  rw [hj, ← pow_add, ← pow_add] at hu
  have hsum := Nat.pow_right_injective le_rfl hu
  obtain ⟨hpow2, hexpo⟩ := Dy.isPow2_ofSigned false i e
  rw [Dy.isPow4, hpow2, hexpo, Bool.true_and, beq_iff_eq]
  omega
end

/-- The same beside the rounding of a root. -/
theorem RoundsRoot.or_inexact {f : FFmt} {mode : RMode} {q : ℚ} {r : Nat × BitVec 6} (h : RoundsRoot f mode q r) {b : Bool}
    (hb : b = false → ∀ v, f.IsNum v → v * v ≠ q) : RoundsRoot f mode q (r.1, r.2 ||| flIf (!b) flInexact) := by
  obtain ⟨hfin, hpos, hflag, hbest⟩ := h
  refine ⟨hfin, hpos, ?_, hbest⟩
  dsimp only
  rw [hflag]
  cases b with
  | true => simp [flIf]
  | false =>
    rw [if_neg (hb rfl _ hfin.isNum)]
    decide

section
variable {f : FFmt} (hf : f.FuncFmt)
include hf

theorem codeVal_lt_two_zpow {a : Nat} (ha : finiteCode f a) : |codeVal f a| < 2 ^ (f.bias + 1) := by
  refine (abs_codeVal_le hf.toIeee ha).trans_lt (not_le.mp ?_)
  rw [two_zpow_le_maxVal_iff hf]
  omega

/-- A significand that stands for a root in the range of the normal numbers is rounded as the root. -/
theorem roundsRoot_round {mode : RMode} (hmode : mode ≠ .odd) (flush : Bool) {q : ℚ} {g : Int} {r : Nat × Int}
    (h : StandsFor (jamVal r) √(q : ℝ) g) (hlo : 2 ^ (f.emin + f.emin) ≤ q) (hhi : q ≤ 2 ^ (f.bias + f.bias)) :
    RoundsRoot f mode q ((f.round flush mode false r.1 r.2).1, (f.round flush mode false r.1 r.2).2.1) := by
  have hq : 0 ≤ q := (by positivity : (0 : ℚ) ≤ 2 ^ (f.emin + f.emin)).trans hlo
  have hcast (p : Int) : ((2 ^ p : ℚ) : ℝ) = 2 ^ p := by rw [Rat.cast_zpow, Rat.cast_ofNat]
  rw [zpow_add₀ two_ne_zero, ← le_sqrt_iff (by positivity) hq, hcast] at hlo
  rw [zpow_add₀ two_ne_zero, ← sqrt_le_iff (by positivity), hcast] at hhi
  have hloQ := (h.two_zpow_le_iff f.emin).mpr hlo
  have hhiQ := (h.le_two_zpow hhi).trans ((two_zpow_le_maxVal_iff hf _).mpr le_rfl)
  have hm : r.1 ≠ 0 := by
    intro h0
    have := h.pos
    rw [jamVal, h0, Nat.cast_zero, zero_mul] at this
    exact lt_irrefl _ this
  have hexpo : f.emin ≤ (bitLen r.1 : Int) - 1 + r.2 := by
    refine (Dy.le_expo_iff (d := { m := r.1, e := r.2 }) (Int.natCast_ne_zero.mpr hm) f.emin).mpr ?_
    rw [Dy.abs_val, Int.natAbs_natCast]
    exact hloQ
  have hround := FFmt.round_spec hf.toIeee hmode (flush := flush) false hm (e := r.2) (.inr hexpo)
  rw [sgn_false, Int.cast_one, one_mul] at hround
  exact roundsRoot_of_standsFor hf hmode hq h hlo hhi hround (FFmt.round_flags_of_normal hf.toIeee hmode flush hm hloQ hhiQ)

/-- Where no step of Newton is taken (R151). -/
theorem newton_eq_false {contract : Nat} (h : f = fF64 ∨ 0x300 ≤ contract) : (f.fb != 52 && decide (funcRev contract ≤ 2)) = false := by
  rcases h with h | h
  · rw [hf.newton_iff.mpr h, Bool.false_and]
  · have hrev : ¬ funcRev contract ≤ 2 := by rw [funcRev]; omega
    rw [decide_eq_false hrev, Bool.and_false]

theorem frcpPath_eq {contract : Nat} (h : f = fF64 ∨ 0x300 ≤ contract) (neg : Bool) {m : Nat} (hm : m ≠ 0) (e : Int) :
    let r := f.round (flushVec contract) .rn neg (quotJam 128 1 m).1 ((quotJam 128 1 m).2 - e)
    frcpPath f contract (f.fb != 52) (Dy.ofSigned neg m e) = (r.1, r.2.1 ||| flIf (!(Dy.ofSigned neg m e).isPow2) flInexact) := by
  unfold frcpPath
  rw [newton_eq_false hf h, Dy.ofSigned_lt neg hm, Dy.natAbs_ofSigned]
  rfl

theorem frsqPath_eq {contract : Nat} (h : f = fF64 ∨ 0x300 ≤ contract) (m : Nat) (e : Int) :
    let r := f.round (flushVec contract) .rn false (rsqrtJam m e).1 (rsqrtJam m e).2
    frsqPath f contract (f.fb != 52) (Dy.ofSigned false m e) = (r.1, r.2.1 ||| flIf (!(Dy.ofSigned false m e).isPow4) flInexact) := by
  unfold frsqPath
  rw [newton_eq_false hf h, Dy.natAbs_ofSigned]
  rfl

section
variable {contract a : Nat} (ha : finiteCode f a) (hk : f.keeps contract a)
include ha hk

theorem sqrt_rounded {mode : RMode} (hmode : mode ≠ .odd) (hpos : 0 < codeVal f a) :
    RoundsRoot f mode (codeVal f a) (f.func contract .sqrt mode a) := by
  obtain ⟨-, -, -, -, hsqrt, -⟩ := func_of_nonzero hf mode ha hk hpos.ne'
  have hlow := two_zpow_low_le hpos.ne'
  have hhigh := (codeVal_lt_two_zpow hf ha).le
  have hbias := hf.fb_lt_bias
  rw [abs_of_pos hpos] at hlow hhigh
  rw [hsqrt, signOf_of_pos hpos, if_neg Bool.false_ne_true]
  refine roundsRoot_round hf hmode _ (g := (sqrtJam (f.sigOf a) (f.low + f.place a)).2 + 1) ?_
    ((zpow_le_two_iff.mpr ?_).trans hlow) (hhigh.trans (zpow_le_two_iff.mpr ?_))
  · have hval : codeVal f a = f.sigOf a * 2 ^ (f.low + f.place a) := by rw [← abs_codeVal, abs_of_pos hpos]
    rw [hval]
    exact sqrtJam_standsFor (mt sigOf_eq_zero_iff.mp hpos.ne') _
  · rw [f.low_eq, FFmt.emin]
    omega
  · omega

/-- Where the function unit takes no steps of Newton (R151). -/
theorem rsq_rounded (hexact : f = fF64 ∨ 0x300 ≤ contract) (mode : RMode) (hpos : 0 < codeVal f a) :
    RoundsRoot f .rn (1 / codeVal f a) (f.func contract .rsq mode a) := by
  obtain ⟨-, -, -, hrsq, -⟩ := func_of_nonzero hf mode ha hk hpos.ne'
  have hlow := two_zpow_low_le hpos.ne'
  have hhigh := (codeVal_lt_two_zpow hf ha).le
  have hbias := hf.fb_lt_bias
  have hm := mt sigOf_eq_zero_iff.mp hpos.ne'
  have hval : codeVal f a = f.sigOf a * 2 ^ (f.low + f.place a) := by rw [← abs_codeVal, abs_of_pos hpos]
  rw [abs_of_pos hpos] at hlow hhigh
  rw [hrsq, signOf_of_pos hpos, if_neg Bool.false_ne_true, frsqPath_eq hf hexact]
  refine RoundsRoot.or_inexact (r := (_, _)) (roundsRoot_round hf (by decide) _
    (g := (rsqrtJam (f.sigOf a) (f.low + f.place a)).2 + 1) ?_ ?_ ?_) fun hpow v hv hsq => ?_
  · rw [hval]
    exact rsqrtJam_standsFor hm _
  · rw [le_div_iff₀ hpos]
    calc (2 : ℚ) ^ (f.emin + f.emin) * codeVal f a ≤ 2 ^ (f.emin + f.emin) * 2 ^ (f.bias + 1) := mul_le_mul_of_nonneg_left hhigh (by positivity)
      _ ≤ 2 ^ (0 : Int) := by
        rw [← zpow_add₀ two_ne_zero, zpow_le_two_iff, FFmt.emin]
        have := hf.fb_ge
        omega
      _ = 1 := zpow_zero _
  · rw [div_le_iff₀ hpos]
    calc (1 : ℚ) = 2 ^ (0 : Int) := (zpow_zero _).symm
      _ ≤ 2 ^ (f.bias + f.bias) * 2 ^ f.low := by
        rw [← zpow_add₀ two_ne_zero, zpow_le_two_iff, f.low_eq]
        omega
      _ ≤ 2 ^ (f.bias + f.bias) * codeVal f a := mul_le_mul_of_nonneg_left hlow (by positivity)
  · rw [hval] at hsq
    rw [isPow4_of_isNum_sqrt_inv hv hsq hm] at hpow
    exact Bool.false_ne_true hpow.symm

theorem rcp_rounded (hexact : f = fF64 ∨ 0x300 ≤ contract) (mode : RMode) (hne : codeVal f a ≠ 0) :
    RoundedResult f .rn (1 / codeVal f a) (f.func contract .rcp mode a) := by
  obtain ⟨-, -, hrcp, -⟩ := func_of_nonzero hf mode ha hk hne
  have hm := mt sigOf_eq_zero_iff.mp hne
  have hmQ : (0 : ℚ) < f.sigOf a := by exact_mod_cast Nat.pos_of_ne_zero hm
  have hhigh := (codeVal_lt_two_zpow hf ha).le
  have hkeep := flushes_flushVec_of_keeps hf (hexact.imp_left (by rintro rfl; decide) : f ≠ fF32 ∨ 0x300 ≤ contract)
  have hinv : 1 / codeVal f a = sgn (f.signOf a) * (1 / (f.sigOf a * 2 ^ (f.low + f.place a))) := by
    rw [codeVal_eq]
    cases f.signOf a <;> simp
  rw [abs_codeVal] at hhigh
  have hst := quotJam_standsFor hm (f.low + f.place a)
  have hq : (quotJam 128 1 (f.sigOf a)).1 ≠ 0 := by
    intro h0
    have := hst.pos
    rw [jamVal, h0, Nat.cast_zero, zero_mul] at this
    exact lt_irrefl _ this
  have hround := FFmt.round_spec hf.toIeee (mode := .rn) (flush := flushVec contract) (by decide) (f.signOf a) hq
    (e := (quotJam 128 1 (f.sigOf a)).2 - (f.low + f.place a)) (.inl hkeep)
  rw [hrcp, frcpPath_eq hf hexact _ hm, hinv]
  refine RoundedResult.or_inexact (r := (_, _)) (roundedResult_of_standsFor hf _ hst ?_ ?_ hround) fun hpow hnum => ?_
  · rw [le_div_iff₀ (by positivity)]
    calc (2 : ℚ) ^ f.low * (f.sigOf a * 2 ^ (f.low + f.place a)) ≤ 2 ^ f.low * 2 ^ (f.bias + 1) := mul_le_mul_of_nonneg_left hhigh (by positivity)
      _ ≤ 2 ^ (0 : Int) := by
        rw [← zpow_add₀ two_ne_zero, zpow_le_two_iff, f.low_eq]
        have := hf.fb_ge
        omega
      _ = 1 := zpow_zero _
  · have := hf.fb_le
    rw [f.low_eq]
    omega
  · have := hnum.sgn_mul (f.signOf a)
    rw [← mul_assoc, show (sgn (f.signOf a) : ℚ) * sgn (f.signOf a) = 1 by cases f.signOf a <;> simp, one_mul] at this
    rw [isPow2_of_isNum_inv _ this hm] at hpow
    exact Bool.false_ne_true hpow.symm
end
end

/-! ### The statement -/

theorem completes_bodyFunc {i : Instr} {s : State} (h : Ready i s) (hwide : s.taskWide i = s) {f : FmtA} {op : Func}
    (he : exec i s = issue i s (bodyFunc f op)) :
    Completes i s (putA f s (active i s) f.ty.wide (fun l => (funcFmt f.ty).func s.contract op (RMode.ofCode f.rnd.toNat)
      (if f.ty = .f16 then srcA f s l % 2 ^ 16 else srcA f s l))) := by
  refine completes_of_done i s _ _ h he ?_
  rw [hwide]
  simp only [bodyFunc, bodyA2, beq_iff_eq]
  rfl

theorem completes_fstat {f : FmtA} {s : State} (h : Ready (.fstat f) s) (hdue : s.flagsDue s.cur (active (.fstat f) s) = false) :
    Completes (.fstat f) s (s.withCur ((s.cur.writeLanes false false f.vd.toNat (active (.fstat f) s)
      (fun l => (s.cur.lane l).flags.toNat)).modLanes (active (.fstat f) s) (fun x => { x with flags := 0 }))) :=
  completes_of_done _ s _ (bodyFstat f) h rfl (if_neg (by rw [Bool.not_eq_true]; exact hdue))

/-- Settles O11: the special operands by the value that the operand is read as; the exact points since every remainder of their paths
is zero; roots and reciprocals since the significand that is rounded lies on the same side of every middle of two numbers of the format
as the number for which it stands. -/
theorem functionUnitResults : Obligations.FunctionUnitResults := by
  refine ⟨fun f s => ?_, fun f contract mode hmem hcontract hmode => ?_⟩
  · exact ⟨fun h => completes_bodyFunc h rfl rfl, fun h => completes_bodyFunc h rfl rfl, fun h => completes_bodyFunc h rfl rfl,
      fun h => completes_bodyFunc h rfl rfl, fun h => completes_bodyFunc h rfl rfl, fun h => completes_bodyFunc h rfl rfl,
      fun h => completes_bodyFunc h rfl rfl, fun h hdue => completes_fstat h hdue⟩
  · have hf := FFmt.funcFmt_of_mem hmem
    obtain ⟨hex2, hlg2, hrcp, hrsq, hsqrt, hsin, hcos⟩ := specialOperands hf contract mode
    refine ⟨hex2, hlg2, hrcp, hrsq, hsqrt, hsin, hcos, fun op a ha => func_of_nanCode hf contract mode hcontract op ha,
      fun op a ha hk => func_of_flushed hf contract mode hcontract ha hk op, fun a ha hk => ⟨fun hneg => ?_, fun n h64 hn => ?_,
        fun n _ hn => lg2_of_two_zpow hf mode ha hk hn, fun k _ hq => ?_,
        fun hpos => sqrt_rounded hf ha hk hmode hpos, fun hexact => ⟨fun hne => rcp_rounded hf ha hk hexact mode hne,
          fun hpos => rsq_rounded hf ha hk hexact mode hpos⟩⟩⟩
    · exact func_of_negative hf mode ha hk hneg
    · exact ex2_clauses hf mode ha hk hcontract h64 hn
    · obtain ⟨hsin, hcos, hzeros⟩ := trig_of_quarter hf mode ha hk hq
      rw [quarterSin_cast] at hsin
      rw [quarterCos_cast] at hcos
      exact ⟨hsin, hcos, hzeros⟩

end Sys2Proof.Machine

namespace Sys2Proof.Machine

/-! ### An instruction that waits (R32, R172, R220) -/

/-- The body waits: the instruction stays where it is, and the wave has a reason to wait. -/
theorem exec_of_wait {i : Instr} {s u : State} {why : Why} {body : List Nat → List Nat → State → Res} (h : Ready i s)
    (he : exec i s = issue i s body) (hb : body s.cur.issuingSet (active i s) (s.taskWide i) = .wait why u) :
    exec i s = .next (u.withCur { u.cur with why := why }) := by
  rw [he, issue_ready i s body h, hb]
  unfold settle
  rw [spec_of_ready h]
  rfl

theorem active_isEmpty_of_ready {i : Instr} {s : State} (h : Ready i s) : (active i s).isEmpty = false := by
  rw [List.isEmpty_eq_false_iff]
  exact active_ne_nil_of_ready h

theorem Wave.SameButWhy.issuingSet {v w : Wave} (h : v.SameButWhy w) : v.issuingSet = w.issuingSet := by
  obtain ⟨y, rfl⟩ := h
  rfl

theorem Wave.SameButWhy.getS {v w : Wave} (h : v.SameButWhy w) (r : Nat) : v.getS r = w.getS r := by
  obtain ⟨y, rfl⟩ := h
  rfl

/-! ### What a generation that times out leaves as it is (R161) -/

/-- What every timeout keeps, the check of the bound before an instruction keeps. -/
theorem State.cvTick_keeps (P : State → Prop)
    (hstep : ∀ (u : State) (k : Nat), P u → (u.cvOf k).counts = true → P (u.cvTimedOut u.cur.key.grid u.cur.key.team k))
    (s : State) (hs : P s) : P s.cvTick := by
  unfold State.cvTick
  generalize List.range 8 = ks
  induction ks generalizing s with
  | nil => exact hs
  | cons k r ih =>
    rw [List.foldl_cons]
    refine ih _ ?_
    dsimp only
    split_ifs with h
    · rw [Bool.and_eq_true] at h
      exact hstep s k hs h.1
    · exact hs

theorem State.grids_wildElems (s : State) (core k m : Nat) (f64 : Bool) : (s.wildElems core k m f64).grids = s.grids := by
  unfold State.wildElems
  dsimp only
  split_ifs <;> rfl

theorem State.grids_cvTimedOut (s : State) (grid team k : Nat) : (s.cvTimedOut grid team k).grids = s.grids := by
  unfold State.cvTimedOut
  dsimp only [State.mapWaves]
  split_ifs
  · exact State.grids_wildElems ..
  · rfl

theorem State.grids_cvTick (s : State) : s.cvTick.grids = s.grids :=
  State.cvTick_keeps (fun u => u.grids = s.grids) (fun u k hu _ => (u.grids_cvTimedOut _ _ k).trans hu) s rfl

theorem State.gridOf_cvTick (s : State) : s.cvTick.gridOf s.cvTick.cur = s.gridOf s.cur := by
  unfold State.gridOf
  rw [s.grids_cvTick, s.cur_cvTick_stays.1]

/-! ### The timeout trap (R161) -/

theorem State.cvTrap_of_timed {s : State} {k g : Nat} {m : BitVec 64} (iss : List Nat) (hown : s.cur.ownOf k = some g)
    (hmask : (s.cvOf k).timedMask g = some m) :
    s.cvTrap k iss = some (.trap (s.withCur (s.cur.setOwn k none false)) ⟨11, iss, 0, k + g * 2 ^ 16, m.toNat, []⟩) := by
  unfold State.cvTrap
  simp only [hown, hmask]
  rfl

theorem State.cvTrap_of_untimed {s : State} {k g : Nat} (iss : List Nat) (hown : s.cur.ownOf k = some g)
    (hmask : (s.cvOf k).timedMask g = none) : s.cvTrap k iss = none := by
  unfold State.cvTrap
  simp only [hown, hmask]

/-! ### The bodies once generations have timed out (R158, R159, R172) -/

/-- `cvdecl` takes the timeout trap ahead of the check of its operand. -/
theorem bodyCvdecl_timed {f : FmtKey} {iss act : List Nat} {s : State} {r : Res} (h : s.cvTick.cvTrap f.k.toNat iss = some r) :
    bodyCvdecl f iss act s = r := by
  unfold bodyCvdecl
  simp only [h]

theorem bodyCvdecl_illegal {f : FmtKey} {iss act : List Nat} {s : State} (h : s.cvTick.cvTrap f.k.toNat iss = none)
    (hlegal : declLegal (s.cur.getS f.sa.toNat).toNat (s.gridOf s.cur).threads = false) :
    bodyCvdecl f iss act s = .trap s.cvTick (illegal iss) := by
  unfold bodyCvdecl
  simp only [h, s.cur_cvTick.getS, s.gridOf_cvTick, hlegal, Bool.not_false, if_true]

/-- The declared generation `c` stands in register `k`, and is the wave's own (R158). -/
def State.adopt (s : State) (k : Nat) (c : Cv) : State := (s.putCv k c).withCur ((s.putCv k c).cur.setOwn k (some c.gen) false)

/-- A declared generation that no member has signed, declared with another size and base (R158). -/
def Cv.redeclared (c : Cv) (n b : Nat) (gone : List Nat) : Cv :=
  ({ c with s := n, b := b, signed := (({ c with s := n, b := b } : Cv).gone gone).foldl insNat [] } : Cv).closeEmpty

/-- A declaration of `n` members from `b` on of the generation in a register (R158). -/
def State.declareCv (s : State) (k n b : Nat) (gone : List Nat) : Res :=
  let c := s.cvOf k
  match c.st with
  | .idle | .done | .timedOut => .done (s.adopt k (c.opened n b gone)) []
  | .declared =>
    if c.word = none then
      .done (s.adopt k (c.redeclared n b gone)) []
    else if c.s = n ∧ c.b = b then .done (s.adopt k c) [] else .wait .cv s
  | .issued => .wait .cv s

section
variable {s : State} {k n b : Nat} {gone : List Nat}

theorem State.declareCv_opens (h : (s.cvOf k).st = .idle ∨ (s.cvOf k).st = .done ∨ (s.cvOf k).st = .timedOut) :
    s.declareCv k n b gone = .done (s.adopt k ((s.cvOf k).opened n b gone)) [] := by
  unfold State.declareCv
  rcases h with h | h | h <;> simp only [h]

theorem State.declareCv_unsigned (h : (s.cvOf k).st = .declared) (hword : (s.cvOf k).word = none) :
    s.declareCv k n b gone = .done (s.adopt k ((s.cvOf k).redeclared n b gone)) [] := by
  unfold State.declareCv
  simp only [h, hword, if_true]

theorem State.declareCv_same (h : (s.cvOf k).st = .declared) (hword : (s.cvOf k).word ≠ none) (hn : (s.cvOf k).s = n) (hb : (s.cvOf k).b = b) :
    s.declareCv k n b gone = .done (s.adopt k (s.cvOf k)) [] := by
  unfold State.declareCv
  simp only [h, hword, hn, hb, and_self, if_true, if_false]

theorem State.declareCv_waits (h : (s.cvOf k).st = .issued ∨
    ((s.cvOf k).st = .declared ∧ (s.cvOf k).word ≠ none ∧ ¬ ((s.cvOf k).s = n ∧ (s.cvOf k).b = b))) :
    s.declareCv k n b gone = .wait .cv s := by
  unfold State.declareCv
  rcases h with h | ⟨h, hword, hother⟩
  · simp only [h]
  · simp only [h, hword, hother, if_false]

end

theorem bodyCvdecl_legal {f : FmtKey} {iss act : List Nat} {s : State} (h : s.cvTick.cvTrap f.k.toNat iss = none)
    (hlegal : declLegal (s.cur.getS f.sa.toNat).toNat (s.gridOf s.cur).threads = true) :
    bodyCvdecl f iss act s = s.cvTick.declareCv f.k.toNat ((s.cur.getS f.sa.toNat).toNat % 2 ^ 7)
      ((s.cur.getS f.sa.toNat).toNat / 2 ^ 16 % 2 ^ 11) (s.cvTick.exitedTids s.cur.key.grid s.cur.key.team) := by
  unfold bodyCvdecl State.declareCv Cv.redeclared
  simp only [h, s.cur_cvTick.getS, s.gridOf_cvTick, hlegal, Bool.not_true, Bool.false_eq_true, if_false, s.cur_cvTick_stays.1, nbits]
  generalize s.cvTick = u
  generalize (s.cur.getS f.sa.toNat).toNat = v
  cases hst : (u.cvOf f.k.toNat).st with
  | idle | done | timedOut =>
    simp only [pow_zero, Nat.div_one]
    rfl
  | issued => rfl
  | declared =>
    simp only [pow_zero, Nat.div_one, Option.isNone_iff_eq_none, Bool.and_eq_true, beq_iff_eq]
    rfl

theorem completes_cvdecl {f : FmtKey} {s u : State} (hr : Ready (.cvdecl f) s) (h : s.cvTick.cvTrap f.k.toNat s.cur.issuingSet = none)
    (hlegal : declLegal (s.cur.getS f.sa.toNat).toNat (s.gridOf s.cur).threads = true)
    (hdone : s.cvTick.declareCv f.k.toNat ((s.cur.getS f.sa.toNat).toNat % 2 ^ 7) ((s.cur.getS f.sa.toNat).toNat / 2 ^ 16 % 2 ^ 11)
      (s.cvTick.exitedTids s.cur.key.grid s.cur.key.team) = .done u []) : Completes (.cvdecl f) s u :=
  completes_of_done _ s u (bodyCvdecl f) hr rfl ((bodyCvdecl_legal h hlegal).trans hdone)

/-! ### Signatures (R159, R163) -/

/-- The operand in the scratchpad that a signature names. -/
def signHandle (f : FmtX) (scratch : Bool) (w : Wave) : Nat := if scratch then (w.getS (baseS f.vb)).toNat else 0

/-- The register of a signature, once the active lanes have signed. -/
def State.signedCv (s : State) (f : FmtX) (scratch : Bool) (i : Instr) (act : List Nat) : Cv :=
  (s.cvOf f.cv.toNat).sign s.gtc (signWord (encode i)) (signHandle f scratch s.cur) (act.map (s.cur.frag f scratch (s.cvOf f.cv.toNat)))

/-- The state with a signature made: the register, the wave's own generation, and the registers that it must not write (R165). -/
def State.signed (s : State) (f : FmtX) (scratch : Bool) (act : List Nat) (c : Cv) : State :=
  let put := s.putCv f.cv.toNat c
  let own := put.cur.setOwn f.cv.toNat (some c.gen) true
  put.withCur { own with watch := own.watch ++ [own.watch1 f scratch f.cv.toNat c act] }

/-- The state after a signature: where every member has then signed, the operation is issued (R159). -/
def State.afterSign (s : State) (f : FmtX) (scratch : Bool) (i : Instr) (act : List Nat) : State :=
  let c := s.signedCv f scratch i act
  if c.full then (s.signed f scratch act c).cvIssue s.cur.key f.cv.toNat else s.signed f scratch act c

theorem bodySign_done {f : FmtX} {scratch : Bool} {i : Instr} {iss act : List Nat} {s : State} (hact : act.isEmpty = false)
    (htrap : s.cvTick.cvTrap f.cv.toNat iss = none)
    (hcheck : signCheck f scratch (signHandle f scratch s.cvTick.cur) (signWord (encode i)) iss act s.cvTick = none)
    (hroom : (s.cvTick.signedCv f scratch i act).full = true → s.cvTick.engineFull = false) :
    bodySign f scratch i iss act s = .done (s.cvTick.afterSign f scratch i act) [] := by
  have hwait : ((s.cvTick.signedCv f scratch i act).full && s.cvTick.engineFull) = false := by
    rw [Bool.and_eq_false_iff]
    exact (Bool.eq_false_or_eq_true _).symm.imp_right hroom
  unfold bodySign
  generalize s.cvTick = u at *
  unfold State.afterSign State.signedCv signHandle at *
  simp only [htrap, hact, hcheck, hwait, Bool.false_eq_true, if_false]
  rfl

/-! ### Awaiting a generation (R172) -/

theorem bodyMmaw_none {f : FmtCv} {iss act : List Nat} {s : State} (hown : s.cvTick.cur.ownOf f.k.toNat = none) :
    bodyMmaw f iss act s = .done s.cvTick [] := by
  unfold bodyMmaw
  simp only [hown]

theorem bodyMmaw_timed {f : FmtCv} {iss act : List Nat} {s : State} {g : Nat} {r : Res} (hown : s.cvTick.cur.ownOf f.k.toNat = some g)
    (h : s.cvTick.cvTrap f.k.toNat iss = some r) : bodyMmaw f iss act s = r := by
  unfold bodyMmaw
  simp only [hown, h]

theorem bodyMmaw_done {f : FmtCv} {iss act : List Nat} {s : State} {g : Nat} {st : BitVec 6} (hact : act.isEmpty = false)
    (hown : s.cvTick.cur.ownOf f.k.toNat = some g) (h : s.cvTick.cvTrap f.k.toNat iss = none)
    (hdone : mget (s.cvTick.cvOf f.k.toNat).done g = some st) :
    bodyMmaw f iss act s =
      .done (s.cvTick.withCur ((s.cvTick.cur.observed f.k.toNat g).orFlags act (fun _ => st))) [] := by
  unfold bodyMmaw
  simp only [hown, h, hdone, hact, Bool.false_eq_true, if_false]
  rfl

theorem bodyMmaw_wait {f : FmtCv} {iss act : List Nat} {s : State} {g : Nat} (hown : s.cvTick.cur.ownOf f.k.toNat = some g)
    (h : s.cvTick.cvTrap f.k.toNat iss = none) (hdone : mget (s.cvTick.cvOf f.k.toNat).done g = none) :
    bodyMmaw f iss act s = .wait .cv s.cvTick := by
  unfold bodyMmaw
  simp only [hown, h, hdone]

/-- `mma`, and `mmas` whose B operand stands in the scratchpad. -/
def signInstr (f : FmtX) (scratch : Bool) : Instr := if scratch then .mmas f else .mma f

theorem exec_sign (f : FmtX) (scratch : Bool) (s : State) :
    exec (signInstr f scratch) s = issue (signInstr f scratch) s (bodySign f scratch (signInstr f scratch)) := by
  cases scratch <;> rfl

theorem completes_sign {f : FmtX} {scratch : Bool} {s u : State} (hu : s.cvTick = u) (hr : Ready (signInstr f scratch) s)
    (htrap : u.cvTrap f.cv.toNat u.cur.issuingSet = none)
    (hcheck : signCheck f scratch (signHandle f scratch u.cur) (signWord (encode (signInstr f scratch))) u.cur.issuingSet
      (active (signInstr f scratch) s) u = none)
    (hroom : (u.signedCv f scratch (signInstr f scratch) (active (signInstr f scratch) s)).full = true → u.engineFull = false) :
    Completes (signInstr f scratch) s (u.afterSign f scratch (signInstr f scratch) (active (signInstr f scratch) s)) := by
  subst hu
  have hwide : s.taskWide (signInstr f scratch) = s := by cases scratch <;> rfl
  rw [s.cur_cvTick.issuingSet] at htrap hcheck
  refine completes_of_done _ s _ _ hr (exec_sign f scratch s) ?_
  rw [hwide]
  exact bodySign_done (active_isEmpty_of_ready hr) htrap hcheck hroom

/-- Settles O27: the bodies by the cases of the wave's own generation and of the register's state, once the generations that have reached
the bound are timed out. -/
theorem convergenceResults : Obligations.ConvergenceResults := by
  refine ⟨fun f s hr => ?_, fun f s hr htrap hlegal => ?_, fun f s scratch => ?_, fun f s hr => ⟨?_, ?_, ?_⟩, fun i k s g m hi hr hown hmask => ?_⟩
  · intro k v n b s0 c gone adopt htrap hlegal
    exact ⟨fun hst => completes_cvdecl hr htrap hlegal (State.declareCv_opens hst),
      fun hst hword => completes_cvdecl hr htrap hlegal (State.declareCv_unsigned hst hword),
      fun hst hword hs hb => completes_cvdecl hr htrap hlegal (State.declareCv_same hst hword hs hb),
      fun hst => exec_of_wait (body := bodyCvdecl f) hr rfl ((bodyCvdecl_legal htrap hlegal).trans (State.declareCv_waits hst))⟩
  · exact traps_of_trap _ s _ _ (bodyCvdecl f) hr rfl (bodyCvdecl_illegal htrap hlegal)
  · generalize hs0 : s.cvTick = s0
    exact completes_sign hs0
  · exact fun hown => completes_of_done _ s _ (bodyMmaw f) hr rfl (bodyMmaw_none hown)
  · exact fun g st hown hmask hdone => completes_of_done _ s _ (bodyMmaw f) hr rfl
      (bodyMmaw_done (active_isEmpty_of_ready hr) hown (State.cvTrap_of_untimed _ hown hmask) hdone)
  · exact fun g hown hmask hdone => exec_of_wait hr rfl (bodyMmaw_wait hown (State.cvTrap_of_untimed _ hown hmask) hdone)
  · have hreq := State.cvTrap_of_timed s.cur.issuingSet hown hmask
    rcases hi with ⟨f, rfl, rfl⟩ | ⟨f, rfl, rfl⟩
    · exact traps_of_trap _ s _ _ (bodyMmaw f) hr rfl (bodyMmaw_timed hown hreq)
    · exact traps_of_trap _ s _ _ (bodyCvdecl f) hr rfl (bodyCvdecl_timed hreq)

end Sys2Proof.Machine

namespace Sys2Proof.Machine

/-! ### The signed word (R159) -/

/-- A bitwise and, field by field. -/
theorem land_fields {n b d : Nat} (a c : Nat) (hb : b < 2 ^ n) (hd : d < 2 ^ n) :
    (2 ^ n * a + b) &&& (2 ^ n * c + d) = 2 ^ n * (a &&& c) + (b &&& d) := by
  refine Nat.eq_of_testBit_eq fun j => ?_
  rw [Nat.testBit_and, Nat.testBit_two_pow_mul_add a hb, Nat.testBit_two_pow_mul_add c hd,
    Nat.testBit_two_pow_mul_add _ (Nat.and_lt_two_pow b hd)]
  split <;> rw [Nat.testBit_and]

/-- The fields of a word of format X between the guard and the mode bits (R62). -/
def operandFields (f : FmtX) : Nat :=
  f.va.toNat * 2 ^ 37 + f.vb.toNat * 2 ^ 27 + f.acc.toNat * 2 ^ 20 + f.cv.toNat * 2 ^ 17 + f.shape.toNat * 2 ^ 12 + f.fa.toNat * 2 ^ 8 +
  f.fb.toNat * 2 ^ 4 + f.fc.toNat

theorem operandFields_lt (f : FmtX) : operandFields f < 2 ^ 47 := by
  have := f.va.isLt; have := f.vb.isLt; have := f.acc.isLt; have := f.cv.isLt
  have := f.shape.isLt; have := f.fa.isLt; have := f.fb.isLt; have := f.fc.isLt
  unfold operandFields
  omega

theorem encX_eq (m : Nat) (f : FmtX) : encX m f =
    2 ^ 56 * m + (2 ^ 51 * f.g.toNat + (2 ^ 4 * operandFields f + (2 ^ 2 * (2 * f.ma.toNat + f.mb.toNat) + 2 * f.z.toNat))) := by
  unfold encX encTop operandFields
  ring

/-- The bits that a signature keeps of a word: all but the guard and the mode bits. -/
theorem encX_land (m : Nat) (f : FmtX) (hm : m < 2 ^ 8) :
    encX m f &&& 0xFF07FFFFFFFFFFF3 = encX m { f with g := 0, ma := false, mb := false } := by
  have hfields := operandFields_lt f
  have hz : 2 * f.z.toNat < 2 ^ 2 := by cases f.z <;> decide
  have hmodes : 2 * f.ma.toNat + f.mb.toNat < 2 ^ 2 := by cases f.ma <;> cases f.mb <;> decide
  have hg := f.g.isLt
  have hmask : 0xFF07FFFFFFFFFFF3 = 2 ^ 56 * (2 ^ 8 - 1) + (2 ^ 51 * 0 + (2 ^ 4 * (2 ^ 47 - 1) + (2 ^ 2 * 0 + (2 ^ 2 - 1)))) := by norm_num
  rw [encX_eq, hmask, land_fields _ _ (by omega) (by norm_num), land_fields _ _ (by omega) (by norm_num),
    land_fields _ _ (by omega) (by norm_num), land_fields _ _ hz (by norm_num), Nat.and_two_pow_sub_one_eq_mod,
    Nat.and_two_pow_sub_one_eq_mod, Nat.and_two_pow_sub_one_eq_mod, Nat.and_zero, Nat.and_zero, Nat.mod_eq_of_lt hm,
    Nat.mod_eq_of_lt hfields, Nat.mod_eq_of_lt hz, encX_eq]
  rfl

theorem encX_lt {m : Nat} (f : FmtX) (hm : m < 2 ^ 8) : encX m f < 2 ^ 64 := by
  have := operandFields_lt f
  have := f.g.isLt
  have := f.ma.toNat_lt; have := f.mb.toNat_lt; have := f.z.toNat_lt
  rw [encX_eq]
  omega

/-- What a signature records is the word of the same operation without guard and mode bits. -/
theorem signWord_encode_mma (f : FmtX) : signWord (encode (.mma f)) = encode (.mma { f with g := 0, ma := false, mb := false }) := by
  refine BitVec.eq_of_toNat_eq ?_
  have hword (x : FmtX) : (encode (.mma x)).toNat = encX 0x91 x :=
    (BitVec.toNat_ofNat _ _).trans (Nat.mod_eq_of_lt (encX_lt x (by decide)))
  rw [signWord, BitVec.toNat_and, hword, hword]
  exact encX_land 0x91 f (by decide)

/-! ### A signature in the register (R159) -/

theorem mem_insNat {l : List Nat} {k x : Nat} : x ∈ insNat l k ↔ x = k ∨ x ∈ l := by
  induction l with
  | nil => simp [insNat]
  | cons j r ih =>
    unfold insNat
    split_ifs with hlt heq
    · exact List.mem_cons
    · rw [heq, List.mem_cons, or_self_left]
    · rw [List.mem_cons, ih, List.mem_cons, or_left_comm]

theorem mem_foldl_insNat {α : Type} (f : α → Nat) (xs : List α) (l : List Nat) (k : Nat) :
    k ∈ xs.foldl (fun m x => insNat m (f x)) l ↔ k ∈ l ∨ k ∈ xs.map f := by
  induction xs generalizing l with
  | nil => simp
  | cons x r ih => rw [List.foldl_cons, ih, mem_insNat, List.map_cons, List.mem_cons, or_assoc, or_left_comm]

/-- A signature that names the operation that the register holds already, or is the first (R159). -/
theorem Cv.sign_eq {c : Cv} {word : Word64} {handle : Nat} (now : Nat) (frags : List Frag)
    (hword : ∀ v h, c.word = some (v, h) → v = word ∧ h.toNat = handle) : ∃ start,
    c.sign now word handle frags = { c with
      word := some (word, BitVec.ofNat 64 handle), start := start,
      signed := frags.foldl (fun m x => insNat m x.rank) c.signed, frags := c.frags ++ frags } := by
  unfold Cv.sign
  cases hw : c.word with
  | none => exact ⟨now, rfl⟩
  | some p =>
    obtain ⟨v, h⟩ := p
    obtain ⟨rfl, hh⟩ := hword v h hw
    have hsome : c.word.isNone = false := by rw [hw]; rfl
    refine ⟨c.start, ?_⟩
    rw [← hh, BitVec.ofNat_toNat, BitVec.setWidth_eq, ← hw]
    simp only [hsome, Bool.false_eq_true, if_false]

/-- The members that have still to sign once those of the given ranks have done so. -/
def Cv.left (c : Cv) (ranks : List Nat) : List Nat := (List.range c.s).filter (fun r => !c.signed.contains r && !ranks.contains r)

theorem Cv.full_iff {c d : Cv} {ranks : List Nat} (hs : d.s = c.s) (hsigned : ∀ r, r ∈ d.signed ↔ r ∈ c.signed ∨ r ∈ ranks) :
    d.full = true ↔ c.left ranks = [] := by
  simp only [Cv.full, Cv.left, hs, List.all_eq_true, List.contains_eq_mem, decide_eq_true_eq, hsigned, List.filter_eq_nil_iff, Bool.and_eq_true,
    Bool.not_eq_true', decide_eq_false_iff_not, not_and, Classical.not_not, or_iff_not_imp_left]

theorem Cv.opOf_mma {c : Cv} {k : Nat} {f : FmtX} {v h : Word64} (hword : c.word = some (v, h))
    (hdecode : decode v = some (.mma f)) : c.opOf k = some (.mma f false h k c.gen c.s c.b c.frags 0 [] none, f.acc.toNat) := by
  unfold Cv.opOf
  simp only [hword, hdecode]

/-- A check that finds nothing has passed its first test, and its others find nothing. -/
theorem not_and_none_of_ite {α : Type} {p : Prop} [Decidable p] {x : α} {y : Option α} (h : (if p then some x else y) = none) :
    ¬ p ∧ y = none := by
  split_ifs at h with hp
  exact ⟨hp, h⟩

/-- A signature that passes its checks is for a declared generation, and names the operation of the earlier ones (R159). -/
theorem signCheck_none {f : FmtX} {scratch : Bool} {handle : Nat} {word : Word64} {iss act : List Nat} {s : State}
    (h : signCheck f scratch handle word iss act s = none) : (s.cvOf f.cv.toNat).st = .declared ∧
      ∀ v x, (s.cvOf f.cv.toNat).word = some (v, x) → v = word ∧ x.toNat = handle := by
  unfold signCheck at h
  obtain ⟨-, h⟩ := not_and_none_of_ite h
  obtain ⟨hst, h⟩ := not_and_none_of_ite h
  obtain ⟨-, h⟩ := not_and_none_of_ite h
  obtain ⟨-, h⟩ := not_and_none_of_ite h
  obtain ⟨hword, -⟩ := not_and_none_of_ite h
  refine ⟨by simpa using hst, fun v x hvx => ?_⟩
  rw [hvx] at hword
  simpa using hword

/-! ### The engine's queue through the timeouts (R161) -/

theorem State.engine_putTile (s : State) (core k : Nat) (t : Tile) (c : Nat) :
    ((s.putTile core k t).coreAt c).engine = (s.coreAt c).engine := by
  rw [State.putTile, State.coreAt_setCore]
  split_ifs with h
  · rw [h]
  · rfl

theorem State.engine_wildElems (s : State) (core k m : Nat) (f64 : Bool) (c : Nat) :
    ((s.wildElems core k m f64).coreAt c).engine = (s.coreAt c).engine := by
  unfold State.wildElems
  dsimp only
  split_ifs
  · rfl
  · rw [State.engine_putTile, State.engine_putTile]
    rfl
  · rw [State.engine_putTile]
    rfl

theorem State.engine_cvTimedOut (s : State) (grid team k c : Nat) :
    ((s.cvTimedOut grid team k).coreAt c).engine = (s.coreAt c).engine := by
  unfold State.coreAt State.cvTimedOut
  dsimp only [State.mapWaves]
  split_ifs
  · exact State.engine_wildElems ..
  · rfl

/-- A team with a declared generation is found again with another value in a register. -/
theorem State.teamAt_setCv {s : State} {grid team k : Nat} (j : Nat) (c : Cv) (hst : ((s.teamAt grid team).cvAt k).st = .declared) :
    (s.setTeam ((s.teamAt grid team).setCv j c)).teamAt grid team = (s.teamAt grid team).setCv j c := by
  obtain ⟨hfind, hgrid, hidx⟩ := find_of_declared s grid team k hst
  exact State.teamAt_setTeam_same hgrid hidx hfind

theorem State.core_cvTimedOut {s : State} {grid team k : Nat} (h : ((s.teamAt grid team).cvAt k).st = .declared) :
    ((s.cvTimedOut grid team k).teamAt grid team).core = (s.teamAt grid team).core := by
  have hteam : (s.cvTimedOut grid team k).teamAt grid team =
      (s.setTeam ((s.teamAt grid team).setCv k ((s.teamAt grid team).cvAt k).expired)).teamAt grid team :=
    congrArg (fun ts : List Team => (ts.find? (fun (t : Team) => t.grid == grid && t.idx == team)).getD Team.zero)
      (s.teams_cvTimedOut grid team k)
  rw [hteam, State.teamAt_setCv k _ h]
  rfl

theorem Cv.st_of_counts {c : Cv} (h : c.counts = true) : c.st = .declared := by
  rw [Cv.counts, Bool.and_eq_true, beq_iff_eq] at h
  exact h.1

/-- The core of the wave's team, and every engine's queue, are as before the timeouts. -/
theorem State.engine_cvTick (s : State) : (s.cvTick.teamOf s.cvTick.cur).core = (s.teamOf s.cur).core ∧
    ∀ c, (s.cvTick.coreAt c).engine = (s.coreAt c).engine := by
  refine State.cvTick_keeps
    (fun u => (u.teamOf u.cur).core = (s.teamOf s.cur).core ∧ ∀ c, (u.coreAt c).engine = (s.coreAt c).engine) ?_ s ⟨rfl, fun _ => rfl⟩
  intro u k hu hcounts
  obtain ⟨hcore, hengine⟩ := hu
  obtain ⟨y, hy⟩ := u.cur_cvTimedOut u.cur.key.grid u.cur.key.team k
  refine ⟨?_, fun c => (u.engine_cvTimedOut ..).trans (hengine c)⟩
  rw [hy]
  exact (State.core_cvTimedOut (Cv.st_of_counts hcounts)).trans hcore

theorem State.engineFull_cvTick (s : State) : s.cvTick.engineFull = s.engineFull := by
  unfold State.engineFull
  obtain ⟨hcore, hengine⟩ := s.engine_cvTick
  rw [hcore, hengine]

/-! ### An operation enters the queue (R159, R168) -/

/-- An entry stands at the end of the queue; it is spoiled where an operation that has still to enter names its tile (R177). -/
theorem State.engine_enter {s : State} {e : EngEntry} {core : Nat} (hcore : (s.teamAt e.who.grid e.who.team).core = core) :
    ∃ wild, (wild = e.wild ∨ wild = 2) ∧ ((s.enter e).coreAt core).engine = (s.coreAt core).engine ++ [{ e with wild := wild }] := by
  subst hcore
  unfold State.enter
  dsimp only
  rw [State.coreAt_setCore, if_pos rfl]
  split_ifs
  · exact ⟨2, .inr rfl, rfl⟩
  · exact ⟨e.wild, .inl rfl, rfl⟩

theorem Team.lt_of_declared {t : Team} {k : Nat} (h : (t.cvAt k).st = .declared) : k < t.cv.length := by
  by_contra hk
  rw [Team.cvAt, List.getD_eq_default _ _ (Nat.not_lt.mp hk)] at h
  exact absurd h (by decide)

theorem State.engine_cvIssue {s : State} {who : WKey} {k tile : Nat} {op : EngOp}
    (hst : ((s.teamAt who.grid who.team).cvAt k).st = .declared) (hop : ((s.teamAt who.grid who.team).cvAt k).opOf k = some (op, tile)) :
    let t := s.teamAt who.grid who.team
    ∃ wild, (wild = (t.cvAt k).spoiled ∨ wild = 2) ∧
      ((s.cvIssue who k).coreAt t.core).engine = (s.coreAt t.core).engine ++ [⟨who, tile, op, wild⟩] := by
  unfold State.cvIssue
  simp only [hop]
  refine State.engine_enter (e := ⟨who, tile, op, _⟩) ?_
  dsimp only
  rw [State.teamAt_setCv k _ hst]
  rfl

/-- The wave's team once a signature stands in its register. -/
theorem State.teamAt_signed {s : State} {f : FmtX} (scratch : Bool) (act : List Nat) (c : Cv) (hst : (s.cvOf f.cv.toNat).st = .declared) :
    (s.signed f scratch act c).teamAt s.cur.key.grid s.cur.key.team = (s.teamOf s.cur).setCv f.cv.toNat c ∧
      ((s.teamOf s.cur).setCv f.cv.toNat c).cvAt f.cv.toNat = c :=
  ⟨State.teamAt_setCv _ c hst, Team.cvAt_setCv _ c (Team.lt_of_declared hst)⟩

/-! ### The last signature (R159, R160) -/

/-- What an issue leaves of the queues is what the effect leaves of them. -/
theorem Retires.cores {s u t : State} {ls : List Nat} {entered : Prop} (h : Retires s u t ls entered) : t.cores = u.cores := by
  obtain ⟨hmoves, -⟩ := h
  have hcores := congrArg State.cores hmoves.same
  exact hcores

section
variable {s : State} {f : FmtX} {i : Instr} {act iss : List Nat} (hcheck : signCheck f false 0 (signWord (encode i)) iss act s = none)
include hcheck

/-- The register of a signature: the operation's word, the members that have signed, and their fragments. -/
theorem State.signedCv_eq : ∃ start, s.signedCv f false i act = { s.cvOf f.cv.toNat with
      word := some (signWord (encode i), 0), start := start,
      signed := (act.map (s.cur.frag f false (s.cvOf f.cv.toNat))).foldl (fun m x => insNat m x.rank) (s.cvOf f.cv.toNat).signed,
      frags := (s.cvOf f.cv.toNat).frags ++ act.map (s.cur.frag f false (s.cvOf f.cv.toNat)) } :=
  Cv.sign_eq s.gtc _ (signCheck_none hcheck).2

theorem State.signedCv_full_iff : (s.signedCv f false i act).full = true ↔
    (s.cvOf f.cv.toNat).left (act.map (fun l => (s.cur.lane l).tid - (s.cvOf f.cv.toNat).b)) = [] := by
  obtain ⟨start, hc⟩ := State.signedCv_eq hcheck
  rw [hc]
  refine Cv.full_iff rfl fun r => ?_
  rw [mem_foldl_insNat, List.map_map]
  rfl

/-- A signature that is not the last leaves every engine's queue as it is. -/
theorem State.engine_afterSign_open (core : Nat)
    (hleft : (s.cvOf f.cv.toNat).left (act.map (fun l => (s.cur.lane l).tid - (s.cvOf f.cv.toNat).b)) ≠ []) :
    ((s.afterSign f false i act).coreAt core).engine = (s.coreAt core).engine := by
  unfold State.afterSign
  dsimp only
  rw [if_neg (fun h => hleft ((State.signedCv_full_iff hcheck).mp h))]
  rfl

end

/-- The last signature of an `mma` puts its operation at the end of the queue, with the fragments of every member. -/
theorem State.engine_afterSign_last {s : State} {f : FmtX} {act iss : List Nat} (hwf : (Instr.mma f).wellFormed = true)
    (hcheck : signCheck f false 0 (signWord (encode (.mma f))) iss act s = none)
    (hleft : (s.cvOf f.cv.toNat).left (act.map (fun l => (s.cur.lane l).tid - (s.cvOf f.cv.toNat).b)) = []) :
    let c := s.cvOf f.cv.toNat
    let core := (s.teamOf s.cur).core
    ∃ wild, (wild = c.spoiled ∨ wild = 2) ∧
      ((s.afterSign f false (.mma f) act).coreAt core).engine = (s.coreAt core).engine ++ [{
          who := s.cur.key, tile := f.acc.toNat, wild := wild,
          op := .mma { f with g := 0, ma := false, mb := false } false 0 f.cv.toNat c.gen c.s c.b
            (c.frags ++ act.map (s.cur.frag f false c)) 0 [] none }] := by
  obtain ⟨hst, -⟩ := signCheck_none hcheck
  obtain ⟨start, hc⟩ := State.signedCv_eq hcheck
  have hfull := (State.signedCv_full_iff hcheck).mpr hleft
  unfold State.afterSign
  dsimp only
  rw [if_pos hfull]
  generalize s.signedCv f false (.mma f) act = d at *
  obtain ⟨hteam, hcv⟩ := State.teamAt_signed false act d hst
  have hop : d.opOf f.cv.toNat = some
      (.mma { f with g := 0, ma := false, mb := false } false 0 f.cv.toNat (s.cvOf f.cv.toNat).gen (s.cvOf f.cv.toNat).s (s.cvOf f.cv.toNat).b
        ((s.cvOf f.cv.toNat).frags ++ act.map (s.cur.frag f false (s.cvOf f.cv.toNat))) 0 [] none, f.acc.toNat) := by
    rw [hc, signWord_encode_mma]
    exact Cv.opOf_mma rfl (decodeEncodeRoundTrip _ hwf)
  have hissue := State.engine_cvIssue (s := s.signed f false act d) (who := s.cur.key) (k := f.cv.toNat)
    (by rw [hteam, hcv, hc]; exact hst) (by rw [hteam, hcv]; exact hop)
  dsimp only at hissue
  rw [hteam, hcv, show d.spoiled = (s.cvOf f.cv.toNat).spoiled by rw [hc]] at hissue
  exact hissue

/-- Settles O28: the queue is that of the signature's effect, which issues the operation exactly where every member has then signed. -/
theorem lastSignatureIssues : Obligations.LastSignatureIssues := by
  intro f s hr
  have hstays := s.cur_cvTick_stays
  have hiss := s.cur_cvTick.issuingSet
  obtain ⟨hcore, hengine⟩ := s.engine_cvTick
  have hfree := s.engineFull_cvTick
  generalize hs0 : s.cvTick = s0 at *
  dsimp only
  intro htrap hcheck hroom
  obtain ⟨t, hexec, hretires⟩ := completes_sign (scratch := false) hs0 hr (hiss.symm ▸ htrap) (hiss.symm ▸ hcheck) (fun _ => hfree.trans hroom)
  have hcoreAt (k : Nat) : t.coreAt k = (s0.afterSign f false (.mma f) (active (.mma f) s)).coreAt k :=
    congrArg (fun cs : Map Core => mgetD cs k Core.zero) hretires.cores
  have hsigns : (active (.mma f) s).map (fun l => (s.cur.lane l).tid - (s0.cvOf f.cv.toNat).b) =
      (active (.mma f) s).map (fun l => (s0.cur.lane l).tid - (s0.cvOf f.cv.toNat).b) :=
    List.map_congr_left fun l _ => by rw [Wave.lane_congr hstays.2.1]
  refine ⟨t, hexec, ?_⟩
  rw [hsigns, hcoreAt, ← hengine, ← hcore, ← hstays.1]
  refine ⟨State.engine_afterSign_open hcheck _, fun hleft => ?_⟩
  obtain ⟨wild, hwild, hlast⟩ := State.engine_afterSign_last (legal_of_ready hr) hcheck hleft
  exact ⟨_, wild, List.map_map, hwild, hlast⟩

end Sys2Proof.Machine

namespace Sys2Proof.Machine

/-! ### Fences (R164, R172, R176) -/

theorem bodyOrf_done {iss act : List Nat} {s : State} (hfull : s.cur.vEmpty = []) (hpw : ∀ e ∈ s.cur.pw, e.kind = .drain) :
    bodyOrf iss act s = .done (s.withCur { s.cur with lanes := s.cur.lanes.map (fun x => { x with old := [] }) }) [] := by
  have hcalm : s.cur.pw.any (fun e => e.kind != .drain) = false := by simpa using hpw
  unfold bodyOrf
  simp only [hfull, hcalm, List.isEmpty_nil, Bool.not_true, Bool.false_eq_true, if_false]
  rfl

theorem bodyOrf_release {iss act : List Nat} {s : State} (hfull : s.cur.vEmpty = []) (hpw : ∃ e ∈ s.cur.pw, e.kind ≠ .drain) :
    bodyOrf iss act s = .wait .release s := by
  have hopen : s.cur.pw.any (fun e => e.kind != .drain) = true := by simpa using hpw
  unfold bodyOrf
  simp only [hfull, hopen, List.isEmpty_nil, Bool.not_true, Bool.false_eq_true, if_false, if_true]

theorem bodyOrf_empty {iss act : List Nat} {s : State} (hempty : s.cur.vEmpty ≠ []) :
    bodyOrf iss act s = .wait (if s.cur.pend.all s.cur.drainOf then .drain else .regs) s := by
  unfold bodyOrf
  exact if_pos (by simpa using hempty)

theorem bodySpfence_wait {iss act : List Nat} {s : State} (h : s.drains s.cur = true) : bodySpfence iss act s = .wait .drain s := by
  unfold bodySpfence
  exact if_pos h

/-- Without a drain under way the fence drops the operands of the team's operations, and the drains count as writes of the wave. -/
theorem bodySpfence_done {iss act : List Nat} {s : State} (h : s.drains s.cur = false) :
    let t := s.teamOf s.cur
    let c := s.coreAt t.core
    bodySpfence iss act s = .done
      ((s.setCore t.core { c with opcache := c.opcache.filter (fun e => !(e.grid == t.grid && e.team == t.idx)) }).withCur
        { s.cur with wct := max s.cur.wct s.cur.dct, dct := 0 }) [] := by
  unfold bodySpfence
  exact if_neg (by simp [h])

/-! ### A wave whose signatures are broken (R165) -/

/-- Broken signatures are marked, and nothing else of the wave changes. -/
theorem Wave.watched_eq (w : Wave) (l : Nat) (rs : List Nat) : ∃ ws, w.watched l rs = { w with watch := ws } := by
  unfold Wave.watched
  split_ifs
  · exact ⟨w.watch, rfl⟩
  · exact ⟨_, rfl⟩

theorem Wave.foldl_watched_eq (w : Wave) (ls rs : List Nat) :
    ∃ ws, ls.foldl (fun (v : Wave) l => v.watched l rs) w = { w with watch := ws } := by
  induction ls generalizing w with
  | nil => exact ⟨w.watch, rfl⟩
  | cons l r ih =>
    obtain ⟨ws, hws⟩ := w.watched_eq l rs
    rw [List.foldl_cons, hws]
    exact ih _

/-- A new producer leaves the scalar registers as they are. -/
theorem State.getS_addPend {s : State} (p : Pend) (ls : List Nat) (r : Nat) (hspec : s.cur.spec = 0) :
    (s.addPend p ls).cur.getS r = s.cur.getS r := by
  obtain ⟨ws, hws⟩ := s.cur.foldl_watched_eq ls p.regs
  unfold State.addPend
  rw [hws]
  dsimp only
  rw [if_neg (by rw [hspec]; decide)]
  rfl

/-! ### Tile instructions enter the queue (R173 to R176) -/

section
variable {f : FmtTile} {s : State} {iss act : List Nat} (hroom : s.engineFull = false)
include hroom

theorem bodyAcczero_done : bodyAcczero f iss act s = .done (s.enqueue s.cur.key f.acc.toNat (.acczero f.fmt.toNat)) [] := by
  unfold bodyAcczero
  exact if_neg (by simp [hroom])

theorem bodyAccld_done {as : List LaneAcc} (hrange : tileRange s f needAccld act = .ok as) :
    let s1 := s.readsRange as
    let bs := s1.rangeBytes s1.cur as
    let n := tileBytes f.fmt.toNat
    let vs := (List.range 4096).map (fun k => accldVal s1.contract f.fmt.toNat (leNat ((bs.drop (n * k)).take n)))
    let s2 := s1.countAccess (as.map LaneAcc.access)
    bodyAccld f iss act s = .done (s2.enqueue s2.cur.key f.acc.toNat (.accld f.fmt.toNat
      ((List.range 4096).foldl (fun (m : Map (BitVec 64)) k => mputD 0 m k (BitVec.ofNat 64 (vs.getD k (0, 0)).1)) [])
      (vs.foldl (fun (x : BitVec 6) v => x ||| v.2) 0))) [] := by
  unfold bodyAccld
  simp only [hrange, hroom, Bool.false_eq_true, if_false]

theorem bodyAccst_done {as : List LaneAcc} (htag : drainTag f.fmt.toNat (s.tagAhead f.acc.toNat) = true)
    (hrange : tileRange s f needAccst act = .ok as) :
    bodyAccst f iss act s = .done (s.enqueue s.cur.key f.acc.toNat (.accst f.fmt.toNat (s.drainScale f) f.sat ((rangeLocs as).map Prod.fst)
      (act.map (fun l => (s.cur.lane l).tid)) (as.any (fun a => a.access.cls == 3)))) [] := by
  unfold bodyAccst
  simp only [htag, hrange, hroom, Bool.not_true, Bool.false_eq_true, if_false]

/-- A drain into registers is a producer of all 64 of them, whose rows lie within the tile. -/
theorem bodyAccstReg_done (hspec : s.cur.spec = 0) (htag : drainTag f.fmt.toNat (s.tagAhead f.acc.toNat) = true)
    (hrow : (s.cur.getS f.sb.toNat).toNat < 64) (hrows : (s.cur.getS f.sb.toNat).toNat + s.cur.width ≤ 64) :
    let id := s.cur.nextPend
    bodyAccstReg f iss act s = .done
      ((s.addPend { vecPend [] ((List.range 64).map (fun k => f.reg.toNat + k)) true with id := id } act).enqueue s.cur.key f.acc.toNat
        (.accstReg f.fmt.toNat (s.drainScale f) (s.cur.getS f.sb.toNat).toNat f.reg.toNat id (act.map (fun l => (l, (s.cur.lane l).tid))))) [] := by
  have hin : (decide (64 ≤ (s.cur.getS f.sb.toNat).toNat) || decide (64 < (s.cur.getS f.sb.toNat).toNat + s.cur.width)) = false := by
    simp only [Bool.or_eq_false_iff, decide_eq_false_iff_not]
    omega
  unfold bodyAccstReg
  simp only [hin, htag, hroom, Bool.not_true, Bool.false_eq_true, if_false, State.drainScale, State.getS_addPend _ _ _ hspec]

end

/-! ### The engine zeroes a tile (R168, R174) -/

theorem State.tileAt_putTile_of_ne {s : State} {core k j : Nat} {t : Tile} (h : k ≠ j) : (s.putTile core k t).tileAt core j = s.tileAt core j := by
  rw [State.tileAt, State.putTile, State.coreAt_setCore, if_pos rfl, mgetD_mputD, if_neg h]
  rfl

/-- Of a tile, or pair, with new contents that no breach has spoiled. -/
theorem State.newTile_unspoiled (s : State) (core k : Nat) (f64 : Bool) (r : Tile × Tile) :
    (s.newTile core k f64 r 0).tileAt core k = r.1 ∧ (s.newTile core k f64 r 0).mem = s.mem ∧
      ((s.newTile core k f64 r 0).coreAt core).engine = (s.coreAt core).engine := by
  cases f64 with
  | false => exact ⟨State.tileAt_putTile .., rfl, State.engine_putTile ..⟩
  | true =>
    refine ⟨?_, rfl, (State.engine_putTile ..).trans (State.engine_putTile ..)⟩
    exact (State.tileAt_putTile_of_ne (by omega)).trans (State.tileAt_putTile ..)

theorem State.engine_dequeue (s : State) (core k : Nat) : ((s.dequeue core k).coreAt core).engine = (s.coreAt core).engine.eraseIdx k := by
  rw [State.dequeue, State.coreAt_setCore, if_pos rfl, List.eraseIdx_eq_take_drop_succ]

/-- ENGINE ENTRY COMPLETE, for an `acczero`: the entry leaves the queue, and its tile is cleared. -/
theorem exec_engineEntryComplete_acczero {s : State} {core k : Nat} {e : EngEntry} {fmt : Nat} (hget : (s.coreAt core).engine[k]? = some e)
    (hready : engineReady (s.coreAt core).engine k = true) (hop : e.op = .acczero fmt) :
    let t := s.teamAt e.who.grid e.who.team
    exec (.engineEntryComplete core k) s = .next (((s.dequeue core k).newTile core (t.tileBase + e.tile) (fmt == 0)
      (Tile.cleared (tagOfFmt fmt), Tile.cleared .xf48) e.wild).wakeEngine t.grid t.idx) := by
  obtain ⟨who, tile, op, wild⟩ := e
  dsimp only at hop
  subst hop
  change execEngineEntryComplete core k s = _
  unfold execEngineEntryComplete
  simp only [hget, hready, Bool.not_true, Bool.false_eq_true, if_false]

/-- Settles O30: each body by the checks that the statement names; of an `acczero` the engine's queue, tile and memory are read off the
event's equation. -/
theorem tileInstructionResults : Obligations.TileInstructionResults := by
  refine ⟨fun f s => ⟨?_, ?_, ?_, ?_, ?_⟩, fun f s hroom => ⟨?_, ?_, ?_, ?_⟩, fun s core k e hget hready _ fmt hop hwild => ?_⟩
  · exact fun hr hfull hpw => completes_of_done _ s _ bodyOrf hr rfl (bodyOrf_done hfull hpw)
  · exact fun hr hfull hpw => exec_of_wait hr rfl (bodyOrf_release hfull hpw)
  · refine fun hr hempty => ⟨_, ?_, exec_of_wait hr rfl (bodyOrf_empty hempty)⟩
    split_ifs
    · exact .inl rfl
    · exact .inr rfl
  · exact fun hr hdrains => exec_of_wait hr rfl (bodySpfence_wait hdrains)
  · exact fun hr hdrains => completes_of_done _ s _ bodySpfence hr rfl (bodySpfence_done hdrains)
  · exact fun hr => completes_of_done _ s _ (bodyAcczero f) hr rfl (bodyAcczero_done hroom)
  · exact fun as hr hrange => completes_of_done _ s _ (bodyAccld f) hr rfl (bodyAccld_done hroom hrange)
  · intro as hr htag hrange htask
    refine completes_of_done _ s _ (bodyAccst f) hr rfl ?_
    rw [taskWide_none s _ htask]
    exact bodyAccst_done hroom htag hrange
  · exact fun hr htag _ hrow hrows => completes_of_done _ s _ (bodyAccstReg f) hr rfl (bodyAccstReg_done hroom (spec_of_ready hr) htag hrow hrows)
  · refine ⟨_, exec_engineEntryComplete_acczero hget hready hop, ?_⟩
    rw [hwild]
    obtain ⟨htile, hmem, hengine⟩ := (s.dequeue core k).newTile_unspoiled core
      ((s.teamAt e.who.grid e.who.team).tileBase + e.tile) (fmt == 0) (Tile.cleared (tagOfFmt fmt), Tile.cleared .xf48)
    exact ⟨hengine.trans (s.engine_dequeue core k), htile, hmem⟩

end Sys2Proof.Machine

namespace Sys2Proof.Machine

/-! ### The promise of a transfer (R217) -/

theorem promiseAt_mod (now len : Nat) {q : Nat} (hq : q < 16) : promiseAt now len q % 16 = q := by
  unfold promiseAt
  dsimp only
  omega

theorem le_promiseAt (now len q : Nat) : now ≤ promiseAt now len q :=
  (le_max_left ..).trans (Nat.le_add_right ..)

/-! ### The checks of a transfer (R216) -/

theorem foldl_add_len (rows : List CopyRow) : rows.foldl (fun n r => n + r.len) 0 = (rows.map CopyRow.len).sum := by
  rw [List.sum_eq_foldl, List.foldl_map]

/-- A length beyond the limit, or a register pair that is none. -/
theorem copyRows_none {w : Wave} {f : FmtCpy} {strided : Bool}
    (h : if strided then f.sc.toNat % 2 = 1 ∨ 126 < f.sc.toNat else 2 ^ 32 ≤ (w.getS f.sc.toNat).toNat) : copyRows w f strided = none := by
  unfold copyRows
  cases strided with
  | false => exact if_pos h
  | true =>
    rw [if_pos rfl] at h
    have htop : (f.sc.toNat % 2 == 1 || decide (126 < f.sc.toNat)) = true := by simpa using h
    simp only [htop, Bool.true_or, if_true]

/-- Whatever range a transfer may not touch, the trap is the protection trap. -/
theorem copyRangeTrap_cause {priv isSrc : Bool} {a n c addr : Nat} (h : copyRangeTrap priv isSrc a n = some (c, addr)) : c = 7 := by
  unfold copyRangeTrap at h
  dsimp only at h
  split_ifs at h
  all_goals exact (congrArg Prod.fst (Option.some.inj h)).symm

/-- A range that a transfer may not touch: the stack aperture; team-relative map addresses, for a source; and absolute ones outside a
privileged mode. -/
theorem copyRangeTrap_ne_none {priv isSrc : Bool} {a n : Nat}
    (h : (a < 0xFFFFFE0000000000 + 2 ^ 32 ∧ 0xFFFFFE0000000000 < a + max n 1) ∨ (isSrc = true ∧ a / 2 ^ 60 = 9) ∨
      (priv = false ∧ a / 2 ^ 60 = 8)) : copyRangeTrap priv isSrc a n ≠ none := by
  intro hnone
  unfold copyRangeTrap at hnone
  obtain ⟨hfirst, hnone⟩ := not_and_none_of_ite hnone
  obtain ⟨habs, -⟩ := not_and_none_of_ite hnone
  rcases h with h | h | h
  · exact hfirst (Bool.or_eq_true_iff.mpr (.inl (by simpa only [meetsStack, Bool.and_eq_true, decide_eq_true_eq] using h)))
  · exact hfirst (Bool.or_eq_true_iff.mpr (.inr (by simpa only [mapKind, Bool.and_eq_true, beq_iff_eq] using h)))
  · exact habs (by simpa only [mapKind, Bool.and_eq_true, Bool.not_eq_true', beq_iff_eq, and_comm] using h)

/-- The first trap that a row's ranges take: its source's, or else its destination's. -/
def CopyRow.rangeTrap (priv : Bool) (r : CopyRow) : Option (Nat × Nat) :=
  match copyRangeTrap priv true r.src r.len with
  | some t => some t
  | none => copyRangeTrap priv false r.dst r.len

theorem CopyRow.rangeTrap_cause {priv : Bool} {r : CopyRow} {c addr : Nat} (h : r.rangeTrap priv = some (c, addr)) : c = 7 := by
  unfold CopyRow.rangeTrap at h
  split at h
  · next hsrc => exact copyRangeTrap_cause (hsrc.trans h)
  · exact copyRangeTrap_cause h

theorem CopyRow.rangeTrap_ne_none {priv : Bool} {r : CopyRow}
    (h : copyRangeTrap priv true r.src r.len ≠ none ∨ copyRangeTrap priv false r.dst r.len ≠ none) : r.rangeTrap priv ≠ none := by
  unfold CopyRow.rangeTrap
  split
  · simp
  · next hsrc => exact h.resolve_left (fun hne => hne hsrc)

theorem copyTrap_of_rangeTrap {priv : Bool} {rows : List CopyRow} {t : Nat × Nat} (h : rows.findSome? (CopyRow.rangeTrap priv) = some t) :
    copyTrap priv rows = some t := by
  unfold copyTrap
  split
  · next u hu => exact hu.symm.trans h
  · next hnone => cases hnone.symm.trans h

/-- Where some row has a range that a transfer may not touch, the transfer takes the protection trap: its checks come before that of the
alignment. -/
theorem copyTrap_range {priv : Bool} {rows : List CopyRow} (h : ∃ r ∈ rows, r.rangeTrap priv ≠ none) :
    ∃ addr, copyTrap priv rows = some (7, addr) := by
  obtain ⟨r, hr, htrap⟩ := h
  cases hfirst : rows.findSome? (CopyRow.rangeTrap priv) with
  | none => exact absurd (List.findSome?_eq_none_iff.mp hfirst r hr) htrap
  | some t =>
    obtain ⟨c, addr⟩ := t
    obtain ⟨x, -, hx⟩ := List.exists_of_findSome?_eq_some hfirst
    obtain rfl := CopyRow.rangeTrap_cause hx
    exact ⟨addr, copyTrap_of_rangeTrap hfirst⟩

/-! ### `cpy` and `cpys` (R215 to R217, R219) -/

theorem bodyCpy_limit {f : FmtCpy} {strided : Bool} {iss act : List Nat} {s : State} (h : copyRows s.cur f strided = none) :
    bodyCpy f strided iss act s = .trap s (illegal iss) := by
  unfold bodyCpy
  simp only [h]

theorem bodyCpy_range {f : FmtCpy} {strided : Bool} {iss act : List Nat} {s : State} {rows : List CopyRow} {c addr : Nat}
    (h : copyRows s.cur f strided = some rows) (htrap : copyTrap s.cur.privileged rows = some (c, addr)) :
    bodyCpy f strided iss act s = .trap s ⟨c, iss, addr, 0, 0, []⟩ := by
  unfold bodyCpy
  simp only [h, htrap]

/-- A transfer as it is issued by the current wave, with its promise (R217). -/
def State.newCopy (s : State) (rows : List CopyRow) (p : Nat) : Copy :=
  { ticket := BitVec.ofNat 64 p, promise := p, rows := rows, regDst := s.ownDst rows, before := s.cur.pw.length, priv := s.cur.privileged,
    written := [], torn := [], phase := .waiting, dropped := [], counted := false }

/-- The wave once it has issued a copy into registers of its own: the signatures whose fragments they hold are broken (R165). -/
def Wave.copyInto (w : Wave) (regs : List Nat) : Wave :=
  if regs = [] then w else w.idx.foldl (fun (v : Wave) l => v.watched l regs) w

theorem Wave.copyInto_eq (w : Wave) (regs : List Nat) : ∃ ws, w.copyInto regs = { w with watch := ws } := by
  unfold Wave.copyInto
  split_ifs
  · exact ⟨w.watch, rfl⟩
  · exact w.foldl_watched_eq _ _

theorem Wave.copies_copyInto (w : Wave) (regs : List Nat) : (w.copyInto regs).copies = w.copies := by
  obtain ⟨ws, hws⟩ := w.copyInto_eq regs
  rw [hws]

theorem Wave.vEmpty_copyInto (w : Wave) (regs : List Nat) : (w.copyInto regs).vEmpty = w.vEmpty := by
  obtain ⟨ws, hws⟩ := w.copyInto_eq regs
  rw [hws]

section
variable {f : FmtCpy} {strided : Bool} {iss act : List Nat} {s : State} {rows : List CopyRow} {q : Nat}
  (hrows : copyRows s.cur f strided = some rows) (htrap : copyTrap s.cur.privileged rows = none)
  (hslot : (List.range 16).find? (fun q => Copy.isFree (s.cur.copies.getD q none)) = some q) (hfull : ∀ r ∈ s.ownDst rows, r ∉ s.cur.vEmpty)
include hrows htrap hslot hfull

/-- A transfer of no byte takes no slot: it has ended when it is issued. -/
theorem bodyCpy_nothing (hlen : (rows.map CopyRow.len).sum = 0) : bodyCpy f strided iss act s = .done
    (s.withCur { s.cur.setS f.sd.toNat (BitVec.ofNat 64 (promiseAt s.gtc (rows.map CopyRow.len).sum q)) with rct := max s.cur.rct s.gtc }) [] := by
  have hregs : (s.ownDst rows).any s.cur.vEmpty.contains = false := by simpa using hfull
  unfold bodyCpy
  simp only [hrows, htrap, hslot, foldl_add_len, hlen]
  exact (if_neg (Bool.not_eq_true _ ▸ hregs)).trans (if_pos rfl)

/-- A transfer takes the slot, and the registers of the wave that it will write become empty. -/
theorem bodyCpy_takes (hlen : (rows.map CopyRow.len).sum ≠ 0) :
    let p := promiseAt s.gtc (rows.map CopyRow.len).sum q
    bodyCpy f strided iss act s = .done (s.withCur { (s.cur.setS f.sd.toNat (BitVec.ofNat 64 p)).copyInto (s.ownDst rows) with
      copies := s.cur.copies.set q (some (s.newCopy rows p)), vEmpty := (s.ownDst rows).foldl insNat s.cur.vEmpty }) [] := by
  have hregs : (s.ownDst rows).any s.cur.vEmpty.contains = false := by simpa using hfull
  have hcopies (p : Word64) := (s.cur.setS f.sd.toNat p).copies_copyInto (s.ownDst rows)
  have hempty (p : Word64) := (s.cur.setS f.sd.toNat p).vEmpty_copyInto (s.ownDst rows)
  dsimp only
  rw [← show _ = s.cur.copies from hcopies _, ← show _ = s.cur.vEmpty from hempty _]
  unfold bodyCpy
  simp only [hrows, htrap, hslot, foldl_add_len, List.isEmpty_iff]
  exact (if_neg (Bool.not_eq_true _ ▸ hregs)).trans (if_neg (mt beq_iff_eq.mp hlen))

end

/-! ### `cpyw` (R220) -/

section
variable {f : FmtDstSrc} {waits : Bool} {iss act : List Nat} {s : State}

theorem bodyCpyw_pass {free : Option (Nat × Nat)} (h : s.cpywDecide waits (s.cur.getS f.sa.toNat) act = .pass free) :
    bodyCpyw f waits iss act s = .done (s.cpywFree free) [] := by
  unfold bodyCpyw
  simp only [h]

theorem bodyCpyw_sleep {till : Option Nat} (h : s.cpywDecide waits (s.cur.getS f.sa.toNat) act = .sleep till) :
    bodyCpyw f waits iss act s = .done (s.withCur (s.cur.rest iss act (.cpyw waits (s.cur.getS f.sa.toNat)))) act := by
  unfold bodyCpyw
  simp only [h]
  rfl

theorem bodyCpyw_trap {t : TrapReq} (h : s.cpywDecide waits (s.cur.getS f.sa.toNat) act = .trap t none) :
    bodyCpyw f waits iss act s = .trap s t := by
  unfold bodyCpyw
  simp only [h]

/-- The copy of a ticket. -/
theorem filter_ticket {o : Option Copy} {c : Copy} {t : Word64} (ho : o = some c) (ht : c.ticket = t) :
    o.filter (fun c => c.ticket == t) = some c := by
  rw [ho, Option.filter_some, if_pos (beq_iff_eq.mpr ht)]

/-- A copy that has not started by its write time, whose promise has passed: the promise is broken. -/
theorem cpywDecide_late {c : Copy} {t : Word64} (hcopy : s.cur.copies.getD (t.toNat % 16) none = some c) (ht : c.ticket = t)
    (hphase : c.phase = .waiting) (hwrite : t.toNat ≤ s.gtc) (hpromise : c.promise ≤ s.gtc) :
    s.cpywDecide false t act = .trap ⟨14, act, 0, t.toNat, 0, []⟩ none := by
  unfold State.cpywDecide
  simp only [filter_ticket hcopy ht, hphase, Bool.false_eq_true, if_false]
  exact if_neg (Nat.not_lt.mpr (max_le hwrite hpromise))

theorem bodyCpywRe_gone (h : s.cur.copies.getD ((s.cur.getS f.sa.toNat).toNat % 16) none = none) :
    bodyCpywRe f iss act s = .done (s.withCur (s.cur.setS f.sd.toNat (s.cur.getS f.sa.toNat))) [] := by
  unfold bodyCpywRe
  simp only [h, Option.filter_none]
  rfl

/-- The promise of a copy that has still to start is made anew. -/
theorem bodyCpywRe_anew {c : Copy} (hcopy : s.cur.copies.getD ((s.cur.getS f.sa.toNat).toNat % 16) none = some c)
    (ht : c.ticket = s.cur.getS f.sa.toNat) (hphase : c.phase = .waiting) :
    let q := (s.cur.getS f.sa.toNat).toNat % 16
    bodyCpywRe f iss act s = .done (s.withCur ((s.cur.setCopy q (some { c with
      promise := promiseAt s.gtc ((c.rows.map CopyRow.len).sum) q })).setS f.sd.toNat (s.cur.getS f.sa.toNat))) [] := by
  unfold bodyCpywRe
  simp only [filter_ticket hcopy ht, hphase, foldl_add_len]
  rfl

end

/-- The instruction that starts a transfer, plain or strided. -/
def copyInstr (f : FmtCpy) (strided : Bool) : Instr := if strided then .cpys f else .cpy f

theorem exec_copy (f : FmtCpy) (strided : Bool) (s : State) :
    exec (copyInstr f strided) s = issue (copyInstr f strided) s (bodyCpy f strided) := by
  cases strided <;> rfl

/-- `cpyw`, which takes a trap where the promise is broken, and the form that waits for the end of the copy. -/
def awaitInstr (f : FmtDstSrc) (waits : Bool) : Instr := if waits then .cpywWait f else .cpyw f

theorem exec_await (f : FmtDstSrc) (waits : Bool) (s : State) :
    exec (awaitInstr f waits) s = issue (awaitInstr f waits) s (bodyCpyw f waits) := by
  cases waits <;> rfl

theorem taskWide_await (f : FmtDstSrc) (waits : Bool) (s : State) : s.taskWide (awaitInstr f waits) = s := by
  cases waits <;> rfl

section
variable {f : FmtCpy} {strided : Bool} {s u : State} (hr : Ready (copyInstr f strided) s) (htask : s.cur.task = none)
include hr htask

theorem completes_copy (h : bodyCpy f strided s.cur.issuingSet (active (copyInstr f strided) s) s = .done u []) :
    Completes (copyInstr f strided) s u :=
  completes_of_done _ s u _ hr (exec_copy f strided s) ((congrArg _ (taskWide_none s _ htask)).trans h)

theorem traps_copy {t : TrapReq} (h : bodyCpy f strided s.cur.issuingSet (active (copyInstr f strided) s) s = .trap u t) :
    Traps (copyInstr f strided) s u t :=
  traps_of_trap _ s u t _ hr (exec_copy f strided s) ((congrArg _ (taskWide_none s _ htask)).trans h)

end

/-- Settles O34: a transfer by the checks of its rows and the free slot; a `cpyw` by what it finds for its ticket. -/
theorem copyInstructionResults : Obligations.CopyInstructionResults := by
  refine ⟨fun f s strided => ?_, fun f s waits => ?_, fun f s hr => ?_⟩
  · intro i w stack stray hr htask
    refine ⟨fun rows q hrows htrap hslot hfull => ?_, fun hlimit => traps_copy hr htask (bodyCpy_limit (copyRows_none hlimit)),
      fun rows hrows hstray => ?_, fun rows c a hrows htrap => traps_copy hr htask (bodyCpy_range hrows htrap)⟩
    · intro len p w1 w2
      have hq : q < 16 := List.mem_range.mp (List.mem_of_find?_eq_some hslot)
      exact ⟨promiseAt_mod s.gtc len hq, le_promiseAt s.gtc len q,
        fun hlen => completes_copy hr htask (bodyCpy_nothing hrows htrap hslot hfull hlen),
        fun hlen => completes_copy hr htask (bodyCpy_takes hrows htrap hslot hfull hlen)⟩
    · obtain ⟨r, hmem, hstrays⟩ := hstray
      have hrange : r.rangeTrap w.privileged ≠ none := by
        refine CopyRow.rangeTrap_ne_none ?_
        rcases hstrays with hsrc | hdst | hsrc | ⟨hmode, hsrc | hdst⟩
        · exact .inl (copyRangeTrap_ne_none (.inl hsrc))
        · exact .inr (copyRangeTrap_ne_none (.inl hdst))
        · exact .inl (copyRangeTrap_ne_none (.inr (.inl ⟨rfl, hsrc⟩)))
        · exact .inl (copyRangeTrap_ne_none (.inr (.inr ⟨hmode, hsrc⟩)))
        · exact .inr (copyRangeTrap_ne_none (.inr (.inr ⟨hmode, hdst⟩)))
      obtain ⟨addr, htrap⟩ := copyTrap_range ⟨r, hmem, hrange⟩
      exact ⟨addr, traps_copy hr htask (bodyCpy_range hrows htrap)⟩
  · intro i t act hr
    have hexec : exec i s = issue i s (bodyCpyw f waits) := exec_await f waits s
    have hwide : s.taskWide i = s := taskWide_await f waits s
    refine ⟨fun free h => completes_of_done i s _ _ hr hexec ?_, fun till h => completesBut_of_done i s _ act _ hr hexec ?_,
      fun c hform hcopy ht hphase hwrite hpromise => traps_of_trap i s s _ _ hr hexec ?_⟩
    · rw [hwide]
      exact bodyCpyw_pass h
    · rw [hwide]
      exact bodyCpyw_sleep h
    · rw [hwide]
      subst hform
      exact bodyCpyw_trap (cpywDecide_late hcopy ht hphase hwrite hpromise)
  · intro t q
    exact ⟨fun hnone => completes_of_done _ s _ (bodyCpywRe f) hr rfl (bodyCpywRe_gone hnone),
      fun c hcopy ht hphase => completes_of_done _ s _ (bodyCpywRe f) hr rfl (bodyCpywRe_anew hcopy ht hphase)⟩

end Sys2Proof.Machine

namespace Sys2Proof.Machine

/-! ### Records read and used (R184 to R186) -/

theorem Wave.SameButMon.stays {v w : Wave} (h : v.SameButMon w) : v.Stays w := by
  obtain ⟨m, rfl⟩ := h
  exact ⟨rfl, rfl, rfl⟩

theorem Wave.Stays.lanes_ne {v w : Wave} (h : v.Stays w) (hl : w.lanes ≠ []) : v.lanes ≠ [] := by
  obtain ⟨-, hlanes, -⟩ := h
  rwa [hlanes]

theorem Wave.Stays.spec_zero {v w : Wave} (h : v.Stays w) (hs : w.spec = 0) : v.spec = 0 := by
  obtain ⟨-, -, hspec⟩ := h
  exact hspec.trans hs

/-- The reads of ranges leave the wave in its speculation. -/
theorem State.readsRange_stays (s : State) (as : List LaneAcc) (hl : s.cur.lanes ≠ []) : (s.readsRange as).cur.Stays s.cur := by
  unfold State.readsRange
  generalize (rangeLocs as).any (fun a => a.2 != 3) = main
  have hbefore := (s.beforeRead_true_stays main).trans (s.beforeRead_stays main hl)
  obtain ⟨a, b, hread⟩ := (s.beforeRead main true).readLate_eq (s.beforeRead main true).cur (fun _ => true)
    (((rangeLocs as).filter (fun a => a.2 == 3)).map Prod.fst)
  dsimp only
  rw [hread]
  exact hbefore

theorem State.countOnce_stays (s : State) (as : List Access) (hspec : s.cur.spec = 0) : (s.countOnce as).cur.Stays s.cur :=
  (s.cur_countAccess _ hspec).stays

variable {s s1 : State} {act : List Nat}

theorem State.loadRec_stays {ea : Nat} {bs : List Byte} (hspec : s.cur.spec = 0) (hl : s.cur.lanes ≠ [])
    (h : s.loadRec act ea = .ok (bs, s1)) : s1.cur.Stays s.cur := by
  unfold State.loadRec at h
  dsimp only at h
  split at h
  · cases h
  · cases h
    generalize rangeAcc s s.cur false needRec 3 0 ea 192 = as
    have hread := s.readsRange_stays as hl
    have hcount := (State.countOnce_stays _ (as.map LaneAcc.access) (hread.spec_zero hspec)).trans hread
    change (if _ then _ else _ : State).cur.Stays s.cur
    split <;> exact hcount

/-- A use of a record name gives a valid record, and leaves key, lanes and speculation of the wave. -/
theorem State.useRec_ok {iss : List Nat} {k : Nat} {o : List Nat} {r : Rec} (hspec : s.cur.spec = 0) (hl : s.cur.lanes ≠ [])
    (h : s.useRec iss act k o = .ok (r, s1)) : r.valid = true ∧ s1.cur.Stays s.cur := by
  unfold State.useRec at h
  split at h
  · cases h
  next ea hbound =>
    dsimp only at h
    split at h
    · cases h
    next bs u hgot =>
      split at h
      next hgood =>
        cases h
        refine ⟨(Bool.and_eq_true_iff.mp hgood).1, ?_⟩
        split at hgot
        · cases hgot
          exact .refl _
        · exact State.loadRec_stays hspec hl hgot
      · cases h

/-! ### `trec`, `rfence` and `sclq` (R185, R186, R188) -/

theorem bodyTrec_done {f : FmtTrec} {iss : List Nat} {bs : List Byte} {ea : Nat}
    (hea : wrapTo 64 (((s.cur.getS f.sa.toNat).toNat : Int) + f.off.toInt) = ea) (halign : ea % 64 = 0)
    (hload : s.loadRec act ea = .ok (bs, s1)) :
    bodyTrec f iss act s = .done (s1.setTeam { s1.teamOf s1.cur with
      recs := (s1.teamOf s1.cur).recs.set f.rec_.toNat (some (BitVec.ofNat 64 ea)) }) [] := by
  unfold bodyTrec
  simp only [hea, halign, hload, bne_self_eq_false, Bool.false_eq_true, if_false]

theorem bodyRfence_done {iss : List Nat} (hpassed : s.passed s.cur.wct = true) :
    let tags := (s.teamOf s.cur).recs.filterMap (fun r => r.map (fun a => recTag s.cur.key.grid a.toNat))
    let c := s.coreAt s.cur.core
    bodyRfence iss act s =
      .done (s.setCore s.cur.core { c with rcache := c.rcache.filter (fun e => !tags.contains e.1) }) [] := by
  unfold bodyRfence
  simp only [hpassed, Bool.not_true, Bool.false_eq_true, if_false]

theorem fmaxOf_toNat (k : BitVec 4) : fmaxOf k.toNat = if k = 4 then 448 else if k = 5 then 57344 else 2 := by
  revert k
  decide

/-- Settles O31: each of the three bodies completes with what it writes. -/
theorem recordResults : Obligations.RecordResults := by
  refine ⟨fun f s s1 bs hr => ?_, fun f s hr hpassed => ?_, fun f s hr => ?_⟩
  · intro ea halign hload
    exact completes_of_done _ s _ (bodyTrec f) hr rfl (bodyTrec_done rfl halign hload)
  · exact completes_of_done _ s _ bodyRfence hr rfl (bodyRfence_done hpassed)
  · refine completes_of_done _ s _ (bodySclq f) hr rfl ?_
    rw [← fmaxOf_toNat f.fmt]
    rfl

end Sys2Proof.Machine

namespace Sys2Proof.Machine

/-! ### What is performed before a read leaves the width of the wave (R227) -/

theorem State.landEntry_width (s : State) (k : Nat) (locs : List Nat) (hl : s.cur.lanes ≠ []) :
    (s.landEntry s.cur.key k locs).cur.width = s.cur.width := by
  have hland : ∀ (v : Wave) (bs : List (Nat × Byte)) (f : Wave → Wave), v.Stays s.cur → v.width = s.cur.width →
      (∀ w, (f w).key = w.key ∧ (f w).width = w.width) → (((s.setWave v).makeVisible bs).onWave s.cur.key f).cur.width = s.cur.width := by
    intro v bs f hv hwidth hf
    rw [s.setWave_cur v hv.1]
    obtain ⟨m, hm⟩ := (s.withCur v).cur_makeVisible bs
    rw [State.onWave_cur _ _ _ (by rw [hm]; exact hv.1) (by rw [hm]; exact hv.lanes_ne hl) (hf _).1]
    exact (hf _).2.trans (by rw [hm]; exact hwidth)
  unfold State.landEntry
  rw [s.findWave_cur hl]
  dsimp only
  split
  · rfl
  · split
    · rfl
    next e _ _ =>
      obtain ⟨a, b, hread⟩ := s.readLate_eq s.cur (fun _ => true) ((e.bytes.filter (fun b => locs.contains b.1)).map Prod.fst)
      rw [hread]
      split
      · exact hland _ _ _ ⟨rfl, rfl, rfl⟩ rfl fun _ => ⟨rfl, rfl⟩
      · exact hland _ _ _ ⟨rfl, rfl, rfl⟩ rfl fun _ => by split <;> exact ⟨rfl, rfl⟩
      · exact hland _ _ _ ⟨rfl, rfl, rfl⟩ rfl fun _ => ⟨rfl, rfl⟩

theorem State.landAll_width (s : State) (ps : List (Nat × List Nat)) (hl : s.cur.lanes ≠ []) :
    (ps.foldl (fun s p => s.landEntry s.cur.key p.1 p.2) s).cur.width = s.cur.width := by
  induction ps generalizing s with
  | nil => rfl
  | cons p r ih =>
    have hstays := s.landEntry_stays s.cur.key p.1 p.2 rfl hl
    exact (ih _ (hstays.lanes_ne hl)).trans (s.landEntry_width p.1 p.2 hl)

theorem State.beforeRead_width (s : State) (main : Bool) (hl : s.cur.lanes ≠ []) :
    (s.beforeRead main false).cur.width = s.cur.width := by
  unfold State.beforeRead
  simp only [Bool.and_false, Bool.false_and, Bool.false_eq_true, if_false]
  split
  · unfold State.landBefore
    split
    · rfl
    · exact s.landAll_width _ hl
  · rfl

/-! ### A tile's elements, their accesses and their bytes (R183, R194) -/

/-- A format takes some byte. -/
theorem Rec.size_pos (r : Rec) : 0 < r.size := by
  have h : 8 ≤ fmtBits r.fmt := by
    unfold fmtBits
    split <;> decide
  unfold Rec.size
  omega

/-- A check that does not pass is one of the first seven. -/
theorem checkAccess_ok_or_early (s : State) (w : Wave) (now : Bool) (need : AccNeed) (space tid ea n : Nat) :
    (∃ a, checkAccess s w now need space tid ea n = .ok a) ∨ (checkAccess s w now need space tid ea n).order < 100 := by
  have hpoison : ∀ x, (∃ a, poisonCheck s w need (need.r && need.w) x = .ok a) ∨
      (poisonCheck s w need (need.r && need.w) x).order < 100 := by
    intro x
    unfold poisonCheck
    extract_lets bad
    split
    · split
      · exact .inl ⟨_, rfl⟩
      · exact .inr (by decide : 7 < 100)
    · exact .inl ⟨_, rfl⟩
  have htrap : ∀ (o c i : Nat), o < 100 → (∃ a, LaneAcc.trap o c i = .ok a) ∨ (LaneAcc.trap o c i).order < 100 := fun _ _ _ ho => .inr ho
  unfold checkAccess
  dsimp only
  split
  · exact htrap 1 5 0 (by decide)
  · split
    · exact htrap 2 7 0 (by decide)
    · split
      · exact htrap 2 7 0 (by decide)
      · exact hpoison _
    · split
      · exact htrap 2 7 0 (by decide)
      · exact hpoison _
    · split
      · exact htrap 2 7 0 (by decide)
      · generalize (if now = true then _ else _ : Trans) = tr
        cases tr with
        | miss => exact .inr (by decide : 3 < 100)
        | fault m => exact .inr (by decide : 3 < 100)
        | hit size w0 w1 =>
          dsimp only
          split
          · exact htrap 4 7 0 (by decide)
          · split
            · exact htrap 5 8 _ (by decide)
            · split
              · exact htrap 6 7 0 (by decide)
              · exact hpoison _

/-- Where no access fails, each meets no early check. -/
theorem order_of_failed_none {s : State} {act : List Nat} {ea : Nat → Nat} {rs : List (Nat × LaneAcc)} {all : Bool}
    (h : failed s act ea rs all = none) {r : Nat × LaneAcc} (hr : r ∈ rs) : 100 ≤ r.2.order := by
  have hok : verdict rs = .ok := by
    unfold failed at h
    split at h
    · assumption
    all_goals cases h
  unfold verdict at hok
  split at hok
  · cases hok
  · split at hok
    next hnone =>
      rw [minNat_eq_min?, List.min?_eq_none_iff, List.map_eq_nil_iff] at hnone
      rw [hnone] at hr
      cases hr
    next o hleast =>
      split at hok
      next ho =>
        rw [minNat_eq_min?, List.min?_eq_some_iff, beq_iff_eq.mp ho] at hleast
        exact hleast.2 _ (List.mem_map_of_mem hr)
      · split at hok <;> cases hok

section
variable {s : State} {r : Rec} {o : List Nat} {need : AccNeed} {act : List Nat}

/-- The access of the element at `c` by a lane, as the tile instructions check it. -/
def State.elemAcc (s : State) (r : Rec) (need : AccNeed) (l : Nat) (c : List Nat) : LaneAcc :=
  checkAccess s s.cur false need 0 (s.cur.lane l).tid (r.addr c) r.size

theorem mem_tileEls {width l : Nat} {e : TileEl} : e ∈ tileEls r o width l ↔
    ∃ i < tileQ r width, ∃ k < r.e0, width * i + l < r.e1 ∧ r.inside (coordsAt o k (width * i + l)) = true ∧
      e = ⟨i, k * r.size, coordsAt o k (width * i + l)⟩ := by
  unfold tileEls
  simp only [List.mem_flatMap, List.mem_range]
  refine exists_congr fun i => and_congr_right fun _ => ?_
  by_cases hrow : width * i + l < r.e1
  · simp only [hrow, if_true, List.mem_filterMap, List.mem_range, true_and]
    refine exists_congr fun k => and_congr_right fun _ => ?_
    by_cases hin : r.inside (coordsAt o k (width * i + l)) = true
    · simp [hin, eq_comm]
    · simp [hin]
  · simp [hrow]

theorem mem_tileAccs {x : Nat × Nat × LaneAcc × TileEl} : x ∈ tileAccs s r o need act ↔
    ∃ l ∈ act, ∃ e ∈ tileEls r o s.cur.width l, x = (l, r.addr e.at_, s.elemAcc r need l e.at_, e) := by
  unfold tileAccs State.elemAcc
  simp only [List.mem_flatMap, List.mem_map, eq_comm]

/-- Where the tile does not fail, every access of it passes. -/
theorem ok_of_tileFailed {fails : List Nat} (h : tileFailed s r fails (tileAccs s r o need act) = none)
    {x : Nat × Nat × LaneAcc × TileEl} (hx : x ∈ tileAccs s r o need act) : ∃ a, x.2.2.1 = .ok a := by
  obtain ⟨l, -, e, -, rfl⟩ := mem_tileAccs.mp hx
  refine (checkAccess_ok_or_early ..).resolve_right fun hearly => ?_
  unfold tileFailed at h
  dsimp only at h
  split at h
  · cases h
  next hfailed =>
    split at h
    · cases h
    next hmix =>
      refine absurd (order_of_failed_none hfailed (r := (l, s.elemAcc r need l e.at_)) ?_) (Nat.not_le.mpr hearly)
      refine List.mem_map.mpr ⟨(l, r.addr e.at_, s.elemAcc r need l e.at_), (mem_sortBy _ _ _).mpr ?_, rfl⟩
      refine List.mem_map.mpr ⟨_, hx, ?_⟩
      simp only [hmix, Bool.false_and, Bool.false_eq_true, if_false]

/-- `x` is an access of the lane's row that takes byte `b` of it. -/
def coversByte (r : Rec) (l i b : Nat) (x : Nat × Nat × LaneAcc × TileEl) : Bool :=
  x.1 == l && x.2.2.2.part == i && x.2.2.2.byte ≤ b && b < x.2.2.2.byte + r.size

/-- The one access that takes byte `b` of a lane's row is that of the element in which the byte lies. -/
theorem covering_access {l i b : Nat} {x : Nat × Nat × LaneAcc × TileEl} :
    (x ∈ tileAccs s r o need act ∧ coversByte r l i b x = true) ↔
    let y := s.cur.width * i + l
    let c := coordsAt o (b / r.size) y
    l ∈ act ∧ i < tileQ r s.cur.width ∧ b / r.size < r.e0 ∧ y < r.e1 ∧ r.inside c = true ∧
      x = (l, r.addr c, s.elemAcc r need l c, ⟨i, b / r.size * r.size, c⟩) := by
  dsimp only
  constructor
  · rintro ⟨hx, hcovers⟩
    obtain ⟨l', hl, e, he, rfl⟩ := mem_tileAccs.mp hx
    obtain ⟨i', hi, k, hk, hrow, hin, rfl⟩ := mem_tileEls.mp he
    simp only [coversByte, Bool.and_eq_true, beq_iff_eq, decide_eq_true_eq] at hcovers
    obtain ⟨⟨⟨rfl, rfl⟩, hlo⟩, hhi⟩ := hcovers
    obtain rfl : k = b / r.size := (Nat.div_eq_of_lt_le hlo (by rwa [Nat.succ_mul])).symm
    exact ⟨hl, hi, hk, hrow, hin, rfl⟩
  · rintro ⟨hl, hi, hk, hrow, hin, rfl⟩
    refine ⟨mem_tileAccs.mpr ⟨l, hl, _, mem_tileEls.mpr ⟨i, hi, _, hk, hrow, hin, rfl⟩, rfl⟩, ?_⟩
    have hlo := Nat.div_mul_le_self b r.size
    have hhi := Nat.lt_div_mul_add (a := b) r.size_pos
    simp [coversByte, hlo, hhi]

/-- A byte of an element inside the tensor is that of its access. -/
theorem tileByte_inside {l i b : Nat} (hl : l ∈ act) (hi : i < tileQ r s.cur.width) (hb : b / r.size < r.e0)
    (hrow : s.cur.width * i + l < r.e1) (hin : r.inside (coordsAt o (b / r.size) (s.cur.width * i + l)) = true) :
    let a := (s.elemAcc r need l (coordsAt o (b / r.size) (s.cur.width * i + l))).access
    tileByte r (tileAccs s r o need act) l i b = some (a, a.locs.getD (b % r.size) 0) := by
  have hsome := List.find?_isSome.mpr ⟨_, (covering_access (need := need)).mpr ⟨hl, hi, hb, hrow, hin, rfl⟩⟩
  obtain ⟨x, hx⟩ := Option.isSome_iff_exists.mp hsome
  obtain ⟨-, -, -, -, -, rfl⟩ := covering_access.mp ⟨List.mem_of_find?_eq_some hx, List.find?_some hx⟩
  have hbyte : b - b / r.size * r.size = b % r.size := by
    rw [Nat.mul_comm, ← Nat.mod_eq_sub_mul_div]
  unfold tileByte
  change (List.find? (coversByte r l i b) _).map _ = _
  rw [hx, Option.map_some, hbyte]

/-- A byte in a row at or above e1, or of an element outside the tensor, is of no access. -/
theorem tileByte_outside {l i b : Nat}
    (h : r.e1 ≤ s.cur.width * i + l ∨ r.inside (coordsAt o (b / r.size) (s.cur.width * i + l)) = false) :
    tileByte r (tileAccs s r o need act) l i b = none := by
  unfold tileByte
  rw [Option.map_eq_none_iff, List.find?_eq_none]
  intro x hx hcovers
  obtain ⟨-, -, -, hrow, hin, -⟩ := covering_access.mp ⟨hx, hcovers⟩
  rcases h with h | h
  · omega
  · rw [h] at hin
    cases hin

end

/-- A byte of an access is read as that of the whole access. -/
theorem State.tileLoad_access (s : State) (a : Access) {k : Nat} (hk : k < a.locs.length) :
    s.tileLoad (some (a, a.locs.getD k 0)) = (s.loadBytes s.cur a).getD k 0 := by
  unfold State.tileLoad State.loadBytes
  simp [List.getD_eq_getElem?_getD, hk]

/-- The bytes of a row's registers are those of its elements. -/
theorem four_tileRt {r : Rec} {k data : Nat} {iss : List Nat} {s : State} (h : tileGate r k data iss s = none) :
    4 * tileRt r = r.e0 * r.size := by
  unfold tileGate at h
  dsimp only at h
  split at h
  · cases h
  · split at h
    · cases h
    next hfit =>
      simp only [Bool.or_eq_true, bne_iff_ne, not_or, not_not] at hfit
      obtain ⟨⟨hfour, -⟩, -⟩ := hfit
      exact Nat.mul_div_cancel' (Nat.dvd_of_mod_eq_zero hfour)

/-! ### `vldt` and `vstt` (R194) -/

/-- The register element of lane `l`, row part `i` and column `j` of a tile that is loaded. -/
def loadedElem (f : FmtVldt) (s : State) (r : Rec) (xs : List (Nat × Nat × LaneAcc × TileEl)) (l i j : Nat) : PElem :=
  { lane := l, reg := f.reg.toNat + tileRt r * i + j,
    val := BitVec.ofNat 32 (leNat ((List.range 4).map (fun k => s.tileLoad (tileByte r xs l i (4 * j + k))))),
    src := s.tileSrc ((List.range 4).filterMap (fun k => tileByte r xs l i (4 * j + k))) }

/-- The tile is that of a pending producer of `rows` rows of registers in each active lane. -/
def State.loadTile (s : State) (f : FmtVldt) (act : List Nat) (r : Rec) (xs : List (Nat × Nat × LaneAcc × TileEl)) (rows : Nat) : State :=
  let read := (xs.map (fun x => x.2.2.1.access)).map Access.atIssue
  let elems := act.flatMap (fun l => (List.range rows).flatMap (fun i => (List.range (tileRt r)).map (loadedElem f s r xs l i)))
  (s.countTile r read).addPend
    { vecPend elems ((List.range (tileRt r * rows)).map (fun k => f.reg.toNat + k)) false with counted := read.any Access.zero } act

theorem State.countTile_width (s : State) (r : Rec) (as : List Access) (hspec : s.cur.spec = 0) :
    (s.countTile r as).cur.width = s.cur.width := by
  unfold State.countTile State.countOnce
  generalize (if s.poisonSeen then _ else _ : List Access) = bs
  obtain ⟨m, hm⟩ := s.cur_countAccess bs hspec
  rw [hm]

section
variable {f : FmtVldt} {iss act : List Nat} {s s1 : State} {r : Rec} {o : List Nat}
  (ho : originOf (s.cur.getS f.sa.toNat).toNat (s.cur.getS f.sb.toNat).toNat = o)
  (huse : s.useRec iss act f.rec_.toNat o = .ok (r, s1)) (hgate : tileGate r f.rec_.toNat f.reg.toNat iss s1 = none)
include ho huse hgate

/-- Where every access passes, the tile becomes that of a pending producer. -/
theorem bodyVldt_done (hspec : s1.cur.spec = 0) (hl : s1.cur.lanes ≠ [])
    (hpass : tileFailed s1 r act (tileAccs s1 r o needLoad act) = none) :
    let xs := tileAccs s1 r o needLoad act
    let s2 := s1.beforeRead ((xs.map (fun x => x.2.2.1.access)).any (fun a => a.cls != 3)) false
    bodyVldt f iss act s = .done (s2.loadTile f act r xs (tileQ r s1.cur.width)) [] := by
  unfold bodyVldt
  dsimp only
  rw [ho, huse]
  dsimp only
  rw [hgate]
  dsimp only
  rw [hpass]
  dsimp only
  generalize tileAccs s1 r o needLoad act = xs
  generalize ((xs.map (fun x => x.2.2.1.access)).any (fun a => a.cls != 3)) = main
  have hwidth := s1.beforeRead_width main hl
  rw [State.countTile_width _ _ _ ((s1.beforeRead_stays main hl).spec_zero hspec), hwidth]
  rfl

/-- Where every access passes, the bytes of the elements are queued. -/
theorem bodyVstt_done (hro : r.ro = false) (hpass : tileFailed s1 r act (tileAccs s1 r o needStore (s1.cur.byTid act)) = none) :
    let xs := tileAccs s1 r o needStore (s1.cur.byTid act)
    let s2 := s1.countTile r (xs.map (fun x => x.2.2.1.access))
    let row := fun (l i : Nat) => (List.range (tileRt r)).flatMap (fun j =>
      leBytes 4 (s1.cur.readV false l (f.reg.toNat + tileRt r * i + j)).toNat)
    let part := fun (fb : Bool) => lastBytes ((xs.filter (fun x => (x.2.2.1.access.cls == 3) == fb)).flatMap (fun x =>
      x.2.2.1.access.locs.zip (((row x.1 x.2.2.2.part).drop x.2.2.2.byte).take r.size)))
    bodyVstt f iss act s = .done (s2.withCur ((s2.cur.queueStore (part false) false).queueStore (part true) true)) [] := by
  unfold bodyVstt
  simp only [ho, huse, hgate, hro, hpass, Bool.false_eq_true, if_false]
  rfl

end

/-- Settles O33: the two bodies by the accesses that pass, and each byte of the tile by the access that covers it. -/
theorem tileAccessResults : Obligations.TileAccessResults := by
  intro f s s1 r o
  constructor
  · intro hr huse hgate act xs hpass as s2 rt rows value elem elems read
    obtain ⟨-, hstays⟩ := State.useRec_ok (spec_of_ready hr) (lanes_ne_nil_of_active _ s (active_ne_nil_of_ready hr)) huse
    have hl : s1.cur.lanes ≠ [] := hstays.lanes_ne (lanes_ne_nil_of_active _ s (active_ne_nil_of_ready hr))
    refine ⟨completes_of_done _ s _ (bodyVldt f) hr rfl
      (bodyVldt_done rfl huse hgate (hstays.spec_zero (spec_of_ready hr)) hl hpass), fun l hlane i hi b hb => ?_⟩
    intro y c
    have hcol : b / r.size < r.e0 := Nat.div_lt_of_lt_mul (by rw [Nat.mul_comm, ← four_tileRt hgate]; exact hb)
    refine ⟨fun hrow hin => ?_, fun hout => congrArg s2.tileLoad (tileByte_outside hout)⟩
    have hbyte : tileByte r xs l i b = _ := tileByte_inside hlane hi hcol hrow hin
    obtain ⟨hmem, -⟩ := (covering_access (need := needLoad)).mpr ⟨hlane, hi, hcol, hrow, hin, rfl⟩
    obtain ⟨a, ha : s1.elemAcc r needLoad l c = .ok a⟩ := ok_of_tileFailed hpass hmem
    obtain ⟨hlen, -⟩ := access_of_checkAccess ha
    refine ⟨a, ha, ?_⟩
    change s2.tileLoad (tileByte r xs l i b) = _
    rw [hbyte, ha]
    exact s2.tileLoad_access a (hlen.symm ▸ Nat.mod_lt b r.size_pos)
  · intro hr htask huse hgate hro xs hpass
    exact completes_of_done _ s _ (bodyVstt f) hr rfl ((congrArg _ (taskWide_none s _ htask)).trans (bodyVstt_done rfl huse hgate hro hpass))

end Sys2Proof.Machine

namespace Sys2Proof.Machine

/-! ### What an issue leaves out of account of the wave: its progress and the reason of its wait -/

/-- A wave is another one but for its progress and the reason of its wait. -/
def Wave.SameButWait (v w : Wave) : Prop := ∃ p y, v = { w with prog := p, why := y }

theorem Wave.SameButWait.trans {a b c : Wave} (h : a.SameButWait b) (g : b.SameButWait c) : a.SameButWait c := by
  obtain ⟨p, y, rfl⟩ := h
  obtain ⟨q, z, rfl⟩ := g
  exact ⟨p, y, rfl⟩

theorem Wave.SameButWait.key {v w : Wave} (h : v.SameButWait w) : v.key = w.key := by
  obtain ⟨p, y, rfl⟩ := h
  rfl

theorem State.nextBlock_sameButWait {u : State} {v : Wave} (h : v.SameButWait u.cur) (x : Lane) : (u.withCur v).nextBlock x = u.nextBlock x := by
  obtain ⟨p, y, rfl⟩ := h
  unfold State.nextBlock
  have hhead : (u.withCur { u.cur with prog := p, why := y }).header { u.cur with prog := p, why := y } (x.blkEnd + 1) =
      u.header u.cur (x.blkEnd + 1) := by
    rw [u.header_withCur { u.cur with prog := p, why := y } _ rfl]
    rfl
  dsimp only [State.withCur_cur]
  rw [hhead]

/-- What retires with such a wave retires with the other. -/
theorem Retires.of_sameButWait {s u t : State} {v : Wave} {ls : List Nat} {entered : Prop} (hv : v.SameButWait u.cur)
    (h : Retires s (u.withCur v) t ls entered) : Retires s u t ls entered := by
  have hnext := fun x => State.nextBlock_sameButWait hv x
  obtain ⟨p, y, rfl⟩ := hv
  obtain ⟨hmoves, hcounted⟩ := h
  exact ⟨{ same := hmoves.same
           moved := hmoves.moved
           passes := fun l hl hlt hend => (hmoves.passes l hl hlt hend).trans (hnext _)
           stays := hmoves.stays
           cleared := hmoves.cleared
           kept := hmoves.kept }, fun htm => ⟨(hcounted htm).counts, (hcounted htm).overrides⟩⟩

theorem Completes.of_sameButWait {i : Instr} {s u : State} {v : Wave} (hv : v.SameButWait u.cur) (h : Completes i s (u.withCur v)) :
    Completes i s u := by
  obtain ⟨t, ht, hr⟩ := h
  exact ⟨t, ht, hr.of_sameButWait hv⟩

theorem Wave.orFlags_sameButWait {v w : Wave} (h : v.SameButWait w) (ls : List Nat) (fl : Nat → BitVec 6) :
    (v.orFlags ls fl).SameButWait (w.orFlags ls fl) := by
  unfold Wave.orFlags
  induction ls generalizing v w with
  | nil => exact h
  | cons l r ih =>
    refine ih ?_
    obtain ⟨p, y, rfl⟩ := h
    dsimp only
    split <;> exact ⟨p, y, rfl⟩

/-- Leaving the staging buffer changes no more of the current wave than the reason of its wait (R189). -/
theorem State.cur_leaveStage (s : State) (key : WKey) : (s.leaveStage key).cur.SameButWait s.cur := by
  unfold State.leaveStage
  split
  · change (if s.cur.why == .staging then { s.cur with why := .none } else s.cur : Wave).SameButWait s.cur
    split
    · exact ⟨s.cur.prog, .none, rfl⟩
    · exact ⟨s.cur.prog, s.cur.why, rfl⟩
  · exact ⟨s.cur.prog, s.cur.why, rfl⟩

/-! ### The end of a quantisation instruction (R187, R189) -/

section
variable {act : List Nat} {p : List (Nat × Nat)} {s : State}

theorem Wave.awaits_eq_false {w : Wave} {locs : List Nat} (h : ∀ e ∈ w.pw, ∀ x ∈ e.bytes, x.1 ∉ locs) : w.awaits locs = false := by
  unfold Wave.awaits
  simpa using h

theorem any_stats_iff : p.any (fun x => x.1 == 256) = true ↔ (p.filter (fun x => x.1 == 256)).map Prod.snd ≠ [] := by
  simp [List.filter_eq_nil_iff]

theorem quantEnd_waits (h : s.cur.awaits (awaited p) = true) : quantEnd act p s = .wait .staging s := by
  unfold quantEnd
  exact if_pos h

/-- With the writes acknowledged, the updates of the statistics come next. -/
theorem quantEnd_updates (hlanded : s.cur.awaits (awaited p) = false) (hstats : (p.filter (fun x => x.1 == 256)).map Prod.snd ≠ []) :
    let stats := (p.filter (fun x => x.1 == 256)).map Prod.snd
    quantEnd act p s = .wait .staging ((s.withCur (s.cur.statistics s.contract stats (keptVal p 0) (keptVal p 1)
      (keptVal p 2) (keptVal p 3) (keptVal p 5))).progressed ((4, keptVal p 4) :: stats.map (fun x => (10, x)))) := by
  unfold quantEnd
  simp only [hlanded, any_stats_iff.mpr hstats, Bool.false_eq_true, if_false, if_true]
  rfl

/-- With nothing left to update, the instruction retires with its flags. -/
theorem quantEnd_done (hlanded : s.cur.awaits (awaited p) = false) (hstats : (p.filter (fun x => x.1 == 256)).map Prod.snd = []) :
    quantEnd act p s = .done ((s.leaveStage s.cur.key).withCur
      ((s.leaveStage s.cur.key).cur.orFlags act (fun _ => BitVec.ofNat 6 (keptVal p 4)))) [] := by
  have hany : p.any (fun x => x.1 == 256) = false := by
    rw [Bool.eq_false_iff]
    exact fun h => any_stats_iff.mp h hstats
  unfold quantEnd
  simp only [hlanded, hany, Bool.false_eq_true, if_false]
  rfl

/-- What an instruction keeps when its tile leaves the staging buffer, with the locations that it awaits. -/
def QOut.kept (q : QOut) (event : Bool) (stats : List Nat) : List (Nat × Nat) :=
  q.keep event stats ++ q.writes.map (fun x => (10, x.1))

theorem awaited_kept (q : QOut) (event : Bool) (stats : List Nat) : awaited (q.kept event stats) = q.writes.map Prod.fst := by
  unfold awaited QOut.kept QOut.keep
  simp [List.filter_map, Function.comp_def]

theorem stats_kept (q : QOut) (event : Bool) (stats : List Nat) :
    ((q.kept event stats).filter (fun x => x.1 == 256)).map Prod.snd = stats := by
  unfold QOut.kept QOut.keep
  simp [List.filter_map, Function.comp_def]

end

/-! ### The tile in the staging buffer (R189 to R193) -/

/-- The accesses of the reads of a tile, and its other ones. -/
def State.readAccs (s : State) (act : List Nat) (k : QKind) (dst src : Rec) (o : List Nat) : List LaneAcc :=
  (k.reads dst src o).map (fun x => s.tileAcc act needTileR x.1 x.2)
def State.otherAccs (s : State) (act : List Nat) (k : QKind) (dst : Rec) (o : List Nat) : List LaneAcc :=
  (k.others dst o).map (fun x => s.tileAcc act x.1 x.2.1 x.2.2)

/-- The tile passes the threshold of `qblk.d` (R191). -/
def QKind.hits (k : QKind) (dst : Rec) (q : QOut) : Bool := k == .quant true && q.passes (fF32.decode dst.thresh)

/-- The locations of the statistics that the instruction will update (R187). -/
def QKind.statLocs (k : QKind) (s : State) (act : List Nat) (dst : Rec) (q : QOut) : List Nat :=
  match k with
  | .quant _ => if dst.stats == 0 || q.n == 0 then [] else statFields.flatMap (fun f => s.tileLocs act needStats (dst.stats + f.1) f.2)
  | _ => []

/-- The masked events of a tile, counted (R129, R191). -/
def State.countEvents (s : State) (g : Grid) (mix hit : Bool) : State :=
  (s.countUp g 0x14 (if mix then 1 else 0)).countUp g 0x18 (if hit then 1 else 0)

/-- The writes whose access is of class 3, or the other ones. -/
def QOut.part (q : QOut) (accs : List LaneAcc) (fb : Bool) : List (Nat × Byte) :=
  q.writes.filter (fun x => (((rangeLocs accs).filter (fun x => x.2 == 3)).map Prod.fst).contains x.1 == fb)

/-- The bytes of the tile, queued as stores of the wave. -/
def State.queueTile (s : State) (q : QOut) (accs : List LaneAcc) : State :=
  s.withCur ((s.cur.queueStore (q.part accs false) false).queueStore (q.part accs true) true)

/-- The checks before a tile is staged all pass (R184, R189). -/
structure TilePasses (k : QKind) (dst src : Rec) (o act : List Nat) (s : State) : Prop where
  legal : k.legal s.contract dst src o = true
  writable : dst.ro = false
  unmixed : (dst.mixes s.contract || src.mixes s.contract) = true → tbit (s.gridOf s.cur).trapen 8 = false
  reads : ∀ x ∈ k.reads dst src o, ∃ a, s.tileAcc act needTileR x.1 x.2 = .ok a ∧ a.locs.any s.isPoisoned = false
  others : ∀ x ∈ k.others dst o, ∃ a, s.tileAcc act x.1 x.2.1 x.2.2 = .ok a

theorem State.poison_joinStage (s : State) : s.joinStage.1.poison = s.poison := by
  unfold State.joinStage
  dsimp only
  split <;> rfl

theorem State.cur_joinStage (s : State) : s.joinStage.1.cur = s.cur := by
  unfold State.joinStage
  dsimp only
  split <;> rfl

/-- The same accesses, each with its address. -/
def State.readPairs (s : State) (act : List Nat) (k : QKind) (dst src : Rec) (o : List Nat) : List (Nat × LaneAcc) :=
  (k.reads dst src o).map (fun x => (x.1, s.tileAcc act needTileR x.1 x.2))
def State.otherPairs (s : State) (act : List Nat) (k : QKind) (dst : Rec) (o : List Nat) : List (Nat × LaneAcc) :=
  (k.others dst o).map (fun x => (x.2.1, s.tileAcc act x.1 x.2.1 x.2.2))

theorem TilePasses.ok_pairs {k : QKind} {dst src : Rec} {o act : List Nat} {s : State} (h : TilePasses k dst src o act s)
    {x : Nat × LaneAcc} (hx : x ∈ s.readPairs act k dst src o ++ s.otherPairs act k dst o) : ∃ a, x.2 = .ok a := by
  rcases List.mem_append.mp hx with hx | hx
  · obtain ⟨y, hy, rfl⟩ := List.mem_map.mp hx
    obtain ⟨a, ha, -⟩ := h.reads y hy
    exact ⟨a, ha⟩
  · obtain ⟨y, hy, rfl⟩ := List.mem_map.mp hx
    exact h.others y hy

theorem TilePasses.order_pairs {k : QKind} {dst src : Rec} {o act : List Nat} {s : State} (h : TilePasses k dst src o act s)
    {x : Nat × LaneAcc} (hx : x ∈ s.readPairs act k dst src o ++ s.otherPairs act k dst o) : x.2.order = 100 := by
  obtain ⟨a, ha⟩ := h.ok_pairs hx
  rw [ha]
  rfl

/-- No read of the tile is poisoned for the wave. -/
theorem TilePasses.clean_reads {k : QKind} {dst src : Rec} {o act : List Nat} {s : State} (h : TilePasses k dst src o act s) :
    (s.readPairs act k dst src o).find? (fun r => r.2.access.locs.any (s.joinStage.1.poisonedFor s.joinStage.1.cur)) = none := by
  rw [List.find?_eq_none]
  intro x hx
  obtain ⟨y, hy, rfl⟩ := List.mem_map.mp hx
  obtain ⟨a, ha, hclean⟩ := h.reads y hy
  rw [List.any_eq_false] at hclean
  rw [ha, Bool.not_eq_true, List.any_eq_false]
  intro loc hloc hpoisoned
  unfold State.poisonedFor State.isPoisoned at hpoisoned
  rw [s.poison_joinStage] at hpoisoned
  exact hclean loc hloc (Bool.and_eq_true_iff.mp hpoisoned).1

/-- A tile whose checks pass is staged in its turn: then it traps at the threshold, or is written. -/
theorem quantBody_passes {k : QKind} {f : FmtQblk} {dst src : Rec} {o act : List Nat} {s : State} (h : TilePasses k dst src o act s)
    (a b : Nat) (iss : List Nat) :
    let reads := s.readAccs act k dst src o
    let rest := s.otherAccs act k dst o
    let g := s.gridOf s.cur
    let s3 := s.joinStage.1.readsRange reads
    let q := k.stage s3 act dst src o
    let hit := k.hits dst q
    let p := q.kept hit (k.statLocs s3 act dst q)
    let s4 := s3.countEvents g (dst.mixes s.contract || src.mixes s.contract) hit
    quantBody k f dst src o a b iss act s =
      if s.joinStage.2 then .wait .staging s.joinStage.1
      else if hit && tbit g.trapen 9 then .trap s3 ⟨17, act, a, b, f.dst.toNat + q.sat * 2 ^ 16 + q.under * 2 ^ 32, []⟩
      else quantEnd act p ((s4.queueTile q (reads ++ rest)).progressed p) := by
  intro reads rest g s3 q hit p s4
  have hmisfit : k.misfit s.contract dst src o = none := Option.isNone_iff_eq_none.mp h.legal
  have hmixes : ([dst, src].find? (fun r => r.mixes s.contract)).isSome = (dst.mixes s.contract || src.mixes s.contract) := by
    simp only [List.isSome_find?, List.any_cons, List.any_nil, Bool.or_false]
  have henabled : (if tbit g.trapen 8 then [dst, src].find? (fun r => r.mixes s.contract) else none) = none := by
    split
    next hon =>
      rw [← Option.not_isSome_iff_eq_none, hmixes]
      intro hsome
      rw [h.unmixed hsome] at hon
      cases hon
    · rfl
  have hearly : (s.readPairs act k dst src o ++ s.otherPairs act k dst o).filter (fun r => decide (r.2.order < 7)) = [] := by
    refine List.filter_eq_nil_iff.mpr fun x hx => ?_
    rw [h.order_pairs hx]
    decide
  have hpoison : (s.readPairs act k dst src o ++ s.otherPairs act k dst o).find? (fun r => r.2.order == 7) = none := by
    refine List.find?_eq_none.mpr fun x hx => ?_
    rw [h.order_pairs hx]
    decide
  have hread : (s.readPairs act k dst src o).map Prod.snd = reads := List.map_map
  have hall : (s.readPairs act k dst src o ++ s.otherPairs act k dst o).map Prod.snd = reads ++ rest := by
    rw [List.map_append, hread]
    exact congrArg (reads ++ ·) List.map_map
  unfold quantBody
  dsimp only
  rw [hmisfit]
  dsimp only
  rw [henabled]
  dsimp only
  rw [← State.readPairs, ← State.otherPairs, hearly, failed_none]
  swap
  · exact fun _ hr => absurd hr List.not_mem_nil
  dsimp only
  rw [h.clean_reads, hpoison, hread, hall, h.writable, if_neg Bool.false_ne_true, hmixes]
  rfl

/-! ### The bytes of the tile as stores (R189) -/

theorem mem_pw_queueStore {w : Wave} (hs : w.spec = 0) {bytes : List (Nat × Byte)} (fb : Bool) {x : Nat × Byte} (hx : x ∈ bytes) :
    ∃ e ∈ (w.queueStore bytes fb).pw, x ∈ e.bytes := by
  obtain ⟨task, hq⟩ := w.queueStore_eq bytes fb hs
  have hsome : bytes.isEmpty = false := List.isEmpty_eq_false_iff.mpr (List.ne_nil_of_mem hx)
  rw [hq, hsome]
  exact ⟨_, List.mem_append_right _ List.mem_cons_self, hx⟩

theorem pw_subset_queueStore {w : Wave} (hs : w.spec = 0) (bytes : List (Nat × Byte)) (fb : Bool) :
    w.pw ⊆ (w.queueStore bytes fb).pw := by
  obtain ⟨task, hq⟩ := w.queueStore_eq bytes fb hs
  rw [hq]
  exact List.subset_append_left _ _

/-- While a tile has bytes to write, its instruction waits for them. -/
theorem awaits_queueTile {s : State} (hs : s.cur.spec = 0) {q : QOut} (accs : List LaneAcc) (h : q.writes ≠ []) :
    (s.queueTile q accs).cur.awaits (q.writes.map Prod.fst) = true := by
  obtain ⟨x, hx⟩ := List.exists_mem_of_ne_nil _ h
  have hqueued : ∃ e ∈ (s.queueTile q accs).cur.pw, x ∈ e.bytes := by
    have hspec := s.cur.spec_queueStore (q.part accs false) false hs
    cases hslow : (((rangeLocs accs).filter (fun x => x.2 == 3)).map Prod.fst).contains x.1 with
    | true => exact mem_pw_queueStore hspec true (List.mem_filter.mpr ⟨hx, beq_iff_eq.mpr hslow⟩)
    | false =>
      obtain ⟨e, he, hxe⟩ := mem_pw_queueStore hs false (List.mem_filter.mpr ⟨hx, beq_iff_eq.mpr hslow⟩ : x ∈ q.part accs false)
      exact ⟨e, pw_subset_queueStore hspec _ _ he, hxe⟩
  obtain ⟨e, he, hxe⟩ := hqueued
  unfold Wave.awaits
  rw [List.any_eq_true]
  exact ⟨e, he, List.any_eq_true.mpr ⟨x, hxe, List.contains_iff_mem.mpr (List.mem_map_of_mem hx)⟩⟩

theorem queueTile_of_no_writes (s : State) {q : QOut} (accs : List LaneAcc) (h : q.writes = []) : s.queueTile q accs = s := by
  unfold State.queueTile QOut.part
  rw [h]
  rfl

theorem QKind.statLocs_eq (k : QKind) (s : State) (act : List Nat) (dst : Rec) (q : QOut) : k.statLocs s act dst q =
    match k with
    | .quant _ => if dst.stats = 0 ∨ q.n = 0 then [] else statFields.flatMap (fun f => s.tileLocs act needStats (dst.stats + f.1) f.2)
    | _ => [] := by
  cases k with
  | quant stored => simp only [QKind.statLocs, Bool.or_eq_true, beq_iff_eq]
  | dequant => rfl
  | had inv => rfl

/-- A tile with no element inside the tensor updates no statistics. -/
theorem QKind.statLocs_of_none (k : QKind) (s : State) (act : List Nat) (dst : Rec) {q : QOut} (h : q.n = 0) : k.statLocs s act dst q = [] := by
  rw [k.statLocs_eq]
  cases k with
  | quant stored => exact if_pos (.inr h)
  | dequant => rfl
  | had inv => rfl

/-- The reads of the staged tile leave key, lanes and speculation of the wave. -/
theorem State.staged_stays (s : State) (hl : s.cur.lanes ≠ []) (reads : List LaneAcc) : (s.joinStage.1.readsRange reads).cur.Stays s.cur := by
  have h := s.joinStage.1.readsRange_stays reads (s.cur_joinStage ▸ hl)
  rwa [s.cur_joinStage] at h

theorem State.countEvents_stays (s : State) (g : Grid) (mix hit : Bool) : (s.countEvents g mix hit).cur.Stays s.cur :=
  ((State.cur_countUp ..).trans (State.cur_countUp ..)).stays

/-- A state is another one but for the progress of the current wave and the reason of its wait. -/
def State.SameButWait (u v : State) : Prop := u = v.withCur u.cur ∧ u.cur.SameButWait v.cur

theorem State.SameButWait.refl (s : State) : s.SameButWait s := ⟨rfl, s.cur.prog, s.cur.why, rfl⟩

theorem State.progressed_sameButWait (s : State) (p : List (Nat × Nat)) : (s.progressed p).SameButWait s := ⟨rfl, _, s.cur.why, rfl⟩

/-- Leaving the staging buffer is the same to both, apart from the current wave. -/
theorem State.SameButWait.leaveStage {u v : State} (h : u.SameButWait v) (key : WKey) (w : Wave) :
    (u.leaveStage key).withCur w = (v.leaveStage key).withCur w := by
  rw [h.1]
  unfold State.leaveStage
  change (if v.cores.any _ then _ else _ : State).withCur w = _
  split <;> rfl

/-! ### The three instructions (R189) -/

/-- The instruction of a kind. -/
def quantInstr (k : QKind) (f : FmtQblk) : Instr := match k with | .quant _ => .qblk f | .dequant => .dqblk f | .had _ => .hadm f

theorem exec_quant {k : QKind} {f : FmtQblk} (hquant : ∀ b, k = .quant b → b = f.flag) (hhad : ∀ b, k = .had b → b = f.flag) (s : State) :
    exec (quantInstr k f) s = issue (quantInstr k f) s (bodyQ k f) := by
  cases k with
  | quant b => rw [hquant b rfl]; rfl
  | dequant => rfl
  | had b => rw [hhad b rfl]; rfl

/-- At its first issue the instruction uses both records. -/
theorem bodyQ_new {k : QKind} {f : FmtQblk} {iss act o : List Nat} {dst src : Rec} {s s1 s2 : State} (hnew : s.progress = [])
    (ho : originOf (s.cur.getS f.sa.toNat).toNat (s.cur.getS f.sb.toNat).toNat = o)
    (hdst : s.useRec iss act f.dst.toNat o = .ok (dst, s1)) (hsrc : s1.useRec iss act f.src.toNat o = .ok (src, s2)) :
    bodyQ k f iss act s = quantBody k f dst src o (s.cur.getS f.sa.toNat).toNat (s.cur.getS f.sb.toNat).toNat iss act s2 := by
  unfold bodyQ
  simp only [hnew, List.any_nil, Bool.false_eq_true, if_false, ho, hdst, hsrc]

/-- Once its tile has left the staging buffer, the instruction only comes to its end. -/
theorem bodyQ_left {k : QKind} {f : FmtQblk} {iss act : List Nat} {s : State} (h : ∃ x ∈ s.progress, x.1 = 4) :
    bodyQ k f iss act s = quantEnd act s.progress s := by
  have hany : s.progress.any (fun p => p.1 == 4) = true := by simpa using h
  unfold bodyQ
  exact if_pos hany

section
variable {k : QKind} {f : FmtQblk} {s : State} (hr : Ready (quantInstr k f) s) (htask : s.cur.task = none)
  (hquant : ∀ b, k = .quant b → b = f.flag) (hhad : ∀ b, k = .had b → b = f.flag)
include hr htask hquant hhad

theorem pauses_quant {u : State} (h : bodyQ k f s.cur.issuingSet (active (quantInstr k f) s) s = .wait .staging u) :
    exec (quantInstr k f) s = .next (u.withCur { u.cur with why := .staging }) :=
  exec_of_wait hr (exec_quant hquant hhad s) ((congrArg _ (taskWide_none s _ htask)).trans h)

theorem traps_quant {u : State} {t : TrapReq} (h : bodyQ k f s.cur.issuingSet (active (quantInstr k f) s) s = .trap u t) :
    Traps (quantInstr k f) s u t :=
  traps_of_trap _ s u t _ hr (exec_quant hquant hhad s) ((congrArg _ (taskWide_none s _ htask)).trans h)

/-- An instruction whose end is reached with nothing to await and nothing to update completes. -/
theorem completes_quant {u v : State} {p : List (Nat × Nat)} (hu : u.SameButWait v) (hkey : v.cur.key = s.cur.key)
    (h : bodyQ k f s.cur.issuingSet (active (quantInstr k f) s) s = quantEnd (active (quantInstr k f) s) p u)
    (hlanded : u.cur.awaits (awaited p) = false) (hstats : (p.filter (fun x => x.1 == 256)).map Prod.snd = []) :
    Completes (quantInstr k f) s ((v.leaveStage s.cur.key).withCur
      (v.cur.orFlags (active (quantInstr k f) s) (fun _ => BitVec.ofNat 6 (keptVal p 4)))) := by
  rw [quantEnd_done hlanded hstats] at h
  have hdone := completes_of_done _ s _ (bodyQ k f) hr (exec_quant hquant hhad s) ((congrArg _ (taskWide_none s _ htask)).trans h)
  have hukey : u.cur.key = s.cur.key := hu.2.key.trans hkey
  rw [hu.leaveStage, hukey] at hdone
  exact Completes.of_sameButWait (Wave.orFlags_sameButWait ((u.cur_leaveStage _).trans hu.2) _ _) hdone

end

/-- Settles O32: the body of each instruction by the tile that is staged, and its end by what is still awaited. -/
theorem quantisationResults : Obligations.QuantisationResults := by
  intro k f s i act a b o pauses hr htask hquant hhad
  change Ready (quantInstr k f) s at hr
  constructor
  · intro dst src s1 s2 hnew hdst hsrc hlegal hro g mix hmix hreads hothers reads rest
    have hl := lanes_ne_nil_of_active _ s (active_ne_nil_of_ready hr)
    obtain ⟨-, hstays1⟩ := State.useRec_ok (spec_of_ready hr) hl hdst
    obtain ⟨-, hstays2⟩ := State.useRec_ok (hstays1.spec_zero (spec_of_ready hr)) (hstays1.lanes_ne hl) hsrc
    have hstays : s2.cur.Stays s.cur := hstays2.trans hstays1
    have hbody := (bodyQ_new hnew rfl hdst hsrc).trans
      (quantBody_passes ⟨hlegal, hro, hmix, hreads, hothers⟩ a b s.cur.issuingSet)
    refine ⟨fun hline => pauses_quant hr htask hquant hhad (hbody.trans (if_pos hline)), fun hline => ?_⟩
    intro s3 q hit
    rw [hline, if_neg Bool.false_ne_true] at hbody
    refine ⟨fun htrap => traps_quant hr htask hquant hhad (hbody.trans (if_pos htrap)), fun hgoes => ?_⟩
    intro s4 slow part stats
    have hstats : stats = k.statLocs s3 act dst q := (k.statLocs_eq s3 act dst q).symm
    have hstays4 : s4.cur.Stays s.cur :=
      (s3.countEvents_stays g mix (k.hits dst q)).trans ((s2.staged_stays (hstays.lanes_ne hl) reads).trans hstays)
    replace hbody := hbody.trans (if_neg (by rw [Bool.not_eq_true]; exact hgoes))
    constructor
    · intro hwrites
      rw [hstats]
      refine pauses_quant hr htask hquant hhad (hbody.trans (quantEnd_waits ?_))
      rw [awaited_kept]
      exact awaits_queueTile (hstays4.spec_zero (spec_of_ready hr)) (reads ++ rest) hwrites
    · intro hwrites hnone
      obtain ⟨hkey, -, -⟩ := hstays4
      have hend := hbody.trans (congrArg (fun u : State => quantEnd act _ (u.progressed _)) (queueTile_of_no_writes s4 (reads ++ rest) hwrites))
      refine completes_quant hr htask hquant hhad (s4.progressed_sameButWait _) hkey hend ?_ ?_
      · have hnothing := (awaited_kept q (k.hits dst q) (k.statLocs s3 act dst q)).trans (congrArg (List.map Prod.fst) hwrites)
        exact (congrArg _ hnothing).trans (Wave.awaits_eq_false fun _ _ _ _ => List.not_mem_nil)
      · rw [stats_kept]
        exact k.statLocs_of_none s3 act dst hnone
  · intro p stats hend hlanded
    have hbody := bodyQ_left (k := k) (f := f) (iss := s.cur.issuingSet) (act := act) hend
    have hdone : s.cur.awaits (awaited p) = false := Wave.awaits_eq_false hlanded
    exact ⟨completes_quant hr htask hquant hhad (.refl s) rfl hbody hdone,
      fun hstats => pauses_quant hr htask hquant hhad (hbody.trans (quantEnd_updates hdone hstats))⟩

end Sys2Proof.Machine

namespace Sys2Proof.Machine

/-! The canonical form of memory (log entry 2) is kept by every step. Memory changes in three places only: bytes that become visible, the
scratchpad of a team that is put on a core, and the loss of the main rails. What follows says of each operation that it keeps the form, in
the order of the model; an operation that leaves memory as it is by its definition needs no lemma. -/

/-- What holds of the value, where there is one. -/
def OptHolds {α : Type} (p : α → Prop) : Option α → Prop
  | some a => p a
  | none => True

theorem OptHolds.none {α : Type} {p : α → Prop} : OptHolds p none := trivial

theorem OptHolds.get {α : Type} {p : α → Prop} {o : Option α} {a : α} (h : OptHolds p o) (e : o = some a) : p a := by
  subst e
  exact h

/-- The memory of the state that a result carries is in its canonical form. -/
def Res.Wf : Res → Prop
  | .done s _ | .jump s _ | .trap s _ | .wait _ s => Machine.Inv s
  | .fault .. => True

/-- What holds of the value; a result in its place is canonical. -/
def ExHolds {α : Type} (p : α → Prop) : Except Res α → Prop
  | .ok a => p a
  | .error r => r.Wf

theorem ExHolds.ok {α : Type} {p : α → Prop} {o : Except Res α} {a : α} (h : ExHolds p o) (e : o = .ok a) : p a := by
  subst e
  exact h

theorem ExHolds.error {α : Type} {p : α → Prop} {o : Except Res α} {r : Res} (h : ExHolds p o) (e : o = .error r) : r.Wf := by
  subst e
  exact h

/-- The memory of the next state, where there is one, is in its canonical form. -/
def NextWf : Host.Outcome State Fault Refusal → Prop
  | .next s => Inv s
  | _ => True

theorem NextWf.get {o : Host.Outcome State Fault Refusal} {s : State} (h : NextWf o) (e : o = .next s) : Inv s := by
  subst e
  exact h

theorem Inv.of_mem {s t : State} (h : Inv s) (e : t.mem = s.mem) : Inv t := by
  unfold Inv
  rwa [e]

theorem Inv.setCur {s : State} {w : Wave} (h : Inv s) : Inv { s with cur := w } := h

theorem Inv.foldl {α : Type} {l : List α} {f : State → α → State} {s : State} (h : Inv s) (hf : ∀ s x, Inv s → Inv (f s x)) :
    Inv (l.foldl f s) := by
  induction l generalizing s with
  | nil => exact h
  | cons x r ih => exact ih (hf s x h)

theorem Inv.foldl_fst {α β : Type} {l : List α} {f : State × β → α → State × β} {p : State × β} (h : Inv p.1)
    (hf : ∀ p x, Inv p.1 → Inv (f p x).1) : Inv (l.foldl f p).1 := by
  induction l generalizing p with
  | nil => exact h
  | cons x r ih => exact ih (hf p x h)

section
variable {c : Prop} [Decidable c]

theorem Inv.ite {s t : State} (hs : Inv s) (ht : Inv t) : Inv (if c then s else t) := by split <;> assumption

theorem Inv.ite_fst {α : Type} {p q : State × α} (hp : Inv p.1) (hq : Inv q.1) : Inv (if c then p else q).1 := by
  split <;> assumption

theorem Inv.ite_snd {α : Type} {p q : α × State} (hp : Inv p.2) (hq : Inv q.2) : Inv (if c then p else q).2 := by
  split <;> assumption

theorem Res.Wf.ite {r q : Res} (hr : r.Wf) (hq : q.Wf) : (if c then r else q).Wf := by split <;> assumption

theorem NextWf.ite {o u : Host.Outcome State Fault Refusal} (ho : NextWf o) (hu : NextWf u) : NextWf (if c then o else u) := by
  split <;> assumption

theorem OptHolds.ite {α : Type} {p : α → Prop} {o u : Option α} (ho : OptHolds p o) (hu : OptHolds p u) :
    OptHolds p (if c then o else u) := by
  split <;> assumption

theorem ExHolds.ite {α : Type} {p : α → Prop} {o u : Except Res α} (ho : ExHolds p o) (hu : ExHolds p u) :
    ExHolds p (if c then o else u) := by
  split <;> assumption

end

theorem Inv.makeVisible {s : State} {bytes : List (Nat × Byte)} (h : Inv s) : Inv (s.makeVisible bytes) :=
  s.wf_makeVisible bytes h

theorem Inv.putTeam {s : State} {t : Team} {core : Nat} {r : Room} (h : Inv s) : Inv (s.putTeam t core r) :=
  s.wf_putTeam t core r h

theorem Inv.placeWord {s : State} {w : Nat} (h : Inv s) : Inv (s.placeWord w) := s.wf_placeWord w h

section
variable {s : State} {w : Wave} {key : WKey} {i : Instr} {iss act x ls locs : List Nat} {q k n core grid team slot gen fuel scope : Nat}

/-! ### The named operations -/

theorem Inv.setWave (h : Inv s) : Inv (s.setWave w) := .ite h h

theorem Inv.onWave {k : WKey} {f : Wave → Wave} (h : Inv s) : Inv (s.onWave k f) := by
  unfold State.onWave
  split
  · exact .setWave h
  · exact h

theorem Inv.focus {k : WKey} (h : Inv s) : Inv (s.focus k) := by
  unfold State.focus
  split <;> exact h

theorem Inv.withWave {k : WKey} {f : State → State} (h : Inv s) (hf : ∀ t, Inv t → Inv (f t)) : Inv (s.withWave k f) :=
  .ite h (.ite (hf s h) (.focus (hf _ (.focus h))))

theorem Inv.rotate (h : Inv s) : Inv s.rotate := by
  unfold State.rotate
  split <;> exact h

theorem Inv.agentWrite {loc : Nat} {bs : List Byte} (h : Inv s) : Inv (s.agentWrite loc bs) := .makeVisible h

theorem Inv.countUp {g : Grid} {off : Nat} (h : Inv s) : Inv (s.countUp g off n) := .ite h (.agentWrite h)

theorem Inv.landEntry (h : Inv s) : Inv (s.landEntry key k locs) := by
  unfold State.landEntry
  split
  · exact h
  · split
    · exact h
    · refine .ite h ?_
      dsimp only
      split <;> exact .onWave (.makeVisible (.setWave h))

theorem Inv.ackWrite {lo len : Nat} (h : Inv s) : Inv (s.ackWrite key k lo len) := by
  unfold State.ackWrite
  split
  · exact h
  · split
    · exact h
    · exact .ite h (.onWave (.landEntry (.foldl h (fun _ _ hs => .landEntry hs))))

theorem Inv.closeWave {pick : Nat → Bool} (h : Inv s) : Inv (s.closeWave key pick) := by
  unfold State.closeWave
  split
  · exact h
  · refine .onWave ?_
    refine .foldl h ?_
    intro _ _ hs
    split
    · exact .ite hs (.landEntry hs)
    · exact hs

theorem Inv.closeAll (h : Inv s) : Inv s.closeAll := .ite h (.foldl h (fun _ _ hs => .ite hs (.closeWave hs)))

theorem Inv.landBefore {main : Bool} (h : Inv s) : Inv (s.landBefore main locs) := .ite h (.foldl h (fun _ _ hs => .landEntry hs))

theorem Inv.beforeRead {main fixed : Bool} (h : Inv s) : Inv (s.beforeRead main fixed) :=
  .ite (.ite (.landBefore h) h) (.ite (.landBefore h) h)

theorem Inv.declined {t : TrapInfo} (h : Inv s) : Inv (s.declined t) := by
  unfold State.declined
  split <;> exact h

theorem Inv.writeRecord {t : TrapInfo} (h : Inv s) : Inv (s.writeRecord t) := by
  unfold State.writeRecord
  dsimp only
  split
  · refine .ite h ?_
    split
    · exact h.of_mem (by dsimp only)
    · exact h
    · exact h
    · exact h
    · exact h
  · exact h
  · exact h
  · exact h

theorem Inv.leaveStage (h : Inv s) : Inv (s.leaveStage key) := .ite h h

theorem Inv.leaveQueues (h : Inv s) : Inv (s.leaveQueues key) := .leaveStage h

theorem Inv.takeTrap {t : TrapInfo} (h : Inv s) : Inv (s.takeTrap t) := by
  unfold State.takeTrap
  refine .ite ?_ (.writeRecord (.leaveQueues h))
  split
  · exact .writeRecord (.agentWrite (.leaveQueues h))
  · exact .writeRecord (.leaveQueues h)

/-! ### The fabric as a source -/

theorem Inv.pumpFrom {ks : List Nat} (h : Inv s) : Inv (s.pumpFrom key ks) := by
  induction ks generalizing s with
  | nil => exact h
  | cons k r ih =>
    unfold State.pumpFrom
    split
    · exact h
    · split
      · exact h
      · refine .ite (ih h) (.ite (ih h) ?_)
        split
        · exact ih (.setWave h)
        · exact ih h

theorem Inv.fabPump (h : Inv s) : Inv (s.fabPump key) := by
  unfold State.fabPump
  split
  · exact .ite h (.pumpFrom h)
  · exact h

/-- The memory of the state that the effect of `ffence` leaves is in its canonical form. -/
def FenceRes.Wf : FenceRes → Prop
  | .ready s | .waiting s | .mismatch s .. => Machine.Inv s

theorem fenceStep_wf {only : Option Nat} (h : Inv s) : (s.fenceStep only).Wf := by
  unfold State.fenceStep
  dsimp only
  split
  · exact h
  · split
    · split
      · exact h
      · exact h
      · split
        · exact Inv.fabPump h
        · exact h
    · exact Inv.fabPump h

/-! ### Issue -/

theorem Inv.netWrite {es : List NetEntry} {offset : Nat} {lanes : BitVec 64} (h : Inv s) : Inv (s.netWrite es offset lanes) := by
  unfold State.netWrite
  refine .foldl h ?_
  intro _ _ hs
  dsimp only
  split <;> exact hs

theorem Inv.retire {v : Nat} {before : List Nat} {stepping jumped : Bool} {keep : List Nat} (h : Inv s) :
    Inv (s.retire i v before iss stepping jumped keep) := by
  unfold State.retire
  exact .ite h (.ite h (.ite (.takeTrap (h.of_mem (by dsimp only))) (h.of_mem (by dsimp only))))

theorem Inv.checkAhead (h : Inv s) : Inv s.checkAhead := by
  unfold State.checkAhead
  split
  · exact .ite h h
  · exact h

theorem Inv.startBatch {v : Nat} {pages : List (Nat × Bool)} {first : Nat} {lanes : List Nat} {laneCause : List (Nat × Nat)} (h : Inv s) :
    Inv (s.startBatch i v iss act pages first lanes laneCause) := .ite h (.checkAhead h)

theorem Inv.aheadFault {v : Nat} {before : List Nat} {pages : List (Nat × Bool)} {lanes : List Nat} (h : Inv s) :
    Inv (s.aheadFault i v before iss act pages lanes) := .ite (.checkAhead h) (.checkAhead (.retire h))

theorem settle_wf {r : Res} {s0 : State} (h : Inv s0) (hr : r.Wf) : Inv (settle i s0 iss act r) := by
  unfold settle
  dsimp only
  split
  · cases r with
    | done s keep => exact .retire hr
    | jump s keep => exact .retire hr
    | trap s t => exact .takeTrap hr
    | wait why s => exact hr
    | fault pages first lanes lc => exact .startBatch h
  · cases r with
    | done s keep => exact .checkAhead (.retire hr)
    | jump s keep => exact .checkAhead (.retire hr)
    | trap s t => exact .checkAhead h
    | wait why s => exact .ite hr h
    | fault pages first lanes lc => exact .aheadFault h
  · cases r with
    | done s keep => exact .ite (.retire (.ite hr hr)) (.retire (.ite hr hr))
    | jump s keep => exact .ite (.retire hr) (.retire hr)
    | trap s t => exact h
    | wait why s => exact hr
    | fault pages first lanes lc => exact h

theorem failed_wf {ea : Nat → Nat} {rs : List (Nat × LaneAcc)} {all : Bool} (h : Inv s) : OptHolds Res.Wf (failed s act ea rs all) := by
  unfold failed
  split
  · exact trivial
  · exact h
  · exact h
  · exact trivial

theorem netLog_wf (h : Inv s) : ExHolds Inv (s.netLog i iss act) := by
  unfold State.netLog
  dsimp only
  split
  · exact (OptHolds.get (failed_wf h) ‹_› : Res.Wf _)
  · exact .ite h (Inv.netWrite h)

theorem runBody_wf {body : List Nat → List Nat → State → Res} (h : Inv s) (hb : ∀ t, Inv t → (body iss act t).Wf) :
    (runBody i s iss act body).Wf := by
  refine .ite (hb s h) ?_
  split
  · exact hb _ (ExHolds.ok (netLog_wf h) ‹_›)
  · exact ExHolds.error (netLog_wf h) ‹_›

theorem Inv.taskWide (h : Inv s) : Inv (s.taskWide i) := by
  unfold State.taskWide
  split <;> exact h

theorem Inv.sign {as : List Access} (h : Inv s) : Inv (s.sign as) := by
  unfold State.sign
  split
  · exact .ite h h
  · exact h

theorem idleBody_wf {body : List Nat → List Nat → State → Res} (h : Inv s) (hb : ∀ t, Inv t → (body iss [] t).Wf) :
    (idleBody i iss s body).Wf := by
  have hbody := hb s h
  unfold idleBody
  split
  · rename_i t r e
    rw [e] at hbody
    exact .ite hbody h
  · exact h

theorem issueState_wf {body : List Nat → List Nat → State → Res} (h : Inv s) (hb : ∀ iss act t, Inv t → (body iss act t).Wf) :
    Inv (issueState i s body) := by
  unfold issueState
  split
  · exact h
  · exact settle_wf h h
  · exact settle_wf h h
  · exact .ite (.takeTrap h) (settle_wf h h)
  · exact .ite (.ite h h) (.ite (settle_wf h (idleBody_wf h (hb _ _))) (.ite h (.ite (.checkAhead h)
      (settle_wf h (runBody_wf (.ite (.taskWide h) h) (hb _ _))))))

theorem issue_wf {body : List Nat → List Nat → State → Res} (h : Inv s) (hb : ∀ iss act t, Inv t → (body iss act t).Wf) :
    NextWf (issue i s body) := issueState_wf h hb

/-- A body keeps the canonical form. A structure, so that nothing evaluates the body in its type. -/
structure BodyWf (body : List Nat → List Nat → State → Res) : Prop where
  wf : ∀ iss act t, Inv t → (body iss act t).Wf

theorem BodyWf.issue {body : List Nat → List Nat → State → Res} (hb : BodyWf body) (h : Inv s) : NextWf (issue i s body) :=
  issue_wf h hb.wf

theorem Inv.countAccess {as : List Access} (h : Inv s) : Inv (s.countAccess as) := .ite h (.countUp (.countUp h))

theorem retiring_wf {rs : List (Nat × LaneAcc)} {r : Res} (h : Inv s) (hr : r.Wf) : (retiring s rs r).Wf := by
  cases r with
  | trap t q => exact .ite h hr
  | _ => exact hr

theorem Inv.lateRetire (h : Inv s) : Inv (s.lateRetire key ls) := by
  unfold State.lateRetire
  split
  · exact h
  · exact .setWave h

theorem Inv.fabPass {a : FabAt} (h : Inv s) : Inv (s.fabPass key a) := by
  unfold State.fabPass
  split
  · exact h
  · exact .ite (.lateRetire (.setWave h)) h

theorem Inv.tidy (h : Inv s) : Inv s.tidy :=
  .foldl (.foldl h (fun _ _ hs => .ite hs (.fabPump hs))) (fun _ _ hs => .foldl hs (fun _ _ hs => .fabPass hs))

/-! ### Lane operations -/

theorem maskChecked_wf {mask : Word64} {k : Wave} (h : Inv s) : (maskChecked mask act s k).Wf := .ite h h

/-! ### Control transfers -/

theorem transferAll_wf {s' : State} {tgt : Nat → ℤ} (h : Inv s) (h' : Inv s') : (transferAll s s' act tgt).Wf := by
  unfold transferAll
  dsimp only
  split
  · exact OptHolds.get (failed_wf h) ‹_›
  · exact h'

theorem bodyBrd_wf {f : FmtJ} (h : Inv s) : (bodyBrd f x act s).Wf := by
  unfold bodyBrd
  dsimp only
  split
  · exact retiring_wf h h
  · exact .ite h (transferAll_wf (.beforeRead (.sign h)) (.beforeRead (.sign h)))
  · unfold Option.getD
    split
    · exact OptHolds.get (failed_wf h) ‹_›
    · exact h

theorem Inv.sretCheck (h : Inv s) : Inv s.sretCheck := by
  unfold State.sretCheck
  refine .ite ?_ h
  split
  · exact h
  · split
    · exact h
    · exact .takeTrap h

theorem Inv.rejoinCheck (h : Inv s) : Inv (s.rejoinCheck k) := .ite h h

theorem Inv.arm {m : BitVec 64} (h : Inv s) : Inv (s.arm k m) := .rejoinCheck h

theorem bodyWait_wf {f : FmtJ} (h : Inv s) : (bodyWait f iss act s).Wf := .ite h (.ite (Inv.rejoinCheck h) (Inv.sretCheck (.rejoinCheck h)))

/-! ### Loads and stores -/

theorem Inv.addPend {p : Pend} (h : Inv s) : Inv (s.addPend p ls) := .ite h h

theorem bodyLd_wf {f : FmtM} (h : Inv s) : (bodyLd f x act s).Wf := by
  unfold bodyLd
  dsimp only
  split
  · exact retiring_wf h (OptHolds.get (failed_wf h) ‹_›)
  · exact .ite h (Inv.addPend (.sign (.countAccess (.beforeRead h))))

theorem bodySt_wf {f : FmtM} (h : Inv s) : (bodySt f x act s).Wf := by
  unfold bodySt
  dsimp only
  split
  · exact OptHolds.get (failed_wf h) ‹_›
  · exact .ite h (Inv.countAccess h)

theorem bodySld_wf {f : FmtM} (h : Inv s) : (bodySld f x act s).Wf := by
  unfold bodySld
  dsimp only
  split
  · exact retiring_wf h (OptHolds.get (failed_wf h) ‹_›)
  · exact .ite h (Inv.setCur (.ite (.sign (.countAccess (.beforeRead h))) (.addPend (.sign (.countAccess (.beforeRead h))))))

theorem bodySst_wf {f : FmtM} (h : Inv s) : (bodySst f x act s).Wf := by
  unfold bodySst
  dsimp only
  split
  · exact OptHolds.get (failed_wf h) ‹_›
  · exact .ite h (Inv.countAccess h)

theorem execLoadDataReturn_wf (h : Inv s) : NextWf (execLoadDataReturn key k s) := by
  unfold execLoadDataReturn
  change Inv _
  split
  · split
    · exact .ite h (.setWave h)
    · exact h
  · exact h

/-! ### Register allotment and thread order -/

theorem bodyGrow_wf {f : FmtGrow} (h : Inv s) : (bodyGrow f x act s).Wf := .ite h (.ite (.ite h h) (.ite h h))

theorem execGrowUnitsFreed_wf (h : Inv s) : NextWf (execGrowUnitsFreed core s) := by
  unfold execGrowUnitsFreed
  change Inv _
  split
  · exact h
  · split
    · exact h
    · split
      · exact .withWave h fun _ hs => issueState_wf hs (fun _ _ _ hs => bodyGrow_wf hs)
      · exact h

theorem Inv.sortMove {f : FmtSort} (h : Inv s) : Inv (s.sortMove f grid team) := .foldl h fun _ _ hs => .setWave hs

theorem Inv.sortCheck (h : Inv s) : Inv (s.sortCheck grid team) := by
  unfold State.sortCheck
  split
  · exact h
  · refine .ite ?_ h
    dsimp only
    split
    · split
      · exact .ite (.sortMove h) h
      · exact h
    · exact h

theorem execIssueOverride_wf (h : Inv s) : NextWf (execIssueOverride s) := by
  unfold execIssueOverride
  change Inv _
  split <;> exact h

theorem execIssueSlotGrant_wf (h : Inv s) : NextWf (execIssueSlotGrant core s) := by
  unfold execIssueSlotGrant
  change Inv _
  dsimp only
  split
  · exact h
  · split
    · exact h
    · exact .ite h (.ite (.setWave h) h)

/-! ### Release, acquire, atomics and the monitor -/

theorem order_wf {rel : Bool} (h : Inv s) : (s.order rel scope).Wf := by
  have hstep : (if scope == 5 then s.fenceStep none else .ready s).Wf := by
    split
    · exact fenceStep_wf h
    · exact h
  unfold State.order
  split
  · rename_i t e
    rw [e] at hstep
    split
    · exact hstep
    · split <;> exact hstep
  · exact hstep

theorem ordered_wf {rel : Bool} {k : State → Res} (h : Inv s) (hk : ∀ t, Inv t → (k t).Wf) : (ordered s rel scope act k).Wf := by
  have horder : (s.order rel scope).Wf := order_wf h
  unfold ordered
  split <;> rename_i e <;> rw [e] at horder
  · exact hk _ horder
  · exact horder
  · exact horder

theorem podFirst_wf {acq : Bool} {k : Res} (h : Inv s) (hk : k.Wf) : (podFirst s acq scope act k).Wf := by
  have hstep : (if acq && scope == 5 then s.fenceStep none else .ready s).Wf := by
    split
    · exact fenceStep_wf h
    · exact h
  unfold podFirst
  split <;> rename_i e <;> rw [e] at hstep
  · exact hk
  · exact hstep
  · exact hstep

theorem Inv.atomAll {f : FmtAtom} {as : List (Nat × Access)} (h : Inv s) : Inv (s.atomAll f as).1 :=
  .foldl_fst h fun _ _ hs => .makeVisible (.beforeRead (.landBefore hs))

theorem atomBody_wf {f : FmtAtom} {major : Nat} {k : List (Nat × Access) → State → Res} (h : Inv s)
    (hk : ∀ as t, Inv t → (k as t).Wf) : (atomBody f major act s k).Wf := by
  refine .ite h ?_
  split
  · exact retiring_wf h (OptHolds.get (failed_wf h) ‹_›)
  · exact podFirst_wf h (ordered_wf h (hk _))

theorem atomLanes_wf {f : FmtAtom} {before : List (Nat × Nat)} {as : List (Nat × Access)} (h : Inv s) :
    (atomLanes f act before as s).Wf :=
  .ite (ordered_wf (.atomAll h) (fun _ hs => hs)) (Inv.atomAll h)

theorem bodyAtom_wf {f : FmtAtom} (h : Inv s) : (bodyAtom f x act s).Wf :=
  .ite (atomBody_wf h (fun _ _ hs => atomLanes_wf (.countAccess hs))) (atomLanes_wf h)

theorem execReleasePoint_wf (h : Inv s) : NextWf (execReleasePoint key s) := by
  unfold execReleasePoint
  change Inv _
  split
  · exact h
  · exact .setWave h

theorem Inv.wakeMwait {ls : List (Nat × Nat × Nat)} {v : Nat} (h : Inv s) : Inv (s.wakeMwait key ls v) := .ite h (.lateRetire (.onWave h))

theorem Inv.wakeFirst (h : Inv s) : Inv s.wakeFirst := .ite (.wakeMwait h) h

theorem bodyMon_wf {f : FmtSrc} (h : Inv s) : (bodyMon f x act s).Wf := by
  unfold bodyMon
  dsimp only
  split
  · exact OptHolds.get (failed_wf h) ‹_›
  · exact (Inv.beforeRead (.wakeFirst h)).of_mem (by dsimp only)

theorem execMonitorTrigger_wf (h : Inv s) : NextWf (execMonitorTrigger key s) := by
  unfold execMonitorTrigger
  change Inv _
  split
  · exact .ite (.wakeMwait h) h
  · exact h

theorem execMwaitDeadline_wf (h : Inv s) : NextWf (execMwaitDeadline key s) := by
  unfold execMwaitDeadline
  change Inv _
  split
  · refine .ite h ?_
    split
    · exact .wakeMwait h
    · exact h
  · exact h

/-! ### Accesses of a range -/

theorem rangeFailed_wf {ea : Nat} {as : List LaneAcc} (h : Inv s) : OptHolds Res.Wf (rangeFailed s act ea as) := failed_wf h

/-! ### The matrix engine -/

theorem cvTrap_wf (h : Inv s) : OptHolds Res.Wf (s.cvTrap k iss) := by
  unfold State.cvTrap
  split
  · exact trivial
  · split
    · exact trivial
    · exact h

theorem cvTrapAny_wf (h : Inv s) : OptHolds Res.Wf (s.cvTrapAny iss) := by
  unfold OptHolds
  split
  · rename_i r e
    obtain ⟨k, -, hk⟩ := List.exists_of_findSome?_eq_some e
    split at hk
    · exact OptHolds.get (cvTrap_wf h) hk
    · cases hk
  · exact trivial

theorem Inv.wildElems {m : Nat} {f64 : Bool} (h : Inv s) : Inv (s.wildElems core k m f64) := .ite h (.ite h h)

theorem Inv.cvTimedOut (h : Inv s) : Inv (s.cvTimedOut grid team k) := .ite (.wildElems h) h

theorem Inv.cvTick (h : Inv s) : Inv s.cvTick := .foldl h fun _ _ hs => .ite (.cvTimedOut hs) hs

theorem bodyCvdecl_wf {f : FmtKey} : BodyWf (bodyCvdecl f) := by
  refine ⟨?_⟩
  intro iss act s hs
  unfold bodyCvdecl
  have h : Inv s.cvTick := .cvTick hs
  generalize s.cvTick = t at h
  dsimp only
  split
  · exact OptHolds.get (cvTrap_wf h) ‹_›
  · refine .ite h ?_
    split
    · exact h
    · exact h
    · exact h
    · exact .ite h (.ite h h)
    · exact h

theorem Inv.enter {e : EngEntry} (h : Inv s) : Inv (s.enter e) := .ite h h

theorem Inv.enqueue {who : WKey} {tile : Nat} {op : EngOp} (h : Inv s) : Inv (s.enqueue who tile op) := .enter h

theorem Inv.cvIssue {who : WKey} (h : Inv s) : Inv (s.cvIssue who k) := by
  unfold State.cvIssue
  dsimp only
  split
  · exact h
  · exact .enter h

theorem bodySign_wf {f : FmtX} {scratch : Bool} : BodyWf (bodySign f scratch i) := by
  refine ⟨?_⟩
  intro iss act s hs
  unfold bodySign
  have h : Inv s.cvTick := .cvTick hs
  generalize s.cvTick = t at h
  dsimp only
  split
  · exact OptHolds.get (cvTrap_wf h) ‹_›
  · split
    · exact h
    · exact .ite h (.ite h (Inv.ite (.cvIssue h) h))

theorem Inv.operand {t : Team} {f : FmtX} {handle : Word64} (h : Inv s) : Inv (s.operand t f handle).2 := by
  unfold State.operand
  dsimp only
  split
  · exact .ite_snd h h
  · exact h

theorem Inv.opInputs {t : Team} {f : FmtX} {scratch : Bool} {handle : Word64} {frags : List Frag} {op : Option (List Byte)} (h : Inv s) :
    Inv (s.opInputs t f scratch handle frags op).1 := by
  unfold State.opInputs
  dsimp only
  split
  · exact .ite h h
  · exact .ite_fst (.operand (.ite h h)) (.ite h h)

theorem Inv.runOp {e : EngEntry} {f : FmtX} {scratch : Bool} {frags : List Frag} {k0 k1 : Nat} {part : Map (BitVec 64)}
    {op : List Byte} (h : Inv s) :
    Inv (s.runOp e f scratch n frags k0 k1 part op).1 := .ite h h

theorem execMmaOperationComplete_wf (h : Inv s) : NextWf (execMmaOperationComplete core k s) := by
  unfold execMmaOperationComplete
  change Inv _
  dsimp only
  split
  · split
    · exact .ite (.wildElems (.runOp (.opInputs h))) h
    · exact h
  · exact h

theorem Inv.kstep (h : Inv s) : Inv (s.kstep core k) := by
  unfold State.kstep
  dsimp only
  split
  · split
    · exact .ite (.runOp (.opInputs h)) h
    · exact h
  · exact h

theorem Inv.breaches (h : Inv s) : Inv s.breaches :=
  .foldl h fun _ _ hs => .ite hs (.onWave (.foldl hs (fun _ _ hs => .ite hs (.ite hs (.ite (.wildElems hs) hs)))))

theorem bodyMmaw_wf {f : FmtCv} : BodyWf (bodyMmaw f) := by
  refine ⟨?_⟩
  intro iss act s hs
  unfold bodyMmaw
  have h : Inv s.cvTick := .cvTick hs
  generalize s.cvTick = t at h
  dsimp only
  split
  · exact h
  · split
    · exact OptHolds.get (cvTrap_wf h) ‹_›
    · split
      · exact .ite h h
      · exact h

theorem tileRange_wf {f : FmtTile} {need : AccNeed} (h : Inv s) : ExHolds (fun _ => True) (tileRange s f need act) := by
  refine .ite h ?_
  split
  · exact retiring_wf h (OptHolds.get (rangeFailed_wf h) ‹_›)
  · exact trivial

theorem Inv.readsRange {as : List LaneAcc} (h : Inv s) : Inv (s.readsRange as) := .beforeRead h

theorem bodyAccld_wf {f : FmtTile} (h : Inv s) : (bodyAccld f x act s).Wf := by
  unfold bodyAccld
  split
  · exact ExHolds.error (tileRange_wf h) ‹_›
  · exact .ite h (Inv.enqueue (.countAccess (.readsRange h)))

theorem bodyAccst_wf {f : FmtTile} (h : Inv s) : (bodyAccst f iss act s).Wf := by
  unfold bodyAccst
  refine .ite h ?_
  split
  · exact ExHolds.error (tileRange_wf h) ‹_›
  · exact .ite h (Inv.enqueue h)

theorem Inv.mapWaves {f : Wave → Wave} (h : Inv s) : Inv (s.mapWaves f) := h

theorem Inv.wakeEngine (h : Inv s) : Inv (s.wakeEngine grid team) := .mapWaves h

theorem Inv.freeNext (h : Inv s) : Inv s.freeNext := h

theorem execEngineEntryComplete_wf (h : Inv s) : NextWf (execEngineEntryComplete core k s) := by
  unfold execEngineEntryComplete
  change Inv _
  dsimp only
  split
  · refine .ite h ?_
    split
    · exact h
    · exact .wildElems (.ite h h)
    · exact .wildElems (.ite h h)
    · exact .wakeEngine (.ite (.onWave h) (.freeNext (.onWave h)))
    · exact .wakeEngine (.ite (.onWave h) (.freeNext (.onWave h)))
  · exact h

/-! ### The copy engine -/

theorem mapWrite_wf {own : WKey} {a : Nat} {x : Byte} (h : Inv s) : OptHolds Inv (s.mapWrite own a x) := by
  unfold State.mapWrite
  refine .ite ?_ h
  split
  · exact trivial
  · exact .ite (Inv.setWave h) trivial

theorem bodyCpy_wf {f : FmtCpy} {strided : Bool} (h : Inv s) : (bodyCpy f strided iss act s).Wf := by
  unfold bodyCpy
  dsimp only
  split
  · exact h
  · split
    · exact h
    · split
      · exact .ite h (.ite h h)
      · refine .ite ?_ h
        split <;> exact h

theorem execCopyTransferStart_wf (h : Inv s) : NextWf (execCopyTransferStart key q s) := by
  unfold execCopyTransferStart
  change Inv _
  split
  · exact h
  · split
    · exact h
    · refine .ite h ?_
      dsimp only
      split
      · exact .setWave h
      · exact .ite (.setWave h) (.setWave h)
      · exact h
      · exact h
      · exact .countUp (.setWave h)

theorem Inv.copyMoves {src : State} {own : WKey} {ms : List (CopyByte × CopyByte × Nat)} {c : Copy} {g : Nat} (h : Inv s) :
    Inv (src.copyMoves own ms c g locs s) :=
  .ite (.makeVisible (.ite h h)) (.ite (.makeVisible (.ite h h)) (.makeVisible (.ite h h)))

theorem Inv.onCopy {f : Copy → Copy} (h : Inv s) : Inv (s.onCopy key q f) := .onWave h

theorem Inv.copyGranule {src : State} {g : Nat} (h : Inv s) : Inv (src.copyGranule key q g s) := by
  unfold State.copyGranule
  split
  · split
    · exact .onCopy (.copyMoves h)
    · exact h
  · exact h

theorem Inv.closeGranule {g : Nat} (h : Inv s) : Inv (s.closeGranule key q g) := by
  unfold State.closeGranule
  refine .foldl h ?_
  intro _ _ hs
  refine .foldl hs ?_
  intro _ _ hs
  split
  · exact .ite (.copyGranule hs) hs
  · exact hs

theorem Inv.copyBytes {g loc : Nat} (h : Inv s) : Inv (s.copyBytes key q g loc n) := by
  unfold State.copyBytes
  split
  · exact h
  · exact .ite h (.onCopy (.copyMoves (.closeGranule h)))

theorem Inv.copyMap {src : State} {own : WKey} {ms : List (CopyByte × CopyByte × Nat)} {dropped : List Nat} (h : Inv s) :
    Inv (src.copyMap own ms dropped s).1 := by
  unfold State.copyMap
  refine .foldl_fst h ?_
  intro _ _ hs
  dsimp only
  split
  · exact hs
  · refine .ite_fst hs ?_
    refine .ite_fst hs ?_
    split
    · exact OptHolds.get (mapWrite_wf hs) ‹_›
    · exact hs

theorem execCopyComplete_wf (h : Inv s) : NextWf (execCopyComplete key q s) := by
  unfold execCopyComplete
  change Inv _
  split
  · exact h
  · split
    · exact h
    · split
      · exact .onWave (.copyMap (.foldl (.foldl h (fun _ _ hs => .closeGranule hs)) (fun _ _ hs => .copyGranule hs)))
      · exact h

theorem Inv.cpywFree {free : Option (Nat × Nat)} (h : Inv s) : Inv (s.cpywFree free) := by
  unfold State.cpywFree
  split <;> exact h

theorem bodyCpyw_wf {f : FmtDstSrc} {waits : Bool} (h : Inv s) : (bodyCpyw f waits iss act s).Wf := by
  unfold bodyCpyw
  dsimp only
  split
  · exact Inv.cpywFree h
  · exact h
  · change Inv _
    split <;> exact h

theorem Inv.cpywLook {waits : Bool} {t : Word64} {v : Nat} (h : Inv s) : Inv (s.cpywLook waits t v) := by
  unfold State.cpywLook
  dsimp only
  split
  · exact .lateRetire (.cpywFree h)
  · exact h
  · refine .takeTrap ?_
    split <;> exact h

theorem execCopyPromiseWake_wf (h : Inv s) : NextWf (execCopyPromiseWake key s) := by
  unfold execCopyPromiseWake
  change Inv _
  refine .withWave h ?_
  intro _ hs
  split
  · exact hs
  · dsimp only
    split
    · exact .cpywLook hs
    · exact hs

/-! ### Collective branches -/

theorem Inv.confirm (h : Inv s) : Inv s.confirm := .countUp (.countUp h)

theorem Inv.deliver (h : Inv s) : Inv (s.deliver k) := by
  unfold State.deliver
  split
  · exact h
  · exact .ite h (.ite (.confirm h) h)

theorem Inv.deliverAll {c : Comm} (h : Inv s) : Inv (s.deliverAll c) :=
  .foldl h fun _ _ hs => .foldl hs (fun _ _ hs => .withWave hs (fun _ hs => .deliver hs))

theorem execCbrOutcome_wf {foreign : ForeignVotes} (h : Inv s) : NextWf (execCbrOutcome slot gen foreign s) := by
  unfold execCbrOutcome
  change Inv _
  split
  · exact h
  · exact .ite (.deliverAll h) (.ite h (.deliverAll h))

theorem bodyCbrj_wf {f : FmtKey} (h : Inv s) : (bodyCbrj f iss x s).Wf := by
  unfold bodyCbrj
  dsimp only
  split
  · exact h
  · split
    · exact h
    · exact .ite h h

theorem cbrVote_wf {f : FmtCbr} {c : Comm} {tgt len : Nat} (h : Inv s) : (s.cbrVote f c tgt len iss).Wf := by
  unfold State.cbrVote
  dsimp only
  split
  · exact .ite h h
  · split
    · exact .ite h h
    · exact .ite h (.ite h (.ite (.ite h h) (.ite h (.ite h h))))

theorem bodyCbr_wf {f : FmtCbr} (h : Inv s) : (bodyCbr f iss x s).Wf := by
  unfold bodyCbr
  dsimp only
  split
  · exact h
  · refine .ite h ?_
    split
    · unfold Option.getD
      split
      · exact OptHolds.get (failed_wf h) ‹_›
      · exact h
    · exact cbrVote_wf h

theorem execCollectiveStall_wf (h : Inv s) : NextWf (execCollectiveStall key k s) := by
  unfold execCollectiveStall
  change Inv _
  refine .withWave h ?_
  intro _ hs
  dsimp only
  split
  · exact hs
  · exact .ite hs (.takeTrap hs)

theorem execMemberLost_wf {rank : Nat} (h : Inv s) : NextWf (execMemberLost slot rank s) := by
  unfold execMemberLost
  change Inv _
  split
  · exact h
  · split
    · exact .ite h h
    · exact h

theorem Inv.foreignStall {red : Bool} (h : Inv s) : Inv (s.foreignStall slot gen red) := by
  unfold State.foreignStall
  split <;> exact h

theorem Inv.commExit (h : Inv s) : Inv (s.commExit key) := by
  unfold State.commExit
  split <;> exact h

/-! ### Queues and feeds in memory -/

theorem Inv.putTokens {v : Nat} (h : Inv s) : Inv (s.putTokens q v) := .agentWrite h

theorem Inv.foundValid (h : Inv s) : Inv (s.foundValid q) := .ite h (.putTokens h)

theorem Inv.notice (h : Inv s) : Inv (s.notice q) := .ite h (.foundValid h)

theorem Inv.advanceDone (h : Inv s) : Inv (s.advanceDone fuel q) := by
  induction fuel generalizing s with
  | zero => exact h
  | succ n ih => exact .ite (ih (.agentWrite h)) h

theorem Inv.completeTo {i code target : Nat} {setTokens : Bool} (h : Inv s) : Inv (s.completeTo q i code target setTokens) :=
  .ite
    (.advanceDone (.ite (.ite (.agentWrite h) (.putTokens (.ite (.agentWrite h) (.foundValid (.agentWrite h))))) (.agentWrite h)))
    (.advanceDone (.ite (.ite (.agentWrite h) (.putTokens (.ite (.agentWrite h) (.foundValid (.agentWrite h))))) (.agentWrite h)))

theorem Inv.completePkt {i code : Nat} (h : Inv s) : Inv (s.completePkt q i code) := .completeTo h

theorem Inv.feedWrite {f : Nat} {recs : List (List Byte)} (h : Inv s) : Inv (s.feedWrite f recs) := by
  unfold State.feedWrite
  unfold State.wakeFeed
  unfold State.mapWaves
  refine .agentWrite ?_
  split <;> exact .foldl h (fun _ _ hs => .agentWrite hs)

theorem Inv.advanceFree {f : Nat} (h : Inv s) : Inv (s.advanceFree fuel f) := by
  induction fuel generalizing s with
  | zero => exact h
  | succ n ih => exact .ite (ih (.agentWrite h)) h

theorem Inv.freeRec {f i : Nat} (h : Inv s) : Inv (s.freeRec f i) := .advanceFree h

/-! ### Translation, page faults, errors and the host -/

theorem Inv.tlbFill {a w0 w1 : Word64} (h : Inv s) : Inv (s.tlbFill core a w0 w1) := .ite h h

theorem tlbiBody_wf {legal : Bool} {gone : TlbEntry → Bool} (h : Inv s) : (tlbiBody legal gone iss act s).Wf := .ite h (.ite h (.ite h h))

theorem execTlbMissWalk_wf (h : Inv s) : NextWf (execTlbMissWalk core s) := by
  unfold execTlbMissWalk
  change Inv _
  dsimp only
  split
  · exact h
  · refine Inv.ite h ?_
    split <;> exact .tlbFill h

theorem execPageFaultBatchResolved_wf {ok : Bool} (h : Inv s) : NextWf (execPageFaultBatchResolved key ok s) := by
  unfold execPageFaultBatchResolved
  change Inv _
  refine .withWave h ?_
  intro _ hs
  split
  · exact hs
  · exact .ite hs (.ite hs (.takeTrap hs))

theorem execUncorrectableError_wf {site : ErrSite} (h : Inv s) : NextWf (execUncorrectableError site s) := by
  unfold execUncorrectableError
  change Inv _
  split
  · exact .ite h h
  · exact .ite h h
  · exact .onWave h
  · exact .ite h h

theorem execHostMemoryAccess_wf {addr len : Nat} {data : Option (List Byte)} (h : Inv s) :
    NextWf (execHostMemoryAccess addr len data s) := by
  unfold execHostMemoryAccess
  refine .ite h ?_
  refine .ite ?_ ?_
  · refine .ite ?_ trivial
    split
    · change Inv _
      refine .foldl h ?_
      intro _ _ hs
      refine .ite (.agentWrite hs) ?_
      unfold Option.getD
      split
      · exact OptHolds.get (mapWrite_wf hs) ‹_›
      · exact hs
    · exact h
  · refine .ite trivial ?_
    split
    · exact Inv.agentWrite h
    · exact h

/-! ### The scale-up fabric -/

theorem fabSend_wf {outs : List FabOut} (h : Inv s) : (s.fabSend iss outs).Wf := .ite (Inv.fabPump h) (Inv.fabPump h)

theorem fabAgain_wf (h : Inv s) : OptHolds Res.Wf (s.fabAgain iss) := by
  unfold State.fabAgain
  unfold Option.map
  split
  · exact Res.Wf.ite h h
  · exact trivial

theorem bodyFld_wf {f : FmtM} (h : Inv s) : (bodyFld f iss act s).Wf := by
  unfold bodyFld
  split
  · exact OptHolds.get (fabAgain_wf h) ‹_›
  · dsimp only
    split
    · exact h
    · exact fabSend_wf (.addPend h)

theorem bodyFst_wf {f : FmtM} (h : Inv s) : (bodyFst f iss act s).Wf := by
  unfold bodyFst
  split
  · exact OptHolds.get (fabAgain_wf h) ‹_›
  · dsimp only
    split
    · exact h
    · exact fabSend_wf h

theorem bodyFatom_wf {f : FmtAtom} (h : Inv s) : (bodyFatom f iss act s).Wf := by
  unfold bodyFatom
  split
  · exact OptHolds.get (fabAgain_wf h) ‹_›
  · refine .ite h ?_
    split
    · exact h
    · exact fabSend_wf (.addPend h)

theorem Inv.fabPerform {r : FabReq} {phys : Nat → Nat} {mix zero : Bool} (h : Inv s) : Inv (s.fabPerform r phys mix zero).1 := by
  unfold State.fabPerform
  split
  · exact h
  · exact .makeVisible h
  · exact .makeVisible h

theorem Inv.landClass3 {r : FabReq} (h : Inv s) : Inv (s.landClass3 r locs) := by
  unfold State.landClass3
  refine .ite h ?_
  split
  · exact h
  · refine .onWave ?_
    refine .foldl (.setWave h) ?_
    intro _ _ hs
    split
    · exact .ite (.landEntry hs) hs
    · exact hs

theorem Inv.answerQueries (h : Inv s) : Inv s.answerQueries := .foldl h fun _ _ hs => .ite hs hs

theorem Inv.fabAnswer {r : FabReq} {res : FabResult} (h : Inv s) : Inv (s.fabAnswer r res) := .answerQueries (.ite h h)

/-- The memory of the state that the service of a request leaves is in its canonical form. -/
def Serve.Wf : Serve → Prop
  | .answer s _ | .fault s _ => Machine.Inv s

theorem Serve.Wf.ite {c : Prop} [Decidable c] {a b : Serve} (ha : a.Wf) (hb : b.Wf) : (if c then a else b).Wf := by
  split <;> assumption

theorem fabServe_wf {r : FabReq} (h : Inv s) : (s.fabServe r).Wf := by
  unfold State.fabServe
  dsimp only
  split
  · exact .ite h h
  · refine .ite (.ite h h) ?_
    split
    · exact .ite h h
    · exact .ite h h
    · exact .ite (.ite h h) (.ite (.ite h h) (.ite h (.ite (.ite (.ite (Inv.ite h h) (Inv.ite h h)) (Inv.ite h h))
        (Inv.fabPerform (.landClass3 h)))))

theorem Inv.fabTake {r : FabReq} (h : Inv s) : Inv (s.fabTake r) := by
  have hserve : (s.fabServe r).Wf := fabServe_wf h
  refine .ite (.ite (.fabAnswer h) h) ?_
  split <;> rename_i e <;> rw [e] at hserve
  · exact .fabAnswer hserve
  · exact hserve

theorem Inv.fabBehind {r : FabReq} (h : Inv s) : Inv (s.fabBehind r) := by
  refine .foldl h fun t q ht => .ite ht ?_
  have hserve : (t.fabServe q).Wf := fabServe_wf ht
  split
  · rename_i e
    rw [e] at hserve
    exact .fabAnswer hserve
  · exact ht

theorem Inv.fabResolve {r : FabReq} {ok : Bool} {malformed : Nat} (h : Inv s) : Inv (s.fabResolve r ok malformed) := by
  have hserve : (s.fabServe r).Wf := fabServe_wf h
  refine .ite ?_ (.fabBehind (.fabAnswer h))
  split <;> rename_i e <;> rw [e] at hserve
  · exact .fabBehind (.fabAnswer hserve)
  · exact hserve

theorem consume_wf {own : Bool} {m : Out} (h : Inv s) : OptHolds Inv (s.consume own m) := .ite (.ite h trivial) h

theorem execFabricRequestArrival_wf {r : FabReq} (h : Inv s) : NextWf (execFabricRequestArrival r s) := by
  unfold execFabricRequestArrival
  change Inv _
  refine .ite h ?_
  refine .foldl h ?_
  intro _ _ hs
  split
  · exact hs
  · rename_i t e
    have ht : Inv t := (consume_wf hs).get e
    exact .ite ht (.ite ht (.fabTake ht))

theorem execFabricCountQuery_wf {src : Nat} {from_ : WKey} {interval sent : Nat} {replayed : Bool} (h : Inv s) :
    NextWf (execFabricCountQuery src from_ interval sent replayed s) := by
  unfold execFabricCountQuery
  change Inv _
  split
  · exact h
  · rename_i t e
    have ht : Inv t := OptHolds.get (.ite (consume_wf h) .none) e
    exact .answerQueries ht

theorem Inv.countFab {o : FabOut} {what seen : Bool} (h : Inv s) : Inv (s.countFab key o what seen) := by
  unfold State.countFab
  split
  · exact h
  · exact .ite h (.ite (.onWave (.setWave h)) (.countUp (.setWave h)))

theorem Inv.fabLand {o : FabOut} {res : FabResult} (h : Inv s) : Inv (s.fabLand key o res) := by
  unfold State.fabLand
  dsimp only
  split
  · exact .onWave (.countFab (.countFab (.onWave h)))
  · exact .onWave (.countFab (.onWave h))
  · exact .onWave (.countFab h)
  · exact .onWave (.countFab (.onWave h))
  · exact .onWave h
  · exact .ite (.fabPump (.onWave h)) (.onWave h)
  · exact h

theorem Inv.fabGiveUp {o : FabOut} (h : Inv s) : Inv (s.fabGiveUp key o) := by
  unfold State.fabGiveUp
  dsimp only
  split <;> exact .onWave h

theorem Inv.fabExpire {o : FabOut} (h : Inv s) : Inv (s.fabExpire key o) := by
  unfold State.fabExpire
  dsimp only
  split
  · refine .ite ?_ ?_
    · refine .fabGiveUp ?_
      split
      · exact .ite h h
      · exact h
    · refine .fabPump ?_
      refine .onWave ?_
      split
      · exact .ite h h
      · exact h
  · refine .fabGiveUp ?_
    split
    · exact .ite h h
    · exact h

theorem execFabricResponse_wf {tag inc : Nat} {res : FabResult} (h : Inv s) : NextWf (execFabricResponse core tag inc res s) := by
  unfold execFabricResponse
  change Inv _
  dsimp only
  split
  · split
    · exact .onWave (OptHolds.get (.ite (consume_wf h) .none) ‹_›)
    · exact h
  · split
    · split
      · rename_i t e
        have ht : Inv t := OptHolds.get (.ite (consume_wf h) .none) e
        exact .ite (.fabExpire ht) (.fabLand ht)
      · exact h
    · exact h

theorem execFabricWaitNotice_wf {tag inc : Nat} (h : Inv s) : NextWf (execFabricWaitNotice core tag inc s) := by
  unfold execFabricWaitNotice
  change Inv _
  dsimp only
  split
  · split
    · exact .ite (OptHolds.get (.ite (consume_wf h) .none) ‹_›) (.onWave (OptHolds.get (.ite (consume_wf h) .none) ‹_›))
    · exact h
  · exact h

theorem execFabricRequestTimeout_wf {tag : Nat} (h : Inv s) : NextWf (execFabricRequestTimeout core tag s) := by
  unfold execFabricRequestTimeout
  change Inv _
  dsimp only
  split
  · exact h
  · exact .fabExpire h

theorem execPageFaultResolved_wf {site : FaultSite} {ok : Bool} (h : Inv s) : NextWf (execPageFaultResolved site ok s) := by
  unfold execPageFaultResolved
  change Inv _
  split
  · split
    · exact h
    · split
      · exact h
      · split
        · exact .ite (.setWave h) (.setWave h)
        · exact h
  · split
    · exact h
    · exact .fabResolve h
  · refine .withWave h ?_
    intro _ hs
    split
    · exact hs
    · exact .ite hs (.ite (.takeTrap hs) (.declined hs))

/-! ### Tensor records and quantisation -/

theorem Inv.cacheRec {tag : Nat} {bs : List Byte} (h : Inv s) : Inv (s.cacheRec tag bs) := h

theorem Inv.countOnce {as : List Access} (h : Inv s) : Inv (s.countOnce as) := .countAccess h

theorem Inv.progressed {p : List (Nat × Nat)} (h : Inv s) : Inv (s.progressed p) := h

theorem loadRec_wf {ea : Nat} (h : Inv s) : ExHolds (fun p => Inv p.2) (s.loadRec act ea) := by
  unfold State.loadRec
  dsimp only
  split
  · exact retiring_wf h (OptHolds.get (rangeFailed_wf h) ‹_›)
  · show Inv (State.cacheRec _ _ _)
    exact .cacheRec (.ite (.progressed (.countOnce (.readsRange h))) (.countOnce (.readsRange h)))

theorem useRec_wf {o : List Nat} (h : Inv s) : ExHolds (fun p => Inv p.2) (s.useRec iss act k o) := by
  unfold State.useRec
  split
  · exact h
  · rename_i ea _
    have hgot : ExHolds (fun p => Inv p.2) (match (s.coreAt s.cur.core).rcache.find? (fun e => e.1 == recTag s.cur.key.grid ea.toNat) with
        | some e => .ok (e.2, s)
        | none => s.loadRec act ea.toNat) := by
      split
      · exact h
      · exact loadRec_wf h
    dsimp only
    split <;> rename_i e
    · exact hgot.error e
    · exact .ite (hgot.ok e) (hgot.ok e)

theorem Inv.of_loadRec {ea : Nat} {p : List Byte × State} (h : Inv s) (e : s.loadRec act ea = .ok p) : Inv p.2 :=
  (loadRec_wf h).ok e

theorem wf_of_loadRec {ea : Nat} {r : Res} (h : Inv s) (e : s.loadRec act ea = .error r) : r.Wf := (loadRec_wf h).error e

theorem Inv.of_useRec {o : List Nat} {r : Rec} {t : State} (h : Inv s) (e : s.useRec iss act k o = .ok (r, t)) : Inv t :=
  (useRec_wf h).ok e

theorem wf_of_useRec {o : List Nat} {r : Res} (h : Inv s) (e : s.useRec iss act k o = .error r) : r.Wf := (useRec_wf h).error e

theorem bodyTrec_wf {f : FmtTrec} (h : Inv s) : (bodyTrec f x act s).Wf := by
  unfold bodyTrec
  refine .ite h ?_
  split
  · exact wf_of_loadRec h ‹_›
  · exact Inv.of_loadRec h ‹_›

theorem quantEnd_wf {p : List (Nat × Nat)} (h : Inv s) : (quantEnd act p s).Wf := .ite h (.ite h (Inv.leaveStage h))

theorem quantBody_wf {k : QKind} {f : FmtQblk} {dst src : Rec} {o : List Nat} {a b : Nat} (h : Inv s) :
    (quantBody k f dst src o a b iss act s).Wf := by
  unfold quantBody
  dsimp only
  split
  · exact h
  · split
    · exact h
    · split
      · exact OptHolds.get (failed_wf h) ‹_›
      · refine .ite h ?_
        refine .ite (Inv.ite_fst h h) ?_
        split
        · exact Inv.ite (.ite_fst h h) (.ite_fst h h)
        · exact Inv.ite_fst h h
        · exact .ite (Inv.readsRange (.ite_fst h h)) (quantEnd_wf (.countUp (.countUp (.readsRange (.ite_fst h h)))))

theorem bodyQ_wf {k : QKind} {f : FmtQblk} (h : Inv s) : (bodyQ k f iss act s).Wf := by
  refine .ite (quantEnd_wf h) ?_
  split
  · exact wf_of_useRec h ‹_›
  · split
    · exact wf_of_useRec (Inv.of_useRec h ‹_›) ‹_›
    · exact quantBody_wf (Inv.of_useRec (Inv.of_useRec h ‹_›) ‹_›)

theorem tileGate_wf {r : Rec} {data : Nat} (h : Inv s) : OptHolds Res.Wf (tileGate r k data iss s) :=
  .ite h (.ite h (.ite h (.ite h trivial)))

theorem tileFailed_wf {r : Rec} {xs : List (Nat × Nat × LaneAcc × TileEl)} (h : Inv s) : OptHolds Res.Wf (tileFailed s r act xs) := by
  unfold tileFailed
  dsimp only
  split
  · exact retiring_wf h (OptHolds.get (failed_wf h) ‹_›)
  · exact .ite h trivial

theorem Inv.countTile {r : Rec} {as : List Access} (h : Inv s) : Inv (s.countTile r as) := .countOnce h

theorem bodyVldt_wf {f : FmtVldt} (h : Inv s) : (bodyVldt f iss act s).Wf := by
  unfold bodyVldt
  dsimp only
  split
  · exact wf_of_useRec h ‹_›
  · split
    · exact OptHolds.get (tileGate_wf (Inv.of_useRec h ‹_›)) ‹_›
    · split
      · exact OptHolds.get (tileFailed_wf (Inv.of_useRec h ‹_›)) ‹_›
      · exact Inv.addPend (.countTile (.beforeRead (Inv.of_useRec h ‹_›)))

theorem bodyVstt_wf {f : FmtVldt} (h : Inv s) : (bodyVstt f iss act s).Wf := by
  unfold bodyVstt
  dsimp only
  split
  · exact wf_of_useRec h ‹_›
  · split
    · exact OptHolds.get (tileGate_wf (Inv.of_useRec h ‹_›)) ‹_›
    · refine .ite (Inv.of_useRec h ‹_›) ?_
      split
      · exact OptHolds.get (tileFailed_wf (Inv.of_useRec h ‹_›)) ‹_›
      · exact Inv.countTile (Inv.of_useRec h ‹_›)

/-! ### Teams -/

theorem Inv.dropWaves {p : Wave → Bool} (h : Inv s) : Inv (s.dropWaves p) := by
  unfold State.dropWaves
  split <;> exact h

theorem Inv.addWaves {ws : List Wave} (h : Inv s) : Inv (s.addWaves ws) := by
  unfold State.addWaves
  split <;> exact h

theorem Inv.landAll {must : Bool} (h : Inv s) : Inv (s.landAll key must) := by
  unfold State.landAll
  split
  · exact h
  · refine .onWave ?_
    refine .foldl h ?_
    intro _ _ hs
    dsimp only
    split
    · exact .ite hs (.landEntry hs)
    · exact hs

theorem Inv.fenceWave (h : Inv s) : Inv (s.fenceWave key).1 := by
  have hstep : ((s.focus key).fenceStep none).Wf := fenceStep_wf (.focus h)
  unfold State.fenceWave
  dsimp only
  split <;> rename_i e <;> rw [e] at hstep <;> exact .focus hstep

theorem Inv.teamQuiet (h : Inv s) : Inv (s.teamQuiet grid team).1 :=
  .ite_fst (.foldl h fun _ _ hs => .landAll (.onWave hs))
    (.foldl_fst (.foldl h fun _ _ hs => .landAll (.onWave hs)) fun _ _ hs => .fenceWave hs)

theorem Inv.settleWave (h : Inv s) : Inv (s.settleWave key) := by
  unfold State.settleWave
  split
  · exact h
  · exact .ite (.setWave (.setWave h)) (.onWave (.wakeMwait (.setWave h)))

theorem Inv.vacate (h : Inv s) : Inv (s.vacate grid team) := .dropWaves (.foldl h (fun _ _ hs => .leaveQueues hs))

theorem Inv.setTeam {t : Team} (h : Inv s) : Inv (s.setTeam t) := h

theorem Inv.takeTeam (h : Inv s) : Inv (s.takeTeam grid team).1 := by
  unfold State.takeTeam
  exact .ite_fst (.teamQuiet h) (.setTeam (.vacate (.freeNext (.foldl (.teamQuiet h) fun _ _ hs => .settleWave hs))))

/-! ### The Turnstile and grid checkpoints -/

theorem Inv.barFinish {g : Nat} (h : Inv s) : Inv (s.barFinish key n g) := by
  unfold State.barFinish
  split
  · exact h
  · exact .ite h (.ite (.setWave h) (.lateRetire (.setWave h)))

theorem Inv.barComplete (h : Inv s) : Inv (s.barComplete grid team n) :=
  .foldl (.ite (.closeAll h) (.closeAll h)) fun _ _ hs => .barFinish hs

theorem Inv.takeCheckpoint {buf : Nat} (h : Inv s) : Inv (s.takeCheckpoint grid n buf) :=
  .agentWrite (.countUp (.agentWrite (.foldl h (fun _ _ hs => .settleWave hs))))

theorem Inv.serveCkpt {r : Nat × Nat × Nat × Nat × Nat} (h : Inv s) : Inv (s.serveCkpt grid r) :=
  .ite (.completePkt (.agentWrite h)) (.completePkt (.takeCheckpoint h))

theorem Inv.checkpointAt (h : Inv s) : Inv (s.checkpointAt grid n).1 :=
  .ite_fst h (.ite_fst (.foldl_fst h fun _ _ hs => .ite_fst hs (.teamQuiet hs))
    (.foldl (.foldl_fst h fun _ _ hs => .ite_fst hs (.teamQuiet hs)) fun _ _ hs => .serveCkpt hs))

theorem Inv.barCheck (h : Inv s) : Inv (s.barCheck fuel grid team n) := by
  induction fuel generalizing s with
  | zero => exact h
  | succ k ih => exact .ite (.ite (ih (.barComplete (.checkpointAt h))) (.checkpointAt h)) h

theorem Inv.barSettle (h : Inv s) : Inv (s.barSettle key) := by
  unfold State.barSettle
  split
  · exact h
  · exact .foldl h fun _ _ hs => .barCheck (.barFinish hs)

theorem Inv.barTidy (h : Inv s) : Inv s.barTidy :=
  .foldl (.foldl (.foldl h fun _ _ hs => .barSettle hs) fun _ _ hs => .barCheck hs)
    fun _ _ hs => .foldl hs fun _ _ hs => .barCheck hs

theorem stickyCheck_wf (h : Inv s) : OptHolds Res.Wf (s.stickyCheck act) := by
  unfold State.stickyCheck
  refine .ite h ?_
  split
  · exact trivial
  · exact h

theorem bodyArrive_wf {f : FmtBar} {waits : Bool} (h : Inv s) : (bodyArrive f waits iss act s).Wf := by
  unfold bodyArrive
  split
  · exact OptHolds.get (stickyCheck_wf h) ‹_›
  · have h : Inv s.cvTick := .cvTick h
    generalize s.cvTick = t at h
    dsimp only
    split
    · exact OptHolds.get (cvTrapAny_wf h) ‹_›
    · exact .ite h (ordered_wf h fun _ ht => Inv.barCheck ht)

theorem bodyBarw_wf {f : FmtBar} (h : Inv s) : (bodyBarw f iss act s).Wf := by
  unfold bodyBarw
  split
  · exact OptHolds.get (stickyCheck_wf h) ‹_›
  · have h : Inv s.cvTick := .cvTick h
    generalize s.cvTick = t at h
    dsimp only
    split
    · exact OptHolds.get (cvTrapAny_wf h) ‹_›
    · exact h

/-! ### The end of teams and grids -/

theorem Inv.removeTeam (h : Inv s) : Inv (s.removeTeam grid team) := .vacate h

theorem Inv.endGrid {code status : Nat} (h : Inv s) : Inv (s.endGrid grid code status) := by
  unfold State.endGrid
  split
  · exact h
  · exact .ite h (.foldl (.foldl h (fun _ _ hs => .landAll (.onWave hs))) (fun _ _ hs => .removeTeam hs))

theorem execGridCompletion_wf (h : Inv s) : NextWf (execGridCompletion grid s) := by
  unfold execGridCompletion
  change Inv _
  split
  · exact h
  · exact .ite h (.foldl (.foldl (.completePkt (.agentWrite h)) (fun _ _ hs => .completePkt hs)) (fun _ _ hs => .completePkt hs))

/-! ### Launches -/

theorem Inv.startServed {i : Nat} (h : Inv s) : Inv (s.startServed q i) := by
  unfold State.startServed
  split <;> exact .ite h (.putTokens h)

theorem Inv.preempt {t : Team} (h : Inv s) : Inv (s.preempt t).1 := .ite_fst (.countUp (.takeTeam h)) (.takeTeam h)

theorem Inv.vacateFor {g : Grid} (h : Inv s) : Inv (s.vacateFor g) := by
  unfold State.vacateFor
  refine .ite h ?_
  split
  · exact h
  · exact .ite (.foldl_fst h (fun _ _ hs => .preempt hs)) (.foldl_fst h (fun _ _ hs => .preempt hs))

theorem Inv.tryTake {g : Grid} (h : Inv s) : Inv (s.tryTake g) := .ite h (.ite (.vacateFor h) h)

theorem Inv.clearStatus {a : Nat} (h : Inv s) : Inv (s.clearStatus a) := .agentWrite h

theorem Inv.startLaunch {i : Nat} (h : Inv s) : Inv (s.startLaunch q i) := by
  unfold State.startLaunch
  dsimp only
  split
  · exact .completePkt (.startServed h)
  · exact .tryTake (.clearStatus (.startServed h))

theorem execLaunch_wf {i : Nat} (h : Inv s) : NextWf (execLaunch q i s) := by
  unfold execLaunch
  change Inv _
  refine .ite (.startLaunch h) ?_
  split
  · exact .ite (.tryTake h) h
  · exact h

theorem Inv.placeTeam {g : Grid} {r : Room} (h : Inv s) : Inv (s.placeTeam g core r) := .addWaves (.foldl h (fun _ _ hs => hs))

theorem execTeamPlacement_wf (h : Inv s) : NextWf (execTeamPlacement core s) := by
  unfold execTeamPlacement
  change Inv _
  refine .ite h ?_
  split
  · split
    · exact .placeTeam h
    · exact h
  · exact .foldl h fun _ _ hs => .ite (.tryTake hs) hs

theorem execTeamResume_wf (h : Inv s) : NextWf (execTeamResume grid team core s) := by
  unfold execTeamResume
  change Inv _
  split
  · exact h
  · refine .ite ?_ h
    split
    · refine .ite ?_ h
      unfold State.serve
      exact (Inv.putTeam h).of_mem (by dsimp only)
    · exact h

/-! ### Feeds and ordered tasks -/

theorem bodyQpush_wf {f : FmtQpush} (h : Inv s) : (bodyQpush f x act s).Wf := by
  unfold bodyQpush
  refine .ite h ?_
  refine .ite (Inv.ite h h) ?_
  refine .ite h ?_
  refine .ite h ?_
  dsimp only
  split
  · exact retiring_wf h (OptHolds.get (rangeFailed_wf h) ‹_›)
  · refine .ite (Inv.readsRange h) ?_
    refine .ite ?_ ?_
    · unfold tryPred
      change Inv _
      exact .ite ((Inv.readsRange h).of_mem (by dsimp only)) (.readsRange h)
    · refine .ite ?_ (ordered_wf (.readsRange h) (fun _ hs => Inv.ite (.feedWrite (.countAccess hs)) (.feedWrite (.countAccess hs))))
      unfold State.joinPushQ
      change Inv _
      exact (Inv.readsRange h).of_mem (by dsimp only)

theorem Inv.putRecords {vd : Nat} {given : List (Nat × List Byte)} (h : Inv s) : Inv (s.putRecords vd n given) := .ite h (.addPend h)

theorem popCheck_wf {f : FmtQpop} {ord : Bool} (h : Inv s) : OptHolds Res.Wf (s.popCheck f ord iss act) :=
  .ite h (.ite h (.ite h (.ite h trivial)))

theorem Inv.claim {feed : Nat} (h : Inv s) : Inv (s.claim feed n) := .agentWrite h

theorem Inv.popTake {f : FmtQpop} {feed : Nat} (h : Inv s) : Inv (s.popTake f feed n act) :=
  .ite (.ite (.putRecords (.ite h (.claim h))) (.putRecords (.ite h (.claim h))))
    (.ite (.putRecords (.ite h (.claim h))) (.putRecords (.ite h (.claim h))))

theorem bodyQpop_wf {f : FmtQpop} (h : Inv s) : (bodyQpop f iss act s).Wf := by
  unfold bodyQpop
  split
  · exact OptHolds.get (popCheck_wf h) ‹_›
  · exact .ite (Inv.popTake h) h

theorem Inv.openTask {f : FmtQpop} {feed : Nat} (h : Inv s) : Inv (s.openTask f feed n act) := by
  unfold State.openTask
  refine (Inv.putRecords (s := { s with cur := _ }) ?_).of_mem rfl
  exact h

theorem bodyQpopO_wf {f : FmtQpop} (h : Inv s) : (bodyQpopO f iss act s).Wf := by
  unfold bodyQpopO
  split
  · exact OptHolds.get (popCheck_wf h) ‹_›
  · refine .ite h ?_
    split
    · exact .ite (Inv.openTask h) h
    · refine .ite ?_ ?_
      · exact Inv.openTask (.claim h)
      · exact .ite (.ite (Inv.openTask (.claim h)) h) h

theorem execQpopDeadline_wf (h : Inv s) : NextWf (execQpopDeadline key s) := by
  unfold execQpopDeadline
  change Inv _
  split
  · exact h
  · refine .ite h ?_
    dsimp only
    split
    · split
      · exact .ite h (.setWave h)
      · exact .ite h (.setWave h)
      · exact h
    · exact h

theorem Inv.turnNonspec (h : Inv s) : Inv s.turnNonspec := .confirm h

theorem Inv.abortTask (h : Inv s) : Inv (s.abortTask key) := by
  unfold State.abortTask
  split
  · exact h
  · exact .countUp (.setWave h)

theorem Inv.commitTask (h : Inv s) : Inv s.commitTask := by
  unfold State.commitTask
  split
  · exact h
  · exact .mapWaves (.freeRec (.foldl h fun _ _ hs => .abortTask hs))

theorem tryCommit_wf {k : State → Res} (h : Inv s) (hk : ∀ t, Inv t → (k t).Wf) : (s.tryCommit act k).Wf :=
  .ite h (ordered_wf (.ite (.turnNonspec h) h) fun _ ht => hk _ (.commitTask ht))

/-! ### Packets that launch nothing -/

theorem Inv.tryFeedAppend {i : Nat} (h : Inv s) : Inv (s.tryFeedAppend q i) :=
  .ite (.completePkt h) (.ite (.completePkt h) (.ite (.completePkt h) (.ite (.completePkt (.feedWrite h)) h)))

theorem execFeedAppend_wf {i : Nat} (h : Inv s) : NextWf (execFeedAppend q i s) :=
  Inv.ite (.tryFeedAppend (.startServed h)) (.ite (.tryFeedAppend h) h)

theorem execDeterminismLevel_wf {i : Nat} (h : Inv s) : NextWf (execDeterminismLevel q i s) :=
  Inv.ite h (.ite (.completePkt (.startServed h)) (.completePkt (.agentWrite (.startServed h))))

theorem execToken_wf {i : Nat} (h : Inv s) : NextWf (execToken q i s) :=
  Inv.ite h (.ite (.completeTo (.startServed h)) (.completeTo (.startServed h)))

theorem execPowerClass_wf {i : Nat} (h : Inv s) : NextWf (execPowerClass q i s) :=
  Inv.ite h (.ite (.completePkt (.startServed h)) (.completePkt (.agentWrite (.startServed h))))

theorem execGridCheckpoint_wf {i : Nat} (h : Inv s) : NextWf (execGridCheckpoint q i s) := by
  unfold execGridCheckpoint
  change Inv _
  refine .ite h ?_
  refine .ite (.completePkt (.startServed h)) ?_
  split
  · exact .completePkt (.startServed h)
  · exact .startServed h

theorem execGridEnd_wf {i : Nat} (h : Inv s) : NextWf (execGridEnd q i s) := by
  unfold execGridEnd
  change Inv _
  refine .ite h ?_
  refine .ite (.completePkt (.startServed h)) ?_
  split
  · exact .completePkt (.startServed h)
  · exact .endGrid (.startServed h)

theorem Inv.applyExits {g : Grid} (h : Inv s) : Inv (s.applyExits g) := h

theorem execGridRestore_wf {i : Nat} (h : Inv s) : NextWf (execGridRestore q i s) := by
  unfold execGridRestore
  change Inv _
  refine .ite h ?_
  refine .ite (.completePkt (.startServed h)) ?_
  split
  · exact .completePkt (.startServed h)
  · split
    · exact .completePkt (.startServed h)
    · exact .barCheck (.applyExits (.clearStatus (.startServed h)))

/-! ### Communicators -/

theorem Inv.setUpFinish {i : Nat} {foreign : Reports} (h : Inv s) : Inv (s.setUpFinish q i foreign) := by
  unfold State.setUpFinish
  refine .ite (.completePkt h) ?_
  dsimp only
  split
  · exact .completePkt (.ite (.agentWrite h) h)
  · exact .completePkt (.agentWrite (.ite h h))

theorem execCommunicatorSetUp_wf {i : Nat} {foreign : Reports} (h : Inv s) : NextWf (execCommunicatorSetUp q i foreign s) :=
  Inv.ite (.setUpFinish h) (.ite h (.ite (.startServed h) (.setUpFinish (.startServed h))))

theorem Inv.tryRelease {i : Nat} (h : Inv s) : Inv (s.tryRelease q i) := by
  unfold State.tryRelease
  dsimp only
  split
  · exact .completePkt h
  · exact .ite h (.completePkt (.ite h h))

theorem execCommunicatorRelease_wf {i : Nat} (h : Inv s) : NextWf (execCommunicatorRelease q i s) :=
  Inv.ite h (.ite (.tryRelease (.startServed h)) (.ite (.tryRelease h) h))

theorem execDeviceLeavesPod_wf {dev : Nat} (h : Inv s) : NextWf (execDeviceLeavesPod dev s) :=
  Inv.ite h (.foldl h (fun _ _ hs => .foldl hs (fun _ _ hs => .fabGiveUp hs)))

/-! ### Barker -/

theorem Inv.vocLoad {v : Nat} {addr : Word64} (h : Inv s) : Inv (s.vocLoad v addr) := .ite h h

theorem Inv.closeStream (h : Inv s) : Inv (s.closeStream k) := h

theorem Inv.endReply (h : Inv s) : Inv (s.endReply k) := by
  unfold State.endReply
  dsimp only
  split
  · exact h
  · exact .ite (.closeStream (.ite h h)) (.ite h h)

theorem tokenLane_wf {end_ : Bool} {l hd id : Nat} (h : Inv s) : OptHolds Inv (s.tokenLane end_ l hd id) := by
  unfold State.tokenLane
  split
  · exact h
  · exact .ite trivial (Inv.ite (.endReply (.ite h h)) (.ite h h))

theorem Inv.handOver {end_ : Bool} {hd id : Nat → Nat} (h : Inv s) : Inv (s.handOver end_ hd id ls).1 := by
  induction ls generalizing s with
  | nil => exact h
  | cons l r ih =>
    unfold State.handOver
    split
    · exact h
    · exact ih (OptHolds.get (tokenLane_wf h) ‹_›)

theorem bodyDtk_wf {f : FmtDtk} {end_ : Bool} (h : Inv s) : (bodyDtk f end_ x act s).Wf :=
  .ite (Inv.handOver h) (.ite (Inv.handOver h) (Inv.handOver h))

theorem execReplyFlushTimer_wf (h : Inv s) : NextWf (execReplyFlushTimer s) := by
  unfold execReplyFlushTimer
  change Inv _
  dsimp only
  split
  · exact h
  · exact .foldl h fun _ _ hs => hs

theorem Inv.refuseReq {conn port tag status : Nat} (h : Inv s) : Inv (s.refuseReq conn port tag status) := by
  unfold State.refuseReq
  dsimp only
  split <;> exact h

theorem Inv.putStream {x : Stream} (h : Inv s) : Inv (s.putStream k x) := h

theorem Inv.barkerAppend {feed held : Nat} {recs : List (List Byte)} (h : Inv s) : Inv (s.barkerAppend feed held recs) :=
  .ite (.ite (.feedWrite h) h) h

theorem execBarkerRequest_wf {conn port : Nat} {rud : Bool} {msg : List Byte} (h : Inv s) :
    NextWf (execBarkerRequest conn port rud msg s) := by
  unfold execBarkerRequest
  change Inv _
  refine .ite h ?_
  refine .ite (.refuseReq h) ?_
  refine .ite (.refuseReq h) ?_
  split
  · exact .refuseReq h
  · refine .ite (.refuseReq h) ?_
    split
    · exact h
    · exact .barkerAppend (.putStream h)

theorem execBarkerFeedAppend_wf {feed : Nat} (h : Inv s) : NextWf (execBarkerFeedAppend feed s) := by
  unfold execBarkerFeedAppend
  change Inv _
  split
  · exact .ite (.ite (.feedWrite h) h) h
  · exact h

theorem Inv.rmaLand {j : Nat} (h : Inv s) : Inv (s.rmaLand k j n) := by
  unfold State.rmaLand
  split
  · exact h
  · exact .ite (.foldl h (fun _ _ hs => .makeVisible hs)) (.foldl h (fun _ _ hs => .makeVisible hs))

/-! ### exit -/

theorem Inv.barExit (h : Inv s) : Inv (s.barExit key) := by
  unfold State.barExit
  exact .foldl h fun _ _ hs => .barCheck hs

theorem Inv.cvExit {tids : List Nat} (h : Inv s) : Inv (s.cvExit key tids) := by
  unfold State.cvExit
  exact .foldl h fun _ _ hs => .ite hs (.ite (.cvIssue hs) hs)

theorem Inv.exitLanes (h : Inv s) : Inv (s.exitLanes act) := by
  unfold State.exitLanes
  exact .foldl h fun _ _ hs => .rejoinCheck hs

theorem Inv.exitEffects {tids : List Nat} (h : Inv s) : Inv (s.exitEffects tids) := by
  unfold State.exitEffects
  exact .sortCheck (.ite (.commExit (.cvExit (.barExit h))) (.cvExit (.barExit h)))

theorem Inv.exitLast (h : Inv s) : Inv s.exitLast := .ite (.takeTrap h) (.sretCheck h)

theorem exitNow_wf (h : Inv s) : (s.exitNow act).Wf :=
  .ite h (Inv.exitLast (.exitEffects (.exitLanes h)))

theorem exitWhole_wf (h : Inv s) : (s.exitWhole act).Wf :=
  ordered_wf h (fun _ hs => .ite (tryCommit_wf hs (fun _ hs => .ite hs (exitNow_wf hs))) (.ite hs (exitNow_wf hs)))

theorem bodyExit_wf {f : FmtJ} (h : Inv s) : (bodyExit f iss act s).Wf := by
  unfold bodyExit
  split
  · exact OptHolds.get (stickyCheck_wf h) ‹_›
  · have h : Inv s.cvTick := .cvTick h
    generalize s.cvTick = t at h
    dsimp only
    split
    · exact OptHolds.get (cvTrapAny_wf h) ‹_›
    · exact .ite (exitWhole_wf h) (exitNow_wf h)

/-! ### Host registers and power -/

theorem execRegisterWrite_wf {off : Nat} {v : Word64} (h : Inv s) : NextWf (execRegisterWrite off v s) :=
  Inv.ite h (.ite h (.ite h (.ite h (.ite (.notice h) (.ite h (.ite (.vocLoad h) (.ite h (.ite h h))))))))

theorem Inv.launched (h : Inv s) : Inv (s.launched q) := .foldl h fun _ _ hs => .ite (.startLaunch hs) hs

theorem Inv.filled (h : Inv s) : Inv (State.filled fuel s q core) := by
  induction fuel generalizing s with
  | zero => exact h
  | succ n ih =>
    unfold State.filled
    split
    · exact ih (.putTeam h)
    · split
      · split
        · exact ih (.placeTeam h)
        · exact h
      · exact h

theorem Inv.saveTeams {ts : List Team} (h : Inv s) : Inv (s.saveTeams ts).1 := .foldl_fst h fun _ _ hs => .preempt hs

theorem Inv.claimCore {set : List Nat} {p : State × State} (hs : Inv p.1) (hu : Inv p.2) :
    Inv (State.claimCore set q p core).1 ∧ Inv (State.claimCore set q p core).2 := by
  unfold State.claimCore
  dsimp only
  split
  · exact ⟨hs, hu⟩
  · split
    · split
      · exact ⟨.saveTeams hs, .filled (.saveTeams hu)⟩
      · exact ⟨hs, hu⟩
    · exact ⟨.saveTeams hs, hu⟩

theorem Inv.claimCore_foldl {set : List Nat} (l : List Nat) {p : State × State} (hs : Inv p.1) (hu : Inv p.2) :
    Inv (l.foldl (State.claimCore set q) p).1 ∧ Inv (l.foldl (State.claimCore set q) p).2 := by
  induction l generalizing p with
  | nil => exact ⟨hs, hu⟩
  | cons core l ih =>
    obtain ⟨hs', hu'⟩ := Inv.claimCore (core := core) hs hu
    exact ih hs' hu'

/-- The cores that one incoming queue claims: the states without and with its launches. -/
theorem Inv.claimQueue_foldl {set : List Nat} (cores incoming : List Nat) {p : State × State} (hs : Inv p.1) (hu : Inv p.2) :
    Inv (incoming.foldl (fun (r : State × State) q => cores.foldl (State.claimCore set q)
      (r.1, cores.foldl (fun u core => u.filled 64 q core) (r.2.launched q))) p).1 := by
  induction incoming generalizing p with
  | nil => exact hs
  | cons q l ih =>
    obtain ⟨hs', hu'⟩ := Inv.claimCore_foldl (set := set) (q := q) cores
      (p := (p.1, cores.foldl (fun u core => u.filled 64 q core) (p.2.launched q))) hs
      (.foldl (.launched hu) fun _ _ ht => .filled ht)
    exact ih hs' hu'

theorem Inv.claimCores {die : Nat} {set incoming : List Nat} (h : Inv s) : Inv (s.claimCores die set incoming) :=
  .claimQueue_foldl (dieCores die) incoming h h

theorem Inv.endAll (h : Inv s) : Inv s.endAll := by
  unfold State.endAll
  refine .ite (.foldl h (fun _ _ hs => .endGrid hs)) ?_
  refine .foldl (.foldl h (fun _ _ hs => .endGrid hs)) ?_
  intro t _ ht
  split
  · exact NextWf.get (execGridCompletion_wf (s := { t with power := .p0 }) ht) ‹_›
  · exact ht

theorem Inv.standby (h : Inv s) : Inv s.standby := Memory.wf_filter _ _ h

theorem Inv.mainsOff (h : Inv s) : Inv s.mainsOff := .standby (.endAll h)

theorem execMainPowerDown_wf {forced : Bool} (h : Inv s) : NextWf (execMainPowerDown forced s) := by
  unfold execMainPowerDown
  exact Inv.ite h (.ite h ((Inv.mainsOff h).of_mem rfl))

theorem execVstbyRailChange_wf {up : Bool} (h : Inv s) : NextWf (execVstbyRailChange up s) := by
  unfold execVstbyRailChange
  exact Inv.ite (.ite h h) ((Inv.ite (.mainsOff h) h).of_mem rfl)

theorem execHeadroomUpdate_wf {unit : Nat} {temps : List ℤ} {watts : Nat} (h : Inv s) :
    NextWf (execHeadroomUpdate unit temps watts s) := by
  unfold execHeadroomUpdate
  change Inv _
  refine .ite (.ite h h) ?_
  refine .ite h ?_
  split
  · exact h
  · exact .ite (.mainsOff (.ite (.ite h h) (.ite (.ite h h) (.ite h h)))) (.ite (.ite h h) (.ite (.ite h h) (.ite h h)))

theorem execBoot_wf {err : Nat} {present : List Nat} (h : Inv s) : NextWf (execBoot err present s) := by
  unfold execBoot
  change Inv _
  refine .ite (.ite h h) ?_
  split
  · exact .ite h h
  · exact .ite (.ite h h) (.ite h h)

theorem Inv.updateStep {host copy : Bool} {u : UpdateStep} (h : Inv s) : Inv (s.updateStep host copy u) := by
  unfold State.updateStep
  dsimp only
  split <;> exact .ite h h

theorem execPldmMonitoring_wf {req : PldmReq} (h : Inv s) : NextWf (execPldmMonitoring req s) := by
  unfold execPldmMonitoring
  change Inv _
  refine .ite h ?_
  dsimp only
  split <;> exact h

/-! ### Collective reductions -/

theorem redCheck_wf {src dst : Nat × Nat} (h : Inv s) : OptHolds Res.Wf (s.redCheck iss src dst) := by
  unfold State.redCheck
  dsimp only
  split
  · exact h
  · split
    · exact h
    · split
      · exact h
      · split
        · exact trivial
        · split
          · exact Inv.ite h h
          · exact trivial

theorem redWait_wf {f : FmtCred} {c : Comm} (h : Inv s) : (s.redWait f c iss act).Wf := by
  unfold State.redWait
  dsimp only
  split
  · exact h
  · exact .ite h (.ite h (ordered_wf h (fun _ hs => hs)))

theorem bodyCreduce_wf {f : FmtCred} (h : Inv s) : (bodyCreduce f iss act s).Wf := by
  unfold bodyCreduce
  dsimp only
  split
  · exact h
  · refine .ite h ?_
    refine .ite (redWait_wf h) ?_
    refine .ite h ?_
    refine .ite h ?_
    refine .ite h ?_
    split
    · exact OptHolds.get (redCheck_wf h) ‹_›
    · exact .ite h (redWait_wf h)

theorem Inv.redPiece {r : RedRun} {p : Nat × List (Nat × Byte)} (h : Inv s) : Inv (s.redPiece r p).1 := .makeVisible h

theorem Inv.redStart {foreign : List ForeignContrib} (h : Inv s) : Inv (s.redStart slot gen foreign) := by
  unfold State.redStart
  split
  · exact h
  · split <;> exact h

theorem Inv.redGranule (h : Inv s) : Inv (s.redGranule slot gen k) := by
  unfold State.redGranule
  split
  · exact h
  · split
    · exact h
    · rename_i r _
      split
      · exact h
      · exact .redPiece (r := r) h

theorem Inv.redRead {rank : Nat} (h : Inv s) : Inv (s.redRead slot gen rank k) := by
  unfold State.redRead
  split <;> exact h

theorem Inv.redPieces_foldl {ps : List (Nat × List (Nat × Byte))} {r : RedRun} (h : Inv s) :
    Inv (ps.foldl (fun (x : State × RedRun) p => x.1.redPiece x.2 p) (s, r)).1 :=
  .foldl_fst h fun p _ hs => .redPiece (r := p.2) hs

theorem execCreduceGenerationComplete_wf {foreign : List ForeignContrib} (h : Inv s) :
    NextWf (execCreduceGenerationComplete slot gen foreign s) := by
  unfold execCreduceGenerationComplete
  change Inv _
  split
  · exact h
  · split
    · exact h
    · exact .ite (.redPieces_foldl h) (.redPieces_foldl h)

theorem execCreduceStall_wf (h : Inv s) : NextWf (execCreduceStall key s) := by
  unfold execCreduceStall
  change Inv _
  refine .withWave h ?_
  intro _ hs
  dsimp only
  split
  · exact hs
  · split
    · exact hs
    · exact .ite hs (.takeTrap hs)

/-! ### System instructions -/

theorem Inv.resumeEscalated (h : Inv s) : Inv s.resumeEscalated := by
  unfold State.resumeEscalated
  split
  · exact h
  · exact .takeTrap h

theorem execFaultServiceDecision_wf {resume : Bool} (h : Inv s) : NextWf (execFaultServiceDecision key resume s) := by
  unfold execFaultServiceDecision
  change Inv _
  split
  · exact h
  · exact .ite h (.ite (.ite (.withWave h (fun _ hs => .resumeEscalated hs)) h) (.endGrid (.agentWrite h)))

theorem Inv.putS {r : Nat} {v : Word64} (h : Inv s) : Inv (s.putS r v) := h

theorem bodyMigrate_wf {f : FmtMig} (h : Inv s) : (bodyMigrate f x act s).Wf := by
  unfold bodyMigrate
  refine .ite h ?_
  refine .ite h ?_
  split
  · exact h
  · split
    · exact h
    · refine .ite h ?_
      refine .ite (Inv.ite_fst h (.takeTeam h)) ?_
      dsimp only
      split
      · exact Inv.ite_fst h (.takeTeam h)
      · exact Inv.putS (.countUp (.focus (.putTeam (.ite_fst h (.takeTeam h)))))

/-- Every instruction and every event keeps the canonical form. -/
theorem exec_wf (h : Inv s) : NextWf (exec i s) := by
  cases i with
  | vadd | vsub | vaddc | vmul | vmulh | vmad | vmin | vmax | vabsd | vand | vor | vxor | vnot | vshl | vshr | vsar | vrot | vclz
  | vpopc | vbrev | vext | vins | vsel | vcmp | vmov | vmovi | vbcast | sadd | ssub | smul | smad | sand | sor | sxor | sshl
  | sshr | ssar | smov | smovi | scmp | vtos | stov | fadd | fsub | fmul | ffma | fmin | fmax | fcmp | fclass | fround | fscale
  | fexp | fman | fcvt | fcvti | icvtf | fex2 | flg2 | frcp | frsq | fsqrt | fsin2 | fcos2 | fdot2 | hadd2 | hmul2 | hfma2 | lda
  | pf | sclq | cpywRe | pbclr | pbcnt | rng | rngk | nop | trap => exact issue_wf h fun _ _ _ hs => hs
  | vshfl | vvote | vscan | vred | vcompact => exact issue_wf h fun _ _ _ hs => maskChecked_wf hs
  | fstat | spfence | rfence | pbsel | accept | brk | sretEsc | rdsr | wrsr => exact issue_wf h fun _ _ _ hs => .ite hs hs
  | br | call | ret => exact issue_wf h fun _ _ _ hs => transferAll_wf hs hs
  | brd => exact issue_wf h fun _ _ _ hs => bodyBrd_wf hs
  | join | joinAct => exact issue_wf h fun _ _ _ hs => Inv.arm hs
  | wait => exact issue_wf h fun _ _ _ hs => bodyWait_wf hs
  | exit => exact issue_wf h fun _ _ _ hs => bodyExit_wf hs
  | ld => exact issue_wf h fun _ _ _ hs => bodyLd_wf hs
  | st => exact issue_wf h fun _ _ _ hs => bodySt_wf hs
  | sld => exact issue_wf h fun _ _ _ hs => bodySld_wf hs
  | sst => exact issue_wf h fun _ _ _ hs => bodySst_wf hs
  | loadDataReturn => exact execLoadDataReturn_wf h
  | grow => exact issue_wf h fun _ _ _ hs => bodyGrow_wf hs
  | growUnitsFreed => exact execGrowUnitsFreed_wf h
  | shrink => exact issue_wf h fun _ _ _ hs => .ite hs (.ite hs (.ite hs hs))
  | sortk => exact issue_wf h fun _ _ _ hs => .ite hs (.ite hs (.ite (Inv.sortMove hs) hs))
  | issueOverride => exact execIssueOverride_wf h
  | issueSlotGrant => exact execIssueSlotGrant_wf h
  | atom => exact issue_wf h fun _ _ _ hs => bodyAtom_wf hs
  | red => exact issue_wf h fun _ _ _ hs => atomBody_wf hs (fun _ _ hs => Inv.countAccess hs)
  | fence | ffence => exact issue_wf h fun _ _ _ hs => ordered_wf hs (fun _ hs => hs)
  | writeAcknowledgement => exact Inv.ackWrite h
  | mon => exact issue_wf h fun _ _ _ hs => bodyMon_wf hs
  | mwait => exact issue_wf h fun _ _ _ hs => .ite hs (.ite hs (.ite (Inv.wakeFirst hs) (.ite hs hs)))
  | monitorTrigger => exact execMonitorTrigger_wf h
  | mwaitDeadline => exact execMwaitDeadline_wf h
  | barr | bara => exact issue_wf h fun _ _ _ hs => bodyArrive_wf hs
  | barw => exact issue_wf h fun _ _ _ hs => bodyBarw_wf hs
  | bmask => exact issue_wf h fun _ _ _ hs => .ite hs (.ite hs (Inv.barCheck hs))
  | mmaOperationComplete => exact execMmaOperationComplete_wf h
  | convergenceTimeout => exact Inv.ite h (.cvTimedOut h)
  | orf | wsw => exact issue_wf h fun _ _ _ hs => .ite hs (.ite hs hs)
  | accld => exact issue_wf h fun _ _ _ hs => bodyAccld_wf hs
  | accst => exact issue_wf h fun _ _ _ hs => bodyAccst_wf hs
  | accstReg => exact issue_wf h fun _ _ _ hs => .ite hs (.ite hs (.ite hs (Inv.enqueue (.addPend hs))))
  | acczero => exact issue_wf h fun _ _ _ hs => .ite hs (Inv.enqueue hs)
  | engineEntryComplete => exact execEngineEntryComplete_wf h
  | trec => exact issue_wf h fun _ _ _ hs => bodyTrec_wf hs
  | qblk | dqblk | hadm => exact issue_wf h fun _ _ _ hs => bodyQ_wf hs
  | vldt => exact issue_wf h fun _ _ _ hs => bodyVldt_wf hs
  | vstt => exact issue_wf h fun _ _ _ hs => bodyVstt_wf hs
  | cpy | cpys => exact issue_wf h fun _ _ _ hs => bodyCpy_wf hs
  | copyTransferStart => exact execCopyTransferStart_wf h
  | copyComplete => exact execCopyComplete_wf h
  | cpyw | cpywWait => exact issue_wf h fun _ _ _ hs => bodyCpyw_wf hs
  | copyPromiseWake => exact execCopyPromiseWake_wf h
  | tlbw => exact issue_wf h fun _ _ _ hs => .ite hs (.ite hs (Inv.tlbFill hs))
  | tlbiVa | tlbiAsid | tlbiAll => exact issue_wf h fun iss _ _ hs => tlbiBody_wf (iss := iss) hs
  | tlbMissWalk => exact execTlbMissWalk_wf h
  | hostTlbFill => exact Inv.ite (.tlbFill h) h
  | pageFaultBatchResolved => exact execPageFaultBatchResolved_wf h
  | uncorrectableError => exact execUncorrectableError_wf h
  | hostMemoryAccess => exact execHostMemoryAccess_wf h
  | cbrj => exact issue_wf h fun _ _ _ hs => bodyCbrj_wf hs
  | cbr => exact issue_wf h fun _ _ _ hs => bodyCbr_wf hs
  | cbrOutcome => exact execCbrOutcome_wf h
  | collectiveStall => exact execCollectiveStall_wf h
  | memberLost => exact execMemberLost_wf h
  | creduce => exact issue_wf h fun _ _ _ hs => bodyCreduce_wf hs
  | creduceGenerationComplete => exact execCreduceGenerationComplete_wf h
  | creduceStall => exact execCreduceStall_wf h
  | fld => exact issue_wf h fun _ _ _ hs => bodyFld_wf hs
  | fst => exact issue_wf h fun _ _ _ hs => bodyFst_wf hs
  | fatom => exact issue_wf h fun _ _ _ hs => bodyFatom_wf hs
  | fabricRequestArrival => exact execFabricRequestArrival_wf h
  | fabricCountQuery => exact execFabricCountQuery_wf h
  | fabricResponse => exact execFabricResponse_wf h
  | fabricWaitNotice => exact execFabricWaitNotice_wf h
  | fabricRequestTimeout => exact execFabricRequestTimeout_wf h
  | linkFailure | portLinkChange | fabricLinkRestored => exact h
  | deviceLeavesPod => exact execDeviceLeavesPod_wf h
  | sret => exact issue_wf h fun _ _ _ hs => .ite hs (.ite hs (Inv.sretCheck hs))
  | faultServiceDecision => exact execFaultServiceDecision_wf h
  | migrate => exact issue_wf h fun _ _ _ hs => bodyMigrate_wf hs
  | qpush => exact issue_wf h fun _ _ _ hs => bodyQpush_wf hs
  | qpop => exact issue_wf h fun _ _ _ hs => bodyQpop_wf hs
  | qpopO => exact issue_wf h fun _ _ _ hs => bodyQpopO_wf hs
  | qpopDeadline => exact execQpopDeadline_wf h
  | qdone => exact issue_wf h fun _ _ _ hs => .ite hs (tryCommit_wf hs (fun _ hs => hs))
  | taskTurnsNonspeculative => exact Inv.withWave h fun _ hs => .ite (.turnNonspec hs) hs
  | dtk | dtkEnd => exact issue_wf h fun _ _ _ hs => bodyDtk_wf hs
  | launch => exact execLaunch_wf h
  | teamPlacement => exact execTeamPlacement_wf h
  | teamResume => exact execTeamResume_wf h
  | gridCompletion => exact execGridCompletion_wf h
  | feedAppend => exact execFeedAppend_wf h
  | communicatorSetUp => exact execCommunicatorSetUp_wf h
  | communicatorRelease => exact execCommunicatorRelease_wf h
  | determinismLevel => exact execDeterminismLevel_wf h
  | token => exact execToken_wf h
  | powerClass => exact execPowerClass_wf h
  | gridCheckpoint => exact execGridCheckpoint_wf h
  | gridRestore => exact execGridRestore_wf h
  | gridEnd => exact execGridEnd_wf h
  | unknownPacketKind => exact Inv.ite (.completeTo h) h
  | doorbell | writeIndexNotice => exact Inv.ite (.notice h) h
  | quantumSwap => exact Inv.ite h (.ite (.claimCores h) (.claimCores h))
  | headroomUpdate => exact execHeadroomUpdate_wf h
  | registerWrite => exact execRegisterWrite_wf h
  | bkvocLoad => exact Inv.vocLoad h
  | bkcntRead | p1Wake | mainPowerUp | spdmRequest | hostLinkChange | replyBufferFreed => exact Inv.ite h h
  | barkerRequest => exact execBarkerRequest_wf h
  | barkerFeedAppend => exact execBarkerFeedAppend_wf h
  | rudRmaWrite | vocabularyLoadComplete => exact Inv.ite h (.ite h h)
  | replyFlushTimer => exact execReplyFlushTimer_wf h
  | connectionEnd => exact Inv.foldl h fun _ _ hs => hs
  | boot => exact execBoot_wf h
  | mainPowerDown => exact execMainPowerDown_wf h
  | pldmMonitoring => exact execPldmMonitoring_wf h
  | pldmFirmwareUpdate => exact Inv.ite h (.updateStep h)
  | recoveryWindowWrite => exact Inv.ite (.updateStep h) h
  | releasePoint => exact execReleasePoint_wf h
  | pageFaultResolved => exact execPageFaultResolved_wf h
  | vstbyRailChange => exact execVstbyRailChange_wf h
  | cvdecl => exact bodyCvdecl_wf.issue h
  | mma | mmas => exact bodySign_wf.issue h
  | mmaw => exact bodyMmaw_wf.issue h

/-! ### The step -/

theorem Inv.preTrap {t : TrapReq} {word : Word64} (h : Inv s) : Inv (s.preTrap t word) := by
  unfold State.preTrap
  split
  · exact .takeTrap h
  · exact .checkAhead h
  · exact h

theorem Inv.preFault {lanes : List Nat} {va : Nat} {malformed : Bool} (h : Inv s) : Inv (s.preFault lanes va malformed) := by
  unfold State.preFault
  split <;> exact h

theorem preHeld_wf (h : Inv s) : OptHolds Inv s.preHeld := by
  unfold State.preHeld
  split
  · exact trivial
  · split
    · exact Inv.takeTrap h
    · exact trivial
    · exact h

theorem preFabric_wf (h : Inv s) : OptHolds Inv s.preFabric := by
  unfold State.preFabric
  dsimp only
  split
  · exact trivial
  · refine .ite h ?_
    split
    · exact trivial
    · exact Inv.takeTrap h

theorem preFence_wf (h : Inv s) : OptHolds Inv s.preFence := by
  unfold State.preFence
  split
  · exact trivial
  · rename_i d _ _
    have hstep : (s.fenceStep (some d)).Wf := fenceStep_wf h
    refine .ite trivial ?_
    split <;> rename_i e <;> rw [e] at hstep
    · exact hstep
    · exact hstep
    · exact Inv.preTrap hstep

theorem preHeader_wf (h : Inv s) : OptHolds Inv s.preHeader := by
  unfold State.preHeader
  dsimp only
  split
  · exact trivial
  · split
    · exact h
    · exact Inv.preTrap h
    · exact Inv.preTrap h
    · exact h
    · exact Inv.preFault h

theorem preBreak_wf (h : Inv s) : OptHolds Inv s.preBreak := by
  unfold State.preBreak
  unfold Option.map
  split
  · exact Inv.preTrap h
  · exact trivial

theorem preOpen_wf (h : Inv s) : OptHolds Inv s.preOpen := by
  unfold State.preOpen
  refine .ite trivial ?_
  split
  · split
    · exact .ite trivial (Inv.foldl h (fun _ _ hs => .ite hs (.closeWave hs)))
    · exact Inv.closeAll h
    · exact trivial
  · exact trivial

theorem before_wf (h : Inv s) : OptHolds Inv s.before := by
  unfold State.before
  refine .ite ?_ ?_
  · unfold Option.orElse
    split
    · exact (OptHolds.get (preHeader_wf h) ‹_› : Inv _)
    · exact preBreak_wf h
  · unfold Option.orElse
    split
    · exact (OptHolds.get (preHeld_wf h) ‹_› : Inv _)
    · dsimp only
      split
      · exact (OptHolds.get (preFabric_wf h) ‹_› : Inv _)
      · dsimp only
        split
        · exact (OptHolds.get (preFence_wf h) ‹_› : Inv _)
        · dsimp only
          split
          · exact (OptHolds.get (preHeader_wf h) ‹_› : Inv _)
          · dsimp only
            split
            · exact (OptHolds.get (preBreak_wf h) ‹_› : Inv _)
            · exact preOpen_wf h

theorem fetchRun_wf (h : Inv s) : NextWf s.fetchRun := by
  unfold State.fetchRun
  split
  · split
    · exact exec_wf h
    · exact Inv.preTrap h
  · exact Inv.preTrap h
  · exact h
  · exact Inv.preFault h

theorem issueNow_wf (h : Inv s) : NextWf s.issueNow := by
  unfold State.issueNow
  refine .ite (exec_wf h) ?_
  split
  · exact (OptHolds.get (before_wf h) ‹_› : Inv _)
  · exact fetchRun_wf h

theorem Inv.acts (h : Inv s) : Inv (s.acts i) := by
  unfold State.acts
  split
  · exact NextWf.get (exec_wf (.ite h (.closeAll h))) ‹_›
  · exact h

theorem Inv.passTurn (h : Inv s) : Inv s.passTurn := .rotate h

theorem Inv.idleStep (h : Inv s) : Inv s.idleStep := by
  have hend : ∀ t : State, Inv t →
      Inv (if t.mayIssue then { t with gtc := t.gtc + 1 } else State.passTurn { t with cur := t.cur.lookAgain }) :=
    fun _ ht => .ite ht (.passTurn ht)
  unfold State.idleStep
  exact hend _ (.foldl (.foldl (.ite (.foldl h fun _ _ hs => .acts hs) (.closeAll (.foldl h fun _ _ hs => .acts hs)))
    fun _ _ hs => .rmaLand hs) fun _ _ hs => .acts hs)

theorem andThen_wf {o : Host.Outcome State Fault Refusal} {f : State → State} (h : NextWf o) (hf : ∀ t, Inv t → Inv (f t)) :
    NextWf (andThen o f) := by
  cases o with
  | next s => exact hf s h
  | fault r => exact trivial
  | refused r => exact trivial

theorem Inv.exportWrite {key : Nat} {e : Option Export} (h : Inv s) : Inv (s.exportWrite key e) := by
  unfold State.exportWrite
  dsimp only
  split
  · exact h
  · exact .ite h h

theorem takeChoice_wf {c : Choice} (h : Inv s) : NextWf (takeChoice c s) := by
  unfold takeChoice
  split
  · exact .ite (exec_wf h) h
  · exact .ite (issueNow_wf (.focus h)) (Inv.focus h)
  · exact andThen_wf (.ite (issueNow_wf (.focus h)) (Inv.focus h)) fun _ hs => hs
  · exact Inv.onWave h
  · exact Inv.onWave h
  · exact Inv.onWave h
  · exact h
  · exact Inv.exportWrite h
  · exact h
  · exact Inv.ite h h
  · exact Inv.foreignStall h
  · exact h
  · exact Inv.ite h h
  · exact h
  · exact Inv.redRead h
  · exact Inv.redStart h
  · exact Inv.redGranule h
  · exact Inv.ite h h
  · exact Inv.onWave h
  · exact Inv.rmaLand h
  · exact h
  · exact h
  · exact h
  · exact h
  · exact h
  · exact Inv.ite (.copyGranule (.closeGranule h)) h
  · exact Inv.copyBytes h
  · exact Inv.kstep h

theorem Inv.trial (h : Inv s) : Inv (s.trial w).1 := by
  unfold State.trial
  dsimp only
  split
  · exact .ite_fst (.onWave h) h
  · exact h

theorem Inv.lineUp (h : Inv s) : Inv s.lineUp := .foldl h fun _ _ hs => .ite hs (.ite (.trial hs) (.trial hs))

theorem Inv.sortTidy (h : Inv s) : Inv s.sortTidy := by
  unfold State.sortTidy
  exact .foldl h fun _ _ hs => .sortCheck hs

theorem Inv.popsDone (h : Inv s) : Inv s.popsDone := by
  unfold State.popsDone
  refine .foldl ?_ fun _ _ hs => .freeRec hs
  exact h

theorem Inv.countDue (h : Inv s) : Inv s.countDue := .foldl h fun _ _ hs => .ite hs (.onWave (.countUp hs))

theorem Inv.reap (h : Inv s) : Inv s.reap := .foldl h fun _ _ hs => .ite (.removeTeam hs) hs

theorem Inv.dropInvalid (h : Inv s) : Inv s.dropInvalid := by
  unfold State.dropInvalid
  refine (Inv.foldl h ?_).of_mem rfl
  exact fun _ _ hs => hs

theorem Inv.settled (h : Inv s) : Inv s.settled :=
  .lineUp (.dropInvalid (.reap (.countDue (.popsDone (.barTidy (.sortTidy (.tidy (.breaches h))))))))

theorem runStep_wf (h : Inv s) : NextWf (runStep s) := by
  unfold runStep
  refine andThen_wf ?_ (fun _ hs => .settled hs)
  split
  · exact takeChoice_wf (.ite h (.closeAll h))
  · exact .ite (andThen_wf (issueNow_wf h) (fun _ hs => .passTurn hs)) (Inv.idleStep h)

end

/-- Settles O56, by the lemma on one step. -/
theorem stepKeepsCanonicalMemory : Obligations.StepKeepsCanonicalMemory :=
  fun _ _ h hstep => NextWf.get (runStep_wf h) hstep

end Sys2Proof.Machine

namespace Sys2Proof.Machine

/-! ### A transfer between places in memory (R218 to R221) -/

theorem foldl_eq_self {α β : Type} {f : β → α → β} {b : β} {l : List α} (h : ∀ a ∈ l, f b a = b) : l.foldl f b = b := by
  induction l with
  | nil => rfl
  | cons a r ih =>
    rw [List.foldl_cons, h a List.mem_cons_self]
    exact ih fun x hx => h x (List.mem_cons_of_mem a hx)

section
variable {s t src : State} {w v : Wave} {own : WKey} {q g d e : Nat} {locs : List Nat} {c : Copy}
  {ms : List (CopyByte × CopyByte × Nat)} {m : CopyByte × CopyByte × Nat}

/-- The bytes that the moves of a granule write at the listed locations. -/
def State.movesBytes (src : State) (own : WKey) (ms : List (CopyByte × CopyByte × Nat)) (g : Nat) (locs : List Nat) :
    List (Nat × Byte) :=
  (((ms.zip (List.range ms.length)).filter (fun x => moveGranule x.1 == some g)).filter (fun x => match x.1.1 with
    | .mem loc => locs.contains loc
    | .map _ => false)).filterMap (fun x => match x.1.1 with
    | .mem loc => some (loc, src.copyValue own ms x.2 x.1)
    | .map _ => none)

/-- What `copyMoves` does to memory is to make these bytes visible. -/
theorem mem_copyMoves : (src.copyMoves own ms c g locs s).mem = (s.makeVisible (src.movesBytes own ms g locs)).mem := by
  unfold State.copyMoves State.movesBytes
  dsimp only
  split
  · rfl
  · split <;> rfl

theorem nodup_movesBytes (hn : (ms.map (fun m => m.1)).Nodup) : ((src.movesBytes own ms g locs).map Prod.fst).Nodup := by
  have hmap : (ms.zip (List.range ms.length)).map (fun x => x.1.1) = ms.map (fun m => m.1) := by
    conv_rhs => rw [← List.map_fst_zip (l₁ := ms) (l₂ := List.range ms.length) (by simp), List.map_map]
    rfl
  have hzip : (ms.zip (List.range ms.length)).Pairwise (fun x y => x.1.1 ≠ y.1.1) :=
    List.pairwise_map.mp (show ((ms.zip (List.range ms.length)).map (fun x => x.1.1)).Nodup by rwa [hmap])
  refine List.pairwise_map.mpr (List.pairwise_filterMap.mpr ((hzip.filter _).filter _ |>.imp ?_))
  intro x y hne b hb b' hb' heq
  split at hb
  · split at hb'
    · rename_i _ d hd _ d' hd'
      cases hb
      cases hb'
      exact hne (by rw [hd, hd']; exact congrArg CopyByte.mem heq)
    · cases hb'
  · cases hb

/-- A move of memory writes its byte. -/
theorem mem_movesBytes (hm : m ∈ ms) (hd : m.1 = .mem d) (hl : d ∈ locs) :
    ∃ i, (d, src.copyValue own ms i m) ∈ src.movesBytes own ms (granule d) locs := by
  obtain ⟨i, hi, hget⟩ := List.mem_iff_getElem.mp hm
  refine ⟨i, List.mem_filterMap.mpr ⟨(m, i), List.mem_filter.mpr ⟨List.mem_filter.mpr ⟨?_, ?_⟩, ?_⟩, ?_⟩⟩
  · exact List.mem_iff_getElem.mpr ⟨i, by simpa using hi, by simp [hget]⟩
  · simp [moveGranule, hd]
  · simp [hd, hl]
  · simp [hd]

/-- The bytes of a granule lie in it. -/
theorem granule_of_mem_movesBytes {b : Nat × Byte} (hb : b ∈ src.movesBytes own ms g locs) : granule b.1 = g := by
  obtain ⟨x, hx, hxb⟩ := List.mem_filterMap.mp hb
  have hg := (List.mem_filter.mp (List.mem_filter.mp hx).1).2
  split at hxb
  · rename_i d hd
    cases hxb
    simpa [moveGranule, hd] using hg
  · cases hxb

/-- Without overlap a move writes the byte of its source (R218). -/
theorem copyValue_mem (hover : ∀ m ∈ ms, ∀ n ∈ ms, m.1 ≠ n.2.1) (hn : (ms.map (fun m => m.1)).Nodup) (hm : m ∈ ms)
    (he : m.2.1 = .mem e) (i : Nat) : src.copyValue own ms i m = Memory.read src.mem e := by
  have hsrc : (moveSrcs ms).contains m.1 = false := by
    rw [Bool.eq_false_iff]
    intro h
    obtain ⟨n, hn, hnm⟩ := List.mem_map.mp (List.contains_iff_mem.mp h)
    exact hover m hm n hn hnm.symm
  have hcount : ¬ 1 < (moveDsts ms).count m.1 := Nat.not_lt.mpr (List.nodup_iff_count_le_one.mp hn m.1)
  unfold State.copyValue
  rw [if_neg (by simp [hsrc, hcount, -List.contains_eq_mem]), he]

theorem mem_leftOf (ht : c.torn = []) (hm : m ∈ ms) (hd : m.1 = .mem d) : d ∈ c.leftOf ms (granule d) := by
  refine List.mem_eraseDups.mpr (List.mem_filterMap.mpr ⟨m, hm, ?_⟩)
  simp [hd, Copy.tornAt, ht]

/-- What the copy engine leaves of a wave while it writes to memory. -/
def Wave.SameButReads (v w : Wave) : Prop :=
  v.key = w.key ∧ v.lanes = w.lanes ∧ v.rct = w.rct ∧ v.copies = w.copies

theorem cur_addPoison : (s.addPoison g).cur.SameButReads s.cur := by
  show Wave.SameButReads (if s.cur.pend.isEmpty then s.cur else _) s.cur
  split
  · exact ⟨rfl, rfl, rfl, rfl⟩
  · obtain ⟨a, b, h⟩ := s.readLate_eq s.cur (fun q => q.srcs.any (fun x => !x.zero)) ((List.range 32).map (fun k => 32 * g + k))
    rw [h]
    exact ⟨rfl, rfl, rfl, rfl⟩

theorem cur_copyMoves : (src.copyMoves own ms c g locs s).cur.SameButReads s.cur := by
  have hbad : ∀ bad : Bool, (if bad then s.addPoison g else s).cur.SameButReads s.cur := by
    rintro (_ | _)
    · exact ⟨rfl, rfl, rfl, rfl⟩
    · exact cur_addPoison
  have hvis : ∀ (bad : Bool) bs, ((if bad then s.addPoison g else s).makeVisible bs).cur.SameButReads s.cur := by
    intro bad bs
    obtain ⟨n, hn⟩ := (if bad then s.addPoison g else s).cur_makeVisible bs
    rw [hn]
    exact hbad bad
  unfold State.copyMoves
  extract_lets mine now bytes bad t whole
  have ht : t.cur.SameButReads s.cur := hvis bad bytes
  split
  · exact ht
  · split <;> exact ht

/-- The transfer of a slot is under way in a wave that is else as it was, and has written no granule in part. -/
def Wave.Copying (q : Nat) (ms : List (CopyByte × CopyByte × Nat)) (w v : Wave) : Prop :=
  v.key = w.key ∧ v.lanes = w.lanes ∧ v.rct = w.rct ∧ v.copies.length = w.copies.length ∧
    ∃ c, v.copies.getD q none = some c ∧ c.phase = .started ms ∧ c.torn = []

theorem Wave.getD_set {l : List (Option Copy)} (hq : q < l.length) (o : Option Copy) : (l.set q o).getD q none = o := by
  rw [List.getD_eq_getElem?_getD, List.getElem?_set_self hq]
  rfl

/-- A granule of a transfer is written: the state that it leaves, in terms of `copyMoves`. -/
theorem copyGranule_eq (hl : t.cur.lanes ≠ []) (hc : t.cur.copies.getD q none = some c) (hp : c.phase = .started ms) :
    src.copyGranule t.cur.key q g t = (src.copyMoves t.cur.key ms c g (c.leftOf ms g) t).onCopy t.cur.key q (fun c =>
      { c with written := insNat c.written g, torn := c.torn.filter (fun x => x.1 != g) }) := by
  unfold State.copyGranule
  rw [t.findWave_cur hl]
  dsimp only [Option.bind_some]
  rw [hc]
  dsimp only
  rw [hp]

theorem copyGranule_copying (hl : w.lanes ≠ []) (hq : q < w.copies.length) (h : w.Copying q ms t.cur) :
    w.Copying q ms (src.copyGranule w.key q g t).cur := by
  obtain ⟨hkey, hlanes, hrct, hlen, c, hc, hp, ht⟩ := h
  rw [← hkey, copyGranule_eq (by rw [hlanes]; exact hl) hc hp]
  obtain ⟨vkey, vlanes, vrct, vcopies⟩ :=
    cur_copyMoves (s := t) (src := src) (own := t.cur.key) (ms := ms) (c := c) (g := g) (locs := c.leftOf ms g)
  unfold State.onCopy
  rw [State.onWave_cur _ _ _ vkey (by rw [vlanes, hlanes]; exact hl) rfl]
  refine ⟨vkey.trans hkey, vlanes.trans hlanes, vrct.trans hrct, ?_, ?_⟩
  · show (List.set _ _ _).length = _
    rw [List.length_set, vcopies, hlen]
  · refine ⟨{ c with written := insNat c.written g, torn := c.torn.filter (fun x => x.1 != g) }, ?_, hp, by simp [ht]⟩
    show (List.set _ _ _).getD q none = _
    rw [vcopies, hc, Wave.getD_set (by rw [hlen]; exact hq)]
    rfl

theorem mem_onWave (k : WKey) (f : Wave → Wave) : (s.onWave k f).mem = s.mem := by
  unfold State.onWave
  split
  · unfold State.setWave
    split <;> rfl
  · rfl

/-- The granule of a move is written with the byte of its source, and another is not written. -/
theorem read_copyGranule (hover : ∀ m ∈ ms, ∀ n ∈ ms, m.1 ≠ n.2.1) (hn : (ms.map (fun m => m.1)).Nodup) (hl : w.lanes ≠ [])
    (h : w.Copying q ms t.cur) (hm : m ∈ ms) (hd : m.1 = .mem d) (he : m.2.1 = .mem e) :
    Memory.read (src.copyGranule w.key q g t).mem d =
      if granule d = g then Memory.read src.mem e else Memory.read t.mem d := by
  obtain ⟨hkey, hlanes, -, -, c, hc, hp, ht⟩ := h
  rw [← hkey, copyGranule_eq (by rw [hlanes]; exact hl) hc hp, State.onCopy, mem_onWave, mem_copyMoves]
  split
  · rename_i hg
    subst hg
    obtain ⟨i, hi⟩ := mem_movesBytes (src := src) (own := t.cur.key) hm hd (mem_leftOf ht hm hd)
    exact (t.read_makeVisible_mem _ (nodup_movesBytes hn) _ hi).trans (copyValue_mem hover hn hm he i)
  · rename_i hg
    refine t.read_makeVisible_other _ d fun hmem => hg ?_
    obtain ⟨b, hb, rfl⟩ := List.mem_map.mp hmem
    exact granule_of_mem_movesBytes hb

/-- The granules are written one after another, the sources as they stood before (R218, R221). -/
theorem foldl_copyGranule (hover : ∀ m ∈ ms, ∀ n ∈ ms, m.1 ≠ n.2.1) (hn : (ms.map (fun m => m.1)).Nodup) (hl : w.lanes ≠ [])
    (hq : q < w.copies.length) (gs : List Nat) (h : w.Copying q ms t.cur) :
    w.Copying q ms (gs.foldl (fun t g => src.copyGranule w.key q g t) t).cur ∧
      ∀ m ∈ ms, ∀ d e, m.1 = .mem d → m.2.1 = .mem e → (granule d ∈ gs ∨ Memory.read t.mem d = Memory.read src.mem e) →
        Memory.read (gs.foldl (fun t g => src.copyGranule w.key q g t) t).mem d = Memory.read src.mem e := by
  induction gs generalizing t with
  | nil => exact ⟨h, fun m _ d e _ _ hr => hr.resolve_left (by simp)⟩
  | cons g gs ih =>
    obtain ⟨ihc, ihr⟩ := ih (copyGranule_copying (g := g) (src := src) hl hq h)
    refine ⟨ihc, fun m hm d e hd he hr => ihr m hm d e hd he ?_⟩
    rw [read_copyGranule hover hn hl h hm hd he]
    split
    · exact .inr rfl
    · rename_i hg
      rcases hr with hr | hr
      · exact .inl ((List.mem_cons.mp hr).resolve_left hg)
      · exact .inr hr

theorem closeGranule_eq_self (h : ∀ x ∈ s.waves, ∀ k d, x.copies.getD k none = some d → d.torn = []) :
    s.closeGranule own q g = s := by
  refine foldl_eq_self fun x hx => foldl_eq_self fun k _ => ?_
  split
  · rename_i d hd
    rw [h x hx k d hd]
    rfl
  · rfl

theorem copyMap_eq_self (dropped : List Nat) (h : ∀ m ∈ ms, ∃ d, m.1 = .mem d) : src.copyMap own ms dropped s = (s, none) := by
  refine foldl_eq_self fun x hx => ?_
  obtain ⟨d, hd⟩ := h x.1 (List.of_mem_zip hx).1
  rw [hd]

theorem moveMarked_mem (he : m.2.1 = .mem e) : s.moveMarked own m = false := by
  unfold State.moveMarked
  rw [he]

theorem mem_copyGranules (hm : m ∈ ms) (hd : m.1 = .mem d) : granule d ∈ copyGranules ms := by
  refine (mem_foldl_insNat id _ _ _).mpr (.inr ?_)
  rw [List.map_id]
  exact List.mem_filterMap.mpr ⟨m, hm, by simp [moveGranule, hd]⟩

/-- A wave after the end of a transfer of it without an error, at a time (R218, R220). -/
def Wave.copyEnded (q : Nat) (c : Copy) (now : Nat) (w : Wave) : Wave :=
  (({ w.setCopy q (if w.cpySleepers.any (fun x => x.2.2 == c.ticket) then some { c with phase := .complete now } else none) with
    rct := max w.rct now } : Wave).fill c.regDst).copyWake

theorem Wave.copyWake_key : w.copyWake.key = w.key := by
  unfold Wave.copyWake
  split <;> rfl

theorem Wave.copyWake_rct : w.copyWake.rct = w.rct := by
  unfold Wave.copyWake
  split <;> rfl

theorem Wave.copyWake_copies : w.copyWake.copies = w.copies := by
  unfold Wave.copyWake
  split <;> rfl

theorem Wave.copyEnded_key (now : Nat) : (w.copyEnded q c now).key = w.key := Wave.copyWake_key

theorem Wave.copyEnded_rct (now : Nat) : (w.copyEnded q c now).rct = max w.rct now := Wave.copyWake_rct

theorem Wave.copyEnded_copies (now : Nat) : (w.copyEnded q c now).copies =
    w.copies.set q (if w.cpySleepers.any (fun x => x.2.2 == c.ticket) then some { c with phase := .complete now } else none) :=
  Wave.copyWake_copies

/-- COPY COMPLETE of a transfer between places in memory: what it leaves of the wave and of memory (R218, R221). -/
theorem execCopyComplete_mem (hq : q < s.cur.copies.length) (hw : s.findWave s.cur.key = some s.cur)
    (hc : s.cur.copies.getD q none = some c) (hp : c.phase = .started ms)
    (hmem : ∀ m ∈ ms, ∃ d e, m.1 = .mem d ∧ m.2.1 = .mem e) (hwr : c.written = [])
    (htorn : ∀ x ∈ s.waves, ∀ k d, x.copies.getD k none = some d → d.torn = [])
    (hover : ∀ m ∈ ms, ∀ n ∈ ms, m.1 ≠ n.2.1) (hn : (ms.map (fun m => m.1)).Nodup) :
    ∃ t : State, execCopyComplete s.cur.key q s = .next t ∧ t.cur.rct = max s.cur.rct t.gtc ∧
      (s.cur.cpySleepers = [] → t.cur.copies.getD q none = none) ∧
      ∀ m ∈ ms, ∀ d e, m.1 = .mem d → m.2.1 = .mem e → Memory.read t.mem d = Memory.read s.mem e := by
  have hl : s.cur.lanes ≠ [] := by
    have h := List.find?_some hw
    simpa using h
  have hstart : s.cur.Copying q ms s.cur := ⟨rfl, rfl, rfl, rfl, c, hc, hp, htorn s.cur List.mem_cons_self q c hc⟩
  obtain ⟨⟨hkey, hlanes, hrct, hlen, -⟩, hread⟩ := foldl_copyGranule (src := s) hover hn hl hq (copyGranules ms) hstart
  have hleft : (copyGranules ms).filter (fun g => !c.written.contains g) = copyGranules ms :=
    List.filter_eq_self.mpr fun g _ => by simp [hwr]
  have hclose : ((copyGranules ms).foldl (fun t g => t.closeGranule s.cur.key q g) s) = s :=
    foldl_eq_self fun g _ => closeGranule_eq_self htorn
  have hmarked : ms.find? (s.moveMarked s.cur.key) = none := List.find?_eq_none.mpr fun m hm => by
    obtain ⟨_, e, _, he⟩ := hmem m hm
    simp [moveMarked_mem he]
  generalize hu : (copyGranules ms).foldl (fun t g => s.copyGranule s.cur.key q g t) s = u at hkey hlanes hrct hlen hread
  have hmap : s.copyMap s.cur.key ms c.dropped u = (u, none) :=
    copyMap_eq_self c.dropped fun m hm => (hmem m hm).imp fun _ h => h.choose_spec.1
  refine ⟨({ u.freeNext with gtc := u.gtc + 1 } : State).withCur (u.cur.copyEnded q c (u.gtc + 1)), ?_, ?_, ?_, ?_⟩
  · unfold execCopyComplete
    rw [hw]
    dsimp only
    rw [hc]
    dsimp only
    rw [hp]
    dsimp only
    rw [hleft, hclose, hu, hmap, hmarked]
    exact congrArg Host.Outcome.next (State.onWave_cur { u.freeNext with gtc := u.gtc + 1 } _ (Wave.copyEnded q c (u.gtc + 1)) hkey
      (ne_of_eq_of_ne hlanes hl) (Wave.copyEnded_key (w := u.cur) _))
  · exact (Wave.copyEnded_rct _).trans (by rw [hrct]; rfl)
  · intro hnone
    have hsleep : u.cur.cpySleepers = s.cur.cpySleepers := by
      unfold Wave.cpySleepers Wave.idx Wave.lane
      rw [hlanes]
    show (u.cur.copyEnded q c _).copies.getD q none = none
    rw [Wave.copyEnded_copies, Wave.getD_set (by rw [hlen]; exact hq), hsleep, hnone]
    rfl
  · intro m hm d e hd he
    exact hread m hm d e hd he (.inl (mem_copyGranules hm hd))

/-- COPY TRANSFER START of a transfer that waits for nothing and whose pages all pass (R218). -/
theorem execCopyTransferStart_ok {mix : Bool} (hw : s.findWave w.key = some w) (hc : w.copies.getD q none = some c)
    (hp : c.phase = .waiting) (hearlier : ∀ x ∈ w.pw.take c.before, x.kind = .drain) (hpast : s.passed w.wct = true)
    (hplan : copyPlan s { w with tm := c.priv, priv := c.priv } c.rows = .ok (ms, mix)) :
    let s1 := s.setWave (w.setCopy q (some { c with phase := .started ms, counted := c.counted || mix }))
    execCopyTransferStart w.key q s = .next (s1.countUp (s1.gridOf w) 0x14 (if mix && !c.counted then 1 else 0)) := by
  have hdrained : (w.pw.take c.before).all (fun x => x.kind == .drain) = true :=
    List.all_eq_true.mpr fun x hx => by simp [hearlier x hx]
  unfold execCopyTransferStart
  rw [hw]
  dsimp only
  rw [hc]
  dsimp only
  rw [if_neg (by simp [hp, hdrained, hpast]), hplan]

/-! ### The sleepers of a ticket (R220) -/

/-- A ticket that no slot holds is complete from the first time after its own and after the last completion. -/
theorem cpywDecide_free {tk : Word64} (hnone : s.cur.copies.getD (tk.toNat % 16) none = none) (waits : Bool) (ls : List Nat) :
    s.cpywDecide waits tk ls =
      if max tk.toNat (pastTime s.cur.rct) ≤ s.gtc then .pass none else .sleep (some (max tk.toNat (pastTime s.cur.rct))) := by
  unfold State.cpywDecide
  dsimp only
  rw [hnone]
  rfl

/-- The one sleeper of a ticket that no slot holds looks again when it is complete, or now. -/
theorem copyDue_one {l : Nat} {tk : Word64} (hspec : s.cur.spec = 0) (hsleep : s.cur.cpySleepers = [(l, false, tk)])
    (hnone : s.cur.copies.getD (tk.toNat % 16) none = none) :
    s.copyDue = [(max s.gtc (max tk.toNat (pastTime s.cur.rct)), false, tk, (s.cur.lane l).vpc)] := by
  unfold State.copyDue
  rw [hspec, hsleep, if_neg (by decide), List.filterMap_cons, cpywDecide_free hnone]
  by_cases h : max tk.toNat (pastTime s.cur.rct) ≤ s.gtc
  · rw [if_pos h, max_eq_left h]
    rfl
  · rw [if_neg h, max_eq_right (not_le.mp h).le]
    rfl

/-- Lanes that retire late run again. -/
theorem lateRetire_run {ls : List Nat} {l : Nat} (hl : s.cur.lanes ≠ []) (hn : ls.Nodup) (hmem : l ∈ ls)
    (hlt : l < s.cur.lanes.length) :
    ((s.lateRetire s.cur.key ls).cur.lane l).st = .run ∧ (s.lateRetire s.cur.key ls).gtc = s.gtc := by
  unfold State.lateRetire
  rw [s.findWave_cur hl]
  dsimp only
  rw [s.setWave_cur]
  case h => exact (s.stepAfterWait_lanes _ _ _).2.trans (Wave.key_wake s s.cur ls)
  refine ⟨?_, rfl⟩
  refine (congrArg Lane.st (Wave.lane_congr (s.stepAfterWait_lanes s.cur (s.cur.both (fun w => s.wake w ls)) ls).1 l)).trans ?_
  show ((s.advance _ ls).lane l).st = .run
  rw [s.advance_st _ _ hn, Wave.lane_modLanes_mem _ _ _ _ hn hmem hlt]

/-- A lane that sleeps in `cpyw` is a lane of the wave. -/
theorem lt_of_mem_cpySleepers {x : Nat × Bool × Word64} (h : x ∈ w.cpySleepers) : x.1 < w.lanes.length := by
  obtain ⟨l, hl, hx⟩ := List.mem_filterMap.mp h
  split at hx
  · cases hx
    exact List.mem_range.mp hl
  · cases hx

/-- COPY PROMISE WAKE of the one sleeper of a ticket that no slot holds: it goes on (R220). -/
theorem execCopyPromiseWake_one {l : Nat} {tk : Word64} (hw : s.findWave s.cur.key = some s.cur)
    (hsleep : s.cur.cpySleepers = [(l, false, tk)]) (hspec : s.cur.spec = 0)
    (hnone : s.cur.copies.getD (tk.toNat % 16) none = none) :
    execCopyPromiseWake s.cur.key s = .next (State.lateRetire
      { s with gtc := max s.gtc (max tk.toNat (pastTime s.cur.rct)) } s.cur.key [l]) := by
  have hdue := copyDue_one hspec hsleep hnone
  generalize hU : max s.gtc (max tk.toNat (pastTime s.cur.rct)) = U at hdue
  have hgtc : max s.gtc U = U := by omega
  have hdue' : State.copyDue { s with gtc := U } = [(U, false, tk, (s.cur.lane l).vpc)] := by
    rw [copyDue_one (s := { s with gtc := U }) hspec hsleep hnone]
    have : max U (max tk.toNat (pastTime s.cur.rct)) = U := by omega
    rw [this]
  have hlanes : State.cpywLanes { s with gtc := U } false tk (s.cur.lane l).vpc = [l] := by
    unfold State.cpywLanes
    rw [hsleep]
    simp
  have hpass : State.cpywDecide { s with gtc := U } false tk [l] = .pass none := by
    rw [cpywDecide_free (s := { s with gtc := U }) hnone, if_pos (show max tk.toNat (pastTime s.cur.rct) ≤ U by omega)]
  unfold execCopyPromiseWake State.withWave
  dsimp only
  rw [hw, if_neg (by simp), if_pos rfl, hdue]
  show Host.Outcome.next (match (State.copyDue { s with gtc := max s.gtc U }).find? (fun x => x.1 ≤ U) with
    | some (_, x) => State.cpywLook { s with gtc := max s.gtc U } x.1 x.2.1 x.2.2
    | none => { s with gtc := max s.gtc U }) = _
  rw [hgtc, hdue', List.find?_cons_of_pos (by simp)]
  dsimp only
  unfold State.cpywLook
  rw [hlanes]
  dsimp only
  rw [hpass]
  rfl

end

/-- Settles O35: the start by its branch, the completion by the invariant of a transfer over its granules, and the wake by the decision
for a ticket that no slot holds. -/
theorem copyEngineResults : Obligations.CopyEngineResults := by
  unfold Obligations.CopyEngineResults
  refine ⟨fun s w q c ms mix hw hc hp hearlier hpast hplan => execCopyTransferStart_ok hw hc hp hearlier hpast hplan,
    fun s q c ms hq hw hc hp hmem hwr htorn hover hn => execCopyComplete_mem hq hw hc hp hmem hwr htorn hover hn,
    fun s l tk hw hsleep hspec hnone => ⟨_, execCopyPromiseWake_one hw hsleep hspec hnone, ?_⟩⟩
  have hl : s.cur.lanes ≠ [] := by simpa using List.find?_some hw
  have hlt : l < s.cur.lanes.length := lt_of_mem_cpySleepers (x := (l, false, tk)) (by rw [hsleep]; exact List.mem_singleton.mpr rfl)
  obtain ⟨hrun, hgtc⟩ := lateRetire_run (s := { s with gtc := max s.gtc (max tk.toNat (pastTime s.cur.rct)) }) hl
    (List.nodup_singleton l) (List.mem_singleton.mpr rfl) hlt
  refine ⟨hrun, ?_, decide_eq_true ?_⟩
  · rw [hgtc]
    exact (le_max_left _ _).trans (le_max_right _ _)
  · rw [hgtc]
    exact (Nat.lt_succ_self _).trans_le ((le_max_right tk.toNat (pastTime s.cur.rct)).trans (le_max_right _ _))

end Sys2Proof.Machine

namespace Sys2Proof.Machine

/-! ### Translation caches (R205 to R207) -/

section
variable {s : State} {core asid va : Nat} {a w0 w1 : Word64}

/-- The entry that a fill writes. -/
def tlbEntryOf (a w0 w1 : Word64) : TlbEntry :=
  { asid := tlbwAsid a.toNat, size := tlbwSize a.toNat, va := tlbwVa a.toNat, w0 := w0, w1 := w1 }

/-- The miss is of the page that a fill names. -/
def Miss.named (a : Word64) (m : Miss) : Bool :=
  m.asid == tlbwAsid a.toNat && m.va / 2 ^ pageBits (tlbwSize a.toNat) == tlbwVa a.toNat / 2 ^ pageBits (tlbwSize a.toNat)

theorem coreAt_wakeTlb (k : Nat) : (s.wakeTlb core).coreAt k = s.coreAt k := rfl

/-- A valid fill stands before the entries that it leaves. -/
theorem tlb_tlbFill (hv : leafValid (tlbwSize a.toNat) w0 w1 = true) :
    ∃ kept, ((s.tlbFill core a w0 w1).coreAt core).tlb = tlbEntryOf a w0 w1 :: kept := by
  unfold State.tlbFill
  dsimp only
  rw [if_pos hv, coreAt_wakeTlb, State.coreAt_setCore, if_pos rfl]
  exact ⟨_, rfl⟩

/-- A fill that breaks R203 leaves the entries, and the misses of its page fail. -/
theorem tlbFill_invalid (hv : leafValid (tlbwSize a.toNat) w0 w1 = false) :
    ((s.tlbFill core a w0 w1).coreAt core).tlb = (s.coreAt core).tlb ∧
    ((s.tlbFill core a w0 w1).coreAt core).misses =
      (s.coreAt core).misses.map (fun m => if m.named a then { m with failed := some (w0.toNat % 2 == 1) } else m) := by
  unfold State.tlbFill
  dsimp only
  rw [if_neg (by simp [hv]), coreAt_wakeTlb, State.coreAt_setCore, if_pos rfl]
  exact ⟨rfl, rfl⟩

/-- After a valid fill its page is translated by its entry (R206). -/
theorem translate_tlbFill (hv : leafValid (tlbwSize a.toNat) w0 w1 = true)
    (hva : va / 2 ^ pageBits (tlbwSize a.toNat) = tlbwVa a.toNat / 2 ^ pageBits (tlbwSize a.toNat)) :
    (s.tlbFill core a w0 w1).translate core (tlbwAsid a.toNat) va = .hit (tlbwSize a.toNat) w0 w1 := by
  obtain ⟨kept, hkept⟩ := tlb_tlbFill (s := s) (core := core) hv
  have hcovers : (tlbEntryOf a w0 w1).covers (tlbwAsid a.toNat) va = true := by
    simp [TlbEntry.covers, tlbEntryOf, hva]
  unfold State.translate
  dsimp only
  rw [hkept, List.find?_cons_of_pos (p := fun e : TlbEntry => e.covers (tlbwAsid a.toNat) va) hcovers]
  rfl

/-- A page whose walk has failed faults, where no entry covers it (R205). -/
theorem translate_failed {b : Bool} (htlb : (s.coreAt core).tlb.find? (fun e => e.covers asid va) = none)
    (hall : ∀ m ∈ (s.coreAt core).misses, m.asid = asid → m.va / 2 ^ 16 = va / 2 ^ 16 → m.failed = some b)
    (hsome : ∃ m ∈ (s.coreAt core).misses, m.asid = asid ∧ m.va / 2 ^ 16 = va / 2 ^ 16) :
    s.translate core asid va = .fault b := by
  obtain ⟨m, hm, hasid, hpage⟩ := hsome
  unfold State.translate
  dsimp only
  rw [htlb]
  dsimp only
  cases hf : (s.coreAt core).misses.find? (fun m => m.asid == asid && m.va / 2 ^ 16 == va / 2 ^ 16 && m.failed.isSome) with
  | none =>
    refine absurd (List.find?_eq_none.mp hf m hm) ?_
    rw [hasid, hpage, hall m hm hasid hpage]
    simp
  | some x =>
    have hx := List.find?_some hf
    simp only [Bool.and_eq_true, beq_iff_eq] at hx
    obtain ⟨⟨hxa, hxp⟩, -⟩ := hx
    dsimp only
    rw [hall x (List.mem_of_find?_eq_some hf) hxa hxp]
    rfl

/-! ### The first operand of a fill (R206) -/

/-- The operand that names the page of an address. -/
def fillOperand (asid va size : Nat) : Word64 :=
  BitVec.ofNat 64 (va / 2 ^ pageBits size * 2 ^ pageBits size + asid * 16 + size)

theorem pageBits_ge (size : Nat) : 16 ≤ pageBits size := by
  unfold pageBits
  split <;> decide

/-- The start of a page of an address, in units of 64 KiB. -/
theorem page_start (va size : Nat) : ∃ k, va / 2 ^ pageBits size * 2 ^ pageBits size = k * 2 ^ 16 := by
  obtain ⟨d, hd⟩ := Nat.exists_eq_add_of_le (pageBits_ge size)
  exact ⟨va / 2 ^ pageBits size * 2 ^ d, by rw [hd, pow_add]; ring⟩

theorem fillOperand_toNat (hasid : asid < 2 ^ 12) (hva : va < 2 ^ 57) {size : Nat} (hsize : size < 3) :
    (fillOperand asid va size).toNat = va / 2 ^ pageBits size * 2 ^ pageBits size + asid * 16 + size := by
  have hle := Nat.div_mul_le_self va (2 ^ pageBits size)
  unfold fillOperand
  rw [BitVec.toNat_ofNat, Nat.mod_eq_of_lt (by omega)]

theorem tlbwSize_fillOperand (hasid : asid < 2 ^ 12) (hva : va < 2 ^ 57) {size : Nat} (hsize : size < 3) :
    tlbwSize (fillOperand asid va size).toNat = size := by
  obtain ⟨k, hk⟩ := page_start va size
  rw [fillOperand_toNat hasid hva hsize, hk]
  unfold tlbwSize nbits
  omega

theorem tlbwAsid_fillOperand (hasid : asid < 2 ^ 12) (hva : va < 2 ^ 57) {size : Nat} (hsize : size < 3) :
    tlbwAsid (fillOperand asid va size).toNat = asid := by
  obtain ⟨k, hk⟩ := page_start va size
  rw [fillOperand_toNat hasid hva hsize, hk]
  unfold tlbwAsid nbits
  omega

theorem tlbwVa_fillOperand (hasid : asid < 2 ^ 12) (hva : va < 2 ^ 57) {size : Nat} (hsize : size < 3) :
    tlbwVa (fillOperand asid va size).toNat = va / 2 ^ pageBits size * 2 ^ pageBits size := by
  have hle := Nat.div_mul_le_self va (2 ^ pageBits size)
  obtain ⟨k, hk⟩ := page_start va size
  rw [fillOperand_toNat hasid hva hsize]
  rw [hk] at hle ⊢
  unfold tlbwVa
  omega

/-- The operand names the page of the address. -/
theorem page_fillOperand (hasid : asid < 2 ^ 12) (hva : va < 2 ^ 57) {size : Nat} (hsize : size < 3) :
    tlbwVa (fillOperand asid va size).toNat / 2 ^ pageBits size = va / 2 ^ pageBits size := by
  rw [tlbwVa_fillOperand hasid hva hsize, Nat.mul_div_cancel _ (by positivity)]

/-! ### The walker (R205) -/

/-- The walker finds a leaf that keeps the rules: the page is translated from then on. -/
theorem tlbMissWalk_leaf {m : Miss} {size : Nat} (hwalks : s.hostWalks = false) (hasid : m.asid < 2 ^ 12) (hva : m.va < 2 ^ 57)
    (hm : (s.coreAt core).misses.find? (fun x => x.failed.isNone && !x.host) = some m)
    (hleaf : s.walk m.root m.va = .leaf size w0 w1) (hsize : size < 3) (hv : leafValid size w0 w1 = true) :
    ∃ t, execTlbMissWalk core s = .next t ∧ t.translate core m.asid m.va = .hit size w0 w1 := by
  refine ⟨s.tlbFill core (fillOperand m.asid m.va size) w0 w1, ?_, ?_⟩
  · unfold execTlbMissWalk
    dsimp only
    rw [hm]
    dsimp only
    rw [hwalks, hleaf]
    rfl
  · have h := translate_tlbFill (s := s) (core := core) (a := fillOperand m.asid m.va size) (w0 := w0) (w1 := w1) (va := m.va)
    rw [tlbwSize_fillOperand hasid hva hsize, tlbwAsid_fillOperand hasid hva hsize, page_fillOperand hasid hva hsize] at h
    exact h hv rfl

/-- The walker finds no entry: the page faults from then on. -/
theorem tlbMissWalk_absent {m : Miss} (hwalks : s.hostWalks = false) (hasid : m.asid < 2 ^ 12) (hva : m.va < 2 ^ 57)
    (hm : (s.coreAt core).misses.find? (fun x => x.failed.isNone && !x.host) = some m)
    (habsent : s.walk m.root m.va = .absent) (htlb : (s.coreAt core).tlb.find? (fun e => e.covers m.asid m.va) = none) :
    ∃ t, execTlbMissWalk core s = .next t ∧ t.translate core m.asid m.va = .fault false := by
  have hsize := tlbwSize_fillOperand (size := 0) hasid hva (by decide)
  have hnamed : ∀ x : Miss, x.named (fillOperand m.asid m.va 0) = true ↔ x.asid = m.asid ∧ x.va / 2 ^ 16 = m.va / 2 ^ 16 := by
    intro x
    have hpage := page_fillOperand (size := 0) hasid hva (by decide)
    unfold Miss.named
    rw [hsize, tlbwAsid_fillOperand hasid hva (by decide), hpage, Bool.and_eq_true, beq_iff_eq, beq_iff_eq]
    rfl
  obtain ⟨htlb', hmiss⟩ := tlbFill_invalid (s := s) (core := core) (a := fillOperand m.asid m.va 0) (w0 := 0) (w1 := 0)
    (by rw [hsize]; decide)
  refine ⟨s.tlbFill core (fillOperand m.asid m.va 0) 0 0, ?_, translate_failed (by rw [htlb']; exact htlb) ?_ ?_⟩
  · unfold execTlbMissWalk
    dsimp only
    rw [hm]
    dsimp only
    rw [hwalks, habsent]
    rfl
  · rw [hmiss]
    intro x hx hxa hxp
    obtain ⟨y, -, rfl⟩ := List.mem_map.mp hx
    by_cases hy : y.named (fillOperand m.asid m.va 0) = true
    · rw [if_pos hy]
      rfl
    · rw [if_neg hy] at hxa hxp
      exact absurd ((hnamed y).mpr ⟨hxa, hxp⟩) hy
  · rw [hmiss]
    refine ⟨_, List.mem_map_of_mem (List.mem_of_find?_eq_some hm), ?_⟩
    rw [if_pos ((hnamed m).mpr ⟨rfl, rfl⟩)]
    exact ⟨rfl, rfl⟩

/-! ### Invalidation (R207) -/

/-- The entries that go are those that are named, in every core. -/
theorem tlb_tlbDrop (gone : TlbEntry → Bool) :
    ((s.tlbDrop gone).coreAt core).tlb = (s.coreAt core).tlb.filter (fun e => !gone e) := by
  unfold State.tlbDrop State.coreAt mgetD
  dsimp only
  induction s.cores with
  | nil => rfl
  | cons c r ih =>
    obtain ⟨k, c⟩ := c
    rw [List.map_cons]
    unfold mget
    split
    · rfl
    · exact ih

/-- The accesses do not depend on the entries. -/
theorem accessesDone_tlbDrop (gone : TlbEntry → Bool) : (s.tlbDrop gone).accessesDone = s.accessesDone := by
  unfold State.accessesDone State.tlbDrop
  dsimp only
  rw [List.all_map]
  rfl

/-- An invalidation completes where every access is over. -/
theorem tlbi_completes {i : Instr} {legal : Bool} {gone : TlbEntry → Bool} (hr : Ready i s) (hwide : s.taskWide i = s)
    {body : List Nat → List Nat → State → Res} (he : exec i s = issue i s body)
    (hbody : ∀ iss act, body iss act s = tlbiBody legal gone iss act s) (hpriv : s.cur.privileged = true) (hlegal : legal = true)
    (hdone : s.accessesDone = true) :
    ∃ u, Completes i s u ∧ u.mem = s.mem ∧ u.cur = s.cur ∧
      ∀ core, (u.coreAt core).tlb = (s.coreAt core).tlb.filter (fun e => !gone e) := by
  refine ⟨s.tlbDrop gone, completes_of_done i s _ _ hr he ?_, rfl, rfl, fun core => tlb_tlbDrop gone⟩
  rw [hwide, hbody]
  unfold tlbiBody
  rw [if_neg (by simp [hpriv]), if_neg (by simp [hlegal])]
  dsimp only
  rw [if_pos ((accessesDone_tlbDrop gone).trans hdone)]

end

/-- Settles O41: a fill's entry stands first in its core's TLB, so its page is translated by it; a failed walk marks the misses of the
page. -/
theorem translationResults : Obligations.TranslationResults := by
  unfold Obligations.TranslationResults
  refine ⟨?_, ?_, ?_, ?_⟩
  · intro f s hr hpriv a w0 w1 u hlegal
    refine ⟨completes_of_done _ s u (bodyTlbw f) hr rfl ?_, fun hv va hva => translate_tlbFill hv hva⟩
    show bodyTlbw f _ _ s = _
    unfold bodyTlbw
    rw [if_neg (by simp [hpriv]), if_neg (by simp [show tlbwLegal (s.cur.getS f.sa.toNat).toNat = true from hlegal])]
  · intro f s hpriv hdone a drops
    refine ⟨fun ha => ?_, fun hr => tlbi_completes hr rfl rfl (fun _ _ => rfl) hpriv rfl hdone⟩
    have hlegal : ((s.cur.getS f.sa.toNat).toNat % 16 == 0) = true := beq_iff_eq.mpr ha
    exact ⟨fun hr => tlbi_completes (body := bodyTlbiVa f) hr rfl rfl (fun _ _ => rfl) hpriv hlegal hdone,
      fun hr => tlbi_completes (body := bodyTlbiAsid f) hr rfl rfl (fun _ _ => rfl) hpriv hlegal hdone⟩
  · intro s core m hwalks hasid hva hm
    exact ⟨fun size w0 w1 hleaf hsize hv => tlbMissWalk_leaf hwalks hasid hva hm hleaf hsize hv,
      fun habsent htlb => tlbMissWalk_absent hwalks hasid hva hm habsent htlb⟩
  · intro s core a w0 w1 hlink hrec hlegal hv
    exact ⟨_, congrArg Host.Outcome.next (if_pos (by simp [hlink, hrec, hlegal])), translate_tlbFill hv rfl⟩

end Sys2Proof.Machine

namespace Sys2Proof.Machine

/-! ### The gate, whatever the wave speculates (R18, R28, R32, R69) -/

section
variable {i : Instr} {s : State}

theorem gate_illegal (hiss : s.cur.issuingSet ≠ []) (h : legalHere s i = false) : gate i s = .trap 1 0 s.cur.issuingSet := by
  unfold gate
  dsimp only
  rw [if_neg (by simpa using hiss), if_pos (by simp [h])]

theorem gate_passes (hiss : s.cur.issuingSet ≠ []) (hlegal : legalHere s i = true) (hall : Allotted i s) (hfull : AllFull i s)
    (hwin : InWindow i s) (hreg : s.cur.regErr = []) (htile : readsBadTile s i (active i s) = false) :
    gate i s = .go s.cur.issuingSet (active i s) := by
  have hempty : emptyTrap s.cur (Instr.operands s i) = none :=
    List.findSome?_eq_none_iff.mpr fun o ho => by simp [emptyReg_none i s hfull o ho]
  have hwait : mustWait s.cur (Instr.operands s i) = false :=
    List.any_eq_false.mpr fun o ho => by simp [emptyReg_none i s hfull o ho]
  have hbank : (Instr.usesBank i && !dstsInWindow s.cur (Instr.operands s i)) = false := by
    cases hb : Instr.usesBank i with
    | false => rfl
    | true =>
      have hin : dstsInWindow s.cur (Instr.operands s i) = true := List.all_eq_true.mpr fun o ho => by
        by_cases hd : o.dst = true ∧ o.kind = 0
        · simpa [hd.1, hd.2] using hwin hb o ho hd.1 hd.2
        · simp only [Bool.or_eq_true, Bool.not_eq_true', Bool.and_eq_false_iff, beq_eq_false_iff_ne]
          exact .inl ((not_and_or.mp hd).imp (Bool.eq_false_iff.mpr) id)
      rw [hin]
      rfl
  have herr : (active i s).filter (readsError s.cur i (Instr.operands s i) (active i s)) = [] :=
    List.filter_eq_nil_iff.mpr fun l _ => by simp [readsError, hreg]
  unfold gate
  dsimp only
  rw [if_neg (by simpa using hiss), if_neg (by simp [hlegal]), overAllotment_none i s hall]
  dsimp only
  rw [hempty]
  dsimp only
  rw [if_neg (by simp [hbank]), if_neg (by simp [hwait])]
  show (match (if readsBadTile s i (active i s) then active i s
      else (active i s).filter (readsError s.cur i (Instr.operands s i) (active i s))) with
    | [] => Gate.go s.cur.issuingSet (active i s) | ls => Gate.regError ls) = _
  rw [htile, if_neg Bool.false_ne_true, herr]

/-! ### The run-ahead (R209, R210) -/

/-- An illegal instruction stops its lanes (R210). -/
theorem exec_ahead_illegal (hi : i.isEvent = false) (hspec : s.cur.spec = 1) (hiss : s.cur.issuingSet ≠ [])
    (h : legalHere s i = false) : exec i s = .next (s.stopLanes s.cur.issuingSet).checkAhead := by
  obtain ⟨body, hb⟩ := exec_issue i hi
  rw [hb, issue, issueState, gate_illegal hiss h]
  dsimp only
  rw [settle, hspec]
  rfl

/-- An instruction that is not of the first row of R210 ends the run-ahead. -/
theorem exec_ahead_ends (hi : i.isEvent = false) (hspec : s.cur.spec = 1)
    (hgate : gate i s = .go s.cur.issuingSet (active i s)) (hrow : rowOne i = false) : exec i s = .next s.endAhead := by
  have hnot : performs 1 i = false := hrow
  obtain ⟨body, hb⟩ := exec_issue i hi
  rw [hb, issue, issueState, hgate]
  dsimp only
  rw [hspec, hnot]
  rfl

/-- The run-ahead must end after an instruction (R210). -/
def Batch.mustEnd (b : Batch) (s : State) : Prop := b.base + 32 ≤ b.pages.length ∨ 2048 ≤ b.issued ∨ s.cur.ready = []

theorem checkAhead_ends {b : Batch} (hb : s.cur.batch = some b) (h : b.mustEnd s) : s.checkAhead = s.endAhead := by
  unfold State.checkAhead
  rw [hb]
  refine if_pos ?_
  simp only [Bool.or_eq_true, decide_eq_true_eq, List.isEmpty_iff, or_assoc]
  exact h

theorem checkAhead_goes_on {b : Batch} (hb : s.cur.batch = some b) (h : ¬ b.mustEnd s) : s.checkAhead = s := by
  unfold State.checkAhead
  rw [hb]
  refine if_neg ?_
  simp only [Bool.or_eq_true, decide_eq_true_eq, List.isEmpty_iff, or_assoc]
  exact h

/-- The batch as it goes to the fault service. -/
def Batch.ended (b : Batch) : Batch := { b with pages := b.pages.take (b.base + 32), running := false }

/-- THE END OF THE RUN-AHEAD, from the checkpoint that it holds. -/
theorem endAhead_eq {a : Arch} (hck : s.cur.ck = some a) : s.endAhead =
    { s with cur := { s.cur.rollback with batch := s.cur.batch.map Batch.ended, why := .pageFault },
             outbox := if tbit s.regs.fmode 1 then s.outbox ++ [.hostFault s.cur.key] else s.outbox } := by
  unfold State.endAhead Wave.rollback
  rw [hck]
  rfl

end

/-! ### The answers of the fault service (R209, R218, R275, R310) -/

section
variable {s : State} {w : Wave}

theorem withWave_cur (hw : s.findWave s.cur.key = some w) (f : State → State) : s.withWave s.cur.key f = f s := by
  unfold State.withWave
  dsimp only
  rw [hw]
  exact if_pos rfl

/-- PAGE FAULT BATCH RESOLVED, of a batch whose run-ahead is over. -/
theorem execPageFaultBatchResolved_eq {b : Batch} (ok : Bool) (hw : s.findWave s.cur.key = some s.cur) (hb : s.cur.batch = some b)
    (hrun : b.running = false) :
    let u := (s.clearFailed s.cur.core (s.gridOf s.cur).ctx.asid (b.pages.map Prod.fst)).withCur
      { s.cur with batch := none, why := .none }
    execPageFaultBatchResolved s.cur.key ok s = .next (if ok then u else u.batchTrap b) := by
  unfold execPageFaultBatchResolved
  rw [withWave_cur hw, hb]
  dsimp only
  rw [hrun]
  rfl

theorem execPageFaultResolved_copy {q va : Nat} {m : Bool} {c : Copy} (ok : Bool) (hw : s.findWave w.key = some w)
    (hc : w.copies.getD q none = some c) (hp : c.phase = .faulted va m) :
    execPageFaultResolved (.copy w.key q) ok s = .next (if ok then s.setWave (w.setCopy q (some { c with phase := .waiting }))
      else s.setWave ((w.setCopy q (some { c with phase := .failed 6 va (if m then 1 else 0) })).fill c.regDst).copyWake) := by
  unfold execPageFaultResolved
  dsimp only
  rw [hw]
  dsimp only
  rw [hc]
  dsimp only
  rw [hp]

theorem execPageFaultResolved_record {t : TrapInfo} (ok : Bool) (hw : s.findWave s.cur.key = some s.cur)
    (ht : s.cur.trapPend = some t) (hwhy : s.cur.why = .trapRecord) :
    let g := s.gridOf s.cur
    let u := (s.clearFailed s.cur.core g.ctx.asid [recordAddr g s.cur, g.ctx.trapSeg]).withCur
      { s.cur with why := .none, trapPend := none }
    execPageFaultResolved (.record s.cur.key) ok s = .next (if ok then u.takeTrap t else u.declined t) := by
  unfold execPageFaultResolved
  dsimp only
  rw [withWave_cur hw, ht]
  dsimp only
  rw [hwhy]
  rfl

/-- A trap whose record's page is declined is escalated (R275). -/
theorem escalated_declined (t : TrapInfo) : (s.declined t).cur.escalated = true := by
  unfold State.declined
  split <;> rfl

end

/-! ### A request that waits for the fault service fails (R310) -/

section
variable {s : State} {r q : FabReq}

theorem FabReq.meets_symm (h : FabReq.meets q r = true) : FabReq.meets r q = true := by
  unfold FabReq.meets at h ⊢
  simp only [Bool.and_eq_true, beq_iff_eq, List.any_eq_true, List.contains_iff_mem] at h ⊢
  obtain ⟨⟨hsrc, hfrom⟩, a, ha, ha'⟩ := h
  exact ⟨⟨hsrc.symm, hfrom.symm⟩, a, ha', ha⟩

/-- A request that shares bytes with no other that waits comes behind none. -/
theorem waitFirst_self {k : Nat} (hk : s.fabWaiting[k]? = some r) (hn : s.fabWaiting.Nodup)
    (hmeet : ∀ x ∈ s.fabWaiting, FabReq.meets r x = true → x = r) : s.waitFirst k r = r := by
  have hne : ∀ q ∈ s.fabWaiting.take k, FabReq.meets q r = false := by
    intro q hq
    rw [Bool.eq_false_iff]
    intro h
    obtain rfl := hmeet q (List.mem_of_mem_take hq) (FabReq.meets_symm h)
    obtain ⟨j, hj, hjq⟩ := List.mem_take_iff_getElem.mp hq
    obtain ⟨hlt, hkq⟩ := List.getElem?_eq_some_iff.mp hk
    exact absurd ((List.Nodup.getElem_inj_iff hn).mp (hjq.trans hkq.symm)) (by omega)
  have hfold : ∀ l : List FabReq, (∀ q ∈ l, FabReq.meets q r = false) →
      l.foldr (fun q (l : List FabReq) => if l.any (FabReq.meets q) then q :: l else l) [r] = [r] := by
    intro l hl
    induction l with
    | nil => rfl
    | cons q l ih =>
      rw [List.foldr_cons, ih fun x hx => hl x (List.mem_cons_of_mem q hx)]
      exact if_neg (by simp [hl q List.mem_cons_self])
  unfold State.waitFirst
  rw [hfold _ hne]
  rfl

/-- Answers to count queries leave memory and the requests that wait, and what is to be sent already. -/
theorem answerQueries_keeps : s.answerQueries.mem = s.mem ∧ s.answerQueries.fabWaiting = s.fabWaiting ∧
    ∀ o ∈ s.outbox, o ∈ s.answerQueries.outbox := by
  unfold State.answerQueries
  generalize s.fabQueries = qs
  induction qs generalizing s with
  | nil => exact ⟨rfl, rfl, fun _ h => h⟩
  | cons q qs ih =>
    rw [List.foldl_cons]
    dsimp only
    split
    · exact ih
    · obtain ⟨hmem, hwait, hout⟩ := ih (s := { (s.putFabCount _) with fabQueries := _, outbox := _ })
      exact ⟨hmem, hwait, fun o ho => hout o (List.mem_append_left _ ho)⟩

/-- Where no request shares bytes with one that has left, none is served behind it. -/
theorem fabBehind_self (h : ∀ x ∈ s.fabWaiting, FabReq.meets r x = false) : s.fabBehind r = s := by
  have hfold : ∀ l : List FabReq, (∀ x ∈ l, FabReq.meets r x = false) → l.foldl (fun s q =>
      if !FabReq.meets r q || ((s.fabWaiting.takeWhile (· != q)).any (FabReq.meets q)) then s
      else
        match s.fabServe q with
        | .answer t res => { t with fabWaiting := t.fabWaiting.erase q }.fabAnswer q res
        | .fault .. => s) s = s := by
    intro l hl
    induction l with
    | nil => rfl
    | cons q l ih =>
      rw [List.foldl_cons, if_pos (by simp [hl q List.mem_cons_self])]
      exact ih fun x hx => hl x (List.mem_cons_of_mem q hx)
  exact hfold _ h

/-- PAGE FAULT RESOLVED, against a request at this target: it is answered with the error (R310). -/
theorem execPageFaultResolved_fabric {k : Nat} (hk : s.fabWaiting[k]? = some r) (hn : s.fabWaiting.Nodup)
    (hmeet : ∀ x ∈ s.fabWaiting, FabReq.meets r x = true → x = r) :
    ∃ t n, execPageFaultResolved (.fabric k) false s = .next t ∧ Out.fabResp r.src r.core r.tag r.inc (.error 6 n) ∈ t.outbox ∧
      t.mem = s.mem := by
  obtain ⟨hmem, hwait, hout⟩ := answerQueries_keeps (s := { s with
    fabWaiting := s.fabWaiting.erase r,
    outbox := s.outbox ++ [Out.fabResp r.src r.core r.tag r.inc (.error 6 (s.fabMalformed r))] })
  refine ⟨_, s.fabMalformed r, ?_, hout _ (List.mem_append_right _ (List.mem_singleton.mpr rfl)), hmem⟩
  unfold execPageFaultResolved
  dsimp only
  rw [hk]
  dsimp only
  rw [waitFirst_self hk hn hmeet]
  unfold State.fabResolve
  rw [if_neg Bool.false_ne_true]
  refine congrArg Host.Outcome.next (fabBehind_self fun x hx => ?_)
  have hx' : x ∈ s.fabWaiting.erase r := (congrArg (x ∈ ·) hwait).mp hx
  rw [Bool.eq_false_iff]
  intro h
  obtain rfl := hmeet x (List.mem_of_mem_erase hx') h
  exact (List.Nodup.not_mem_erase hn) hx'

end

/-! ### Uncorrectable errors and the host's accesses (R211, R223) -/

section
variable {s : State}

theorem isPoisoned_poisonAt (a : Nat) : (s.poisonAt a).isPoisoned a = true :=
  List.contains_iff_mem.mpr (mem_insNat.mpr (.inl rfl))

theorem mem_poisonAt (a : Nat) : (s.poisonAt a).mem = s.mem := rfl

theorem bad_tileError {core k e : Nat} (hk : k < Config.tilesPerCore) (he : e < 4096) :
    ∃ t : State, execUncorrectableError (.tile core k e) s = .next t ∧ e ∈ (t.tileAt core k).bad := by
  refine ⟨s.putTile core k { s.tileAt core k with bad := insNat (s.tileAt core k).bad e }, ?_, ?_⟩
  · exact congrArg Host.Outcome.next (if_pos (by simp [hk, he]))
  · rw [State.tileAt_putTile]
    exact mem_insNat.mpr (.inl rfl)

/-- The host writes bytes (R223). -/
theorem hostMemoryAccess_write {addr len : Nat} {bs : List Byte} (hlink : s.hostLink = true) (hrec : s.inRecovery = false)
    (hmap : mapKind addr ≠ 8) (hphys : ∀ k < bs.length, physValid (addr + k) = true) :
    execHostMemoryAccess addr len (some bs) s = .next (s.agentWrite addr bs) := by
  have hall : (List.range bs.length).all (fun k => physValid (addr + k)) = true :=
    List.all_eq_true.mpr fun k hk => hphys k (List.mem_range.mp hk)
  unfold execHostMemoryAccess
  dsimp only
  rw [if_neg (by simp [hlink, hrec]), if_neg (by simpa using hmap), if_neg (by simp [hall])]

/-- The host reads bytes, or meets a reserved range (R223, log entry 113). -/
theorem hostMemoryAccess_read {addr len : Nat} (hlink : s.hostLink = true) (hrec : s.inRecovery = false) (hmap : mapKind addr ≠ 8) :
    execHostMemoryAccess addr len none s = if (List.range len).all (fun k => physValid (addr + k)) then
      .next { s with outbox := s.outbox ++ [.hostData (s.readN addr len)] } else .fault .reservedPhysical := by
  unfold execHostMemoryAccess
  dsimp only
  rw [if_neg (by simp [hlink, hrec]), if_neg (by simpa using hmap)]
  cases (List.range len).all (fun k => physValid (addr + k)) <;> rfl

end

/-! ### The page fault of a load (R99, R209) -/

section
variable {f : FmtM} {s : State} {act iss ls : List Nat} {pages : List (Nat × Bool)} {lc : List (Nat × Nat)}

/-- The lanes that meet a page fault. -/
def faultLanes (rs : List (Nat × LaneAcc)) : List Nat :=
  (rs.filter (fun r => match r.2 with | .fault .. => true | _ => false)).map Prod.fst

/-- What fails at the third check of an access misses its translation or faults, at the address of the access. -/
def LaneAcc.ThirdAt (ea : Nat) (x : LaneAcc) : Prop := x.order = 3 → x = .miss ea ∨ ∃ m, x = .fault ea m

theorem LaneAcc.ThirdAt.ite {ea : Nat} {c : Prop} [Decidable c] {x y : LaneAcc} (hx : x.ThirdAt ea) (hy : y.ThirdAt ea) :
    (if c then x else y).ThirdAt ea := by
  split <;> assumption

theorem LaneAcc.thirdAt_trap {ea o c i : Nat} (h : o ≠ 3) : (LaneAcc.trap o c i).ThirdAt ea := fun e => absurd e h

theorem LaneAcc.thirdAt_ok {ea : Nat} {a : Access} : (LaneAcc.ok a).ThirdAt ea := fun e => absurd e (by decide : (100 : Nat) ≠ 3)

theorem poisonCheck_thirdAt (w : Wave) (need : AccNeed) (atomic : Bool) (a : Access) (ea : Nat) :
    (poisonCheck s w need atomic a).ThirdAt ea :=
  .ite (.ite LaneAcc.thirdAt_ok (LaneAcc.thirdAt_trap (by decide))) LaneAcc.thirdAt_ok

theorem walkerAccess_thirdAt (need : AccNeed) (ea n : Nat) : (walkerAccess s need ea n).ThirdAt ea :=
  .ite (LaneAcc.thirdAt_trap (by decide)) (.ite (LaneAcc.thirdAt_trap (by decide)) (poisonCheck_thirdAt _ _ _ _ _))

theorem checkAccess_thirdAt (w : Wave) (now : Bool) (need : AccNeed) (space tid ea n : Nat) :
    (checkAccess s w now need space tid ea n).ThirdAt ea := by
  unfold checkAccess
  refine .ite (LaneAcc.thirdAt_trap (by decide)) ?_
  split
  · exact LaneAcc.thirdAt_trap (by decide)
  · exact .ite (LaneAcc.thirdAt_trap (by decide)) (poisonCheck_thirdAt _ _ _ _ _)
  · exact .ite (LaneAcc.thirdAt_trap (by decide)) (poisonCheck_thirdAt _ _ _ _ _)
  · refine .ite (LaneAcc.thirdAt_trap (by decide)) ?_
    dsimp only
    split
    · exact fun _ => .inl rfl
    · exact fun _ => .inr ⟨_, rfl⟩
    · exact .ite (LaneAcc.thirdAt_trap (by decide)) (.ite (LaneAcc.thirdAt_trap (by decide))
        (.ite (LaneAcc.thirdAt_trap (by decide)) (poisonCheck_thirdAt _ _ _ _ _)))

theorem loadOutcome_thirdAt (space n l ea : Nat) : (s.loadOutcome space n l ea).ThirdAt ea :=
  .ite (walkerAccess_thirdAt _ _ _) (checkAccess_thirdAt _ _ _ _ _ _ _)

/-- Where page faults are what several accesses meet first, some access faults. -/
theorem exists_third_of_verdict_fault {rs : List (Nat × LaneAcc)} (h : verdict rs = .fault pages lc) :
    missesOf rs = [] ∧ ∃ r ∈ rs, r.2.order = 3 := by
  unfold verdict at h
  split at h
  · cases h
  next hmiss =>
    split at h
    · cases h
    next o hleast =>
      split at h
      · cases h
      · split at h
        next h3 =>
          rw [minNat_eq_min?] at hleast
          obtain ⟨r, hr, hro⟩ := List.mem_map.mp (List.min?_mem hleast)
          exact ⟨hmiss, r, hr, hro.trans (beq_iff_eq.mp h3)⟩
        · cases h

/-- The first faulting address of a load is that of the faulting lane with the lowest `$tid`, and there is one. -/
theorem load_fault {space n : Nat} {ea : Nat → Nat} (h : verdict (laneAccesses s needLoad space n act ea) = .fault pages lc) :
    ∃ m, (laneAccesses s needLoad space n act ea).find?
        (fun r => r.1 == s.cur.lowestTid (faultLanes (laneAccesses s needLoad space n act ea))) =
      some (s.cur.lowestTid (faultLanes (laneAccesses s needLoad space n act ea)),
        .fault (ea (s.cur.lowestTid (faultLanes (laneAccesses s needLoad space n act ea)))) m) := by
  obtain ⟨hmiss, r, hr, hr3⟩ := exists_third_of_verdict_fault h
  rw [laneAccesses_load] at *
  have hfaults : ∀ l ∈ act, (s.loadOutcome space n l (ea l)).order = 3 → ∃ m, s.loadOutcome space n l (ea l) = .fault (ea l) m := by
    intro l hl h3
    refine (loadOutcome_thirdAt space n l (ea l) h3).resolve_left fun hm => ?_
    have hmem : ea l ∈ missesOf (act.map (fun l => (l, s.loadOutcome space n l (ea l)))) :=
      List.mem_filterMap.mpr ⟨(l, s.loadOutcome space n l (ea l)), List.mem_map_of_mem hl, by simp [hm]⟩
    rw [hmiss] at hmem
    cases hmem
  obtain ⟨k, hk, rfl⟩ := List.mem_map.mp hr
  obtain ⟨m, hm⟩ := hfaults k hk hr3
  have hne : faultLanes (act.map (fun l => (l, s.loadOutcome space n l (ea l)))) ≠ [] :=
    List.ne_nil_of_mem (List.mem_map_of_mem (List.mem_filter.mpr ⟨List.mem_map_of_mem hk, by simp [hm]⟩))
  have hlow := s.cur.lowestTid_mem _ hne
  generalize s.cur.lowestTid (faultLanes (act.map (fun l => (l, s.loadOutcome space n l (ea l))))) = low at hlow ⊢
  obtain ⟨q, hq, rfl⟩ := List.mem_map.mp hlow
  obtain ⟨hq, hqf⟩ := List.mem_filter.mp hq
  obtain ⟨l, hl, rfl⟩ := List.mem_map.mp hq
  have h3 : (s.loadOutcome space n l (ea l)).order = 3 := by
    revert hqf
    dsimp only
    cases s.loadOutcome space n l (ea l) <;> simp [LaneAcc.order]
  obtain ⟨m, hm⟩ := hfaults l hl h3
  refine ⟨m, ?_⟩
  rw [List.find?_map]
  have hfind : act.find? ((fun r : Nat × LaneAcc => r.1 == l) ∘ fun l => (l, s.loadOutcome space n l (ea l))) = some l := by
    have hsome : (act.find? (fun x => x == l)).isSome := List.find?_isSome.mpr ⟨l, hl, beq_self_eq_true l⟩
    obtain ⟨x, hx⟩ := Option.isSome_iff_exists.mp hsome
    have hxl : x = l := by simpa using List.find?_some hx
    rw [hxl] at hx
    exact hx
  rw [hfind, Option.map_some, hm]

/-- A load whose accesses meet page faults first has no other result (R209). -/
theorem bodyLd_fault (h : verdict (laneAccesses s needLoad f.space.toNat (accBytes f) act (s.cur.effAddr f)) = .fault pages lc) :
    let ls := faultLanes (laneAccesses s needLoad f.space.toNat (accBytes f) act (s.cur.effAddr f))
    bodyLd f iss act s = .fault pages (s.cur.effAddr f (s.cur.lowestTid ls)) ls lc := by
  obtain ⟨m, hm⟩ := load_fault h
  unfold bodyLd failed
  dsimp only
  rw [h]
  generalize laneAccesses s needLoad f.space.toNat (accBytes f) act (s.cur.effAddr f) = rs at hm ⊢
  show retiring s rs (.fault pages (match rs.find? (fun r => r.1 == s.cur.lowestTid (faultLanes rs)) with
    | some (_, .fault va _) => va
    | _ => 0) (faultLanes rs) lc) = _
  rw [hm]
  rfl

end

/-! ### What a load that faults leaves unknown (R210) -/

section
variable {i : Instr} {f : FmtM} {s t : State} {w : Wave} {act bad iss before : List Nat} {l k : Nat}

/-- Lanes changed one after another: nothing of the wave but its lanes changes. -/
theorem Wave.foldl_modLane_eq (F : Nat → Lane → Lane) (act : List Nat) (w : Wave) :
    ∃ ls, act.foldl (fun (w : Wave) l => w.modLane l (F l)) w = { w with lanes := ls } ∧ ls.length = w.lanes.length := by
  induction act generalizing w with
  | nil => exact ⟨w.lanes, rfl, rfl⟩
  | cons l r ih =>
    obtain ⟨ls, he, hlen⟩ := ih (w.modLane l (F l))
    exact ⟨ls, he, hlen.trans (List.length_set ..)⟩

theorem Wave.lane_foldl_modLane_other (F : Nat → Lane → Lane) (act : List Nat) (w : Wave) (h : l ∉ act) :
    (act.foldl (fun (w : Wave) l => w.modLane l (F l)) w).lane l = w.lane l := by
  induction act generalizing w with
  | nil => rfl
  | cons a r ih =>
    rw [List.foldl_cons, ih _ fun hl => h (List.mem_cons_of_mem a hl), Wave.lane_modLane]
    exact if_neg fun (e : l = a ∧ _) => h (e.1 ▸ List.mem_cons_self)

theorem Wave.lane_foldl_modLane_mem (F : Nat → Lane → Lane) {act : List Nat} (hn : act.Nodup) (w : Wave) (h : l ∈ act)
    (hlt : l < w.lanes.length) : (act.foldl (fun (w : Wave) l => w.modLane l (F l)) w).lane l = F l (w.lane l) := by
  induction act generalizing w with
  | nil => cases h
  | cons a r ih =>
    obtain ⟨ha, hr⟩ := List.nodup_cons.mp hn
    rw [List.foldl_cons]
    rcases List.mem_cons.mp h with rfl | h
    · rw [Wave.lane_foldl_modLane_other F r _ ha, Wave.lane_modLane]
      exact if_pos ⟨rfl, hlt⟩
    · rw [ih hr _ h (by rw [show (w.modLane a (F a)).lanes.length = w.lanes.length from List.length_set ..]; exact hlt),
        Wave.lane_modLane]
      exact congrArg (F l) (if_neg fun (e : l = a ∧ _) => ha (e.1 ▸ h))

/-- The vector registers that an instruction writes, its proposal bank apart. -/
def State.vectorDsts (s : State) (i : Instr) : List Nat :=
  ((Instr.operands s i).filter (fun o => o.dst)).flatMap (fun o =>
    if o.kind == 0 && !Instr.usesBank i then (List.range o.cnt).map (fun k => o.num + k) else [])

/-- What `markKnown` makes of a lane. -/
def State.markLane (s : State) (i : Instr) (bad : List Nat) (l : Nat) (x : Lane) : Lane :=
  { x with
    unk := if bad.contains l then (s.vectorDsts i).foldl insNat x.unk else x.unk.filter (fun r => !(s.vectorDsts i).contains r),
    unkP := match Instr.predDst i with
      | some k => if bad.contains l then x.unkP ||| (1#16 <<< k) else x.unkP &&& ~~~(1#16 <<< k)
      | none => x.unkP }

/-- What is unknown changes in the lanes and the scalars alone. -/
theorem State.markKnown_eq (s : State) (i : Instr) (act bad : List Nat) : ∃ u, s.markKnown i act bad =
    s.withCur { act.foldl (fun (w : Wave) l => w.modLane l (s.markLane i bad l)) s.cur with unkS := u } := ⟨_, rfl⟩

/-- Of the machine it changes nothing else. -/
theorem State.markKnown_keeps (s : State) (i : Instr) (act bad : List Nat) : ∃ ls u,
    s.markKnown i act bad = s.withCur { s.cur with lanes := ls, unkS := u } ∧ ls.length = s.cur.lanes.length := by
  obtain ⟨u, hu⟩ := s.markKnown_eq i act bad
  obtain ⟨ls, he, hlen⟩ := Wave.foldl_modLane_eq (s.markLane i bad) act s.cur
  exact ⟨ls, u, by rw [hu, he], hlen⟩

/-- The destinations of a load are marked unknown. -/
theorem State.unk_markKnown_ld (hn : act.Nodup) (hl : l ∈ act) (hlt : l < s.cur.lanes.length) (hk : k < dataRegs f) :
    f.rd.toNat + k ∈ ((s.markKnown (.ld f) act act).cur.lane l).unk := by
  obtain ⟨u, hu⟩ := s.markKnown_eq (.ld f) act act
  have hlane : (s.markKnown (.ld f) act act).cur.lane l = s.markLane (.ld f) act l (s.cur.lane l) := by
    rw [hu]
    exact Wave.lane_foldl_modLane_mem (s.markLane (.ld f) act) hn s.cur hl hlt
  have hdst : f.rd.toNat + k ∈ s.vectorDsts (.ld f) := by
    refine List.mem_flatMap.mpr ⟨vd f.rd.toNat (dataRegs f), List.mem_filter.mpr ⟨List.mem_cons_self, rfl⟩, ?_⟩
    exact List.mem_map_of_mem (List.mem_range.mpr hk)
  rw [hlane]
  show _ ∈ (if act.contains l then _ else _)
  rw [if_pos (List.contains_iff_mem.mpr hl)]
  refine (mem_foldl_insNat id _ _ _).mpr (.inr ?_)
  rw [List.map_id]
  exact hdst

/-! ### The end of a run-ahead, with or without a checkpoint -/

theorem Wave.rollback_batch (w : Wave) : w.rollback.batch = w.batch := by
  unfold Wave.rollback
  split <;> rfl

theorem endAhead_batch (s : State) : s.endAhead.cur.batch = s.cur.batch.map Batch.ended :=
  congrArg (Option.map Batch.ended) s.cur.rollback_batch

/-- What the wave is after its checkpoint is back. -/
theorem Wave.rollback_of_ck {a : Arch} (h : w.ck = some a) : w.rollback.toArch = a ∧ w.rollback.spec = 0 ∧ w.rollback.ck = none ∧
    w.rollback.hold = [] ∧ w.rollback.heldPoison = 0 ∧ w.rollback.heldCmix = 0 ∧ w.rollback.pw = w.pw := by
  unfold Wave.rollback
  rw [h]
  exact ⟨rfl, rfl, rfl, rfl, rfl, rfl, rfl⟩

/-! ### The batch of a load that faults (R209, R210) -/

/-- The batch that a fault opens. -/
def Batch.opened (pages : List (Nat × Bool)) (first : Nat) (ls : List Nat) (lc : List (Nat × Nat)) (v : Nat) : Batch :=
  { pages := pages, base := pages.length, first := first, lanes := ls, laneCause := lc, offset := v, issued := 0, running := true }

/-- A wave starts to run ahead. -/
def Wave.ahead (w : Wave) (b : Batch) : Wave := { w with ck := some w.toArch, spec := 1, why := .none, batch := some b }

/-- Where no load is pending and no copy writes registers, the batch opens and the run-ahead begins after the instruction. -/
theorem startBatch_runs {v first : Nat} {pages : List (Nat × Bool)} {ls : List Nat} {lc : List (Nat × Nat)} (hpend : s.cur.pend = [])
    (hcopies : ∀ c ∈ s.cur.copies, ∀ x, c = some x → x.regDst = []) :
    ∃ u : State, s.startBatch i v iss act pages first ls lc = u.checkAhead ∧
      u.sansIssue = (((s.clearFailed s.cur.core (s.gridOf s.cur).ctx.asid (pages.map Prod.fst)).withCur
        (s.cur.ahead (.opened pages first ls lc v))).markKnown i act act).sansIssue := by
  have hall : (s.clearFailed s.cur.core (s.gridOf s.cur).ctx.asid (pages.map Prod.fst)).returnAll
      (s.clearFailed s.cur.core (s.gridOf s.cur).ctx.asid (pages.map Prod.fst)).cur = s.cur := by
    unfold State.returnAll
    rw [show (s.clearFailed s.cur.core (s.gridOf s.cur).ctx.asid (pages.map Prod.fst)).cur = s.cur from rfl, hpend]
    rfl
  have hcopying : s.cur.copies.any (fun c => match c with | some x => !x.regDst.isEmpty | none => false) = false := by
    refine List.any_eq_false.mpr fun c hc => ?_
    cases c with
    | none => exact Bool.false_ne_true
    | some x => simp [hcopies _ hc x rfl]
  unfold State.startBatch
  dsimp only
  rw [hall]
  refine ⟨_, if_neg ?_, ?_⟩
  · rw [hpend]
    exact (Bool.eq_false_iff.mp hcopying)
  · exact congrArg (State.withCur _) (Wave.sansIssue_advance _ _ _)

/-- What states that are the same but for an issue have in common, of a run-ahead. -/
theorem ahead_of_sansIssue {t u : State} (h : t.sansIssue = u.sansIssue) : t.cur.batch = u.cur.batch ∧ t.cur.ck = u.cur.ck ∧
    t.cur.spec = u.cur.spec ∧ t.cur.pw = u.cur.pw ∧ ∀ l, (t.cur.lane l).unk = (u.cur.lane l).unk := by
  have hbatch := congrArg (fun x : State => x.cur.batch) h
  have hck := congrArg (fun x : State => x.cur.ck) h
  have hspec := congrArg (fun x : State => x.cur.spec) h
  have hpw := congrArg (fun x : State => x.cur.pw) h
  have hlane := fun l => congrArg Lane.unk (sansPos_lane_of_sansIssue h l)
  exact ⟨hbatch, hck, hspec, hpw, hlane⟩

/-- What follows the fault of a load that is not in a run-ahead: the exchange of the wave for its run-ahead, less its lanes. -/
theorem startBatch_ld {v first : Nat} {pages : List (Nat × Bool)} {ls : List Nat} {lc : List (Nat × Nat)} (hpend : s.cur.pend = [])
    (hcopies : ∀ c ∈ s.cur.copies, ∀ x, c = some x → x.regDst = []) (hn : act.Nodup)
    (hact : ∀ l ∈ act, l < s.cur.lanes.length) :
    ∃ u : State, s.startBatch (.ld f) v iss act pages first ls lc = u.checkAhead ∧ u.cur.batch = some (.opened pages first ls lc v) ∧
      u.cur.ck = some s.cur.toArch ∧ u.cur.spec = 1 ∧ u.cur.pw = s.cur.pw ∧ u.mem = s.mem ∧
      ∀ l ∈ act, ∀ k < dataRegs f, f.rd.toNat + k ∈ (u.cur.lane l).unk := by
  obtain ⟨u, hu, hsame⟩ := startBatch_runs (i := .ld f) (iss := iss) (act := act) (v := v) (first := first) (pages := pages) (ls := ls)
    (lc := lc) hpend hcopies
  obtain ⟨lanes, unkS, hmark, -⟩ := State.markKnown_keeps ((s.clearFailed s.cur.core (s.gridOf s.cur).ctx.asid
    (pages.map Prod.fst)).withCur (s.cur.ahead (.opened pages first ls lc v))) (.ld f) act act
  have hkeep := hsame.trans (congrArg State.sansIssue hmark)
  have hmem := mem_of_sansIssue hkeep
  obtain ⟨hbatch, hck, hspec, hpw, -⟩ := ahead_of_sansIssue hkeep
  obtain ⟨-, -, -, -, hunk⟩ := ahead_of_sansIssue hsame
  refine ⟨u, hu, hbatch, hck, hspec, hpw, hmem, fun l hl k hk => ?_⟩
  rw [hunk]
  exact State.unk_markKnown_ld hn hl (hact l hl) hk

/-- The pages of a further fault join the batch. -/
def Batch.more (b : Batch) (pages : List (Nat × Bool)) : Batch := { b with pages := pages.foldl addPage b.pages }

/-- The batch after a further fault: its pages have joined and the instruction counts. -/
def Batch.joined (b : Batch) (pages : List (Nat × Bool)) : Batch := { b.more pages with issued := b.issued + 1 }

/-- The state in which a further fault of a run-ahead marks what it leaves unknown. -/
def State.faultsMore (s : State) (pages : List (Nat × Bool)) : State :=
  (s.clearFailed s.cur.core (s.gridOf s.cur).ctx.asid (pages.map Prod.fst)).withCur
    { s.cur with batch := s.cur.batch.map (Batch.more · pages) }

/-- The fault of a load in a run-ahead. -/
theorem aheadFault_ld {b : Batch} {pages : List (Nat × Bool)} {ls : List Nat} (hb : s.cur.batch = some b) (hiss : iss.Nodup)
    (hn : act.Nodup) (hact : ∀ l ∈ act, l < s.cur.lanes.length) :
    ∃ u : State, s.aheadFault (.ld f) s.at_ before iss act pages ls = u.checkAhead ∧ u.cur.batch = some (b.joined pages) ∧
      u.cur.ck = s.cur.ck ∧ u.mem = s.mem ∧ ∀ l ∈ act, ∀ k < dataRegs f, f.rd.toNat + k ∈ (u.cur.lane l).unk := by
  obtain ⟨lanes, unkS, hmark, -⟩ := (s.faultsMore pages).markKnown_keeps (.ld f) act act
  have hsame := (State.retires_retire s ((s.faultsMore pages).markKnown (.ld f) act act) (.ld f) before iss false [] hiss).1.same
  have hkeep := hsame.trans (congrArg State.sansIssue hmark)
  have hmem := mem_of_sansIssue hkeep
  obtain ⟨hbatch, hck, -⟩ := ahead_of_sansIssue hkeep
  obtain ⟨-, -, -, -, hunk⟩ := ahead_of_sansIssue hsame
  let r := ((s.faultsMore pages).markKnown (.ld f) act act).retire (.ld f) s.at_ before iss false false []
  have hjoined : r.cur.batch.map (fun b => { b with issued := b.issued + 1 }) = some (b.joined pages) := by
    rw [hbatch, show ((s.faultsMore pages).withCur { (s.faultsMore pages).cur with lanes := lanes, unkS := unkS }).cur.batch =
      s.cur.batch.map (Batch.more · pages) from rfl, hb]
    rfl
  refine ⟨{ r with cur := { r.cur with batch := r.cur.batch.map (fun b => { b with issued := b.issued + 1 }) } }, rfl, hjoined, hck,
    hmem, fun l hl k hk => ?_⟩
  show _ ∈ (r.cur.lane l).unk
  rw [hunk]
  exact State.unk_markKnown_ld hn hl (hact l hl) hk

end

/-! ### Loads that fault (R209, R210) -/

section
variable {i : Instr} {f : FmtM} {s u : State} {act iss ls : List Nat} {pages : List (Nat × Bool)} {lc : List (Nat × Nat)} {first : Nat}
  {body : List Nat → List Nat → State → Res}

/-- What faults performs nothing now, and comes to no write of the net. -/
theorem runBody_fault (h : body iss act s = .fault pages first ls lc) : runBody i s iss act body = .fault pages first ls lc := by
  unfold runBody
  rw [h]
  exact if_pos rfl

theorem filter_contains_active (i : Instr) (s : State) :
    s.cur.issuingSet.filter (fun l => (active i s).contains l) = active i s := by
  refine List.filter_congr fun l hl => ?_
  rw [Bool.eq_iff_iff, List.contains_iff_mem]
  exact ⟨fun h => (List.mem_filter.mp h).2, fun h => List.mem_filter.mpr ⟨hl, h⟩⟩

/-- AN INSTRUCTION OF A RUN-AHEAD, with its guard and its address known in the lanes that issue it. -/
theorem issue_ahead (hspec : s.cur.spec = 1) (hgate : gate i s = .go s.cur.issuingSet (active i s)) (hact : active i s ≠ [])
    (hrow : rowOne i = true) (hknown : ∀ l ∈ s.cur.issuingSet, guardUnknown s.cur i l = false)
    (hstops : stopsBefore s i s.cur.issuingSet (active i s) = []) :
    issue i s body = .next (settle i s s.cur.issuingSet (active i s) (runBody i s s.cur.issuingSet (active i s) body)) := by
  have hperf : performs 1 i = true := hrow
  have hsame : s.cur.issuingSet.filter (fun l => (active i s).contains l || guardUnknown s.cur i l) = active i s := by
    rw [← filter_contains_active i s]
    refine List.filter_congr fun l hl => ?_
    rw [hknown l hl, Bool.or_false, filter_contains_active]
  unfold issue issueState
  rw [hgate]
  dsimp only
  rw [hspec, hperf]
  simp only [beq_self_eq_true, if_true, hsame]
  simp [hact, hstops]

theorem readsBadTile_ld : readsBadTile s (.ld f) act = false := rfl

theorem issuingSet_ne_nil (h : active i s ≠ []) : s.cur.issuingSet ≠ [] := by
  intro he
  exact h (by rw [active, he]; rfl)

/-- A ready load that faults opens its batch. -/
theorem exec_ld_fault (h : Ready (.ld f) s)
    (hv : verdict (laneAccesses s needLoad f.space.toNat (accBytes f) (active (.ld f) s) (s.cur.effAddr f)) = .fault pages lc) :
    let ls := faultLanes (laneAccesses s needLoad f.space.toNat (accBytes f) (active (.ld f) s) (s.cur.effAddr f))
    exec (.ld f) s = .next (s.startBatch (.ld f) s.at_ s.cur.issuingSet (active (.ld f) s) pages
      (s.cur.effAddr f (s.cur.lowestTid ls)) ls lc) := by
  obtain ⟨-, -, -, -, -, -, hspec, -⟩ := id h
  refine (issue_ready (.ld f) s (bodyLd f) h).trans ?_
  rw [show s.taskWide (.ld f) = s from rfl, bodyLd_fault hv, settle, hspec]
  rfl

/-- A load of a run-ahead that faults adds to the batch. -/
theorem exec_ld_faults_ahead (hlegal : legalHere s (.ld f) = true) (hall : Allotted (.ld f) s) (hfull : AllFull (.ld f) s)
    (hreg : s.cur.regErr = []) (hspec : s.cur.spec = 1) (hact : active (.ld f) s ≠ [])
    (hknown : ∀ l ∈ s.cur.issuingSet, guardUnknown s.cur (.ld f) l = false)
    (hstops : stopsBefore s (.ld f) s.cur.issuingSet (active (.ld f) s) = [])
    (hv : verdict (laneAccesses s needLoad f.space.toNat (accBytes f) (active (.ld f) s) (s.cur.effAddr f)) = .fault pages lc) :
    exec (.ld f) s = .next (s.aheadFault (.ld f) s.at_ s.cur.readyPcs s.cur.issuingSet (active (.ld f) s) pages
      (faultLanes (laneAccesses s needLoad f.space.toNat (accBytes f) (active (.ld f) s) (s.cur.effAddr f)))) := by
  have hwin : InWindow (.ld f) s := fun (h : false = true) => Bool.noConfusion h
  have hgate := gate_passes (issuingSet_ne_nil hact) hlegal hall hfull hwin hreg readsBadTile_ld
  refine (issue_ahead (body := bodyLd f) hspec hgate hact rfl hknown hstops).trans ?_
  rw [runBody_fault (bodyLd_fault hv), settle, hspec]
  rfl

/-- THE CHECKPOINT IS BACK AND NOTHING HELD IS LEFT (R210). -/
theorem endAhead_restores {a : Arch} {b : Batch} (hb : s.cur.batch = some b) (hck : s.cur.ck = some a) :
    s.endAhead.cur.toArch = a ∧ s.endAhead.cur.spec = 0 ∧ s.endAhead.cur.ck = none ∧ s.endAhead.cur.hold = [] ∧
      s.endAhead.cur.heldPoison = 0 ∧ s.endAhead.cur.heldCmix = 0 ∧ s.endAhead.cur.pw = s.cur.pw ∧ s.endAhead.mem = s.mem ∧
      s.endAhead.rest = s.rest ∧ s.endAhead.cur.why = .pageFault ∧ s.endAhead.cur.batch = some b.ended ∧
      s.endAhead.outbox = if tbit s.regs.fmode 1 then s.outbox ++ [.hostFault s.cur.key] else s.outbox := by
  obtain ⟨harch, hspec, hnone, hhold, hpoison, hcmix, hpw⟩ := Wave.rollback_of_ck hck
  have hbatch : s.endAhead.cur.batch = some b.ended := by rw [endAhead_batch, hb]; rfl
  have hout := congrArg State.outbox (endAhead_eq hck)
  exact ⟨harch, hspec, hnone, hhold, hpoison, hcmix, hpw, rfl, rfl, rfl, hbatch, hout⟩

/-- The first fault of a wave, whether its run-ahead goes on or ends at once. -/
theorem loadFault_opens (h : Ready (.ld f) s) (hpend : s.cur.pend = [])
    (hcopies : ∀ c ∈ s.cur.copies, ∀ x, c = some x → x.regDst = [])
    (hv : verdict (laneAccesses s needLoad f.space.toNat (accBytes f) (active (.ld f) s) (s.cur.effAddr f)) = .fault pages lc) :
    let ls := faultLanes (laneAccesses s needLoad f.space.toNat (accBytes f) (active (.ld f) s) (s.cur.effAddr f))
    ∃ t b, exec (.ld f) s = .next t ∧ t.cur.batch = some b ∧ b.pages = pages ∧ b.base = pages.length ∧ b.lanes = ls ∧
      b.first = s.cur.effAddr f (s.cur.lowestTid ls) ∧ b.laneCause = lc ∧ b.offset = s.at_ ∧ t.mem = s.mem ∧ t.cur.pw = s.cur.pw ∧
      (b.running = true → t.cur.spec = 1 ∧ t.cur.ck = some s.cur.toArch ∧
        ∀ l ∈ active (.ld f) s, ∀ k < dataRegs f, f.rd.toNat + k ∈ (t.cur.lane l).unk) ∧
      (b.running = false → t.cur.spec = 0 ∧ t.cur.toArch = s.cur.toArch ∧ t.cur.why = .pageFault) := by
  intro ls
  obtain ⟨u, hstart, hbatch, hck, hspec, hpw, hmem, hunk⟩ := startBatch_ld (f := f) (iss := s.cur.issuingSet) (v := s.at_)
    (first := s.cur.effAddr f (s.cur.lowestTid ls)) (pages := pages) (ls := ls) (lc := lc) hpend hcopies (nodup_active (.ld f) s)
    fun l hl => (mem_active hl).1
  have hexec := (exec_ld_fault h hv).trans (congrArg Host.Outcome.next hstart)
  by_cases hend : (Batch.opened pages (s.cur.effAddr f (s.cur.lowestTid ls)) ls lc s.at_).mustEnd u
  · obtain ⟨harch, hspec', -, -, -, -, hpw', hmem', -, hwhy, hbatch', -⟩ := endAhead_restores hbatch hck
    rw [checkAhead_ends hbatch hend] at hexec
    have hpages : pages.take (pages.length + 32) = pages := List.take_of_length_le (by omega)
    exact ⟨_, _, hexec, hbatch', hpages, rfl, rfl, rfl, rfl, rfl, hmem'.trans hmem, hpw'.trans hpw, fun e => Bool.noConfusion e,
      fun _ => ⟨hspec', harch, hwhy⟩⟩
  · rw [checkAhead_goes_on hbatch hend] at hexec
    exact ⟨u, _, hexec, hbatch, rfl, rfl, rfl, rfl, rfl, rfl, hmem, hpw, fun _ => ⟨hspec, hck, hunk⟩, fun e => Bool.noConfusion e⟩

/-- A further fault, whether the run-ahead goes on or ends with it. -/
theorem loadFault_joins {b : Batch} (hlegal : legalHere s (.ld f) = true) (hall : Allotted (.ld f) s) (hfull : AllFull (.ld f) s)
    (hreg : s.cur.regErr = []) (hspec : s.cur.spec = 1) (hb : s.cur.batch = some b) (hact : active (.ld f) s ≠ [])
    (hknown : ∀ l ∈ s.cur.issuingSet, guardUnknown s.cur (.ld f) l = false)
    (hstops : stopsBefore s (.ld f) s.cur.issuingSet (active (.ld f) s) = [])
    (hv : verdict (laneAccesses s needLoad f.space.toNat (accBytes f) (active (.ld f) s) (s.cur.effAddr f)) = .fault pages lc) :
    ∃ t d, exec (.ld f) s = .next t ∧ t.cur.batch = some d ∧ d.base = b.base ∧ t.mem = s.mem ∧
      (d.running = true → d.pages = pages.foldl addPage b.pages ∧ d.issued = b.issued + 1 ∧ t.cur.ck = s.cur.ck ∧
        ∀ l ∈ active (.ld f) s, ∀ k < dataRegs f, f.rd.toNat + k ∈ (t.cur.lane l).unk) ∧
      (d.running = false → d.pages = (pages.foldl addPage b.pages).take (b.base + 32)) := by
  have hexec := exec_ld_faults_ahead hlegal hall hfull hreg hspec hact hknown hstops hv
  obtain ⟨u, hu, hbatch, hck, hmem, hunk⟩ := aheadFault_ld (f := f) (before := s.cur.readyPcs) (pages := pages)
    (ls := faultLanes (laneAccesses s needLoad f.space.toNat (accBytes f) (active (.ld f) s) (s.cur.effAddr f))) hb (nodup_issuingSet s.cur)
    (nodup_active (.ld f) s) fun l hl => (mem_active hl).1
  rw [hu] at hexec
  by_cases hend : (b.joined pages).mustEnd u
  · rw [checkAhead_ends hbatch hend] at hexec
    have hended : u.endAhead.cur.batch = some (b.joined pages).ended := by rw [endAhead_batch, hbatch]; rfl
    exact ⟨_, _, hexec, hended, rfl, hmem, fun e => Bool.noConfusion e, fun _ => rfl⟩
  · rw [checkAhead_goes_on hbatch hend] at hexec
    have hfew : (pages.foldl addPage b.pages).length ≤ b.base + 32 := Nat.le_of_not_le fun h => hend (.inl h)
    exact ⟨u, _, hexec, hbatch, rfl, hmem, fun _ => ⟨rfl, rfl, hck, hunk⟩, fun _ => (List.take_of_length_le hfew).symm⟩

end

/-! ### The host's writes (R223) -/

section
variable {s : State} {addr : Nat} {bs : List Byte}

/-- The bytes that the host writes are read afterwards, and every other byte stays. -/
theorem read_agentWrite : (∀ k < bs.length, Memory.read (s.agentWrite addr bs).mem (addr + k) = bs.getD k 0) ∧
    ∀ x, (x < addr ∨ addr + bs.length ≤ x) → Memory.read (s.agentWrite addr bs).mem x = Memory.read s.mem x := by
  have hlocs : ((List.range bs.length).map fun k => (addr + k, bs.getD k 0)).map Prod.fst = List.range' addr bs.length := by
    rw [List.map_map, List.range'_eq_map_range]
    rfl
  refine ⟨fun k hk => ?_, fun x hx => ?_⟩
  · exact State.read_makeVisible_mem s _ (by rw [hlocs]; exact List.nodup_range') (addr + k, bs.getD k 0)
      (List.mem_map.mpr ⟨k, List.mem_range.mpr hk, rfl⟩)
  · refine State.read_makeVisible_other s _ x fun hm => ?_
    rw [hlocs, List.mem_range'_1] at hm
    omega

end

/-- Settles O42, from what each event, each fault and each end of a run-ahead does. -/
theorem faultAndHostResults : Obligations.FaultAndHostResults := by
  refine ⟨fun f s pages lc => ⟨loadFault_opens, fun b => loadFault_joins⟩, fun i s hi hspec hiss => ⟨?_, ?_⟩,
    fun s b hb => ⟨checkAhead_ends hb, ?_, ?_⟩, fun s b hw hb hrun => ⟨?_, ?_⟩, fun s w q va m c hw hc hp => ⟨?_, ?_⟩,
    fun s k r => execPageFaultResolved_fabric, fun s t hw ht hwhy => ⟨?_, ?_⟩, fun s a ha => ?_, fun s core k e => bad_tileError,
    fun s addr len bs hlink hrec hmap => ⟨?_, ?_, ?_⟩⟩
  · exact exec_ahead_illegal hi hspec hiss
  · intro hlegal hall hfull hwin hreg htile hrow
    exact exec_ahead_ends hi hspec (gate_passes hiss hlegal hall hfull hwin hreg htile) hrow
  · intro hpages hissued hready
    refine checkAhead_goes_on hb ?_
    rintro (h | h | h)
    · omega
    · omega
    · exact hready h
  · exact fun a hck _ => endAhead_restores hb hck
  · exact execPageFaultBatchResolved_eq true hw hb hrun
  · exact execPageFaultBatchResolved_eq false hw hb hrun
  · exact execPageFaultResolved_copy true hw hc hp
  · exact execPageFaultResolved_copy false hw hc hp
  · exact execPageFaultResolved_record true hw ht hwhy
  · exact ⟨_, execPageFaultResolved_record false hw ht hwhy, escalated_declined t⟩
  · exact ⟨s.poisonAt a, congrArg Host.Outcome.next (if_pos ha), isPoisoned_poisonAt a, mem_poisonAt a⟩
  · exact fun hphys => ⟨_, hostMemoryAccess_write (len := len) hlink hrec hmap hphys, read_agentWrite⟩
  · intro hphys
    exact (hostMemoryAccess_read hlink hrec hmap).trans (if_pos (List.all_eq_true.mpr fun k hk => hphys k (List.mem_range.mp hk)))
  · rintro ⟨k, hk, hres⟩
    refine (hostMemoryAccess_read hlink hrec hmap).trans (if_neg fun h => ?_)
    rw [List.all_eq_true.mp h k (List.mem_range.mpr hk)] at hres
    cases hres

end Sys2Proof.Machine
